-- ==== Sys2Proof/Word.lean ====
section
/-! DEFINITION. The word types of the EF7240 (spec/00_scope.md R4, spec/16_isa_framework.md R308). -/

namespace Sys2Proof

/-- One byte of memory. -/
abbrev Byte := BitVec 8

/-- One instruction word (R317). -/
abbrev Word32 := BitVec 32

/-- The width of integer arithmetic (R310). -/
abbrev Word64 := BitVec 64

/-- The data bits of a general register (R308). -/
abbrev Word128 := BitVec 128

/-- A register field of an instruction word (R317, R318). -/
abbrev RegNo := BitVec 5

/-- A lookahead field (R318, R320). -/
abbrev Look := BitVec 4

end Sys2Proof
end

