-- ==== Sys2Proof/Syntax.lean ====
section
/-! DEFINITION. The instruction set: one constructor for each row of spec/opcode_table.json. The encoded
instructions carry the fields of their words (spec/16_isa_framework.md R317, R318) and stand first; the steps of the
device that no word names follow (spec/95_what_each_step_holds.md): what such a step brings, a packet, a
request, a reading, stands in the state when it happens (Machine/Event.lean). -/

namespace Sys2Proof

/-- One constructor per row of the opcode table. `la` is a lookahead field, `gd`, `gs1`, `gs2`, `gs3` (or
`rd`, `rs1`, `rs2` in the base formats) are register fields, `imm`, `off`, `sh`, `sel`, `n` are immediates;
`off` of a jump or branch holds the displacement divided by 2. -/
inductive Instr where
  /-- R346. Load upper immediate. -/
  | lui (rd : RegNo) (imm : BitVec 20)
  /-- R346. Add upper immediate to the local pc. -/
  | auipc (rd : RegNo) (imm : BitVec 20)
  /-- R350. Jump and link. -/
  | jal (rd : RegNo) (off : BitVec 20)
  /-- R351. Jump through a register, code capability or sealed handle and link. -/
  | jalr (rd rs1 : RegNo) (imm : BitVec 12)
  /-- R352. Branch if equal. -/
  | beq (rs1 rs2 : RegNo) (off : BitVec 12)
  /-- R352. Branch if not equal. -/
  | bne (rs1 rs2 : RegNo) (off : BitVec 12)
  /-- R352. Branch if signed less. -/
  | blt (rs1 rs2 : RegNo) (off : BitVec 12)
  /-- R352. Branch if signed greater or equal. -/
  | bge (rs1 rs2 : RegNo) (off : BitVec 12)
  /-- R352. Branch if unsigned less. -/
  | bltu (rs1 rs2 : RegNo) (off : BitVec 12)
  /-- R352. Branch if unsigned greater or equal. -/
  | bgeu (rs1 rs2 : RegNo) (off : BitVec 12)
  /-- R364. Base load of a signed byte. -/
  | ldI8 (rd rs1 : RegNo) (imm : BitVec 12)
  /-- R364. Base load of a signed halfword. -/
  | ldI16 (rd rs1 : RegNo) (imm : BitVec 12)
  /-- R364. Base load of a signed word. -/
  | ldI32 (rd rs1 : RegNo) (imm : BitVec 12)
  /-- R364. Base load of a doubleword. -/
  | ldI64 (rd rs1 : RegNo) (imm : BitVec 12)
  /-- R364. Base load of an unsigned byte. -/
  | ldN8 (rd rs1 : RegNo) (imm : BitVec 12)
  /-- R364. Base load of an unsigned halfword. -/
  | ldN16 (rd rs1 : RegNo) (imm : BitVec 12)
  /-- R364. Base load of an unsigned word. -/
  | ldN32 (rd rs1 : RegNo) (imm : BitVec 12)
  /-- R364. Base store of a byte. -/
  | stI8 (rs2 rs1 : RegNo) (imm : BitVec 12)
  /-- R364. Base store of a halfword. -/
  | stI16 (rs2 rs1 : RegNo) (imm : BitVec 12)
  /-- R364. Base store of a word. -/
  | stI32 (rs2 rs1 : RegNo) (imm : BitVec 12)
  /-- R364. Base store of a doubleword. -/
  | stI64 (rs2 rs1 : RegNo) (imm : BitVec 12)
  /-- R346. Add immediate. -/
  | addi (rd rs1 : RegNo) (imm : BitVec 12)
  /-- R346. Set if less than immediate, signed. -/
  | slti (rd rs1 : RegNo) (imm : BitVec 12)
  /-- R346. Set if less than immediate, unsigned. -/
  | sltiu (rd rs1 : RegNo) (imm : BitVec 12)
  /-- R346. Exclusive or immediate. -/
  | xori (rd rs1 : RegNo) (imm : BitVec 12)
  /-- R346. Or immediate. -/
  | ori (rd rs1 : RegNo) (imm : BitVec 12)
  /-- R346. And immediate. -/
  | andi (rd rs1 : RegNo) (imm : BitVec 12)
  /-- R346. Shift left logical by immediate. -/
  | slli (rd rs1 : RegNo) (sh : BitVec 6)
  /-- R346. Shift right logical by immediate. -/
  | srli (rd rs1 : RegNo) (sh : BitVec 6)
  /-- R346. Shift right arithmetic by immediate. -/
  | srai (rd rs1 : RegNo) (sh : BitVec 6)
  /-- R346. Add immediate, 32-bit, sign-extended. -/
  | addiw (rd rs1 : RegNo) (imm : BitVec 12)
  /-- R346. Shift left logical immediate, 32-bit. -/
  | slliw (rd rs1 : RegNo) (sh : BitVec 5)
  /-- R346. Shift right logical immediate, 32-bit. -/
  | srliw (rd rs1 : RegNo) (sh : BitVec 5)
  /-- R346. Shift right arithmetic immediate, 32-bit. -/
  | sraiw (rd rs1 : RegNo) (sh : BitVec 5)
  /-- R346. Add. -/
  | add (gd gs1 gs2 : RegNo)
  /-- R346. Subtract. -/
  | sub (gd gs1 gs2 : RegNo)
  /-- R346. Shift left logical. -/
  | sll (gd gs1 gs2 : RegNo)
  /-- R346. Set if less than, signed. -/
  | slt (gd gs1 gs2 : RegNo)
  /-- R346. Set if less than, unsigned. -/
  | sltu (gd gs1 gs2 : RegNo)
  /-- R346. Exclusive or. -/
  | xor (gd gs1 gs2 : RegNo)
  /-- R346. Shift right logical. -/
  | srl (gd gs1 gs2 : RegNo)
  /-- R346. Shift right arithmetic. -/
  | sra (gd gs1 gs2 : RegNo)
  /-- R346. Or. -/
  | or (gd gs1 gs2 : RegNo)
  /-- R346. And. -/
  | and (gd gs1 gs2 : RegNo)
  /-- R346. Add, 32-bit. -/
  | addw (gd gs1 gs2 : RegNo)
  /-- R346. Subtract, 32-bit. -/
  | subw (gd gs1 gs2 : RegNo)
  /-- R346. Shift left logical, 32-bit. -/
  | sllw (gd gs1 gs2 : RegNo)
  /-- R346. Shift right logical, 32-bit. -/
  | srlw (gd gs1 gs2 : RegNo)
  /-- R346. Shift right arithmetic, 32-bit. -/
  | sraw (gd gs1 gs2 : RegNo)
  /-- R348. Multiply, low 64 bits. -/
  | mul (gd gs1 gs2 : RegNo)
  /-- R348. Multiply high, signed by signed. -/
  | mulh (gd gs1 gs2 : RegNo)
  /-- R348. Multiply high, signed by unsigned. -/
  | mulhsu (gd gs1 gs2 : RegNo)
  /-- R348. Multiply high, unsigned. -/
  | mulhu (gd gs1 gs2 : RegNo)
  /-- R348. Signed divide. -/
  | div (gd gs1 gs2 : RegNo)
  /-- R348. Unsigned divide. -/
  | divu (gd gs1 gs2 : RegNo)
  /-- R348. Signed remainder. -/
  | rem (gd gs1 gs2 : RegNo)
  /-- R348. Unsigned remainder. -/
  | remu (gd gs1 gs2 : RegNo)
  /-- R348. Multiply, 32-bit. -/
  | mulw (gd gs1 gs2 : RegNo)
  /-- R348. Signed divide, 32-bit. -/
  | divw (gd gs1 gs2 : RegNo)
  /-- R348. Unsigned divide, 32-bit. -/
  | divuw (gd gs1 gs2 : RegNo)
  /-- R348. Signed remainder, 32-bit. -/
  | remw (gd gs1 gs2 : RegNo)
  /-- R348. Unsigned remainder, 32-bit. -/
  | remuw (gd gs1 gs2 : RegNo)
  /-- R325. Base fence: a full fence of device scope whatever its other fields hold. -/
  | fence (imm : BitVec 12) (rs1 rd : RegNo)
  /-- R453. Waits for earlier instructions, then parks the slot with cause ECALL and reports it, or at level S enters thnd. -/
  | ecall
  /-- R454. Traps with cause EBREAK into thnd, or parks if thnd is empty. -/
  | ebreak
  /-- R366. L-format load of a signed byte. -/
  | ldlI8 (la : Look) (gd gs1 : RegNo) (off : BitVec 5)
  /-- R366. L-format load of an unsigned byte. -/
  | ldlN8 (la : Look) (gd gs1 : RegNo) (off : BitVec 5)
  /-- R366. L-format load of a signed halfword. -/
  | ldlI16 (la : Look) (gd gs1 : RegNo) (off : BitVec 5)
  /-- R366. L-format load of an unsigned halfword. -/
  | ldlN16 (la : Look) (gd gs1 : RegNo) (off : BitVec 5)
  /-- R366. L-format load of a signed word. -/
  | ldlI32 (la : Look) (gd gs1 : RegNo) (off : BitVec 5)
  /-- R366. L-format load of an unsigned word. -/
  | ldlN32 (la : Look) (gd gs1 : RegNo) (off : BitVec 5)
  /-- R366. L-format load of a doubleword. -/
  | ldlI64 (la : Look) (gd gs1 : RegNo) (off : BitVec 5)
  /-- R369. Load of all 128 bits of a register. -/
  | ldq (la : Look) (gd gs1 : RegNo) (off : BitVec 5)
  /-- R367. L-format store of a byte. -/
  | stlI8 (la : Look) (gs1 gs2 : RegNo) (off : BitVec 5)
  /-- R367. L-format store of a halfword. -/
  | stlI16 (la : Look) (gs1 gs2 : RegNo) (off : BitVec 5)
  /-- R367. L-format store of a word. -/
  | stlI32 (la : Look) (gs1 gs2 : RegNo) (off : BitVec 5)
  /-- R367. L-format store of a doubleword. -/
  | stlI64 (la : Look) (gs1 gs2 : RegNo) (off : BitVec 5)
  /-- R369. Store of all 128 bits, clearing capability tags. -/
  | stq (la : Look) (gs1 gs2 : RegNo) (off : BitVec 5)
  /-- R370. Bounded store marking the granules it writes. -/
  | sbB (la : Look) (gs1 gs2 : RegNo) (off : BitVec 5)
  /-- R371. Capability load, keeping the tag only with LC. -/
  | cld (la : Look) (gd gs1 : RegNo) (off : BitVec 5)
  /-- R371. Capability store, needing SC for a tagged value. -/
  | cst (la : Look) (gs1 gs2 : RegNo) (off : BitVec 5)
  /-- R372. Acquire load of 8 bytes, pod scope. -/
  | ldacqI64 (la : Look) (gd gs1 : RegNo) (off : BitVec 5)
  /-- R372. Acquire load of 16 bytes, pod scope. -/
  | ldacqQ (la : Look) (gd gs1 : RegNo) (off : BitVec 5)
  /-- R372. Release store of 8 bytes, pod scope. -/
  | strelI64 (la : Look) (gs1 gs2 : RegNo) (off : BitVec 5)
  /-- R372. Release store of 16 bytes, pod scope. -/
  | strelQ (la : Look) (gs1 gs2 : RegNo) (off : BitVec 5)
  /-- R373. Release fence of the scope in gs1. -/
  | fenceRel (la : Look) (gs1 : RegNo)
  /-- R373. Acquire fence of the scope in gs1. -/
  | fenceAcq (la : Look) (gs1 : RegNo)
  /-- R373. Full fence of the scope in gs1. -/
  | fenceFull (la : Look) (gs1 : RegNo)
  /-- R374. Prefetch a line into its home slice or also the cache portion. -/
  | pref (la : Look) (gs1 : RegNo) (off hint : BitVec 5)
  /-- R375. Pin a line in its home slice for the grid. -/
  | pin (la : Look) (gd gs1 : RegNo) (off : BitVec 5)
  /-- R375. Remove the grid's slice pin on a line. -/
  | unpin (la : Look) (gd gs1 : RegNo) (off : BitVec 5)
  /-- R379. Atomic fetch-and-add on an atomic page. -/
  | afadd (ord wd : BitVec 2) (gd gs1 gs2 : RegNo)
  /-- R379. Atomic swap on an atomic page. -/
  | aswap (ord wd : BitVec 2) (gd gs1 gs2 : RegNo)
  /-- R379. Atomic 64-bit compare-and-swap. -/
  | acas64 (ord : BitVec 2) (gd gs1 gs2 : RegNo)
  /-- R379. Atomic 128-bit compare-and-swap with a success flag in gd + 1. -/
  | acas128 (ord : BitVec 2) (gd gs1 gs2 : RegNo)
  /-- R379. Atomic maximum. -/
  | amax (ord wd : BitVec 2) (gd gs1 gs2 : RegNo)
  /-- R379. Atomic minimum. -/
  | amin (ord wd : BitVec 2) (gd gs1 gs2 : RegNo)
  /-- R379. Atomic and. -/
  | aand (ord wd : BitVec 2) (gd gs1 gs2 : RegNo)
  /-- R379. Atomic or. -/
  | aor (ord wd : BitVec 2) (gd gs1 gs2 : RegNo)
  /-- R379. Atomic exclusive or. -/
  | axor (ord wd : BitVec 2) (gd gs1 gs2 : RegNo)
  /-- R376. Drop a line from the cache portion and write its dirty sectors back. -/
  | cflush (la : Look) (gs1 : RegNo) (off : BitVec 5)
  /-- R354. Copy a register with its tag. -/
  | cmov (la : Look) (gd gs1 : RegNo)
  /-- R354. Set a capability's address, keeping the tag if bounds decode unchanged. -/
  | csetaddr (la : Look) (gd gs1 gs2 : RegNo)
  /-- R354. Add a register to a capability's address. -/
  | cincaddr (la : Look) (gd gs1 gs2 : RegNo)
  /-- R354. Add a scaled immediate to a capability's address. -/
  | cincaddri (la : Look) (gd gs1 : RegNo) (imm : BitVec 5)
  /-- R355. Narrow a capability's bounds, rounded outwards. -/
  | csetbnd (la : Look) (gd gs1 gs2 : RegNo)
  /-- R354. Clear permissions of a capability. -/
  | candperm (la : Look) (gd gs1 gs2 : RegNo)
  /-- R356. Seal a code capability into an entry handle. -/
  | cseal (la : Look) (gd gs1 : RegNo)
  /-- R357. Read one decoded field of a capability. -/
  | cget (la : Look) (gd gs1 : RegNo) (sel : BitVec 5)
  /-- R387. Free a typed cell. -/
  | cellFree (gd gs1 : RegNo)
  /-- R387. Initialise a counter cell. -/
  | cntInit (gd gs1 gs2 : RegNo)
  /-- R387. Initialise a phased barrier cell. -/
  | barInit (gd gs1 gs2 : RegNo)
  /-- R387. Initialise a ticket lock cell. -/
  | lckInit (gd gs1 : RegNo)
  /-- R387. Initialise a bounded queue cell. -/
  | queInit (gd gs1 gs2 : RegNo)
  /-- R387. Initialise a condition cell. -/
  | cndInit (gd gs1 : RegNo)
  /-- R388. Read 16 bytes of a cell's image with acquire. -/
  | cellQuery (la : Look) (gd gs1 : RegNo) (sel : BitVec 5)
  /-- R389. Add to a counter and return the old value. -/
  | cntAdd (la : Look) (gd gs1 gs2 : RegNo)
  /-- R389. Hold until a counter is 0. -/
  | cntWait (la : Look) (gd gs1 : RegNo)
  /-- R389. Register a continuation on a counter. -/
  | cntArm (la : Look) (gd gs1 gs2 : RegNo)
  /-- R389. Disarm a counter's continuation. -/
  | cntDisarm (la : Look) (gd gs1 : RegNo)
  /-- R390. Arrive at a barrier and return the phase. -/
  | barArrive (la : Look) (gd gs1 : RegNo)
  /-- R390. Hold until a barrier phase completes. -/
  | barWait (la : Look) (gd gs1 gs2 : RegNo)
  /-- R390. Arrive and wait for the phase. -/
  | barSync (la : Look) (gd gs1 : RegNo)
  /-- R391. Acquire a ticket lock, holding until granted. -/
  | lckAcq (la : Look) (gd gs1 : RegNo)
  /-- R391. Try to acquire a ticket lock. -/
  | lckTry (la : Look) (gd gs1 : RegNo)
  /-- R391. Release a ticket lock. -/
  | lckRel (la : Look) (gd gs1 : RegNo)
  /-- R392. Push an element, holding while the queue is full. -/
  | quePush (la : Look) (gd gs1 gs2 : RegNo)
  /-- R392. Pop an element, holding while the queue is empty. -/
  | quePop (la : Look) (gd gs1 gs2 : RegNo)
  /-- R392. Push an element or return FAIL. -/
  | queTrypush (la : Look) (gd gs1 gs2 : RegNo)
  /-- R392. Pop an element or return FAIL. -/
  | queTrypop (la : Look) (gd gs1 gs2 : RegNo)
  /-- R393. Wait on a condition, releasing and re-acquiring its lock. -/
  | cndWait (la : Look) (gd gs1 gs2 : RegNo)
  /-- R393. Wake the oldest waiter of a condition. -/
  | cndSignal (la : Look) (gd gs1 : RegNo)
  /-- R393. Wake every waiter of a condition. -/
  | cndBcast (la : Look) (gd gs1 : RegNo)
  /-- R201. Bank-unit row operation on whole DRAM rows, returning a status word. -/
  | rowop (la : Look) (gd gs1 gs2 : RegNo)
  /-- R417. Set up a carousel descriptor. -/
  | cvset (la : Look) (gs1 : RegNo) (n : BitVec 3)
  /-- R418. Push one slot of a carousel after earlier local stores. -/
  | cvpush (la : Look) (n : BitVec 3)
  /-- R419. Read a carousel's occupancy, head, tail and reservations. -/
  | cvquery (la : Look) (gd : RegNo) (n : BitVec 3)
  /-- R422. Issue a recurrence command to the MU. -/
  | mrec (la : Look) (acc : BitVec 1) (fmt : BitVec 4) (ca cb : BitVec 3)
  /-- R422. Load the recurrence buffer. -/
  | mrload (la : Look) (gs1 : RegNo)
  /-- R425. Drain an accumulator tile to a grid core's scratchpad, optionally clearing it. -/
  | mdrain (la : Look) (acc clr : BitVec 1) (gs1 gs2 : RegNo)
  /-- R423. Zero an accumulator tile and reset its mark and drain scale. -/
  | mzero (la : Look) (n : BitVec 1)
  /-- R426. Wait for the selected engine queues to complete, with acquire. -/
  | ewait (la : Look) (gd : RegNo) (sel : BitVec 3)
  /-- R433. Copy bytes by the copy engine. -/
  | copy (la : Look) (gs1 gs2 : RegNo)
  /-- R433. Two-dimensional strided copy. -/
  | copy2d (la : Look) (gs1 gs2 : RegNo)
  /-- R433. Gather elements by an index array. -/
  | gather (la : Look) (gs1 gs2 : RegNo)
  /-- R433. Scatter elements by an index array. -/
  | scatter (la : Look) (gs1 gs2 : RegNo)
  /-- R433. Fill a destination with a 16-byte pattern. -/
  | fill (la : Look) (gs1 gs2 : RegNo)
  /-- R437. Bind a stream register. -/
  | sbind (la : Look) (n : BitVec 2)
  /-- R437. Unbind a stream register, abandoning its copies. -/
  | sunbind (la : Look) (n : BitVec 2)
  /-- R438. Program crossbar weight rows from a scratchpad image. -/
  | xprog (la : Look) (gd gs1 gs2 : RegNo)
  /-- R439. Calibrate an array, or save or load its calibration image. -/
  | xcal (la : Look) (gs1 gs2 : RegNo)
  /-- R440. Crossbar matrix-vector product into the scratchpad. -/
  | xmvm (la : Look) (gd gs1 gs2 : RegNo)
  /-- R442. Wait for crossbar commands of the selected arrays and return xstat. -/
  | xwait (la : Look) (gd : RegNo) (sel : BitVec 4)
  /-- R443. Copy a register, replacing a bounded tag with exact. -/
  | accept (la : Look) (gd gs1 : RegNo)
  /-- R443. Clear the bnd marks of a scratchpad range. -/
  | acceptSp (la : Look) (gd gs1 : RegNo)
  /-- R443. Clear the bounded mark of an accumulator. -/
  | acceptAcc (la : Look) (n : BitVec 1)
  /-- R427. Set the slot's vector configuration. -/
  | vsetcfg (la : Look) (gd gs1 : RegNo)
  /-- R429. Vector add. -/
  | vadd (la : Look) (gd gs1 gs2 : RegNo)
  /-- R429. Vector subtract. -/
  | vsub (la : Look) (gd gs1 gs2 : RegNo)
  /-- R429. Vector multiply. -/
  | vmul (la : Look) (gd gs1 gs2 : RegNo)
  /-- R429. Vector fused multiply-add. -/
  | vfma (la : Look) (gd gs1 gs2 : RegNo)
  /-- R429. Vector maximum. -/
  | vmax (la : Look) (gd gs1 gs2 : RegNo)
  /-- R429. Vector minimum. -/
  | vmin (la : Look) (gd gs1 gs2 : RegNo)
  /-- R429. Vector absolute value. -/
  | vabs (la : Look) (gd gs1 : RegNo)
  /-- R429. Vector negate. -/
  | vneg (la : Look) (gd gs1 : RegNo)
  /-- R429. Vector add of a scalar. -/
  | vadds (la : Look) (gd gs1 gs2 : RegNo)
  /-- R429. Vector multiply by a scalar. -/
  | vmuls (la : Look) (gd gs1 gs2 : RegNo)
  /-- R429. Vector format conversion. -/
  | vcvt (la : Look) (gd gs1 : RegNo) (sat : BitVec 1) (fmt : BitVec 4)
  /-- R430. Vector exponential. -/
  | vexp (la : Look) (gd gs1 : RegNo)
  /-- R430. Vector reciprocal. -/
  | vrcp (la : Look) (gd gs1 : RegNo)
  /-- R430. Vector reciprocal square root. -/
  | vrsqrt (la : Look) (gd gs1 : RegNo)
  /-- R431. Vector sum reduction into a register. -/
  | vsum (la : Look) (gd gs1 : RegNo)
  /-- R431. Vector maximum reduction. -/
  | vmaxr (la : Look) (gd gs1 : RegNo)
  /-- R431. Vector index and value of the largest element. -/
  | vargmax (la : Look) (gd gs1 : RegNo)
  /-- R429. Vector select. -/
  | vsel (la : Look) (gd gs1 gs2 : RegNo)
  /-- R429. Vector compare less than. -/
  | vcmplt (la : Look) (gd gs1 gs2 : RegNo)
  /-- R429. Vector bitwise and. -/
  | vand (la : Look) (gd gs1 gs2 : RegNo)
  /-- R429. Vector bitwise or. -/
  | vor (la : Look) (gd gs1 gs2 : RegNo)
  /-- R429. Vector bitwise exclusive or. -/
  | vxor (la : Look) (gd gs1 gs2 : RegNo)
  /-- R429. Vector move, every bit. -/
  | vmov (la : Look) (gd gs1 : RegNo)
  /-- R429. Vector fill with a converted scalar. -/
  | vfill (la : Look) (gd gs2 : RegNo)
  /-- R396. Push a forked task onto the deque, or call it inline when the deque is full. -/
  | fork (la : Look) (gd gs1 gs2 : RegNo)
  /-- R397. End a forked body, decrementing a counter, then return or exit. -/
  | join (la : Look) (gs1 : RegNo)
  /-- R395. Send a task-creating message with its own entry handle. -/
  | spawn (n : BitVec 4) (gd gs1 gs2 : RegNo)
  /-- R398. End the task once its window has completed. -/
  | exit (la : Look)
  /-- R399. Make the slot not ready for a number of cycles. -/
  | yield (la : Look) (gs1 : RegNo)
  /-- R400. Wait for earlier accesses and decrement the grid's trigger count. -/
  | trigger (la : Look)
  /-- R395. Send a message to a grid core, rectangle or bank unit. -/
  | send (n : BitVec 4) (gd gs2 : RegNo)
  /-- R409. Loop-back send of a taken message into the inbox. -/
  | lbsend (n : BitVec 4) (gd gs1 gs2 : RegNo)
  /-- R402. Remote call with 1–4 scoreboarded reply registers. -/
  | rcall (n : BitVec 4) (r : BitVec 2) (gd gs1 gs2 : RegNo)
  /-- R404. Posted remote call, acknowledged when its task ends. -/
  | rpost (n : BitVec 4) (gs1 gs2 : RegNo)
  /-- R403. Reply to the caller of a call task with release. -/
  | rreply (n : BitVec 4) (gs2 : RegNo)
  /-- R405. Move the strand's portable context to another grid core. -/
  | migrate (la : Look) (gs1 : RegNo)
  /-- R408. Annex take of the oldest inbox message. -/
  | atake (la : Look) (gd : RegNo)
  /-- R406. Set held classes of the core. -/
  | hold (la : Look) (gd gs1 : RegNo)
  /-- R406. Clear held classes of the core. -/
  | unhold (la : Look) (gd gs1 : RegNo)
  /-- R407. Write a handler catalogue entry. -/
  | catset (la : Look) (gs2 : RegNo) (sel : BitVec 5)
  /-- R410. Bind neighbouring cores into a volume and return a status. -/
  | bind (la : Look) (gd : RegNo) (sel : BitVec 5)
  /-- R410. Hand a volume back to its lead. -/
  | unbind (la : Look)
  /-- R411. Read the strand's grid position word. -/
  | gpos (la : Look) (gd : RegNo) (sel : BitVec 5)
  /-- R449. Read a control register. -/
  | crrd (la : Look) (gd : RegNo) (sel : BitVec 5)
  /-- R449. Write a control register, returning the old value. -/
  | crwr (la : Look) (gd gs1 : RegNo) (sel : BitVec 5)
  /-- R449. Set bits of a control register. -/
  | crset (la : Look) (gd gs1 : RegNo) (sel : BitVec 5)
  /-- R449. Clear bits of a control register. -/
  | crclr (la : Look) (gd gs1 : RegNo) (sel : BitVec 5)
  /-- R455. Return from a trap handler by Resume. -/
  | tret (la : Look)
  /-- R461. Copy a Parked slot's context to an area. -/
  | ctxsave (la : Look) (gd gs1 gs2 : RegNo)
  /-- R461. Load a Parked slot's context and optionally resume it. -/
  | ctxload (la : Look) (gd gs1 gs2 : RegNo)
  /-- R458. Wait until a grid's pre-emption has settled and report the outcome. -/
  | preack (la : Look) (gd gs1 : RegNo)
  /-- R463. Begin a translation drain of a VA range. -/
  | tdrain (la : Look) (gd gs1 gs2 : RegNo)
  /-- R464. Confirm a drain, discarding entries and replaying or keeping parked accesses. -/
  | tconfirm (la : Look) (gd gs1 : RegNo)
  /-- R465. Read an event counter. -/
  | evrd (la : Look) (gd : RegNo) (sel : BitVec 5)
  /-- R465. Clear selected event counters. -/
  | evclr (la : Look) (gs1 : RegNo)
  /-- R466. Inject a corrected, uncorrectable, poison or crossbar drift fault. -/
  | finject (la : Look) (gd gs1 : RegNo) (sel : BitVec 2)
  /-- R456. Request pre-emption of a live grid. -/
  | gpreempt (la : Look) (gd gs1 : RegNo)
  /-- R457. End a live grid with a given cause. -/
  | gpreemptEnd (la : Look) (gd gs1 : RegNo)
  /-- R459. Move a Saved grid to Placing. -/
  | gresume (la : Look) (gd gs1 : RegNo)
  /-- R421. Matrix multiply-accumulate, E4M3 by E4M3. -/
  | mmaE4e4 (acc : BitVec 1) (ca cb : BitVec 3) (gs3 : RegNo)
  /-- R421. Matrix multiply-accumulate, E4M3 by E5M2. -/
  | mmaE4e5 (acc : BitVec 1) (ca cb : BitVec 3) (gs3 : RegNo)
  /-- R421. Matrix multiply-accumulate, E5M2 by E4M3. -/
  | mmaE5e4 (acc : BitVec 1) (ca cb : BitVec 3) (gs3 : RegNo)
  /-- R421. Matrix multiply-accumulate, E5M2 by E5M2. -/
  | mmaE5e5 (acc : BitVec 1) (ca cb : BitVec 3) (gs3 : RegNo)
  /-- R421. Matrix multiply-accumulate, FP16. -/
  | mmaH (acc : BitVec 1) (ca cb : BitVec 3) (gs3 : RegNo)
  /-- R421. Matrix multiply-accumulate, BF16. -/
  | mmaB (acc : BitVec 1) (ca cb : BitVec 3) (gs3 : RegNo)
  /-- R421. Matrix multiply-accumulate, FP32. -/
  | mmaS (acc : BitVec 1) (ca cb : BitVec 3) (gs3 : RegNo)
  /-- R421. Matrix multiply-accumulate, INT8. -/
  | mmaI8 (acc : BitVec 1) (ca cb : BitVec 3) (gs3 : RegNo)
  /-- R421. Matrix multiply-accumulate, nested integer by NI8. -/
  | mmaNi (acc : BitVec 1) (km1 ca cb : BitVec 3) (gs3 : RegNo)
  /-- R358. Fused multiply-add, FP32. -/
  | fmaddS (gd gs1 gs2 gs3 : RegNo)
  /-- R358. Fused multiply-subtract, FP32. -/
  | fmsubS (gd gs1 gs2 gs3 : RegNo)
  /-- R358. Negated fused multiply-add, FP32. -/
  | fnmaddS (gd gs1 gs2 gs3 : RegNo)
  /-- R358. Negated fused multiply-subtract, FP32. -/
  | fnmsubS (gd gs1 gs2 gs3 : RegNo)
  /-- R358. Add, FP32. -/
  | faddS (gd gs1 gs2 : RegNo)
  /-- R358. Subtract, FP32. -/
  | fsubS (gd gs1 gs2 : RegNo)
  /-- R358. Multiply, FP32. -/
  | fmulS (gd gs1 gs2 : RegNo)
  /-- R358. Divide, FP32. -/
  | fdivS (gd gs1 gs2 : RegNo)
  /-- R358. Square root, FP32. -/
  | fsqrtS (gd gs1 : RegNo)
  /-- R359. Minimum, FP32. -/
  | fminS (gd gs1 gs2 : RegNo)
  /-- R359. Maximum, FP32. -/
  | fmaxS (gd gs1 gs2 : RegNo)
  /-- R359. Compare equal, FP32. -/
  | feqS (gd gs1 gs2 : RegNo)
  /-- R359. Compare less than, FP32. -/
  | fltS (gd gs1 gs2 : RegNo)
  /-- R359. Compare less or equal, FP32. -/
  | fleS (gd gs1 gs2 : RegNo)
  /-- R360. Convert between FP32 and another format. -/
  | fcvt (gd gs1 : RegNo) (src : BitVec 4) (sat : BitVec 1) (dst : BitVec 4)
  /-- R57. Power-on begins a start: the start core verifies firmware and runs the sixteen start steps under the start record. -/
  | powerOn
  /-- R57. A reset from the carrier begins a start in the same way as power-on. -/
  | carrierReset
  /-- R55. A start step that exceeds its time limit fires the start watchdog, which resets the device and leaves the step begun but not done. -/
  | startWatchdog
  /-- R19. At the end of each 4 µs window, a region governor compares mean occupancy with its thresholds and may raise or lower the level by one. -/
  | governorWindow
  /-- R19. A voltage and frequency step of a network region completes within 2 µs, and the region then runs at its new level. -/
  | levelStepDone
  /-- R20. A service-core write to nrctl sets the floor, ceiling, thresholds and pin of a region; writes from other sources are ignored. -/
  | nrctlWrite
  /-- R22. Every 100 µs the power limiter samples module power and enters or leaves its three stages, producing an event record on each change. -/
  | limiterSample
  /-- R23. The hottest sensor reaching 95 °C applies limiter stages 1–3 until it falls below 92 °C. -/
  | thermalLimit
  /-- R23. The hottest sensor reaching 105 °C pre-empts every running grid and holds all placement until every sensor reads below 95 °C. -/
  | thermalPreempt
  /-- R23. When every sensor reads below 95 °C, waiting launches and Saved grids proceed without host action. -/
  | thermalClear
  /-- R23. At 115 °C the carrier or the board removes power. -/
  | thermalShutdown
  /-- R25. A slice scrubs an idle set, and it poisons any sector whose error cannot be corrected. -/
  | sliceScrub
  /-- R25. A bank unit scrubs each HBM row once in each 24 h and poisons any uncorrectable sector. -/
  | hbmRowScrub
  /-- R94. A die crossing that fails three retrainings within 1 s, or loses a lane, stops the device and ends every live grid with CROSSING_DOWN. -/
  | crossingFail
  /-- R29. A link receives a group of eight flits, checks its CRC and sequence number, acknowledges it in order or discards it for go-back-N replay. -/
  | groupReceive
  /-- R30. A lane that loses lock makes its port retrain. -/
  | laneLockLoss
  /-- R30. Retraining of a port ends within 50 µs, negotiating a version, or after a third failure within 1 s takes the port down. -/
  | retrainEnd
  /-- R51. A write of fpctl.en lets a port train, restarting training on a down port, or with 0 lets it finish its replay buffer and go down. -/
  | fpctlEn
  /-- R51. A write of 1 to fpctl.down takes the port down at once and rehashes its unacknowledged packets. -/
  | fpctlDown
  /-- R49. A write to fshare sets the reserved QoS shares of a Jorust port, or is ignored with an event record if they sum above 256. -/
  | fshareWrite
  /-- R87. A write to hshare sets the QoS shares of a stack's controllers, ignored if the shares sum above 256. -/
  | hshareWrite
  /-- R87. A write to sshare sets the QoS shares at a die's slice ingress, ignored if the shares sum above 256. -/
  | sshareWrite
  /-- R88. Every 4,096 cycles all QoS regulators begin a new window and reset each class's charge. -/
  | enforcementWindow
  /-- R44. A Jorust packet arrives and is accepted only if its end-to-end sequence number is new from that source. -/
  | fabricPacket
  /-- R34. A Ubgen memory read of 1–256 bytes in a pod-wide context returns data or a fault status. -/
  | memoryRead
  /-- R34. A posted Ubgen memory write is acknowledged once visible at its home slice. -/
  | memoryWrite
  /-- R38. A Ubgen cell request is issued to the cell's home Desk, and if it holds, the stream's later requests wait behind it. -/
  | cellRequest
  /-- R38. A Cancel is acted on at once and fills the stream's held request with CANCELLED. -/
  | hostCancel
  /-- R34. A request of an unknown or undefined kind, or a malformed one, is answered UNSUPPORTED with no other effect. -/
  | unsupportedRequest
  /-- R65. A waiting request of a stream is issued into the mesh once the previous request of the stream has taken effect. -/
  | streamRequestIssue
  /-- R73. The Ubgen port sends one buffered event record of a source to the host in sequence order. -/
  | eventRecordSend
  /-- R67. Control message attaching a command queue to the service core, refused for a 17th queue, wrong type or a queue attached elsewhere. -/
  | attachQueue
  /-- R66. Control message detaching a queue after its running command has started. -/
  | detachQueue
  /-- R71. Control message clearing a queue's stopped state, discarding its contents and failing its held pushes. -/
  | resetQueue
  /-- R64. Control message writing the hstream register of a stream. -/
  | setStream
  /-- R63. Control message giving the host's version ranges, answered with the highest common version per interface, or BUSY after the first ATTACH_QUEUE. -/
  | negotiate
  /-- R59. Control message returning the capability record. -/
  | readCap
  /-- R66. Control message returning the start record copy in use. -/
  | readStart
  /-- R66. Control message writing a start record with every step not begun. -/
  | clearStart
  /-- R66. Control message setting the firmware slot for the next start. -/
  | selectSlot
  /-- R62. Control message with a nonce that returns an attestation report signed with the device identity key. -/
  | attest
  /-- R470. Control message that derives, seals and stores the tagged capabilities of an image's relocation table in table order. -/
  | relocate
  /-- R469. Control message registering the default core set-up record of a context. -/
  | setSetup
  /-- R68. A queue agent pops its attached queue with QPOP once the command of its last pop has been taken. -/
  | queueAgentPop
  /-- R76. Command that hands a graph node record to the launch scheduler, which reads and checks it and enters Handed. -/
  | launch
  /-- R69. Command that waits with acquire until a counter reads 0. -/
  | wait
  /-- R69. Command that adds a signed amount to a counter with release. -/
  | signal
  /-- R69. Command that writes 1–32 bytes and completes when they are visible at their home slice. -/
  | write
  /-- R69. Serial command that queues an event record for the host. -/
  | event
  /-- R69. Command that completes at once. -/
  | nop
  /-- R82. A launch in Ready reads pfault and the indirect count with acquire, then enters Placing or goes to Ending without running. -/
  | launchReady
  /-- R78. The launch scheduler reserves a rectangle for every bay on the shared occupancy map, or ends the grid with PLACEMENT if it can never fit. -/
  | placeGrid
  /-- R469. The launch scheduler applies the core set-up record, copying code and writing control registers, or ends the grid with SETUP. -/
  | coreSetup
  /-- R79. The launch scheduler deals a task record into a grid core's run queue once an entry is free. -/
  | dealTask
  /-- R80. A footprint copy into the task's scratchpad completes and the task becomes ready, or the grid ends with FOOTPRINT. -/
  | footprintCopy
  /-- R83. When a grid's trigger count reaches 0 before Ending, every successor's predecessor counter is decremented with release. -/
  | triggerRelease
  /-- R72. Once engine commands and acknowledgements have settled, the error status record is written and the completion counter is decremented with release. -/
  | completionRelease
  /-- R84. A core's selector picks a ready task of a non-held class for a free slot by priority, age and the aging reserve. -/
  | taskSelect
  /-- R230. A slot in Starting finishes loading the task registers and begins running at the unsealed entry. -/
  | taskStart
  /-- R233. A message arrives into a core's inbox, or waits in the router while the inbox is full. -/
  | messageArrival
  /-- R233. An inbox message takes a free run-queue entry and copies its catalogue entry, becoming ready or undeliverable. -/
  | messageReady
  /-- R236. The annex thread starts at the annex entry when inbox occupancy reaches hi, or falls to lo with pend set. -/
  | annexStart
  /-- R240. A victim answers a steal request with its top deque entry or an empty indication. -/
  | stealRequest
  /-- R240. After 1,024 cycles a thief that found every victim empty begins stealing again. -/
  | stealRetry
  /-- R242. Both context messages of a migration have arrived and the strand becomes a ready kind 7 task. -/
  | migrateArrival
  /-- R402. A call slip from rcall or rpost arrives and becomes a kind 5 or kind 6 task at its core or bank unit. -/
  | callSlip
  /-- R403. A reply of an rcall arrives and fills the caller's scoreboarded reply registers. -/
  | rcallReply
  /-- R399. The cycle count of a yield expires and the slot is ready again. -/
  | yieldExpiry
  /-- R363. Data of a load outside the local window returns and releases its scoreboard entry. -/
  | memoryReply
  /-- R48. The acknowledgement of a posted store or rpost arrives, or a status takes its place and ends the grid. -/
  | storeAck
  /-- R48. A posted store unacknowledged after four times rdeadline ends the issuing grid. -/
  | postedTimeout
  /-- R47. A reply not arrived within rdeadline marks its destination registers as reply-lost. -/
  | replyDeadline
  /-- R158. The first write to an elided page sets dr, drains the page, fills the frame, clears el and replays the parked accesses. -/
  | elMaterialise
  /-- R144. A 16-byte write through a window sets a slot register between two of its instructions. -/
  | registerImageWrite
  /-- R140. A start-core write of hlin during step 10 sets a stack's channel-linear share; later writes are ignored. -/
  | hlinWrite
  /-- R152. A start-core write of ctxbase sets the context table for walks that begin afterwards. -/
  | ctxbaseWrite
  /-- R158. A start-core write of eltab sets the pattern table of elided pages. -/
  | eltabWrite
  /-- R96. A start-core write of rtab sets each route class's mode and channel for messages injected afterwards. -/
  | rtabWrite
  /-- R220. A control-program write of xctl sets the context allowed to use a crossbar array and its enable. -/
  | xctlWrite
  /-- R255. A control-program write of mqctl sets a core's MU queue weight. -/
  | mqctlWrite
  /-- R263. A write to the MU doorbell issues the MU command that its sub-opcode names from the shadow images. -/
  | muDoorbell
  /-- R263. A write to the copy doorbell issues the copy command that its sub-opcode names from the shadow images. -/
  | copyDoorbell
  /-- R263. A write to the vector doorbell issues the vector command that its sub-opcode names from the shadow images. -/
  | vectorDoorbell
  /-- R256. A window write of a carousel descriptor, ignored if the descriptor is invalid or the carousel is in use. -/
  | carouselDescriptorWrite
  /-- R8. A write to any other register sets its fields by their access codes. -/
  | registerWrite
  /-- R113. Desk operation returning a cell's image with acquire. -/
  | query
  /-- R136. Desk operation zeroing a cell and making it untyped, filling its holds with FREED. -/
  | free
  /-- R136. Desk operation giving a cell a type and image, replacing any old image and filling its holds with FREED. -/
  | init
  /-- R117. Desk operation adding to a counter and, at 0, filling waits and firing an armed continuation. -/
  | cadd
  /-- R117. Desk operation completing at once if the counter is 0, otherwise making a hold. -/
  | cwait
  /-- R117. Desk operation registering a continuation, firing it at once if the counter is 0. -/
  | carm
  /-- R117. Desk operation clearing armed and returning the old bit. -/
  | cdisarm
  /-- R121. Desk operation counting an arrival and completing the phase when none are left and pend is 0. -/
  | barrive
  /-- R121. Desk operation returning at once for a past phase, otherwise making a hold. -/
  | bwait
  /-- R121. Desk operation performing BARRIVE then BWAIT on the returned phase as one operation. -/
  | bsync
  /-- R121. Desk operation adding pending bytes to a barrier. -/
  | bpendadd
  /-- R121. Desk operation subtracting visible bytes from a barrier's pend and completing the phase when possible. -/
  | bpendsub
  /-- R125. Desk operation taking a ticket and granting the lock or making a hold. -/
  | lacq
  /-- R125. Desk operation granting a free lock or returning FAIL without a ticket. -/
  | ltry
  /-- R125. Desk operation releasing the lock to the next ticket holder, skipping void entries. -/
  | lrel
  /-- R127. Desk operation passing an element to a pop hold, writing it into the ring, or making a push hold. -/
  | qpush
  /-- R127. Desk operation returning the head element and admitting a held push, or making a pop hold. -/
  | qpop
  /-- R127. Desk operation as QPUSH but returning FAIL where it would hold. -/
  | qtrypush
  /-- R127. Desk operation as QPOP but returning FAIL where it would hold. -/
  | qtrypop
  /-- R129. Desk operation recording a condition wait and sending an LREL for the waiter to its lock. -/
  | vwait
  /-- R129. Desk operation marking the oldest wait signalled and sending an LACQ for it to the lock. -/
  | vsignal
  /-- R129. Desk operation signalling every wait in order of age. -/
  | vbcast
  /-- R385. A Desk reply arrives at its requester and completes the operation, or a RETRY status makes it resend. -/
  | result
  /-- R133. A fill or continuation arrives and completes the held instruction with acquire, or starts a continuation task, or is applied to a saved context. -/
  | wake
  /-- R85. A boost message increments a slot's boost count at its level. -/
  | boost
  /-- R85. An expiry message decrements a slot's boost count. -/
  | expire
  /-- R134. A held strand's new effective priority updates its hold entry and may re-send the boost. -/
  | prioset
  /-- R135. A cancel voids a hold, which is answered CANCELLED and its boost expires. -/
  | cancel
  /-- R123. A census request reaches a participant core, which answers with its selected event counters. -/
  | censusreq
  /-- R106. A census message combines at a router or reaches the Desk, which writes the record when every participant is counted. -/
  | census
  /-- R106. A combining entry is sent on 32 ncycles after it was taken. -/
  | censusEntryTimeout
  /-- R112. After at least 64 ncycles a requester resends requests that a full Desk refused, in their original order. -/
  | deskResend
  /-- R255. An MU grants a step of up to 256 cycles to a queue in weighted round robin, completing and retiring commands. -/
  | muStep
  /-- R261. When every write of a drain is acknowledged, the MU sends its closing message. -/
  | drainClose
  /-- R264. A vector engine processes a command's rows and completes it. -/
  | vectorCommand
  /-- R265. A copy engine grants and moves one 4 KiB chunk, stopping at a page fault or ending the command with its record. -/
  | copyChunk
  /-- R268. A copy delivers elements into a stream buffer and pauses while it is full. -/
  | streamElement
  /-- R210. A crossbar product is evaluated, writing its raw sums or being refused or found drifted with the recalibration trap. -/
  | xuProduct
  /-- R217. One xprog row step pulses and verifies a row's pairs and updates the failed-row map. -/
  | xprogRow
  /-- R214. One xcal step calibrates a column group or the reference pairs, and the last step sets valid. -/
  | xcalStep
  /-- R204. A bank unit writes the last primitive of a row operation, reports completion and releases the parked accesses. -/
  | rowOpComplete
  /-- R279. Every core of a grid being pre-empted reaches an instruction boundary and its engine commands stop at a step boundary. -/
  | preemptBoundary
  /-- R280. The copy engines finish writing a grid's save area, and the grid becomes Saved or ends with SAVE_FAULT. -/
  | saveComplete
  /-- R53. Module power is lost at any time, including during a write of the start record, and the device stops until the next power-on. -/
  | powerLoss
  /-- R24. A soft error flips bits in a protected storage structure, to be corrected or found uncorrectable by the next read or scrub. -/
  | softError
  /-- R330. A slot issues a word that decodes as no instruction (bad low bits, illegal major opcode, unassigned sub-opcode or forbidden field value) and takes ILLEGAL_INSTRUCTION. -/
  | illegalInstruction
  /-- R250. A fetch at or above xbound raises the overlay trap before any word is fetched and enters ovlh, or ends the grid with OVERLAY. -/
  | overlayTrap
  /-- R23. The hottest sensor falls below 92 °C and limiter stages 1–3 applied for temperature are left, with an event record on exit. -/
  | thermalLimitExit
  deriving DecidableEq, Repr

end Sys2Proof
end

