-- ==== Sys2Proof/WellFormed.lean ====
section
/-! DEFINITION. Which instructions are well formed: the values that the descriptions of their fields allow
(spec/16_isa_framework.md R319, R326, R330 and the chapters cited at each check). -/

namespace Sys2Proof


/-- A register group of `n` registers from `r` that does not run past g31 (R319). -/
def group (r : RegNo) (n : Nat) : Bool := r.toNat + n ≤ 32

/-- A group that must not contain g0 (R319, R387, R396). -/
def dstGroup (r : RegNo) (n : Nat) : Bool := 1 ≤ r.toNat && group r n

/-- The payload of a message: 0 to 8 registers, and g0 named when there are none (R395). -/
def payload (n : BitVec 4) (r : RegNo) : Bool :=
  n.toNat ≤ 8 && (if n = 0 then r == 0 else group r n.toNat)

/-- A control register that `crset` and `crclr` may name (R449, R450 Table 3): 0-27 and not wide. -/
def narrowCr (n : Nat) : Bool := n ≤ 27 && n != 6 && n != 8 && n != 18 && n != 19

/-- The values of an instruction's fields are ones that its description allows. -/
def Instr.wellFormed : Instr → Bool
  | .lui _ _ => true
  | .auipc _ _ => true
  | .jal _ _ => true
  | .jalr _ _ _ => true
  | .beq _ _ _ => true
  | .bne _ _ _ => true
  | .blt _ _ _ => true
  | .bge _ _ _ => true
  | .bltu _ _ _ => true
  | .bgeu _ _ _ => true
  | .ldI8 _ _ _ => true
  | .ldI16 _ _ _ => true
  | .ldI32 _ _ _ => true
  | .ldI64 _ _ _ => true
  | .ldN8 _ _ _ => true
  | .ldN16 _ _ _ => true
  | .ldN32 _ _ _ => true
  | .stI8 _ _ _ => true
  | .stI16 _ _ _ => true
  | .stI32 _ _ _ => true
  | .stI64 _ _ _ => true
  | .addi _ _ _ => true
  | .slti _ _ _ => true
  | .sltiu _ _ _ => true
  | .xori _ _ _ => true
  | .ori _ _ _ => true
  | .andi _ _ _ => true
  | .slli _ _ _ => true
  | .srli _ _ _ => true
  | .srai _ _ _ => true
  | .addiw _ _ _ => true
  | .slliw _ _ _ => true
  | .srliw _ _ _ => true
  | .sraiw _ _ _ => true
  | .add _ _ _ => true
  | .sub _ _ _ => true
  | .sll _ _ _ => true
  | .slt _ _ _ => true
  | .sltu _ _ _ => true
  | .xor _ _ _ => true
  | .srl _ _ _ => true
  | .sra _ _ _ => true
  | .or _ _ _ => true
  | .and _ _ _ => true
  | .addw _ _ _ => true
  | .subw _ _ _ => true
  | .sllw _ _ _ => true
  | .srlw _ _ _ => true
  | .sraw _ _ _ => true
  | .mul _ _ _ => true
  | .mulh _ _ _ => true
  | .mulhsu _ _ _ => true
  | .mulhu _ _ _ => true
  | .div _ _ _ => true
  | .divu _ _ _ => true
  | .rem _ _ _ => true
  | .remu _ _ _ => true
  | .mulw _ _ _ => true
  | .divw _ _ _ => true
  | .divuw _ _ _ => true
  | .remw _ _ _ => true
  | .remuw _ _ _ => true
  | .fence _ _ _ => true
  | .ecall => true
  | .ebreak => true
  | .ldlI8 _ _ _ _ => true
  | .ldlN8 _ _ _ _ => true
  | .ldlI16 _ _ _ _ => true
  | .ldlN16 _ _ _ _ => true
  | .ldlI32 _ _ _ _ => true
  | .ldlN32 _ _ _ _ => true
  | .ldlI64 _ _ _ _ => true
  | .ldq _ _ _ _ => true
  | .stlI8 _ _ _ _ => true
  | .stlI16 _ _ _ _ => true
  | .stlI32 _ _ _ _ => true
  | .stlI64 _ _ _ _ => true
  | .stq _ _ _ _ => true
  | .sbB _ _ _ _ => true
  | .cld _ _ _ _ => true
  | .cst _ _ _ _ => true
  | .ldacqI64 _ _ _ _ => true
  | .ldacqQ _ _ _ _ => true
  | .strelI64 _ _ _ _ => true
  | .strelQ _ _ _ _ => true
  | .fenceRel _ _ => true
  | .fenceAcq _ _ => true
  | .fenceFull _ _ => true
  | .pref _ _ _ hint => hint.toNat ≤ 1
  | .pin _ _ _ _ => true
  | .unpin _ _ _ _ => true
  | .afadd _ wd _ _ _ => wd.toNat ≤ 1
  | .aswap _ wd _ _ _ => wd.toNat ≤ 2
  | .acas64 _ _ _ gs2 => group gs2 2
  | .acas128 _ gd _ gs2 => group gs2 2 && dstGroup gd 2
  | .amax _ _ _ _ _ => true
  | .amin _ _ _ _ _ => true
  | .aand _ wd _ _ _ => wd.toNat ≤ 1
  | .aor _ wd _ _ _ => wd.toNat ≤ 1
  | .axor _ wd _ _ _ => wd.toNat ≤ 1
  | .cflush _ _ _ => true
  | .cmov _ _ _ => true
  | .csetaddr _ _ _ _ => true
  | .cincaddr _ _ _ _ => true
  | .cincaddri _ _ _ _ => true
  | .csetbnd _ _ _ _ => true
  | .candperm _ _ _ _ => true
  | .cseal _ _ _ => true
  | .cget _ _ _ sel => sel.toNat ≤ 6
  | .cellFree _ _ => true
  | .cntInit _ _ _ => true
  | .barInit _ _ gs2 => dstGroup gs2 2
  | .lckInit _ _ => true
  | .queInit _ _ gs2 => group gs2 2
  | .cndInit _ _ => true
  | .cellQuery _ _ _ sel => sel.toNat ≤ 1
  | .cntAdd _ _ _ _ => true
  | .cntWait _ _ _ => true
  | .cntArm _ _ _ _ => true
  | .cntDisarm _ _ _ => true
  | .barArrive _ _ _ => true
  | .barWait _ _ _ _ => true
  | .barSync _ _ _ => true
  | .lckAcq _ _ _ => true
  | .lckTry _ _ _ => true
  | .lckRel _ _ _ => true
  | .quePush _ _ _ _ => true
  | .quePop _ _ _ _ => true
  | .queTrypush _ _ _ _ => true
  | .queTrypop _ _ _ _ => true
  | .cndWait _ _ _ _ => true
  | .cndSignal _ _ _ => true
  | .cndBcast _ _ _ => true
  | .rowop _ _ _ _ => true
  | .cvset _ _ _ => true
  | .cvpush _ _ => true
  | .cvquery _ _ _ => true
  | .mrec _ _ fmt _ _ => fmt.toNat ≤ 5
  | .mrload _ _ => true
  | .mdrain _ _ _ _ _ => true
  | .mzero _ _ => true
  | .ewait _ _ _ => true
  | .copy _ gs1 _ => group gs1 4
  | .copy2d _ gs1 _ => group gs1 5
  | .gather _ gs1 _ => group gs1 5
  | .scatter _ gs1 _ => group gs1 5
  | .fill _ gs1 _ => group gs1 4
  | .sbind _ _ => true
  | .sunbind _ _ => true
  | .xprog _ _ _ _ => true
  | .xcal _ _ _ => true
  | .xmvm _ _ _ _ => true
  | .xwait _ _ _ => true
  | .accept _ _ _ => true
  | .acceptSp _ _ _ => true
  | .acceptAcc _ _ => true
  | .vsetcfg _ _ _ => true
  | .vadd _ _ _ _ => true
  | .vsub _ _ _ _ => true
  | .vmul _ _ _ _ => true
  | .vfma _ _ _ _ => true
  | .vmax _ _ _ _ => true
  | .vmin _ _ _ _ => true
  | .vabs _ _ _ => true
  | .vneg _ _ _ => true
  | .vadds _ _ _ _ => true
  | .vmuls _ _ _ _ => true
  | .vcvt _ _ _ _ fmt => fmt.toNat ≤ 6
  | .vexp _ _ _ => true
  | .vrcp _ _ _ => true
  | .vrsqrt _ _ _ => true
  | .vsum _ _ _ => true
  | .vmaxr _ _ _ => true
  | .vargmax _ _ _ => true
  | .vsel _ _ _ _ => true
  | .vcmplt _ _ _ _ => true
  | .vand _ _ _ _ => true
  | .vor _ _ _ _ => true
  | .vxor _ _ _ _ => true
  | .vmov _ _ _ => true
  | .vfill _ _ _ => true
  | .fork _ _ _ gs2 => dstGroup gs2 3
  | .join _ _ => true
  | .spawn n _ _ gs2 => payload n gs2
  | .exit _ => true
  | .yield _ _ => true
  | .trigger _ => true
  | .send n _ gs2 => payload n gs2
  | .lbsend n _ gs1 gs2 => payload n gs2 && group gs1 2
  | .rcall n r gd gs1 gs2 => n.toNat ≤ 7 && dstGroup gd (r.toNat + 1) && group gs1 3 && group gs2 (n.toNat + 1)
  | .rpost n gs1 gs2 => n.toNat ≤ 7 && group gs1 3 && group gs2 (n.toNat + 1)
  | .rreply n gs2 => n.toNat ≤ 3 && group gs2 (n.toNat + 1)
  | .migrate _ _ => true
  | .atake _ _ => true
  | .hold _ _ _ => true
  | .unhold _ _ _ => true
  | .catset _ _ sel => sel.toNat ≤ 16
  | .bind _ _ _ => true
  | .unbind _ => true
  | .gpos _ _ sel => sel.toNat ≤ 1
  | .crrd _ _ sel => sel.toNat ≤ 27
  | .crwr _ _ _ sel => sel.toNat ≤ 27
  | .crset _ _ _ sel => narrowCr sel.toNat
  | .crclr _ _ _ sel => narrowCr sel.toNat
  | .tret _ => true
  | .ctxsave _ _ _ _ => true
  | .ctxload _ _ _ _ => true
  | .preack _ _ _ => true
  | .tdrain _ _ _ _ => true
  | .tconfirm _ _ _ => true
  | .evrd _ _ sel => sel.toNat ≤ 15
  | .evclr _ _ => true
  | .finject _ _ _ _ => true
  | .gpreempt _ _ _ => true
  | .gpreemptEnd _ _ _ => true
  | .gresume _ _ _ => true
  | .mmaE4e4 _ _ _ _ => true
  | .mmaE4e5 _ _ _ _ => true
  | .mmaE5e4 _ _ _ _ => true
  | .mmaE5e5 _ _ _ _ => true
  | .mmaH _ _ _ _ => true
  | .mmaB _ _ _ _ => true
  | .mmaS _ _ _ _ => true
  | .mmaI8 _ _ _ _ => true
  | .mmaNi _ km1 _ _ _ => 1 ≤ km1.toNat
  | .fmaddS _ _ _ _ => true
  | .fmsubS _ _ _ _ => true
  | .fnmaddS _ _ _ _ => true
  | .fnmsubS _ _ _ _ => true
  | .faddS _ _ _ => true
  | .fsubS _ _ _ => true
  | .fmulS _ _ _ => true
  | .fdivS _ _ _ => true
  | .fsqrtS _ _ => true
  | .fminS _ _ _ => true
  | .fmaxS _ _ _ => true
  | .feqS _ _ _ => true
  | .fltS _ _ _ => true
  | .fleS _ _ _ => true
  | .fcvt _ _ src sat dst => src.toNat ≤ 6 && dst.toNat ≤ 6 && (src == 0 || dst == 0) && (sat == 0 || dst == 3 || dst == 4)
  | .powerOn => true
  | .carrierReset => true
  | .startWatchdog => true
  | .governorWindow => true
  | .levelStepDone => true
  | .nrctlWrite => true
  | .limiterSample => true
  | .thermalLimit => true
  | .thermalPreempt => true
  | .thermalClear => true
  | .thermalShutdown => true
  | .sliceScrub => true
  | .hbmRowScrub => true
  | .crossingFail => true
  | .groupReceive => true
  | .laneLockLoss => true
  | .retrainEnd => true
  | .fpctlEn => true
  | .fpctlDown => true
  | .fshareWrite => true
  | .hshareWrite => true
  | .sshareWrite => true
  | .enforcementWindow => true
  | .fabricPacket => true
  | .memoryRead => true
  | .memoryWrite => true
  | .cellRequest => true
  | .hostCancel => true
  | .unsupportedRequest => true
  | .streamRequestIssue => true
  | .eventRecordSend => true
  | .attachQueue => true
  | .detachQueue => true
  | .resetQueue => true
  | .setStream => true
  | .negotiate => true
  | .readCap => true
  | .readStart => true
  | .clearStart => true
  | .selectSlot => true
  | .attest => true
  | .relocate => true
  | .setSetup => true
  | .queueAgentPop => true
  | .launch => true
  | .wait => true
  | .signal => true
  | .write => true
  | .event => true
  | .nop => true
  | .launchReady => true
  | .placeGrid => true
  | .coreSetup => true
  | .dealTask => true
  | .footprintCopy => true
  | .triggerRelease => true
  | .completionRelease => true
  | .taskSelect => true
  | .taskStart => true
  | .messageArrival => true
  | .messageReady => true
  | .annexStart => true
  | .stealRequest => true
  | .stealRetry => true
  | .migrateArrival => true
  | .callSlip => true
  | .rcallReply => true
  | .yieldExpiry => true
  | .memoryReply => true
  | .storeAck => true
  | .postedTimeout => true
  | .replyDeadline => true
  | .elMaterialise => true
  | .registerImageWrite => true
  | .hlinWrite => true
  | .ctxbaseWrite => true
  | .eltabWrite => true
  | .rtabWrite => true
  | .xctlWrite => true
  | .mqctlWrite => true
  | .muDoorbell => true
  | .copyDoorbell => true
  | .vectorDoorbell => true
  | .carouselDescriptorWrite => true
  | .registerWrite => true
  | .query => true
  | .free => true
  | .init => true
  | .cadd => true
  | .cwait => true
  | .carm => true
  | .cdisarm => true
  | .barrive => true
  | .bwait => true
  | .bsync => true
  | .bpendadd => true
  | .bpendsub => true
  | .lacq => true
  | .ltry => true
  | .lrel => true
  | .qpush => true
  | .qpop => true
  | .qtrypush => true
  | .qtrypop => true
  | .vwait => true
  | .vsignal => true
  | .vbcast => true
  | .result => true
  | .wake => true
  | .boost => true
  | .expire => true
  | .prioset => true
  | .cancel => true
  | .censusreq => true
  | .census => true
  | .censusEntryTimeout => true
  | .deskResend => true
  | .muStep => true
  | .drainClose => true
  | .vectorCommand => true
  | .copyChunk => true
  | .streamElement => true
  | .xuProduct => true
  | .xprogRow => true
  | .xcalStep => true
  | .rowOpComplete => true
  | .preemptBoundary => true
  | .saveComplete => true
  | .powerLoss => true
  | .softError => true
  | .illegalInstruction => true
  | .overlayTrap => true
  | .thermalLimitExit => true

end Sys2Proof
end

