-- ==== Sys2Proof/Decode.lean ====
section
/-! DEFINITION. From words to instructions and back (spec/16_isa_framework.md R317-R330, spec/17_isa_integer_control.md
R345-R352, spec/18_isa_memory.md R361-R377, spec/19_isa_sync_tasks_remote.md R412, spec/20_isa_engines.md R444,
spec/21_isa_system.md R448). A word is cut into the fields that every format is made of, the fields choose the
instruction, and the values of its fields are checked last (R330). -/

namespace Sys2Proof

/-- Why a word is no instruction (R323, R330). Each raises ILLEGAL_INSTRUCTION. -/
inductive Reject where
  /-- bits [1:0] are not 0b11 (R323): a 16-bit encoding or the zero word -/
  | lowBits
  /-- bits [6:2] name a major opcode marked illegal (R323 Table 7) -/
  | majorOpcode
  /-- funct3, funct7 or the sub-opcode name no instruction (R330, R347) -/
  | subOpcode
  /-- a field holds a value that the instruction's description does not allow (R319, R330) -/
  | fieldValue
  deriving DecidableEq, Repr

/-- The pieces that the base and the device formats share (R317, R318): `la` [31:28], `t` [27], `s2` [26:25],
then the three register fields, funct3 and the opcode. -/
structure Fields where
  la : BitVec 4
  t : BitVec 1
  s2 : BitVec 2
  gs2 : BitVec 5
  gs1 : BitVec 5
  f3 : BitVec 3
  gd : BitVec 5
  op : BitVec 7
  deriving DecidableEq, Repr

/-- `len` bits of `w` from bit `lo` upwards. -/
def cut {n : Nat} (w : BitVec n) (lo len : Nat) : BitVec len := BitVec.ofNat len (w.toNat / 2 ^ lo)

/-- `hi` above `lo`, as `c` bits. -/
def cat {a b : Nat} (hi : BitVec a) (lo : BitVec b) (c : Nat) : BitVec c :=
  BitVec.ofNat c (hi.toNat * 2 ^ b + lo.toNat)

/-- The fields of a word. -/
def Fields.ofWord (w : Word32) : Fields :=
  ⟨cut w 28 4, cut w 27 1, cut w 25 2, cut w 20 5, cut w 15 5, cut w 12 3, cut w 7 5, cut w 0 7⟩

/-- The word of its fields. -/
def Fields.word (f : Fields) : Word32 :=
  BitVec.ofNat 32 (f.la.toNat * 268435456 + f.t.toNat * 134217728 + f.s2.toNat * 33554432 +
    f.gs2.toNat * 1048576 + f.gs1.toNat * 32768 + f.f3.toNat * 4096 + f.gd.toNat * 128 + f.op.toNat)

/-- The sub-opcode of an L or M format (R318): funct7[2:0] above funct3. -/
def Fields.sub (f : Fields) : Nat := f.t.toNat * 32 + f.s2.toNat * 8 + f.f3.toNat

/-- funct7 (R317). -/
def Fields.f7 (f : Fields) : Nat := f.la.toNat * 8 + f.t.toNat * 4 + f.s2.toNat

/-- imm[11:0] of the I format (R345). -/
def Fields.immI (f : Fields) : BitVec 12 :=
  BitVec.ofNat 12 (f.la.toNat * 256 + f.t.toNat * 128 + f.s2.toNat * 32 + f.gs2.toNat)

/-- imm[11:0] of the S format (R345). -/
def Fields.immS (f : Fields) : BitVec 12 :=
  BitVec.ofNat 12 (f.la.toNat * 256 + f.t.toNat * 128 + f.s2.toNat * 32 + f.gd.toNat)

/-- imm[31:12] of the U format (R345). -/
def Fields.immU (f : Fields) : BitVec 20 :=
  BitVec.ofNat 20 (f.la.toNat * 65536 + f.t.toNat * 32768 + f.s2.toNat * 8192 + f.gs2.toNat * 256 +
    f.gs1.toNat * 8 + f.f3.toNat)

/-- imm[12:1] of the B format (R345): imm[12] in [31], imm[10:5] in [30:25], imm[4:1] in [11:8], imm[11] in [7]. -/
def Fields.immB (f : Fields) : BitVec 12 :=
  BitVec.ofNat 12 (f.la.toNat / 8 * 2048 + f.gd.toNat % 2 * 1024 + f.la.toNat % 8 * 128 + f.t.toNat * 64 +
    f.s2.toNat * 16 + f.gd.toNat / 2)

/-- imm[20:1] of the J format (R345): imm[20] in [31], imm[10:1] in [30:21], imm[11] in [20], imm[19:12] in [19:12]. -/
def Fields.immJ (f : Fields) : BitVec 20 :=
  BitVec.ofNat 20 (f.la.toNat / 8 * 524288 + (f.gs1.toNat * 8 + f.f3.toNat) * 2048 + f.gs2.toNat % 2 * 1024 +
    f.la.toNat % 8 * 128 + f.t.toNat * 64 + f.s2.toNat * 16 + f.gs2.toNat / 2)

/-- The fields of an I-format word. -/
def encI (op f3 : Nat) (rd rs1 : RegNo) (imm : BitVec 12) : Fields :=
  ⟨cut imm 8 4, cut imm 7 1, cut imm 5 2, cut imm 0 5, rs1, BitVec.ofNat 3 f3, rd, BitVec.ofNat 7 op⟩

/-- The fields of an S-format word. -/
def encS (op f3 : Nat) (rs2 rs1 : RegNo) (imm : BitVec 12) : Fields :=
  ⟨cut imm 8 4, cut imm 7 1, cut imm 5 2, rs2, rs1, BitVec.ofNat 3 f3, cut imm 0 5, BitVec.ofNat 7 op⟩

/-- The fields of a U-format word. -/
def encU (op : Nat) (rd : RegNo) (imm : BitVec 20) : Fields :=
  ⟨cut imm 16 4, cut imm 15 1, cut imm 13 2, cut imm 8 5, cut imm 3 5, cut imm 0 3, rd, BitVec.ofNat 7 op⟩

/-- The fields of a B-format word; `off` is imm[12:1]. -/
def encB (op f3 : Nat) (rs1 rs2 : RegNo) (off : BitVec 12) : Fields :=
  ⟨cat (cut off 11 1) (cut off 7 3) 4, cut off 6 1, cut off 4 2, rs2, rs1, BitVec.ofNat 3 f3,
    cat (cut off 0 4) (cut off 10 1) 5, BitVec.ofNat 7 op⟩

/-- The fields of a J-format word; `off` is imm[20:1]. -/
def encJ (op : Nat) (rd : RegNo) (off : BitVec 20) : Fields :=
  ⟨cat (cut off 19 1) (cut off 7 3) 4, cut off 6 1, cut off 4 2, cat (cut off 0 4) (cut off 10 1) 5,
    cut off 14 5, cut off 11 3, rd, BitVec.ofNat 7 op⟩

/-- The fields of an R-format word. -/
def encR (op f3 f7 : Nat) (rd rs1 rs2 : RegNo) : Fields :=
  ⟨BitVec.ofNat 4 (f7 / 8), BitVec.ofNat 1 (f7 / 4 % 2), BitVec.ofNat 2 (f7 % 4), rs2, rs1, BitVec.ofNat 3 f3, rd,
    BitVec.ofNat 7 op⟩

/-- The fields of an L- or M-format word (R318). -/
def encL (op sub : Nat) (la : BitVec 4) (gd gs1 gs2 : BitVec 5) : Fields :=
  ⟨la, BitVec.ofNat 1 (sub / 32), BitVec.ofNat 2 (sub / 8 % 4), gs2, gs1, BitVec.ofNat 3 (sub % 8), gd,
    BitVec.ofNat 7 op⟩

/-- The fields of a T-format word (R318): gs3 lies in [31:27]. -/
def encT (sub : Nat) (gd gs1 gs2 gs3 : BitVec 5) : Fields :=
  ⟨cut gs3 1 4, cut gs3 0 1, BitVec.ofNat 2 (sub / 8), gs2, gs1, BitVec.ofNat 3 (sub % 8), gd, 0x7B#7⟩

/-- gs3 of a T-format word. -/
def Fields.gs3 (f : Fields) : BitVec 5 := cat f.la f.t 5

/-- The fields of an encoded instruction (`none` for a step that no word names), written from the encoding
tables of the rules cited above. -/
def encodeFields : Instr → Option Fields
  | .lui rd imm => some (encU 0x37 rd imm)
  | .auipc rd imm => some (encU 0x17 rd imm)
  | .jal rd off => some (encJ 0x6f rd off)
  | .jalr rd rs1 imm => some (encI 0x67 0 rd rs1 imm)
  | .beq rs1 rs2 off => some (encB 0x63 0 rs1 rs2 off)
  | .bne rs1 rs2 off => some (encB 0x63 1 rs1 rs2 off)
  | .blt rs1 rs2 off => some (encB 0x63 4 rs1 rs2 off)
  | .bge rs1 rs2 off => some (encB 0x63 5 rs1 rs2 off)
  | .bltu rs1 rs2 off => some (encB 0x63 6 rs1 rs2 off)
  | .bgeu rs1 rs2 off => some (encB 0x63 7 rs1 rs2 off)
  | .ldI8 rd rs1 imm => some (encI 0x3 0 rd rs1 imm)
  | .ldI16 rd rs1 imm => some (encI 0x3 1 rd rs1 imm)
  | .ldI32 rd rs1 imm => some (encI 0x3 2 rd rs1 imm)
  | .ldI64 rd rs1 imm => some (encI 0x3 3 rd rs1 imm)
  | .ldN8 rd rs1 imm => some (encI 0x3 4 rd rs1 imm)
  | .ldN16 rd rs1 imm => some (encI 0x3 5 rd rs1 imm)
  | .ldN32 rd rs1 imm => some (encI 0x3 6 rd rs1 imm)
  | .stI8 rs2 rs1 imm => some (encS 0x23 0 rs2 rs1 imm)
  | .stI16 rs2 rs1 imm => some (encS 0x23 1 rs2 rs1 imm)
  | .stI32 rs2 rs1 imm => some (encS 0x23 2 rs2 rs1 imm)
  | .stI64 rs2 rs1 imm => some (encS 0x23 3 rs2 rs1 imm)
  | .addi rd rs1 imm => some (encI 0x13 0 rd rs1 imm)
  | .slti rd rs1 imm => some (encI 0x13 2 rd rs1 imm)
  | .sltiu rd rs1 imm => some (encI 0x13 3 rd rs1 imm)
  | .xori rd rs1 imm => some (encI 0x13 4 rd rs1 imm)
  | .ori rd rs1 imm => some (encI 0x13 6 rd rs1 imm)
  | .andi rd rs1 imm => some (encI 0x13 7 rd rs1 imm)
  | .slli rd rs1 sh => some (encI 0x13 1 rd rs1 (BitVec.ofNat 12 (0 + sh.toNat)))
  | .srli rd rs1 sh => some (encI 0x13 5 rd rs1 (BitVec.ofNat 12 (0 + sh.toNat)))
  | .srai rd rs1 sh => some (encI 0x13 5 rd rs1 (BitVec.ofNat 12 (1024 + sh.toNat)))
  | .addiw rd rs1 imm => some (encI 0x1b 0 rd rs1 imm)
  | .slliw rd rs1 sh => some (encR 0x1b 1 0 rd rs1 sh)
  | .srliw rd rs1 sh => some (encR 0x1b 5 0 rd rs1 sh)
  | .sraiw rd rs1 sh => some (encR 0x1b 5 32 rd rs1 sh)
  | .add gd gs1 gs2 => some (encR 0x33 0 0 gd gs1 gs2)
  | .sub gd gs1 gs2 => some (encR 0x33 0 32 gd gs1 gs2)
  | .sll gd gs1 gs2 => some (encR 0x33 1 0 gd gs1 gs2)
  | .slt gd gs1 gs2 => some (encR 0x33 2 0 gd gs1 gs2)
  | .sltu gd gs1 gs2 => some (encR 0x33 3 0 gd gs1 gs2)
  | .xor gd gs1 gs2 => some (encR 0x33 4 0 gd gs1 gs2)
  | .srl gd gs1 gs2 => some (encR 0x33 5 0 gd gs1 gs2)
  | .sra gd gs1 gs2 => some (encR 0x33 5 32 gd gs1 gs2)
  | .or gd gs1 gs2 => some (encR 0x33 6 0 gd gs1 gs2)
  | .and gd gs1 gs2 => some (encR 0x33 7 0 gd gs1 gs2)
  | .addw gd gs1 gs2 => some (encR 0x3b 0 0 gd gs1 gs2)
  | .subw gd gs1 gs2 => some (encR 0x3b 0 32 gd gs1 gs2)
  | .sllw gd gs1 gs2 => some (encR 0x3b 1 0 gd gs1 gs2)
  | .srlw gd gs1 gs2 => some (encR 0x3b 5 0 gd gs1 gs2)
  | .sraw gd gs1 gs2 => some (encR 0x3b 5 32 gd gs1 gs2)
  | .mul gd gs1 gs2 => some (encR 0x33 0 1 gd gs1 gs2)
  | .mulh gd gs1 gs2 => some (encR 0x33 1 1 gd gs1 gs2)
  | .mulhsu gd gs1 gs2 => some (encR 0x33 2 1 gd gs1 gs2)
  | .mulhu gd gs1 gs2 => some (encR 0x33 3 1 gd gs1 gs2)
  | .div gd gs1 gs2 => some (encR 0x33 4 1 gd gs1 gs2)
  | .divu gd gs1 gs2 => some (encR 0x33 5 1 gd gs1 gs2)
  | .rem gd gs1 gs2 => some (encR 0x33 6 1 gd gs1 gs2)
  | .remu gd gs1 gs2 => some (encR 0x33 7 1 gd gs1 gs2)
  | .mulw gd gs1 gs2 => some (encR 0x3b 0 1 gd gs1 gs2)
  | .divw gd gs1 gs2 => some (encR 0x3b 4 1 gd gs1 gs2)
  | .divuw gd gs1 gs2 => some (encR 0x3b 5 1 gd gs1 gs2)
  | .remw gd gs1 gs2 => some (encR 0x3b 6 1 gd gs1 gs2)
  | .remuw gd gs1 gs2 => some (encR 0x3b 7 1 gd gs1 gs2)
  | .fence imm rs1 rd => some (encI 0xf 0 rd rs1 imm)
  | .ecall => some (encI 0x73 0 0 0 0)
  | .ebreak => some (encI 0x73 0 0 0 1)
  | .ldlI8 la gd gs1 off => some (encL 0xb 0 la gd gs1 off)
  | .ldlN8 la gd gs1 off => some (encL 0xb 1 la gd gs1 off)
  | .ldlI16 la gd gs1 off => some (encL 0xb 2 la gd gs1 off)
  | .ldlN16 la gd gs1 off => some (encL 0xb 3 la gd gs1 off)
  | .ldlI32 la gd gs1 off => some (encL 0xb 4 la gd gs1 off)
  | .ldlN32 la gd gs1 off => some (encL 0xb 5 la gd gs1 off)
  | .ldlI64 la gd gs1 off => some (encL 0xb 6 la gd gs1 off)
  | .ldq la gd gs1 off => some (encL 0xb 7 la gd gs1 off)
  | .stlI8 la gs1 gs2 off => some (encL 0xb 8 la off gs1 gs2)
  | .stlI16 la gs1 gs2 off => some (encL 0xb 9 la off gs1 gs2)
  | .stlI32 la gs1 gs2 off => some (encL 0xb 10 la off gs1 gs2)
  | .stlI64 la gs1 gs2 off => some (encL 0xb 11 la off gs1 gs2)
  | .stq la gs1 gs2 off => some (encL 0xb 12 la off gs1 gs2)
  | .sbB la gs1 gs2 off => some (encL 0xb 13 la off gs1 gs2)
  | .cld la gd gs1 off => some (encL 0xb 14 la gd gs1 off)
  | .cst la gs1 gs2 off => some (encL 0xb 15 la off gs1 gs2)
  | .ldacqI64 la gd gs1 off => some (encL 0xb 16 la gd gs1 off)
  | .ldacqQ la gd gs1 off => some (encL 0xb 17 la gd gs1 off)
  | .strelI64 la gs1 gs2 off => some (encL 0xb 18 la off gs1 gs2)
  | .strelQ la gs1 gs2 off => some (encL 0xb 19 la off gs1 gs2)
  | .fenceRel la gs1 => some (encL 0xb 20 la 0 gs1 1)
  | .fenceAcq la gs1 => some (encL 0xb 20 la 0 gs1 2)
  | .fenceFull la gs1 => some (encL 0xb 20 la 0 gs1 3)
  | .pref la gs1 off hint => some (encL 0xb 21 la hint gs1 off)
  | .pin la gd gs1 off => some (encL 0xb 22 la gd gs1 off)
  | .unpin la gd gs1 off => some (encL 0xb 23 la gd gs1 off)
  | .afadd ord wd gd gs1 gs2 => some (encL 0xb 24 (cat ord wd 4) gd gs1 gs2)
  | .aswap ord wd gd gs1 gs2 => some (encL 0xb 25 (cat ord wd 4) gd gs1 gs2)
  | .acas64 ord gd gs1 gs2 => some (encL 0xb 26 (cat ord 0#2 4) gd gs1 gs2)
  | .acas128 ord gd gs1 gs2 => some (encL 0xb 27 (cat ord 0#2 4) gd gs1 gs2)
  | .amax ord wd gd gs1 gs2 => some (encL 0xb 28 (cat ord wd 4) gd gs1 gs2)
  | .amin ord wd gd gs1 gs2 => some (encL 0xb 29 (cat ord wd 4) gd gs1 gs2)
  | .aand ord wd gd gs1 gs2 => some (encL 0xb 30 (cat ord wd 4) gd gs1 gs2)
  | .aor ord wd gd gs1 gs2 => some (encL 0xb 31 (cat ord wd 4) gd gs1 gs2)
  | .axor ord wd gd gs1 gs2 => some (encL 0xb 32 (cat ord wd 4) gd gs1 gs2)
  | .cflush la gs1 off => some (encL 0xb 33 la 0 gs1 off)
  | .cmov la gd gs1 => some (encL 0xb 34 la gd gs1 0)
  | .csetaddr la gd gs1 gs2 => some (encL 0xb 35 la gd gs1 gs2)
  | .cincaddr la gd gs1 gs2 => some (encL 0xb 36 la gd gs1 gs2)
  | .cincaddri la gd gs1 imm => some (encL 0xb 37 la gd gs1 imm)
  | .csetbnd la gd gs1 gs2 => some (encL 0xb 38 la gd gs1 gs2)
  | .candperm la gd gs1 gs2 => some (encL 0xb 39 la gd gs1 gs2)
  | .cseal la gd gs1 => some (encL 0xb 40 la gd gs1 0)
  | .cget la gd gs1 sel => some (encL 0xb 41 la gd gs1 sel)
  | .cellFree gd gs1 => some (encL 0xb 42 0 gd gs1 0)
  | .cntInit gd gs1 gs2 => some (encL 0xb 42 1 gd gs1 gs2)
  | .barInit gd gs1 gs2 => some (encL 0xb 42 2 gd gs1 gs2)
  | .lckInit gd gs1 => some (encL 0xb 42 3 gd gs1 0)
  | .queInit gd gs1 gs2 => some (encL 0xb 42 4 gd gs1 gs2)
  | .cndInit gd gs1 => some (encL 0xb 42 5 gd gs1 0)
  | .cellQuery la gd gs1 sel => some (encL 0xb 43 la gd gs1 sel)
  | .cntAdd la gd gs1 gs2 => some (encL 0xb 44 la gd gs1 gs2)
  | .cntWait la gd gs1 => some (encL 0xb 45 la gd gs1 0)
  | .cntArm la gd gs1 gs2 => some (encL 0xb 46 la gd gs1 gs2)
  | .cntDisarm la gd gs1 => some (encL 0xb 47 la gd gs1 0)
  | .barArrive la gd gs1 => some (encL 0xb 48 la gd gs1 0)
  | .barWait la gd gs1 gs2 => some (encL 0xb 49 la gd gs1 gs2)
  | .barSync la gd gs1 => some (encL 0xb 50 la gd gs1 0)
  | .lckAcq la gd gs1 => some (encL 0xb 51 la gd gs1 0)
  | .lckTry la gd gs1 => some (encL 0xb 52 la gd gs1 0)
  | .lckRel la gd gs1 => some (encL 0xb 53 la gd gs1 0)
  | .quePush la gd gs1 gs2 => some (encL 0xb 54 la gd gs1 gs2)
  | .quePop la gd gs1 gs2 => some (encL 0xb 55 la gd gs1 gs2)
  | .queTrypush la gd gs1 gs2 => some (encL 0xb 56 la gd gs1 gs2)
  | .queTrypop la gd gs1 gs2 => some (encL 0xb 57 la gd gs1 gs2)
  | .cndWait la gd gs1 gs2 => some (encL 0xb 58 la gd gs1 gs2)
  | .cndSignal la gd gs1 => some (encL 0xb 59 la gd gs1 0)
  | .cndBcast la gd gs1 => some (encL 0xb 60 la gd gs1 0)
  | .rowop la gd gs1 gs2 => some (encL 0xb 62 la gd gs1 gs2)
  | .cvset la gs1 n => some (encL 0x2b 0 la (n.setWidth 5) gs1 0)
  | .cvpush la n => some (encL 0x2b 1 la (n.setWidth 5) 0 0)
  | .cvquery la gd n => some (encL 0x2b 2 la gd (n.setWidth 5) 0)
  | .mrec la acc fmt ca cb => some (encL 0x2b 3 la (cat fmt acc 5) (ca.setWidth 5) (cb.setWidth 5))
  | .mrload la gs1 => some (encL 0x2b 4 la 0 gs1 0)
  | .mdrain la acc clr gs1 gs2 => some (encL 0x2b 5 la (cat clr acc 5) gs1 gs2)
  | .mzero la n => some (encL 0x2b 6 la (n.setWidth 5) 0 0)
  | .ewait la gd sel => some (encL 0x2b 7 la gd (sel.setWidth 5) 0)
  | .copy la gs1 gs2 => some (encL 0x2b 8 la 0 gs1 gs2)
  | .copy2d la gs1 gs2 => some (encL 0x2b 9 la 0 gs1 gs2)
  | .gather la gs1 gs2 => some (encL 0x2b 10 la 0 gs1 gs2)
  | .scatter la gs1 gs2 => some (encL 0x2b 11 la 0 gs1 gs2)
  | .fill la gs1 gs2 => some (encL 0x2b 12 la 0 gs1 gs2)
  | .sbind la n => some (encL 0x2b 13 la (n.setWidth 5) 0 0)
  | .sunbind la n => some (encL 0x2b 14 la (n.setWidth 5) 0 0)
  | .xprog la gd gs1 gs2 => some (encL 0x2b 16 la gd gs1 gs2)
  | .xcal la gs1 gs2 => some (encL 0x2b 17 la 0 gs1 gs2)
  | .xmvm la gd gs1 gs2 => some (encL 0x2b 18 la gd gs1 gs2)
  | .xwait la gd sel => some (encL 0x2b 19 la gd (sel.setWidth 5) 0)
  | .accept la gd gs1 => some (encL 0x2b 20 la gd gs1 0)
  | .acceptSp la gd gs1 => some (encL 0x2b 20 la gd gs1 1)
  | .acceptAcc la n => some (encL 0x2b 20 la 0 0 (cat 1#1 n 5))
  | .vsetcfg la gd gs1 => some (encL 0x2b 24 la gd gs1 0)
  | .vadd la gd gs1 gs2 => some (encL 0x2b 25 la gd gs1 gs2)
  | .vsub la gd gs1 gs2 => some (encL 0x2b 26 la gd gs1 gs2)
  | .vmul la gd gs1 gs2 => some (encL 0x2b 27 la gd gs1 gs2)
  | .vfma la gd gs1 gs2 => some (encL 0x2b 28 la gd gs1 gs2)
  | .vmax la gd gs1 gs2 => some (encL 0x2b 29 la gd gs1 gs2)
  | .vmin la gd gs1 gs2 => some (encL 0x2b 30 la gd gs1 gs2)
  | .vabs la gd gs1 => some (encL 0x2b 31 la gd gs1 0)
  | .vneg la gd gs1 => some (encL 0x2b 32 la gd gs1 0)
  | .vadds la gd gs1 gs2 => some (encL 0x2b 33 la gd gs1 gs2)
  | .vmuls la gd gs1 gs2 => some (encL 0x2b 34 la gd gs1 gs2)
  | .vcvt la gd gs1 sat fmt => some (encL 0x2b 35 la gd gs1 (cat sat fmt 5))
  | .vexp la gd gs1 => some (encL 0x2b 36 la gd gs1 0)
  | .vrcp la gd gs1 => some (encL 0x2b 37 la gd gs1 0)
  | .vrsqrt la gd gs1 => some (encL 0x2b 38 la gd gs1 0)
  | .vsum la gd gs1 => some (encL 0x2b 39 la gd gs1 0)
  | .vmaxr la gd gs1 => some (encL 0x2b 40 la gd gs1 0)
  | .vargmax la gd gs1 => some (encL 0x2b 41 la gd gs1 0)
  | .vsel la gd gs1 gs2 => some (encL 0x2b 42 la gd gs1 gs2)
  | .vcmplt la gd gs1 gs2 => some (encL 0x2b 43 la gd gs1 gs2)
  | .vand la gd gs1 gs2 => some (encL 0x2b 44 la gd gs1 gs2)
  | .vor la gd gs1 gs2 => some (encL 0x2b 45 la gd gs1 gs2)
  | .vxor la gd gs1 gs2 => some (encL 0x2b 46 la gd gs1 gs2)
  | .vmov la gd gs1 => some (encL 0x2b 47 la gd gs1 0)
  | .vfill la gd gs2 => some (encL 0x2b 48 la gd 0 gs2)
  | .fork la gd gs1 gs2 => some (encL 0x5b 0 la gd gs1 gs2)
  | .join la gs1 => some (encL 0x5b 1 la 0 gs1 0)
  | .spawn n gd gs1 gs2 => some (encL 0x5b 2 n gd gs1 gs2)
  | .exit la => some (encL 0x5b 3 la 0 0 0)
  | .yield la gs1 => some (encL 0x5b 4 la 0 gs1 0)
  | .trigger la => some (encL 0x5b 5 la 0 0 0)
  | .send n gd gs2 => some (encL 0x5b 6 n gd 0 gs2)
  | .lbsend n gd gs1 gs2 => some (encL 0x5b 7 n gd gs1 gs2)
  | .rcall n r gd gs1 gs2 => some (encL 0x5b (8 + r.toNat) n gd gs1 gs2)
  | .rpost n gs1 gs2 => some (encL 0x5b 12 n 0 gs1 gs2)
  | .rreply n gs2 => some (encL 0x5b 13 n 0 0 gs2)
  | .migrate la gs1 => some (encL 0x5b 14 la 0 gs1 0)
  | .atake la gd => some (encL 0x5b 15 la gd 0 0)
  | .hold la gd gs1 => some (encL 0x5b 16 la gd gs1 0)
  | .unhold la gd gs1 => some (encL 0x5b 17 la gd gs1 0)
  | .catset la gs2 sel => some (encL 0x5b 18 la 0 sel gs2)
  | .bind la gd sel => some (encL 0x5b 19 la gd sel 0)
  | .unbind la => some (encL 0x5b 20 la 0 0 0)
  | .gpos la gd sel => some (encL 0x5b 21 la gd sel 0)
  | .crrd la gd sel => some (encL 0x5b 32 la gd 0 sel)
  | .crwr la gd gs1 sel => some (encL 0x5b 33 la gd gs1 sel)
  | .crset la gd gs1 sel => some (encL 0x5b 34 la gd gs1 sel)
  | .crclr la gd gs1 sel => some (encL 0x5b 35 la gd gs1 sel)
  | .tret la => some (encL 0x5b 36 la 0 0 0)
  | .ctxsave la gd gs1 gs2 => some (encL 0x5b 37 la gd gs1 gs2)
  | .ctxload la gd gs1 gs2 => some (encL 0x5b 38 la gd gs1 gs2)
  | .preack la gd gs1 => some (encL 0x5b 39 la gd gs1 0)
  | .tdrain la gd gs1 gs2 => some (encL 0x5b 40 la gd gs1 gs2)
  | .tconfirm la gd gs1 => some (encL 0x5b 41 la gd gs1 0)
  | .evrd la gd sel => some (encL 0x5b 42 la gd sel 0)
  | .evclr la gs1 => some (encL 0x5b 43 la 0 gs1 0)
  | .finject la gd gs1 sel => some (encL 0x5b 44 la gd gs1 (sel.setWidth 5))
  | .gpreempt la gd gs1 => some (encL 0x5b 45 la gd gs1 0)
  | .gpreemptEnd la gd gs1 => some (encL 0x5b 45 la gd gs1 1)
  | .gresume la gd gs1 => some (encL 0x5b 46 la gd gs1 0)
  | .mmaE4e4 acc ca cb gs3 => some (encT 0 (acc.setWidth 5) (ca.setWidth 5) (cb.setWidth 5) gs3)
  | .mmaE4e5 acc ca cb gs3 => some (encT 1 (acc.setWidth 5) (ca.setWidth 5) (cb.setWidth 5) gs3)
  | .mmaE5e4 acc ca cb gs3 => some (encT 2 (acc.setWidth 5) (ca.setWidth 5) (cb.setWidth 5) gs3)
  | .mmaE5e5 acc ca cb gs3 => some (encT 3 (acc.setWidth 5) (ca.setWidth 5) (cb.setWidth 5) gs3)
  | .mmaH acc ca cb gs3 => some (encT 4 (acc.setWidth 5) (ca.setWidth 5) (cb.setWidth 5) gs3)
  | .mmaB acc ca cb gs3 => some (encT 5 (acc.setWidth 5) (ca.setWidth 5) (cb.setWidth 5) gs3)
  | .mmaS acc ca cb gs3 => some (encT 6 (acc.setWidth 5) (ca.setWidth 5) (cb.setWidth 5) gs3)
  | .mmaI8 acc ca cb gs3 => some (encT 7 (acc.setWidth 5) (ca.setWidth 5) (cb.setWidth 5) gs3)
  | .mmaNi acc km1 ca cb gs3 => some (encT 8 (cat km1 acc 5) (ca.setWidth 5) (cb.setWidth 5) gs3)
  | .fmaddS gd gs1 gs2 gs3 => some (encT 16 gd gs1 gs2 gs3)
  | .fmsubS gd gs1 gs2 gs3 => some (encT 17 gd gs1 gs2 gs3)
  | .fnmaddS gd gs1 gs2 gs3 => some (encT 18 gd gs1 gs2 gs3)
  | .fnmsubS gd gs1 gs2 gs3 => some (encT 19 gd gs1 gs2 gs3)
  | .faddS gd gs1 gs2 => some (encT 20 gd gs1 gs2 0)
  | .fsubS gd gs1 gs2 => some (encT 21 gd gs1 gs2 0)
  | .fmulS gd gs1 gs2 => some (encT 22 gd gs1 gs2 0)
  | .fdivS gd gs1 gs2 => some (encT 23 gd gs1 gs2 0)
  | .fsqrtS gd gs1 => some (encT 24 gd gs1 0 0)
  | .fminS gd gs1 gs2 => some (encT 25 gd gs1 gs2 0)
  | .fmaxS gd gs1 gs2 => some (encT 26 gd gs1 gs2 0)
  | .feqS gd gs1 gs2 => some (encT 27 gd gs1 gs2 0)
  | .fltS gd gs1 gs2 => some (encT 28 gd gs1 gs2 0)
  | .fleS gd gs1 gs2 => some (encT 29 gd gs1 gs2 0)
  | .fcvt gd gs1 src sat dst => some (encT 30 gd gs1 (cat sat dst 5) (src.setWidth 5))
  | .powerOn => none
  | .carrierReset => none
  | .startWatchdog => none
  | .governorWindow => none
  | .levelStepDone => none
  | .nrctlWrite => none
  | .limiterSample => none
  | .thermalLimit => none
  | .thermalPreempt => none
  | .thermalClear => none
  | .thermalShutdown => none
  | .sliceScrub => none
  | .hbmRowScrub => none
  | .crossingFail => none
  | .groupReceive => none
  | .laneLockLoss => none
  | .retrainEnd => none
  | .fpctlEn => none
  | .fpctlDown => none
  | .fshareWrite => none
  | .hshareWrite => none
  | .sshareWrite => none
  | .enforcementWindow => none
  | .fabricPacket => none
  | .memoryRead => none
  | .memoryWrite => none
  | .cellRequest => none
  | .hostCancel => none
  | .unsupportedRequest => none
  | .streamRequestIssue => none
  | .eventRecordSend => none
  | .attachQueue => none
  | .detachQueue => none
  | .resetQueue => none
  | .setStream => none
  | .negotiate => none
  | .readCap => none
  | .readStart => none
  | .clearStart => none
  | .selectSlot => none
  | .attest => none
  | .relocate => none
  | .setSetup => none
  | .queueAgentPop => none
  | .launch => none
  | .wait => none
  | .signal => none
  | .write => none
  | .event => none
  | .nop => none
  | .launchReady => none
  | .placeGrid => none
  | .coreSetup => none
  | .dealTask => none
  | .footprintCopy => none
  | .triggerRelease => none
  | .completionRelease => none
  | .taskSelect => none
  | .taskStart => none
  | .messageArrival => none
  | .messageReady => none
  | .annexStart => none
  | .stealRequest => none
  | .stealRetry => none
  | .migrateArrival => none
  | .callSlip => none
  | .rcallReply => none
  | .yieldExpiry => none
  | .memoryReply => none
  | .storeAck => none
  | .postedTimeout => none
  | .replyDeadline => none
  | .elMaterialise => none
  | .registerImageWrite => none
  | .hlinWrite => none
  | .ctxbaseWrite => none
  | .eltabWrite => none
  | .rtabWrite => none
  | .xctlWrite => none
  | .mqctlWrite => none
  | .muDoorbell => none
  | .copyDoorbell => none
  | .vectorDoorbell => none
  | .carouselDescriptorWrite => none
  | .registerWrite => none
  | .query => none
  | .free => none
  | .init => none
  | .cadd => none
  | .cwait => none
  | .carm => none
  | .cdisarm => none
  | .barrive => none
  | .bwait => none
  | .bsync => none
  | .bpendadd => none
  | .bpendsub => none
  | .lacq => none
  | .ltry => none
  | .lrel => none
  | .qpush => none
  | .qpop => none
  | .qtrypush => none
  | .qtrypop => none
  | .vwait => none
  | .vsignal => none
  | .vbcast => none
  | .result => none
  | .wake => none
  | .boost => none
  | .expire => none
  | .prioset => none
  | .cancel => none
  | .censusreq => none
  | .census => none
  | .censusEntryTimeout => none
  | .deskResend => none
  | .muStep => none
  | .drainClose => none
  | .vectorCommand => none
  | .copyChunk => none
  | .streamElement => none
  | .xuProduct => none
  | .xprogRow => none
  | .xcalStep => none
  | .rowOpComplete => none
  | .preemptBoundary => none
  | .saveComplete => none
  | .powerLoss => none
  | .softError => none
  | .illegalInstruction => none
  | .overlayTrap => none
  | .thermalLimitExit => none

/-- LOAD (R364 Table 2). -/
def decodeLoad (f : Fields) : Except Reject Instr :=
  match f.f3.toNat with
  | 0 => .ok (.ldI8 f.gd f.gs1 f.immI)
  | 1 => .ok (.ldI16 f.gd f.gs1 f.immI)
  | 2 => .ok (.ldI32 f.gd f.gs1 f.immI)
  | 3 => .ok (.ldI64 f.gd f.gs1 f.immI)
  | 4 => .ok (.ldN8 f.gd f.gs1 f.immI)
  | 5 => .ok (.ldN16 f.gd f.gs1 f.immI)
  | 6 => .ok (.ldN32 f.gd f.gs1 f.immI)
  | _ => .error .subOpcode

/-- STORE (R364 Table 2). -/
def decodeStore (f : Fields) : Except Reject Instr :=
  match f.f3.toNat with
  | 0 => .ok (.stI8 f.gs2 f.gs1 f.immS)
  | 1 => .ok (.stI16 f.gs2 f.gs1 f.immS)
  | 2 => .ok (.stI32 f.gs2 f.gs1 f.immS)
  | 3 => .ok (.stI64 f.gs2 f.gs1 f.immS)
  | _ => .error .subOpcode

/-- BRANCH (R352). -/
def decodeBranch (f : Fields) : Except Reject Instr :=
  match f.f3.toNat with
  | 0 => .ok (.beq f.gs1 f.gs2 f.immB)
  | 1 => .ok (.bne f.gs1 f.gs2 f.immB)
  | 4 => .ok (.blt f.gs1 f.gs2 f.immB)
  | 5 => .ok (.bge f.gs1 f.gs2 f.immB)
  | 6 => .ok (.bltu f.gs1 f.gs2 f.immB)
  | 7 => .ok (.bgeu f.gs1 f.gs2 f.immB)
  | _ => .error .subOpcode

/-- OP-IMM (R346 Table 2, R347). -/
def decodeOpImm (f : Fields) : Except Reject Instr :=
  match f.f3.toNat with
  | 0 => .ok (.addi f.gd f.gs1 f.immI)
  | 1 => if f.immI.toNat / 64 = 0 then .ok (.slli f.gd f.gs1 (cut f.immI 0 6)) else .error .subOpcode
  | 2 => .ok (.slti f.gd f.gs1 f.immI)
  | 3 => .ok (.sltiu f.gd f.gs1 f.immI)
  | 4 => .ok (.xori f.gd f.gs1 f.immI)
  | 5 => if f.immI.toNat / 64 = 0 then .ok (.srli f.gd f.gs1 (cut f.immI 0 6))
    else if f.immI.toNat / 64 = 16 then .ok (.srai f.gd f.gs1 (cut f.immI 0 6)) else .error .subOpcode
  | 6 => .ok (.ori f.gd f.gs1 f.immI)
  | 7 => .ok (.andi f.gd f.gs1 f.immI)
  | _ => .error .subOpcode

/-- OP-IMM-32 (R346 Table 2, R347). -/
def decodeOpImm32 (f : Fields) : Except Reject Instr :=
  match (f.f3.toNat, f.f7) with
  | (0, _) => .ok (.addiw f.gd f.gs1 f.immI)
  | (1, 0) => .ok (.slliw f.gd f.gs1 f.gs2)
  | (5, 0) => .ok (.srliw f.gd f.gs1 f.gs2)
  | (5, 32) => .ok (.sraiw f.gd f.gs1 f.gs2)
  | _ => .error .subOpcode

/-- OP (R346 Table 2, R348 Table 3). -/
def decodeOp (f : Fields) : Except Reject Instr :=
  match (f.f7, f.f3.toNat) with
  | (0, 0) => .ok (.add f.gd f.gs1 f.gs2)
  | (0, 1) => .ok (.sll f.gd f.gs1 f.gs2)
  | (0, 2) => .ok (.slt f.gd f.gs1 f.gs2)
  | (0, 3) => .ok (.sltu f.gd f.gs1 f.gs2)
  | (0, 4) => .ok (.xor f.gd f.gs1 f.gs2)
  | (0, 5) => .ok (.srl f.gd f.gs1 f.gs2)
  | (0, 6) => .ok (.or f.gd f.gs1 f.gs2)
  | (0, 7) => .ok (.and f.gd f.gs1 f.gs2)
  | (1, 0) => .ok (.mul f.gd f.gs1 f.gs2)
  | (1, 1) => .ok (.mulh f.gd f.gs1 f.gs2)
  | (1, 2) => .ok (.mulhsu f.gd f.gs1 f.gs2)
  | (1, 3) => .ok (.mulhu f.gd f.gs1 f.gs2)
  | (1, 4) => .ok (.div f.gd f.gs1 f.gs2)
  | (1, 5) => .ok (.divu f.gd f.gs1 f.gs2)
  | (1, 6) => .ok (.rem f.gd f.gs1 f.gs2)
  | (1, 7) => .ok (.remu f.gd f.gs1 f.gs2)
  | (32, 0) => .ok (.sub f.gd f.gs1 f.gs2)
  | (32, 5) => .ok (.sra f.gd f.gs1 f.gs2)
  | _ => .error .subOpcode

/-- OP-32 (R346 Table 2, R348 Table 3). -/
def decodeOp32 (f : Fields) : Except Reject Instr :=
  match (f.f7, f.f3.toNat) with
  | (0, 0) => .ok (.addw f.gd f.gs1 f.gs2)
  | (0, 1) => .ok (.sllw f.gd f.gs1 f.gs2)
  | (0, 5) => .ok (.srlw f.gd f.gs1 f.gs2)
  | (1, 0) => .ok (.mulw f.gd f.gs1 f.gs2)
  | (1, 4) => .ok (.divw f.gd f.gs1 f.gs2)
  | (1, 5) => .ok (.divuw f.gd f.gs1 f.gs2)
  | (1, 6) => .ok (.remw f.gd f.gs1 f.gs2)
  | (1, 7) => .ok (.remuw f.gd f.gs1 f.gs2)
  | (32, 0) => .ok (.subw f.gd f.gs1 f.gs2)
  | (32, 5) => .ok (.sraw f.gd f.gs1 f.gs2)
  | _ => .error .subOpcode

/-- custom-0 (R326 Table 8, R201). -/
def decodeCustom0 (f : Fields) : Except Reject Instr :=
  match f.sub with
  | 0 => .ok (.ldlI8 f.la f.gd f.gs1 f.gs2)
  | 1 => .ok (.ldlN8 f.la f.gd f.gs1 f.gs2)
  | 2 => .ok (.ldlI16 f.la f.gd f.gs1 f.gs2)
  | 3 => .ok (.ldlN16 f.la f.gd f.gs1 f.gs2)
  | 4 => .ok (.ldlI32 f.la f.gd f.gs1 f.gs2)
  | 5 => .ok (.ldlN32 f.la f.gd f.gs1 f.gs2)
  | 6 => .ok (.ldlI64 f.la f.gd f.gs1 f.gs2)
  | 7 => .ok (.ldq f.la f.gd f.gs1 f.gs2)
  | 8 => .ok (.stlI8 f.la f.gs1 f.gs2 f.gd)
  | 9 => .ok (.stlI16 f.la f.gs1 f.gs2 f.gd)
  | 10 => .ok (.stlI32 f.la f.gs1 f.gs2 f.gd)
  | 11 => .ok (.stlI64 f.la f.gs1 f.gs2 f.gd)
  | 12 => .ok (.stq f.la f.gs1 f.gs2 f.gd)
  | 13 => .ok (.sbB f.la f.gs1 f.gs2 f.gd)
  | 14 => .ok (.cld f.la f.gd f.gs1 f.gs2)
  | 15 => .ok (.cst f.la f.gs1 f.gs2 f.gd)
  | 16 => .ok (.ldacqI64 f.la f.gd f.gs1 f.gs2)
  | 17 => .ok (.ldacqQ f.la f.gd f.gs1 f.gs2)
  | 18 => .ok (.strelI64 f.la f.gs1 f.gs2 f.gd)
  | 19 => .ok (.strelQ f.la f.gs1 f.gs2 f.gd)
  | 20 => if f.gs2 = 1 ∧ f.gd = 0 then .ok (.fenceRel f.la f.gs1)
    else if f.gs2 = 2 ∧ f.gd = 0 then .ok (.fenceAcq f.la f.gs1)
    else if f.gs2 = 3 ∧ f.gd = 0 then .ok (.fenceFull f.la f.gs1)
    else .error .fieldValue
  | 21 => .ok (.pref f.la f.gs1 f.gs2 f.gd)
  | 22 => .ok (.pin f.la f.gd f.gs1 f.gs2)
  | 23 => .ok (.unpin f.la f.gd f.gs1 f.gs2)
  | 24 => .ok (.afadd (cut f.la 2 2) (cut f.la 0 2) f.gd f.gs1 f.gs2)
  | 25 => .ok (.aswap (cut f.la 2 2) (cut f.la 0 2) f.gd f.gs1 f.gs2)
  | 26 => if cut f.la 0 2 = 0#2 then .ok (.acas64 (cut f.la 2 2) f.gd f.gs1 f.gs2) else .error .fieldValue
  | 27 => if cut f.la 0 2 = 0#2 then .ok (.acas128 (cut f.la 2 2) f.gd f.gs1 f.gs2) else .error .fieldValue
  | 28 => .ok (.amax (cut f.la 2 2) (cut f.la 0 2) f.gd f.gs1 f.gs2)
  | 29 => .ok (.amin (cut f.la 2 2) (cut f.la 0 2) f.gd f.gs1 f.gs2)
  | 30 => .ok (.aand (cut f.la 2 2) (cut f.la 0 2) f.gd f.gs1 f.gs2)
  | 31 => .ok (.aor (cut f.la 2 2) (cut f.la 0 2) f.gd f.gs1 f.gs2)
  | 32 => .ok (.axor (cut f.la 2 2) (cut f.la 0 2) f.gd f.gs1 f.gs2)
  | 33 => if f.gd = 0 then .ok (.cflush f.la f.gs1 f.gs2) else .error .fieldValue
  | 34 => if f.gs2 = 0 then .ok (.cmov f.la f.gd f.gs1) else .error .fieldValue
  | 35 => .ok (.csetaddr f.la f.gd f.gs1 f.gs2)
  | 36 => .ok (.cincaddr f.la f.gd f.gs1 f.gs2)
  | 37 => .ok (.cincaddri f.la f.gd f.gs1 f.gs2)
  | 38 => .ok (.csetbnd f.la f.gd f.gs1 f.gs2)
  | 39 => .ok (.candperm f.la f.gd f.gs1 f.gs2)
  | 40 => if f.gs2 = 0 then .ok (.cseal f.la f.gd f.gs1) else .error .fieldValue
  | 41 => .ok (.cget f.la f.gd f.gs1 f.gs2)
  | 42 => if f.la = 0 ∧ f.gs2 = 0 then .ok (.cellFree f.gd f.gs1)
    else if f.la = 1 then .ok (.cntInit f.gd f.gs1 f.gs2)
    else if f.la = 2 then .ok (.barInit f.gd f.gs1 f.gs2)
    else if f.la = 3 ∧ f.gs2 = 0 then .ok (.lckInit f.gd f.gs1)
    else if f.la = 4 then .ok (.queInit f.gd f.gs1 f.gs2)
    else if f.la = 5 ∧ f.gs2 = 0 then .ok (.cndInit f.gd f.gs1)
    else .error .fieldValue
  | 43 => .ok (.cellQuery f.la f.gd f.gs1 f.gs2)
  | 44 => .ok (.cntAdd f.la f.gd f.gs1 f.gs2)
  | 45 => if f.gs2 = 0 then .ok (.cntWait f.la f.gd f.gs1) else .error .fieldValue
  | 46 => .ok (.cntArm f.la f.gd f.gs1 f.gs2)
  | 47 => if f.gs2 = 0 then .ok (.cntDisarm f.la f.gd f.gs1) else .error .fieldValue
  | 48 => if f.gs2 = 0 then .ok (.barArrive f.la f.gd f.gs1) else .error .fieldValue
  | 49 => .ok (.barWait f.la f.gd f.gs1 f.gs2)
  | 50 => if f.gs2 = 0 then .ok (.barSync f.la f.gd f.gs1) else .error .fieldValue
  | 51 => if f.gs2 = 0 then .ok (.lckAcq f.la f.gd f.gs1) else .error .fieldValue
  | 52 => if f.gs2 = 0 then .ok (.lckTry f.la f.gd f.gs1) else .error .fieldValue
  | 53 => if f.gs2 = 0 then .ok (.lckRel f.la f.gd f.gs1) else .error .fieldValue
  | 54 => .ok (.quePush f.la f.gd f.gs1 f.gs2)
  | 55 => .ok (.quePop f.la f.gd f.gs1 f.gs2)
  | 56 => .ok (.queTrypush f.la f.gd f.gs1 f.gs2)
  | 57 => .ok (.queTrypop f.la f.gd f.gs1 f.gs2)
  | 58 => .ok (.cndWait f.la f.gd f.gs1 f.gs2)
  | 59 => if f.gs2 = 0 then .ok (.cndSignal f.la f.gd f.gs1) else .error .fieldValue
  | 60 => if f.gs2 = 0 then .ok (.cndBcast f.la f.gd f.gs1) else .error .fieldValue
  | 62 => .ok (.rowop f.la f.gd f.gs1 f.gs2)
  | _ => .error .subOpcode

/-- custom-1 (R327 Table 10, R444 Table 12). -/
def decodeCustom1 (f : Fields) : Except Reject Instr :=
  match f.sub with
  | 0 => if f.gd.toNat < 8 ∧ f.gs2 = 0 then .ok (.cvset f.la f.gs1 (cut f.gd 0 3)) else .error .fieldValue
  | 1 => if f.gd.toNat < 8 ∧ f.gs1 = 0 ∧ f.gs2 = 0 then .ok (.cvpush f.la (cut f.gd 0 3)) else .error .fieldValue
  | 2 => if f.gs1.toNat < 8 ∧ f.gs2 = 0 then .ok (.cvquery f.la f.gd (cut f.gs1 0 3)) else .error .fieldValue
  | 3 => if f.gs1.toNat < 8 ∧ f.gs2.toNat < 8 then .ok (.mrec f.la (cut f.gd 0 1) (cut f.gd 1 4) (cut f.gs1 0 3) (cut f.gs2 0 3)) else .error .fieldValue
  | 4 => if f.gd = 0 ∧ f.gs2 = 0 then .ok (.mrload f.la f.gs1) else .error .fieldValue
  | 5 => if f.gd.toNat < 4 then .ok (.mdrain f.la (cut f.gd 0 1) (cut f.gd 1 1) f.gs1 f.gs2) else .error .fieldValue
  | 6 => if f.gd.toNat < 2 ∧ f.gs1 = 0 ∧ f.gs2 = 0 then .ok (.mzero f.la (cut f.gd 0 1)) else .error .fieldValue
  | 7 => if f.gs1.toNat < 8 ∧ f.gs2 = 0 then .ok (.ewait f.la f.gd (cut f.gs1 0 3)) else .error .fieldValue
  | 8 => if f.gd = 0 then .ok (.copy f.la f.gs1 f.gs2) else .error .fieldValue
  | 9 => if f.gd = 0 then .ok (.copy2d f.la f.gs1 f.gs2) else .error .fieldValue
  | 10 => if f.gd = 0 then .ok (.gather f.la f.gs1 f.gs2) else .error .fieldValue
  | 11 => if f.gd = 0 then .ok (.scatter f.la f.gs1 f.gs2) else .error .fieldValue
  | 12 => if f.gd = 0 then .ok (.fill f.la f.gs1 f.gs2) else .error .fieldValue
  | 13 => if f.gd.toNat < 4 ∧ f.gs1 = 0 ∧ f.gs2 = 0 then .ok (.sbind f.la (cut f.gd 0 2)) else .error .fieldValue
  | 14 => if f.gd.toNat < 4 ∧ f.gs1 = 0 ∧ f.gs2 = 0 then .ok (.sunbind f.la (cut f.gd 0 2)) else .error .fieldValue
  | 16 => .ok (.xprog f.la f.gd f.gs1 f.gs2)
  | 17 => if f.gd = 0 then .ok (.xcal f.la f.gs1 f.gs2) else .error .fieldValue
  | 18 => .ok (.xmvm f.la f.gd f.gs1 f.gs2)
  | 19 => if f.gs1.toNat < 16 ∧ f.gs2 = 0 then .ok (.xwait f.la f.gd (cut f.gs1 0 4)) else .error .fieldValue
  | 20 => if f.gs2 = 0 then .ok (.accept f.la f.gd f.gs1)
    else if f.gs2 = 1 then .ok (.acceptSp f.la f.gd f.gs1)
    else if f.gs2.toNat / 2 = 1 ∧ f.gd = 0 ∧ f.gs1 = 0 then .ok (.acceptAcc f.la (cut f.gs2 0 1))
    else .error .fieldValue
  | 24 => if f.gs2 = 0 then .ok (.vsetcfg f.la f.gd f.gs1) else .error .fieldValue
  | 25 => .ok (.vadd f.la f.gd f.gs1 f.gs2)
  | 26 => .ok (.vsub f.la f.gd f.gs1 f.gs2)
  | 27 => .ok (.vmul f.la f.gd f.gs1 f.gs2)
  | 28 => .ok (.vfma f.la f.gd f.gs1 f.gs2)
  | 29 => .ok (.vmax f.la f.gd f.gs1 f.gs2)
  | 30 => .ok (.vmin f.la f.gd f.gs1 f.gs2)
  | 31 => if f.gs2 = 0 then .ok (.vabs f.la f.gd f.gs1) else .error .fieldValue
  | 32 => if f.gs2 = 0 then .ok (.vneg f.la f.gd f.gs1) else .error .fieldValue
  | 33 => .ok (.vadds f.la f.gd f.gs1 f.gs2)
  | 34 => .ok (.vmuls f.la f.gd f.gs1 f.gs2)
  | 35 => .ok (.vcvt f.la f.gd f.gs1 (cut f.gs2 4 1) (cut f.gs2 0 4))
  | 36 => if f.gs2 = 0 then .ok (.vexp f.la f.gd f.gs1) else .error .fieldValue
  | 37 => if f.gs2 = 0 then .ok (.vrcp f.la f.gd f.gs1) else .error .fieldValue
  | 38 => if f.gs2 = 0 then .ok (.vrsqrt f.la f.gd f.gs1) else .error .fieldValue
  | 39 => if f.gs2 = 0 then .ok (.vsum f.la f.gd f.gs1) else .error .fieldValue
  | 40 => if f.gs2 = 0 then .ok (.vmaxr f.la f.gd f.gs1) else .error .fieldValue
  | 41 => if f.gs2 = 0 then .ok (.vargmax f.la f.gd f.gs1) else .error .fieldValue
  | 42 => .ok (.vsel f.la f.gd f.gs1 f.gs2)
  | 43 => .ok (.vcmplt f.la f.gd f.gs1 f.gs2)
  | 44 => .ok (.vand f.la f.gd f.gs1 f.gs2)
  | 45 => .ok (.vor f.la f.gd f.gs1 f.gs2)
  | 46 => .ok (.vxor f.la f.gd f.gs1 f.gs2)
  | 47 => if f.gs2 = 0 then .ok (.vmov f.la f.gd f.gs1) else .error .fieldValue
  | 48 => if f.gs1 = 0 then .ok (.vfill f.la f.gd f.gs2) else .error .fieldValue
  | _ => .error .subOpcode

/-- custom-2 (R328 Table 11, R412 Table 9, R448-R466). -/
def decodeCustom2 (f : Fields) : Except Reject Instr :=
  match f.sub with
  | 0 => .ok (.fork f.la f.gd f.gs1 f.gs2)
  | 1 => if f.gd = 0 ∧ f.gs2 = 0 then .ok (.join f.la f.gs1) else .error .fieldValue
  | 2 => .ok (.spawn f.la f.gd f.gs1 f.gs2)
  | 3 => if f.gd = 0 ∧ f.gs1 = 0 ∧ f.gs2 = 0 then .ok (.exit f.la) else .error .fieldValue
  | 4 => if f.gd = 0 ∧ f.gs2 = 0 then .ok (.yield f.la f.gs1) else .error .fieldValue
  | 5 => if f.gd = 0 ∧ f.gs1 = 0 ∧ f.gs2 = 0 then .ok (.trigger f.la) else .error .fieldValue
  | 6 => if f.gs1 = 0 then .ok (.send f.la f.gd f.gs2) else .error .fieldValue
  | 7 => .ok (.lbsend f.la f.gd f.gs1 f.gs2)
  | 8 => .ok (.rcall f.la (cut f.f3 0 2) f.gd f.gs1 f.gs2)
  | 9 => .ok (.rcall f.la (cut f.f3 0 2) f.gd f.gs1 f.gs2)
  | 10 => .ok (.rcall f.la (cut f.f3 0 2) f.gd f.gs1 f.gs2)
  | 11 => .ok (.rcall f.la (cut f.f3 0 2) f.gd f.gs1 f.gs2)
  | 12 => if f.gd = 0 then .ok (.rpost f.la f.gs1 f.gs2) else .error .fieldValue
  | 13 => if f.gd = 0 ∧ f.gs1 = 0 then .ok (.rreply f.la f.gs2) else .error .fieldValue
  | 14 => if f.gd = 0 ∧ f.gs2 = 0 then .ok (.migrate f.la f.gs1) else .error .fieldValue
  | 15 => if f.gs1 = 0 ∧ f.gs2 = 0 then .ok (.atake f.la f.gd) else .error .fieldValue
  | 16 => if f.gs2 = 0 then .ok (.hold f.la f.gd f.gs1) else .error .fieldValue
  | 17 => if f.gs2 = 0 then .ok (.unhold f.la f.gd f.gs1) else .error .fieldValue
  | 18 => if f.gd = 0 then .ok (.catset f.la f.gs2 f.gs1) else .error .fieldValue
  | 19 => if f.gs2 = 0 then .ok (.bind f.la f.gd f.gs1) else .error .fieldValue
  | 20 => if f.gd = 0 ∧ f.gs1 = 0 ∧ f.gs2 = 0 then .ok (.unbind f.la) else .error .fieldValue
  | 21 => if f.gs2 = 0 then .ok (.gpos f.la f.gd f.gs1) else .error .fieldValue
  | 32 => if f.gs1 = 0 then .ok (.crrd f.la f.gd f.gs2) else .error .fieldValue
  | 33 => .ok (.crwr f.la f.gd f.gs1 f.gs2)
  | 34 => .ok (.crset f.la f.gd f.gs1 f.gs2)
  | 35 => .ok (.crclr f.la f.gd f.gs1 f.gs2)
  | 36 => if f.gd = 0 ∧ f.gs1 = 0 ∧ f.gs2 = 0 then .ok (.tret f.la) else .error .fieldValue
  | 37 => .ok (.ctxsave f.la f.gd f.gs1 f.gs2)
  | 38 => .ok (.ctxload f.la f.gd f.gs1 f.gs2)
  | 39 => if f.gs2 = 0 then .ok (.preack f.la f.gd f.gs1) else .error .fieldValue
  | 40 => .ok (.tdrain f.la f.gd f.gs1 f.gs2)
  | 41 => if f.gs2 = 0 then .ok (.tconfirm f.la f.gd f.gs1) else .error .fieldValue
  | 42 => if f.gs2 = 0 then .ok (.evrd f.la f.gd f.gs1) else .error .fieldValue
  | 43 => if f.gd = 0 ∧ f.gs2 = 0 then .ok (.evclr f.la f.gs1) else .error .fieldValue
  | 44 => if f.gs2.toNat < 4 then .ok (.finject f.la f.gd f.gs1 (cut f.gs2 0 2)) else .error .fieldValue
  | 45 => if f.gs2 = 0 then .ok (.gpreempt f.la f.gd f.gs1)
    else if f.gs2 = 1 then .ok (.gpreemptEnd f.la f.gd f.gs1)
    else .error .fieldValue
  | 46 => if f.gs2 = 0 then .ok (.gresume f.la f.gd f.gs1) else .error .fieldValue
  | _ => .error .subOpcode

/-- custom-3 (R329 Table 12, R360, R420). -/
def decodeCustom3 (f : Fields) : Except Reject Instr :=
  match f.s2.toNat * 8 + f.f3.toNat with
  | 0 => if f.gd.toNat < 2 ∧ f.gs1.toNat < 8 ∧ f.gs2.toNat < 8 then .ok (.mmaE4e4 (cut f.gd 0 1) (cut f.gs1 0 3) (cut f.gs2 0 3) f.gs3) else .error .fieldValue
  | 1 => if f.gd.toNat < 2 ∧ f.gs1.toNat < 8 ∧ f.gs2.toNat < 8 then .ok (.mmaE4e5 (cut f.gd 0 1) (cut f.gs1 0 3) (cut f.gs2 0 3) f.gs3) else .error .fieldValue
  | 2 => if f.gd.toNat < 2 ∧ f.gs1.toNat < 8 ∧ f.gs2.toNat < 8 then .ok (.mmaE5e4 (cut f.gd 0 1) (cut f.gs1 0 3) (cut f.gs2 0 3) f.gs3) else .error .fieldValue
  | 3 => if f.gd.toNat < 2 ∧ f.gs1.toNat < 8 ∧ f.gs2.toNat < 8 then .ok (.mmaE5e5 (cut f.gd 0 1) (cut f.gs1 0 3) (cut f.gs2 0 3) f.gs3) else .error .fieldValue
  | 4 => if f.gd.toNat < 2 ∧ f.gs1.toNat < 8 ∧ f.gs2.toNat < 8 then .ok (.mmaH (cut f.gd 0 1) (cut f.gs1 0 3) (cut f.gs2 0 3) f.gs3) else .error .fieldValue
  | 5 => if f.gd.toNat < 2 ∧ f.gs1.toNat < 8 ∧ f.gs2.toNat < 8 then .ok (.mmaB (cut f.gd 0 1) (cut f.gs1 0 3) (cut f.gs2 0 3) f.gs3) else .error .fieldValue
  | 6 => if f.gd.toNat < 2 ∧ f.gs1.toNat < 8 ∧ f.gs2.toNat < 8 then .ok (.mmaS (cut f.gd 0 1) (cut f.gs1 0 3) (cut f.gs2 0 3) f.gs3) else .error .fieldValue
  | 7 => if f.gd.toNat < 2 ∧ f.gs1.toNat < 8 ∧ f.gs2.toNat < 8 then .ok (.mmaI8 (cut f.gd 0 1) (cut f.gs1 0 3) (cut f.gs2 0 3) f.gs3) else .error .fieldValue
  | 8 => if f.gd.toNat < 16 ∧ f.gs1.toNat < 8 ∧ f.gs2.toNat < 8 then .ok (.mmaNi (cut f.gd 0 1) (cut f.gd 1 3) (cut f.gs1 0 3) (cut f.gs2 0 3) f.gs3) else .error .fieldValue
  | 16 => .ok (.fmaddS f.gd f.gs1 f.gs2 f.gs3)
  | 17 => .ok (.fmsubS f.gd f.gs1 f.gs2 f.gs3)
  | 18 => .ok (.fnmaddS f.gd f.gs1 f.gs2 f.gs3)
  | 19 => .ok (.fnmsubS f.gd f.gs1 f.gs2 f.gs3)
  | 20 => if f.gs3 = 0 then .ok (.faddS f.gd f.gs1 f.gs2) else .error .fieldValue
  | 21 => if f.gs3 = 0 then .ok (.fsubS f.gd f.gs1 f.gs2) else .error .fieldValue
  | 22 => if f.gs3 = 0 then .ok (.fmulS f.gd f.gs1 f.gs2) else .error .fieldValue
  | 23 => if f.gs3 = 0 then .ok (.fdivS f.gd f.gs1 f.gs2) else .error .fieldValue
  | 24 => if f.gs3 = 0 ∧ f.gs2 = 0 then .ok (.fsqrtS f.gd f.gs1) else .error .fieldValue
  | 25 => if f.gs3 = 0 then .ok (.fminS f.gd f.gs1 f.gs2) else .error .fieldValue
  | 26 => if f.gs3 = 0 then .ok (.fmaxS f.gd f.gs1 f.gs2) else .error .fieldValue
  | 27 => if f.gs3 = 0 then .ok (.feqS f.gd f.gs1 f.gs2) else .error .fieldValue
  | 28 => if f.gs3 = 0 then .ok (.fltS f.gd f.gs1 f.gs2) else .error .fieldValue
  | 29 => if f.gs3 = 0 then .ok (.fleS f.gd f.gs1 f.gs2) else .error .fieldValue
  | 30 => if f.gs3.toNat < 16 then .ok (.fcvt f.gd f.gs1 (cut f.gs3 0 4) (cut f.gs2 4 1) (cut f.gs2 0 4)) else .error .fieldValue
  | _ => .error .subOpcode

/-- MISC-MEM: the base fence alone (R325, R373). -/
def decodeMiscMem (f : Fields) : Except Reject Instr :=
  if f.f3 = 0 then .ok (.fence f.immI f.gs1 f.gd) else .error .subOpcode

/-- SYSTEM: `ecall` and `ebreak` alone (R325). -/
def decodeSystem (f : Fields) : Except Reject Instr :=
  if f.f3 = 0 ∧ f.gs1 = 0 ∧ f.gd = 0 ∧ f.immI = 0 then .ok .ecall
  else if f.f3 = 0 ∧ f.gs1 = 0 ∧ f.gd = 0 ∧ f.immI = 1 then .ok .ebreak
  else .error .subOpcode

/-- The instruction that the fields choose, before the values of its fields are checked (R330: the major opcode,
then funct3 and funct7 or the sub-opcode). -/
def decodeFields (f : Fields) : Except Reject Instr :=
  match f.op.toNat with
  | 0x03 => decodeLoad f
  | 0x0B => decodeCustom0 f
  | 0x0F => decodeMiscMem f
  | 0x13 => decodeOpImm f
  | 0x17 => .ok (.auipc f.gd f.immU)
  | 0x1B => decodeOpImm32 f
  | 0x23 => decodeStore f
  | 0x2B => decodeCustom1 f
  | 0x33 => decodeOp f
  | 0x37 => .ok (.lui f.gd f.immU)
  | 0x3B => decodeOp32 f
  | 0x5B => decodeCustom2 f
  | 0x63 => decodeBranch f
  | 0x67 => if f.f3 = 0 then .ok (.jalr f.gd f.gs1 f.immI) else .error .subOpcode
  | 0x6F => .ok (.jal f.gd f.immJ)
  | 0x73 => decodeSystem f
  | 0x7B => decodeCustom3 f
  | n => if n % 4 = 3 then .error .majorOpcode else .error .lowBits

/-- The values of the fields, checked after the instruction is known (R319, R330). -/
def checkFields (i : Instr) : Except Reject Instr :=
  if i.wellFormed then .ok i else .error .fieldValue

/-- Decoding of one 32-bit word (R323, R330): total, with the reason where the word is no instruction. -/
def decodeWord (w : Word32) : Except Reject Instr :=
  match decodeFields (Fields.ofWord w) with
  | .ok i => checkFields i
  | .error e => .error e

/-- The word of an encoded instruction. -/
def encode (i : Instr) : Option Word32 := (encodeFields i).map Fields.word

/-- The bytes of a word as memory holds it (R4, R317: little-endian). -/
def wordBytes (w : Word32) : List Byte := [cut w 0 8, cut w 8 8, cut w 16 8, cut w 24 8]

/-- The word that four bytes of memory hold. -/
def bytesWord (b : List Byte) : Option Word32 :=
  match b with
  | [b0, b1, b2, b3] =>
    some (BitVec.ofNat 32 (b0.toNat + b1.toNat * 256 + b2.toNat * 65536 + b3.toNat * 16777216))
  | _ => none

/-- The decoder on the bytes of an instruction: every instruction is one word of four bytes (R317). -/
def decodeBytes (b : List Byte) : Except Reject Instr :=
  match bytesWord b with
  | some w => decodeWord w
  | none => .error .lowBits

/-- The instruction that the decoder reads from a word whose bits are `w` (bit 0 the least significant bit of
the word), where the table gives the row `nbits` bits. Every encoded row has 32. -/
def decodeTableWord (nbits w : Nat) : Option Instr :=
  if nbits = 32 ∧ w < 2 ^ 32 then
    match decodeBytes (wordBytes (BitVec.ofNat 32 w)) with
    | .ok i => some i
    | .error _ => none
  else none

end Sys2Proof
end

