-- ==== Sys2Proof/Machine/Maps.lean ====
section
/-! DEFINITION. Tables with a default: lists of keys and values (the state is plain data). -/

namespace Sys2Proof.Machine

/-- The value at a key, or the default. -/
def look {α : Type} (d : α) : List (Nat × α) → Nat → α
  | [], _ => d
  | (k, v) :: m, i => if k = i then v else look d m i

/-- The table with a value written at a key, in rising order of keys where it was so. -/
def put {α : Type} : List (Nat × α) → Nat → α → List (Nat × α)
  | [], i, x => [(i, x)]
  | (k, v) :: m, i, x =>
    if k = i then (i, x) :: m
    else if i < k then (i, x) :: (k, v) :: m
    else (k, v) :: put m i x

/-- The table without a key. -/
def without {α : Type} (m : List (Nat × α)) (i : Nat) : List (Nat × α) := m.filter (fun e => e.1 != i)

/-- The table with the value at a key changed. -/
def change {α : Type} (d : α) (m : List (Nat × α)) (i : Nat) (f : α → α) : List (Nat × α) :=
  put m i (f (look d m i))

/-- The first element that satisfies a test, with it taken out of the list. -/
def takeFirst {α : Type} (p : α → Bool) : List α → Option (α × List α)
  | [] => none
  | x :: xs => if p x then some (x, xs) else
    match takeFirst p xs with
    | some (y, ys) => some (y, x :: ys)
    | none => none

end Sys2Proof.Machine
end

