-- ==== Sys2Proof/Machine/Records.lean ====
section
/-! DEFINITION. The records that instructions and events carry: registers with their tags, cause codes,
tasks and messages, Desk requests and answers, host requests, fabric packets. Plain data. -/

namespace Sys2Proof.Machine

/-- The tag of a register (spec/16_isa_framework.md R308): 00, 01, 10, 11. -/
inductive Tag where
  | exact | bounded | cap | sealed
  deriving DecidableEq, Repr

/-- A general register: 128 data bits and a tag (R308). -/
structure Reg where
  data : Word128 := 0
  tag : Tag := .exact
  deriving DecidableEq, Repr

/-- The four levels at which an instruction executes (spec/21_isa_system.md R445). -/
inductive Level where
  | g | a | s | b
  deriving DecidableEq, Repr

/-- The cause codes (spec/14_traps_and_preemption.md Table 5). -/
inductive Cause where
  | none
  | illegalInstruction | boundedValue | capability | alignment | overlay | codeAccess | window
  | ecall | ebreak | scope | migrate
  | type | cell | holdExhausted | cellPlacement
  | noncanonical | context | pageFault | pteFormat | protection | atomicAccess | placement | poison
  | noRoute | remoteFault | replyLost | postedTimeout
  | remoteOp | badEntry | channel | bankOff | noHandler | rowFormat
  | nodeFormat | nodeBusy | footprint | predFault | launchShape | saveFault | cancelled | thermal
  | crossingDown | setup
  | carousel | recurrence | engineCmd | streamEnd | recalibrate | xuOwner | xuFormat
  | regError | holdError
  deriving DecidableEq, Repr

/-- The classes of traps (R269 Table 1). -/
inductive TrapClass where
  | inSlot | parked | deferred | grid | status
  deriving DecidableEq, Repr

/-- The states of a thread slot (spec/12_cores_and_strands.md Table 1). -/
inductive SlotState where
  | free | starting | running | held | parked | lent
  deriving DecidableEq, Repr

/-- The eight format codes of an element (spec/15_number_formats.md Table 1); `ni k` is NI*k*. -/
inductive Fmt where
  | fp32 | fp16 | bf16 | e4m3 | e5m2 | int8 | int32 | ni (k : Nat)
  deriving DecidableEq, Repr

/-- A waiter id (spec/07_sync_objects.md Table 3) with the thread slot that a hold entry keeps beside it
(Table 13). Kind 0 is none or void. -/
structure Waiter where
  dev : Nat := 0
  kind : Nat := 0
  grid : Nat := 0
  x : Nat := 0
  y : Nat := 0
  slot : Nat := 0
  deriving DecidableEq, Repr

/-- Where the reply or the acknowledgement of a call goes (spec/19_isa_sync_tasks_remote.md R401-R404):
the caller's slot and its scoreboard or posted entry, on this device or on another. -/
structure Route where
  dev : Nat := 0
  slot : Nat := 0
  entry : Nat := 0
  posted : Bool := false
  grid : Nat := 0
  deriving DecidableEq, Repr

/-- A task, or the message that makes one (spec/12_cores_and_strands.md R228, R229, Table 6). `args` holds
arg0-arg2, the payload registers or the portable context of an arrival (kind 7). -/
structure Task where
  kind : Nat := 0
  cls : Nat := 0
  prio : Nat := 0
  qos : Nat := 0
  grid : Nat := 0
  ctx : Nat := 0
  age : Nat := 0
  entry : Reg := {}
  args : List Reg := []
  sender : Waiter := {}
  target : Reg := {}
  seq : Nat := 0
  cause : Nat := 0
  inbox : Option Nat := Option.none
  route : Option Route := Option.none
  spawned : Bool := false
  dealt : Option Nat := Option.none
  pins : List (Nat × Nat) := []
  pc : Word64 := 0
  sstat : BitVec 32 := 0
  triggered : Bool := false
  replied : Bool := false
  deriving DecidableEq, Repr

/-- The Desk operations a requester asks for (spec/07_sync_objects.md Table 4). -/
inductive DeskOp where
  | query | free | init | cadd | cwait | carm | cdisarm | barrive | bwait | bsync | bpendadd | bpendsub
  | lacq | ltry | lrel | qpush | qpop | qtrypush | qtrypop | vwait | vsignal | vbcast
  deriving DecidableEq, Repr

/-- A Desk request (R113): the cell by physical address, the requester, and the operands of the operation.
`acting` marks the LREL or LACQ that a condition sends for a waiter (R129), with the condition's address; `pc`
names the instruction of a counted store or copy. -/
structure DeskReq where
  pa : Nat := 0
  va : Nat := 0
  ctx : Nat := 0
  who : Waiter := {}
  seq : Nat := 0
  prio : Nat := 0
  ctype : Nat := 0
  n : Int := 0
  cont : Nat := 0
  cls : Nat := 0
  cprio : Nat := 0
  target : Waiter := {}
  phase : Nat := 0
  total : Nat := 0
  cmask : Nat := 0
  rect : Option (Nat × Nat × Nat × Nat) := Option.none
  buf : Nat := 0
  cap : Nat := 0
  esz : Nat := 0
  elem : List Byte := []
  elen : Nat := 0
  lock : Nat := 0
  acting : Option Nat := Option.none
  pc : Option Nat := Option.none
  qos : Nat := 0
  deriving DecidableEq, Repr

/-- A RESULT or a WAKE (R114, R133): the requester, its sequence tag, the Desk status and the data; a
continuation carries its task (R118). -/
structure Answer where
  who : Waiter := {}
  seq : Nat := 0
  st : Nat := 0
  op : DeskOp := .query
  val : Nat := 0
  elem : List Byte := []
  pa : Nat := 0
  task : Option Task := Option.none
  pc : Option Nat := Option.none
  qos : Nat := 0
  ctx : Nat := 0
  deriving DecidableEq, Repr

/-- A Ubgen request: its fields as they stand in the header flit and its payload (spec/02_links.md R35 Table 5);
`rest` holds the bytes of the flit that a request leaves 0: bits 7-1 of `flags` and bytes 17-31. -/
structure HostReq where
  kind : Nat := 0
  stream : Nat := 0
  flags : Nat := 0
  ctx : Nat := 0
  len : Nat := 0
  tag : Nat := 0
  addr : Nat := 0
  op : Nat := 0
  rest : Nat := 0
  data : List Byte := []
  deriving DecidableEq, Repr

/-- A request as its header flit and its payload carry it (R35 Table 5). -/
def HostReq.ofFlit (flit : BitVec 256) (data : List Byte) : HostReq :=
  let v := flit.toNat
  let at_ (off n : Nat) : Nat := v / 256 ^ off % 256 ^ n
  { kind := at_ 0 1 % 16, stream := at_ 0 1 / 16, flags := at_ 1 1, ctx := at_ 2 2, len := at_ 4 2, tag := at_ 6 2,
    addr := at_ 8 8, op := at_ 16 1, rest := at_ 17 15, data := data }

/-- The header flit of a request (R35 Table 5). -/
def HostReq.flit (r : HostReq) : BitVec 256 :=
  BitVec.ofNat 256 (r.kind % 16 + r.stream % 16 * 2 ^ 4 + r.flags % 256 * 2 ^ 8 + r.ctx % 65536 * 2 ^ 16 +
    r.len % 65536 * 2 ^ 32 + r.tag % 65536 * 2 ^ 48 + r.addr % 2 ^ 64 * 2 ^ 64 + r.op % 256 * 2 ^ 128 +
    r.rest % 2 ^ 120 * 2 ^ 136)

/-- A reserved field, or a field that belongs to replies alone, is not 0 (R35): the relaxed flag is the only flag. -/
def HostReq.bad (r : HostReq) : Bool := r.rest != 0 || 1 < r.flags

/-- What the device sends to the host (R35, R36, R73): a reply fragment, an acknowledgement or an event
record. -/
structure HostMsg where
  kind : Nat := 8
  stream : Nat := 0
  tag : Nat := 0
  frag : Nat := 0
  nfrag : Nat := 1
  status : Nat := 0
  cause : Nat := 0
  data : List Byte := []
  deriving DecidableEq, Repr

/-- The header flit of what the device sends (R35 Table 5). -/
def HostMsg.flit (m : HostMsg) : BitVec 256 :=
  BitVec.ofNat 256 (m.kind % 16 + m.stream % 16 * 2 ^ 4 + m.data.length % 65536 * 2 ^ 32 + m.tag % 65536 * 2 ^ 48 +
    m.frag % 256 * 2 ^ 136 + m.nfrag % 256 * 2 ^ 144 + m.status % 256 * 2 ^ 152 + m.cause % 65536 * 2 ^ 160)

/-- A firmware image (spec/03_start.md R60). -/
structure Image where
  header : List Byte := []
  body : List Byte := []
  digest : List Byte := []
  signature : List Byte := []
  deriving DecidableEq, Repr, Inhabited

/-- An event record as its source buffers it (spec/04_host_interface.md Table 6). -/
structure EvRec where
  sev : Nat := 0
  kind : Nat := 0
  source : Nat := 0
  seq : Nat := 0
  time : Nat := 0
  tag : Nat := 0
  payload : Nat := 0
  early : Bool := false
  deriving DecidableEq, Repr

/-- A byte that a copy engine moves, with what its granule holds (spec/08_memory_and_translation.md R160, spec/01_package.md R26):
bounded mark, poison, capability tag, cell type. -/
structure Carried where
  byte : BitVec 8
  bnd : Bool := false
  poison : Bool := false
  tag : Bool := false
  ctype : Nat := 0
  deriving DecidableEq, Repr

/-- The acts that a fabric packet asks of its target device, or the answers it brings (R42, R45-R48): `sector` and `place` are the
read of a whole sector and the posted write of a part of one by a copy engine, `cells` the answer to the former; `flags` a launch
scheduler's indivisible change of `pfault` (spec/05_scheduling.md R81). -/
inductive FabricOp where
  | load (size : Nat)
  | capLoad
  | sector
  | place (cells : List Carried) (aligned : Bool) (barrier : Option (Nat × Nat))
  | cells (cs : List Carried)
  | store (bytes : List Byte) (capTag bounded poisoned : Bool) (barrier : Option (Nat × Nat))
  | atomic (op : Nat) (width : Nat) (signed : Bool) (a b : Nat)
  | cell (op : DeskOp) (r : DeskReq)
  | cancel (r : DeskReq)
  | boost (w : Waiter) (level : Nat)
  | expire (w : Waiter) (level : Nat)
  | prioset (cell : Nat) (w : Waiter) (prio : Nat)
  | flush
  | flags (set_ : Bool)
  | call (t : Task)
  | message (t : Task)
  | loadReply (data : Nat) (tag : Tag) (ok : Nat)
  | storeAck
  | refusal (cause : Cause)
  | noRoute
  | answer (a : Answer)
  | reply (vals : List Reg)
  deriving DecidableEq, Repr

/-- A Jorust packet (spec/02_links.md R42): source and destination devices, end-to-end sequence number,
context, QoS class, address, the entry to which an answer belongs, and the act; `acq` when the capability of the access
carries ACQ (spec/08_memory_and_translation.md R156); `vc` the virtual channel of the mesh message that it is, `cluster` the
cluster that sends it (R43). -/
structure Packet where
  src : Nat := 0
  dst : Nat := 0
  num : Nat := 0
  ctx : Nat := 0
  qos : Nat := 0
  cls : Nat := 0
  port : Nat := 0
  addr : Nat := 0
  core : Nat := 0
  entry : Nat := 0
  acq : Bool := false
  vc : Nat := 0
  cluster : Nat := 0
  op : FabricOp
  deriving DecidableEq, Repr

/-- An answer to a remote load, atomic, cell request or call: the core and scoreboard entry it releases
(spec/18_isa_memory.md R363), its status, and the data with its tag. -/
structure Reply where
  core : Nat := 0
  entry : Nat := 0
  status : Cause := .none
  rcode : Cause := .none
  dev : Nat := 0
  vals : List Reg := []
  cells : List Carried := []
  deriving DecidableEq, Repr

/-- How one start step ends (spec/03_start.md R54, R55). -/
inductive StepResult where
  | pass
  | fail (cause : Nat)
  | hang
  deriving DecidableEq, Repr

/-- What the parts of the device report to a start (R55, R57-R59): the result of each step's primary and
alternate method, the parts left out, the lowest and highest link versions that the other side of each
port announces (spec/02_links.md R31), the firmware image that the host has written to the slot not in use (R60). -/
structure StartEnv where
  primary : List StepResult := []
  alternate : List StepResult := []
  quadsOut : List Nat := []
  routersOut : List Nat := []
  clustersOut : List Nat := []
  banksOff : List Nat := []
  conservative : List Nat := []
  ranges : List (Nat × Nat × Nat) := []
  newImage : Option Image := Option.none
  uncalibrated : List Nat := []
  hlin : List (Nat × Nat) := []
  ctxbase : Nat := 0
  eltab : Nat := 0
  bankCode : List (Nat × Byte) := []
  deriving DecidableEq, Repr

/-- Who writes a register: the control program of the service core of a network region, or another agent
(R20, R51, R141). -/
inductive Writer where
  | control (region : Nat)
  | other
  deriving DecidableEq, Repr

/-- The storage structure that a soft error strikes (spec/01_package.md Table 6): `word` is the protected word of a register (32
bits, the tag in the first) or of the calibration state (64 bits); `memory` is an HBM column word, or 64 bits of a core's SRAM or
accumulator tiles, by its address; `slice` a sector held by its home slice; `flit` a flit on a link into a router. -/
inductive Store where
  | register (slot reg word : Nat)
  | memory (pa : Nat)
  | slice (pa : Nat)
  | instructionBuffer (slot : Nat)
  | holdEntry (cell : Nat)
  | calibration (cluster array word : Nat)
  | serviceCore (region : Nat)
  | flit (router : Nat)
  deriving DecidableEq, Repr

/-- A port of a router (spec/06_network_and_slices.md R91). -/
inductive Dir where
  | north | south | east | west | here
  deriving DecidableEq, Repr

/-- An agent of the mesh (R92): its code and its number, which is that of a core for code 0, of a cluster for the codes 1 to 7,
of a bank unit for code 8 and of a port for code 9. -/
structure NetAgent where
  code : Nat := 0
  unit : Nat := 0
  deriving DecidableEq, Repr

/-- The header of a mesh message (R92 Table 1); `len` counts its flits, `corners` the physical corners of a multicast. -/
structure Header where
  family : Nat := 3
  op : Nat := 0
  cls : Nat := 0
  len : Nat := 1
  mode : Nat := 0
  vc : Nat := 0
  prio : Nat := 0
  qos : Nat := 0
  release : Bool := false
  poisoned : Bool := false
  dst : NetAgent := {}
  src : NetAgent := {}
  tag : Nat := 0
  ctx : Nat := 0
  addr : Nat := 0
  corners : Option (Nat × Nat × Nat × Nat) := Option.none
  operand : Nat := 0
  deriving DecidableEq, Repr

end Sys2Proof.Machine
end

