-- ==== Sys2Proof/Config.lean ====
section
/-! DEFINITION. What one device fixes and what the specification leaves open. A constant without a body is a
free value: no proof can see what it is. Each is applied to the counter `fresh` of the state, which every use
advances, or to the operands that it depends on (notes/assumptions/8.md). -/

namespace Sys2Proof.Config

/-- The number of this device in its pod (spec/02_links.md R45). -/
opaque device : Nat

/-- The 64-bit serial number (spec/03_start.md R61). -/
opaque serial : Nat

/-- The image that a flash slot holds before the host has written one (R60). -/
opaque flashImage : Nat → Machine.Image

/-- The Plemond root public key in the flash, and its SHAKE256 digest in the boot ROM (R60). -/
opaque rootKey : List Byte
opaque rootDigest : List Byte

/-- The firmware version and the 16-bit security version that the header of an image names, whose layout the
specification does not give (R60, R62 Table 5). -/
opaque firmwareVersion : List Byte → Nat
opaque securityVersion : List Byte → Nat

/-- Verification of a Falcon-1024 signature: key, digest, signature (R60). -/
opaque falconVerify : List Byte → List Byte → List Byte → Bool

/-- The secret in the fuses, which no program reads, and the Falcon-1024 key pair derived from it: the public key
and the private one (R61). -/
opaque fusedSecret : Nat
opaque deriveKeys : Nat → List Byte × List Byte

/-- The certificate in the flash that binds a public key to the serial number (R61). -/
opaque certificate : List Byte

/-- Falcon-1024 signature of a digest under a private key (R61, R62). -/
opaque sign : List Byte → List Byte → List Byte

/-- The arrangement of the contents of an event record in its payload, by kind (spec/04_host_interface.md Table 7 names the
contents alone). -/
opaque payload : Nat → List Nat → Nat

/-- The cycles that a step of the device takes beyond one (spec gives bounds, not exact times). -/
opaque cycles : Nat → Nat

/-- A free choice of a number: which of several allowed outcomes is taken. -/
opaque choice : Nat → Nat

/-- A translation cache has dropped an entry before this use (spec/08_memory_and_translation.md R151:
replacement is not architectural). -/
opaque evicted : Nat → Bool

/-- The hash that picks the fabric plane (spec/02_links.md R43). -/
opaque planeHash : Nat → Nat → Nat → Nat

/-- The ADC code of a pair for one plane of a product (spec/11_crossbar_arrays.md R209), by fresh number,
pair and plane. -/
opaque adcCode : Nat → Nat → Nat → Int

/-- The gain and the offset that a calibration step finds for a pair (R214). -/
opaque gain : Nat → Nat → BitVec 16
opaque offset : Nat → Nat → BitVec 16

/-- Whether every pair of a row verifies within eight pulses (R217). -/
opaque verifies : Nat → Bool

/-- The level that a pair reached in a row whose programming failed (R217). -/
opaque reached : Nat → Nat → Byte

/-- A temperature sensor reading, signed, in 1/16 of a degree (R221). -/
opaque temperature : Nat → BitVec 16

/-- A byte of a record whose layout the specification does not give (spec/14_traps_and_preemption.md R281). -/
opaque openByte : Nat → Byte

/-- What the device mixes into the origin field of a message that an annex thread takes, which only the device
interprets (spec/19_isa_sync_tasks_remote.md R408). -/
opaque originMask : Nat

/-- The last bit of a real function value that the model's interval does not decide (spec/20_isa_engines.md
R430); the interval of Machine/Float.lean decides every case that its precision reaches. -/
opaque expTail : Nat → Bool

end Sys2Proof.Config
end

