-- ==== Sys2Proof/Machine/Event.lean ====
section
/-! DEFINITION. What the steps of the device bring with them (spec/95_what_each_step_holds.md): one constructor
for each row of spec/opcode_table.json that no instruction word names, with what arrives or what the device
reports when the step happens. The state holds the event being performed and the events that have happened and
wait for their step. -/

namespace Sys2Proof.Machine

open Sys2Proof

/-- An event of the device. A unit target below 16,384 is the core 128y + x, one from there upwards the bank
unit 32m + c (spec/10_bank_units.md R190); a slot key is four times the core's number plus the slot, or 65,536
plus four times the bank unit's number plus the slot. -/
inductive Event where
  /-- R57. Power-on begins a start: the start core verifies firmware and runs the sixteen start steps under the start record; `at_` is the start step that is due, 0 for the power-on itself. -/
  | powerOn (env : StartEnv) (at_ : Nat)
  /-- R57. A reset from the carrier begins a start in the same way as power-on. -/
  | carrierReset (env : StartEnv)
  /-- R55. A start step that exceeds its time limit fires the start watchdog, which resets the device and leaves the step begun but not done. -/
  | startWatchdog (step : Nat) (env : StartEnv)
  /-- R19. At the end of each 4 µs window, a region governor compares mean occupancy with its thresholds and may raise or lower the level by one. -/
  | governorWindow (region occupied capacity : Nat)
  /-- R19. A voltage and frequency step of a network region completes within 2 µs, and the region then runs at its new level. -/
  | levelStepDone (region : Nat)
  /-- R20. A service-core write to nrctl sets the floor, ceiling, thresholds and pin of a region; writes from other sources are ignored. -/
  | nrctlWrite (src : Writer) (region : Nat) (v : BitVec 32)
  /-- R22. Every 100 µs the power limiter samples module power and enters or leaves its three stages, producing an event record on each change. -/
  | limiterSample (watts average burst : Nat)
  /-- R23. The hottest sensor reaching 95 °C applies limiter stages 1–3 until it falls below 92 °C. -/
  | thermalLimit (cluster : Nat) (temp : Int)
  /-- R23. The hottest sensor reaching 105 °C pre-empts every running grid and holds all placement until every sensor reads below 95 °C. -/
  | thermalPreempt (cluster : Nat) (temp : Int)
  /-- R23. When every sensor reads below 95 °C, waiting launches and Saved grids proceed without host action. -/
  | thermalClear
  /-- R23. At 115 °C the carrier or the board removes power. -/
  | thermalShutdown
  /-- R25. A slice scrubs an idle set, and it poisons any sector whose error cannot be corrected. -/
  | sliceScrub (cluster set : Nat)
  /-- R25. A bank unit scrubs each HBM row once in each 24 h and poisons any uncorrectable sector. -/
  | hbmRowScrub (bank row : Nat)
  /-- R94. A die crossing that fails three retrainings within 1 s, or loses a lane, stops the device and ends every live grid with CROSSING_DOWN. -/
  | crossingFail (crossing : Nat) (laneLost : Bool)
  /-- R29. A link receives a group of eight flits, checks its CRC and sequence number, acknowledges it in order or discards it for go-back-N replay. -/
  | groupReceive (port : Nat) (seq : BitVec 12) (data : List Byte) (crc : BitVec 32) (ack : BitVec 12) (again : Bool)
  /-- R30. A lane that loses lock makes its port retrain. -/
  | laneLockLoss (port : Nat) (failed : Bool)
  /-- R30. Retraining of a port ends within 50 µs, negotiating a version, or after a third failure within 1 s takes the port down. -/
  | retrainEnd (port : Nat) (ok : Bool) (lowest highest : Nat)
  /-- R51. A write of fpctl.en lets a port train, restarting training on a down port, or with 0 lets it finish its replay buffer and go down. -/
  | fpctlEn (src : Writer) (port : Nat) (en : Bool)
  /-- R51. A write of 1 to fpctl.down takes the port down at once and rehashes its unacknowledged packets. -/
  | fpctlDown (src : Writer) (port : Nat)
  /-- R49. A write to fshare sets the reserved QoS shares of a Jorust port, or is ignored with an event record if they sum above 256. -/
  | fshareWrite (src : Writer) (port : Nat) (v : Word64)
  /-- R87. A write to hshare sets the QoS shares of a stack's controllers, ignored if the shares sum above 256. -/
  | hshareWrite (src : Writer) (stack : Nat) (v : Word64)
  /-- R87. A write to sshare sets the QoS shares at a die's slice ingress, ignored if the shares sum above 256. -/
  | sshareWrite (src : Writer) (die : Nat) (v : Word64)
  /-- R88. Every 4,096 cycles all QoS regulators begin a new window and reset each class's charge. -/
  | enforcementWindow
  /-- R44. A Jorust packet arrives and is accepted only if its end-to-end sequence number is new from that source. -/
  | fabricPacket (p : Packet)
  /-- R34. A Ubgen memory read of 1–256 bytes in a pod-wide context returns data or a fault status. -/
  | memoryRead (r : HostReq)
  /-- R34. A posted Ubgen memory write is acknowledged once visible at its home slice. -/
  | memoryWrite (r : HostReq)
  /-- R38. A Ubgen cell request is issued to the cell's home Desk, and if it holds, the stream's later requests wait behind it. -/
  | cellRequest (r : HostReq)
  /-- R38. A Cancel is acted on at once and fills the stream's held request with CANCELLED. -/
  | hostCancel (r : HostReq)
  /-- R34. A request of an unknown or undefined kind, or a malformed one, is answered UNSUPPORTED with no other effect. -/
  | unsupportedRequest (r : HostReq)
  /-- R65. A waiting request of a stream is issued into the mesh once the previous request of the stream has taken effect. -/
  | streamRequestIssue (stream : Nat)
  /-- R73. The Ubgen port sends one buffered event record of a source to the host in sequence order. -/
  | eventRecordSend (source : Nat)
  /-- R67. Control message attaching a command queue to the service core, refused for a 17th queue, wrong type or a queue attached elsewhere. -/
  | attachQueue (r : HostReq)
  /-- R66. Control message detaching a queue after its running command has started. -/
  | detachQueue (r : HostReq)
  /-- R71. Control message clearing a queue's stopped state, discarding its contents and failing its held pushes. -/
  | resetQueue (r : HostReq)
  /-- R64. Control message writing the hstream register of a stream. -/
  | setStream (r : HostReq)
  /-- R63. Control message giving the host's version ranges, answered with the highest common version per interface, or BUSY after the first ATTACH_QUEUE. -/
  | negotiate (r : HostReq)
  /-- R59. Control message returning the capability record. -/
  | readCap (r : HostReq)
  /-- R66. Control message returning the start record copy in use. -/
  | readStart (r : HostReq)
  /-- R66. Control message writing a start record with every step not begun. -/
  | clearStart (r : HostReq)
  /-- R66. Control message setting the firmware slot for the next start. -/
  | selectSlot (r : HostReq)
  /-- R62. Control message with a nonce that returns an attestation report signed with the device identity key. -/
  | attest (r : HostReq)
  /-- R470. Control message that derives, seals and stores the tagged capabilities of an image's relocation table in table order. -/
  | relocate (r : HostReq)
  /-- R469. Control message registering the default core set-up record of a context. -/
  | setSetup (r : HostReq)
  /-- R68. A queue agent pops its attached queue with QPOP once the command of its last pop has been taken. -/
  | queueAgentPop (q : Nat)
  /-- R76. Command that hands a graph node record to the launch scheduler, which reads and checks it and enters Handed. -/
  | launch (q : Nat) (cmd : List Byte)
  /-- R69. Command that waits with acquire until a counter reads 0. -/
  | wait (q : Nat) (cmd : List Byte)
  /-- R69. Command that adds a signed amount to a counter with release. -/
  | signal (q : Nat) (cmd : List Byte)
  /-- R69. Command that writes 1–32 bytes and completes when they are visible at their home slice. -/
  | write (q : Nat) (cmd : List Byte)
  /-- R69. Serial command that queues an event record for the host. -/
  | event (q : Nat) (cmd : List Byte)
  /-- R69. Command that completes at once. -/
  | nop (q : Nat) (cmd : List Byte)
  /-- R82. A launch in Ready reads pfault and the indirect count with acquire, then enters Placing or goes to Ending without running. -/
  | launchReady (grid : Nat)
  /-- R78. The launch scheduler reserves a rectangle for every bay on the shared occupancy map, or ends the grid with PLACEMENT if it can never fit. -/
  | placeGrid (grid : Nat)
  /-- R469. The launch scheduler applies the core set-up record, copying code and writing control registers, or ends the grid with SETUP. -/
  | coreSetup (grid : Nat)
  /-- R79. The launch scheduler deals a task record into a grid core's run queue once an entry is free. -/
  | dealTask (grid : Nat)
  /-- R80. A footprint copy into the task's scratchpad completes and the task becomes ready, or the grid ends with FOOTPRINT. -/
  | footprintCopy (grid core index : Nat)
  /-- R83. When a grid's trigger count reaches 0 before Ending, every successor's predecessor counter is decremented with release. -/
  | triggerRelease (grid : Nat)
  /-- R72. Once engine commands and acknowledgements have settled, the error status record is written and the completion counter is decremented with release. -/
  | completionRelease (grid : Nat)
  /-- R84. A core's selector picks a ready task of a non-held class for a free slot by priority, age and the aging reserve. -/
  | taskSelect (core : Nat)
  /-- R230. A slot in Starting finishes loading the task registers and begins running at the unsealed entry. -/
  | taskStart (slot : Nat)
  /-- R233. A message arrives into a core's inbox, or waits in the router while the inbox is full. -/
  | messageArrival (target : Nat) (m : Task)
  /-- R233. An inbox message takes a free run-queue entry and copies its catalogue entry, becoming ready or undeliverable. -/
  | messageReady (core : Nat)
  /-- R236. The annex thread starts at the annex entry when inbox occupancy reaches hi, or falls to lo with pend set. -/
  | annexStart (core : Nat)
  /-- R240. A victim answers a steal request with its top deque entry or an empty indication. -/
  | stealRequest (thief victim : Nat) (answer : Option (Option Task))
  /-- R240. After 1,024 cycles a thief that found every victim empty begins stealing again. -/
  | stealRetry (core : Nat)
  /-- R242. Both context messages of a migration have arrived and the strand becomes a ready kind 7 task. -/
  | migrateArrival (core : Nat) (t : Task)
  /-- R402. A call slip from rcall or rpost arrives and becomes a kind 5 or kind 6 task at its core or bank unit. -/
  | callSlip (target : Nat) (t : Task)
  /-- R403. A reply of an rcall arrives and fills the caller's scoreboarded reply registers. -/
  | rcallReply (r : Reply)
  /-- R399. The cycle count of a yield expires and the slot is ready again. -/
  | yieldExpiry (slot : Nat)
  /-- R363. Data of a load outside the local window returns and releases its scoreboard entry. -/
  | memoryReply (r : Reply)
  /-- R48. The acknowledgement of a posted store or rpost arrives, or a status takes its place and ends the grid. -/
  | storeAck (r : Reply)
  /-- R48. A posted store unacknowledged after four times rdeadline ends the issuing grid. -/
  | postedTimeout (core entry : Nat)
  /-- R47. A reply not arrived within rdeadline marks its destination registers as reply-lost. -/
  | replyDeadline (core entry : Nat)
  /-- R158. The first write to an elided page sets dr, drains the page, fills the frame, clears el and replays the parked accesses. -/
  | elMaterialise (ctx va : Nat)
  /-- R144. A 16-byte write through a window sets a slot register between two of its instructions. -/
  | registerImageWrite (slot reg : Nat) (v : Reg)
  /-- R140. A start-core write of hlin during step 10 sets a stack's channel-linear share; later writes are ignored. -/
  | hlinWrite (src : Writer) (stack : Nat) (v : BitVec 32)
  /-- R152. A start-core write of ctxbase sets the context table for walks that begin afterwards. -/
  | ctxbaseWrite (src : Writer) (v : Word64)
  /-- R158. A start-core write of eltab sets the pattern table of elided pages. -/
  | eltabWrite (src : Writer) (v : Word64)
  /-- R96. A start-core write of rtab sets each route class's mode and channel for messages injected afterwards. -/
  | rtabWrite (src : Writer) (v : Word64)
  /-- R220. A control-program write of xctl sets the context allowed to use a crossbar array and its enable. -/
  | xctlWrite (src : Writer) (cluster array : Nat) (v : BitVec 32)
  /-- R255. A control-program write of mqctl sets a core's MU queue weight. -/
  | mqctlWrite (src : Writer) (core : Nat) (v : BitVec 32)
  /-- R263. A write to the MU doorbell issues the MU command that its sub-opcode names from the shadow images. -/
  | muDoorbell (core : Nat) (v : Word64)
  /-- R263. A write to the copy doorbell issues the copy command that its sub-opcode names from the shadow images. -/
  | copyDoorbell (core : Nat) (v : Word64)
  /-- R263. A write to the vector doorbell issues the vector command that its sub-opcode names from the shadow images. -/
  | vectorDoorbell (core : Nat) (v : Word64)
  /-- R256. A window write of a carousel descriptor, ignored if the descriptor is invalid or the carousel is in use. -/
  | carouselDescriptorWrite (core index : Nat) (v : BitVec 256)
  /-- R8. A write to any other register sets its fields by their access codes. -/
  | registerWrite (src : Writer) (off width : Nat) (v : Word128)
  /-- R113. Desk operation returning a cell's image with acquire. -/
  | query (r : DeskReq)
  /-- R136. Desk operation zeroing a cell and making it untyped, filling its holds with FREED. -/
  | free (r : DeskReq)
  /-- R136. Desk operation giving a cell a type and image, replacing any old image and filling its holds with FREED. -/
  | init (r : DeskReq)
  /-- R117. Desk operation adding to a counter and, at 0, filling waits and firing an armed continuation. -/
  | cadd (r : DeskReq)
  /-- R117. Desk operation completing at once if the counter is 0, otherwise making a hold. -/
  | cwait (r : DeskReq)
  /-- R117. Desk operation registering a continuation, firing it at once if the counter is 0. -/
  | carm (r : DeskReq)
  /-- R117. Desk operation clearing armed and returning the old bit. -/
  | cdisarm (r : DeskReq)
  /-- R121. Desk operation counting an arrival and completing the phase when none are left and pend is 0. -/
  | barrive (r : DeskReq)
  /-- R121. Desk operation returning at once for a past phase, otherwise making a hold. -/
  | bwait (r : DeskReq)
  /-- R121. Desk operation performing BARRIVE then BWAIT on the returned phase as one operation. -/
  | bsync (r : DeskReq)
  /-- R121. Desk operation adding pending bytes to a barrier. -/
  | bpendadd (r : DeskReq)
  /-- R121. Desk operation subtracting visible bytes from a barrier's pend and completing the phase when possible. -/
  | bpendsub (r : DeskReq)
  /-- R125. Desk operation taking a ticket and granting the lock or making a hold. -/
  | lacq (r : DeskReq)
  /-- R125. Desk operation granting a free lock or returning FAIL without a ticket. -/
  | ltry (r : DeskReq)
  /-- R125. Desk operation releasing the lock to the next ticket holder, skipping void entries. -/
  | lrel (r : DeskReq)
  /-- R127. Desk operation passing an element to a pop hold, writing it into the ring, or making a push hold. -/
  | qpush (r : DeskReq)
  /-- R127. Desk operation returning the head element and admitting a held push, or making a pop hold. -/
  | qpop (r : DeskReq)
  /-- R127. Desk operation as QPUSH but returning FAIL where it would hold. -/
  | qtrypush (r : DeskReq)
  /-- R127. Desk operation as QPOP but returning FAIL where it would hold. -/
  | qtrypop (r : DeskReq)
  /-- R129. Desk operation recording a condition wait and sending an LREL for the waiter to its lock. -/
  | vwait (r : DeskReq)
  /-- R129. Desk operation marking the oldest wait signalled and sending an LACQ for it to the lock. -/
  | vsignal (r : DeskReq)
  /-- R129. Desk operation signalling every wait in order of age. -/
  | vbcast (r : DeskReq)
  /-- R385. A Desk reply arrives at its requester and completes the operation, or a RETRY status makes it resend. -/
  | result (a : Answer)
  /-- R133. A fill or continuation arrives and completes the held instruction with acquire, or starts a continuation task, or is applied to a saved context. -/
  | wake (a : Answer)
  /-- R85. A boost message increments a slot's boost count at its level. -/
  | boost (w : Waiter) (level : Nat)
  /-- R85. An expiry message decrements a slot's boost count. -/
  | expire (w : Waiter) (level : Nat)
  /-- R134. A held strand's new effective priority updates its hold entry and may re-send the boost. -/
  | prioset (cell : Nat) (w : Waiter) (prio : Nat)
  /-- R135. A cancel voids a hold, which is answered CANCELLED and its boost expires. -/
  | cancel (cell : Nat) (w : Waiter) (seq : Nat)
  /-- R123. A census request reaches a participant core, which answers with its selected event counters. -/
  | censusreq (id core : Nat)
  /-- R106. A census message combines at a router or reaches the Desk, which writes the record when every participant is counted. -/
  | census (id router count : Nat) (sums : List Nat)
  /-- R106. A combining entry is sent on 32 ncycles after it was taken. -/
  | censusEntryTimeout (id router : Nat)
  /-- R112. After at least 64 ncycles a requester resends requests that a full Desk refused, in their original order. -/
  | deskResend (w : Waiter)
  /-- R255. An MU grants a step of up to 256 cycles to a queue in weighted round robin, completing and retiring commands. -/
  | muStep (cluster unit : Nat)
  /-- R261. When every write of a drain is acknowledged, the MU sends its closing message. -/
  | drainClose (core : Nat)
  /-- R264. A vector engine processes a command's rows and completes it. -/
  | vectorCommand (core : Nat)
  /-- R265. A copy engine grants and moves one 4 KiB chunk, stopping at a page fault or ending the command with its record. -/
  | copyChunk (cluster : Nat)
  /-- R268. A copy delivers elements into a stream buffer and pauses while it is full. -/
  | streamElement (slot stream : Nat)
  /-- R210. A crossbar product is evaluated, writing its raw sums or being refused or found drifted with the recalibration trap. -/
  | xuProduct (cluster array : Nat)
  /-- R217. One xprog row step pulses and verifies a row's pairs and updates the failed-row map. -/
  | xprogRow (cluster array : Nat)
  /-- R214. One xcal step calibrates a column group or the reference pairs, and the last step sets valid. -/
  | xcalStep (cluster array : Nat)
  /-- R204. A bank unit writes the last primitive of a row operation, reports completion and releases the parked accesses. -/
  | rowOpComplete (bank : Nat)
  /-- R279. Every core of a grid being pre-empted reaches an instruction boundary and its engine commands stop at a step boundary. -/
  | preemptBoundary (grid : Nat)
  /-- R280. The copy engines finish writing a grid's save area, and the grid becomes Saved or ends with SAVE_FAULT. -/
  | saveComplete (grid : Nat)
  /-- R53. Module power is lost at any time, including during a write of the start record, and the device stops until the next power-on. -/
  | powerLoss (writing : Bool)
  /-- R24. A soft error flips bits in a protected storage structure, to be corrected or found uncorrectable by the next read or scrub. -/
  | softError (at_ : Store) (bits : Nat)
  /-- R330. A slot issues a word that decodes as no instruction (bad low bits, illegal major opcode, unassigned sub-opcode or forbidden field value) and takes ILLEGAL_INSTRUCTION. -/
  | illegalInstruction (word : Word32)
  /-- R250. A fetch at or above xbound raises the overlay trap before any word is fetched and enters ovlh, or ends the grid with OVERLAY. -/
  | overlayTrap
  /-- R23. The hottest sensor falls below 92 °C and limiter stages 1–3 applied for temperature are left, with an event record on exit. -/
  | thermalLimitExit (cluster : Nat) (temp : Int)
  deriving DecidableEq, Repr

/-- What comes from outside the device, or of itself with time: it is not lost when a start begins. A control message whose stream is
16 higher is the task that it has become (R66). -/
def Event.outside : Event → Bool
  | .powerOn _ n => n = 0
  | .fabricPacket p => p.port < 64
  | .carrierReset _ | .startWatchdog _ _ | .governorWindow _ _ _ | .limiterSample _ _ _ | .thermalLimit _ _
  | .thermalPreempt _ _ | .thermalClear | .thermalShutdown | .thermalLimitExit _ _ | .sliceScrub _ _ | .hbmRowScrub _ _
  | .crossingFail _ _ | .groupReceive _ _ _ _ _ _ | .laneLockLoss _ _ | .retrainEnd _ _ _ _ | .enforcementWindow
  | .memoryRead _ | .memoryWrite _ | .cellRequest _ | .hostCancel _ | .unsupportedRequest _
  | .powerLoss _ | .softError _ _ => true
  | .attachQueue r | .detachQueue r | .resetQueue r | .setStream r | .negotiate r | .readCap r | .readStart r
  | .clearStart r | .selectSlot r | .attest r | .relocate r | .setSetup r => r.stream < 16
  | _ => false

/-- The row of the opcode table that an event is. -/
def Event.instr : Event → Instr
  | .powerOn _ _ => .powerOn
  | .carrierReset _ => .carrierReset
  | .startWatchdog _ _ => .startWatchdog
  | .governorWindow _ _ _ => .governorWindow
  | .levelStepDone _ => .levelStepDone
  | .nrctlWrite _ _ _ => .nrctlWrite
  | .limiterSample _ _ _ => .limiterSample
  | .thermalLimit _ _ => .thermalLimit
  | .thermalPreempt _ _ => .thermalPreempt
  | .thermalClear => .thermalClear
  | .thermalShutdown => .thermalShutdown
  | .sliceScrub _ _ => .sliceScrub
  | .hbmRowScrub _ _ => .hbmRowScrub
  | .crossingFail _ _ => .crossingFail
  | .groupReceive _ _ _ _ _ _ => .groupReceive
  | .laneLockLoss _ _ => .laneLockLoss
  | .retrainEnd _ _ _ _ => .retrainEnd
  | .fpctlEn _ _ _ => .fpctlEn
  | .fpctlDown _ _ => .fpctlDown
  | .fshareWrite _ _ _ => .fshareWrite
  | .hshareWrite _ _ _ => .hshareWrite
  | .sshareWrite _ _ _ => .sshareWrite
  | .enforcementWindow => .enforcementWindow
  | .fabricPacket _ => .fabricPacket
  | .memoryRead _ => .memoryRead
  | .memoryWrite _ => .memoryWrite
  | .cellRequest _ => .cellRequest
  | .hostCancel _ => .hostCancel
  | .unsupportedRequest _ => .unsupportedRequest
  | .streamRequestIssue _ => .streamRequestIssue
  | .eventRecordSend _ => .eventRecordSend
  | .attachQueue _ => .attachQueue
  | .detachQueue _ => .detachQueue
  | .resetQueue _ => .resetQueue
  | .setStream _ => .setStream
  | .negotiate _ => .negotiate
  | .readCap _ => .readCap
  | .readStart _ => .readStart
  | .clearStart _ => .clearStart
  | .selectSlot _ => .selectSlot
  | .attest _ => .attest
  | .relocate _ => .relocate
  | .setSetup _ => .setSetup
  | .queueAgentPop _ => .queueAgentPop
  | .launch _ _ => .launch
  | .wait _ _ => .wait
  | .signal _ _ => .signal
  | .write _ _ => .write
  | .event _ _ => .event
  | .nop _ _ => .nop
  | .launchReady _ => .launchReady
  | .placeGrid _ => .placeGrid
  | .coreSetup _ => .coreSetup
  | .dealTask _ => .dealTask
  | .footprintCopy _ _ _ => .footprintCopy
  | .triggerRelease _ => .triggerRelease
  | .completionRelease _ => .completionRelease
  | .taskSelect _ => .taskSelect
  | .taskStart _ => .taskStart
  | .messageArrival _ _ => .messageArrival
  | .messageReady _ => .messageReady
  | .annexStart _ => .annexStart
  | .stealRequest _ _ _ => .stealRequest
  | .stealRetry _ => .stealRetry
  | .migrateArrival _ _ => .migrateArrival
  | .callSlip _ _ => .callSlip
  | .rcallReply _ => .rcallReply
  | .yieldExpiry _ => .yieldExpiry
  | .memoryReply _ => .memoryReply
  | .storeAck _ => .storeAck
  | .postedTimeout _ _ => .postedTimeout
  | .replyDeadline _ _ => .replyDeadline
  | .elMaterialise _ _ => .elMaterialise
  | .registerImageWrite _ _ _ => .registerImageWrite
  | .hlinWrite _ _ _ => .hlinWrite
  | .ctxbaseWrite _ _ => .ctxbaseWrite
  | .eltabWrite _ _ => .eltabWrite
  | .rtabWrite _ _ => .rtabWrite
  | .xctlWrite _ _ _ _ => .xctlWrite
  | .mqctlWrite _ _ _ => .mqctlWrite
  | .muDoorbell _ _ => .muDoorbell
  | .copyDoorbell _ _ => .copyDoorbell
  | .vectorDoorbell _ _ => .vectorDoorbell
  | .carouselDescriptorWrite _ _ _ => .carouselDescriptorWrite
  | .registerWrite _ _ _ _ => .registerWrite
  | .query _ => .query
  | .free _ => .free
  | .init _ => .init
  | .cadd _ => .cadd
  | .cwait _ => .cwait
  | .carm _ => .carm
  | .cdisarm _ => .cdisarm
  | .barrive _ => .barrive
  | .bwait _ => .bwait
  | .bsync _ => .bsync
  | .bpendadd _ => .bpendadd
  | .bpendsub _ => .bpendsub
  | .lacq _ => .lacq
  | .ltry _ => .ltry
  | .lrel _ => .lrel
  | .qpush _ => .qpush
  | .qpop _ => .qpop
  | .qtrypush _ => .qtrypush
  | .qtrypop _ => .qtrypop
  | .vwait _ => .vwait
  | .vsignal _ => .vsignal
  | .vbcast _ => .vbcast
  | .result _ => .result
  | .wake _ => .wake
  | .boost _ _ => .boost
  | .expire _ _ => .expire
  | .prioset _ _ _ => .prioset
  | .cancel _ _ _ => .cancel
  | .censusreq _ _ => .censusreq
  | .census _ _ _ _ => .census
  | .censusEntryTimeout _ _ => .censusEntryTimeout
  | .deskResend _ => .deskResend
  | .muStep _ _ => .muStep
  | .drainClose _ => .drainClose
  | .vectorCommand _ => .vectorCommand
  | .copyChunk _ => .copyChunk
  | .streamElement _ _ => .streamElement
  | .xuProduct _ _ => .xuProduct
  | .xprogRow _ _ => .xprogRow
  | .xcalStep _ _ => .xcalStep
  | .rowOpComplete _ => .rowOpComplete
  | .preemptBoundary _ => .preemptBoundary
  | .saveComplete _ => .saveComplete
  | .powerLoss _ => .powerLoss
  | .softError _ _ => .softError
  | .illegalInstruction _ => .illegalInstruction
  | .overlayTrap => .overlayTrap
  | .thermalLimitExit _ _ => .thermalLimitExit

end Sys2Proof.Machine
end

