-- ==== Sys2Proof/Machine/State.lean ====
section
/-! DEFINITION. The state of the device: every register, queue, table and memory that the specification names
(INVENTORY.md lists each with its rule), as plain data; the faults and refusals; the state after reset. A map is
a list of keys and values; an absent key reads as the reset value of its kind. -/

namespace Sys2Proof.Machine

open Sys2Proof

/-- A deferred mark on a register (spec/14_traps_and_preemption.md R276). -/
structure Mark where
  cause : Cause
  rcode : Cause := .none
  dev : Nat := 0
  addr : Nat := 0
  deriving DecidableEq, Repr

/-- What a scoreboard entry awaits (spec/18_isa_memory.md R363, spec/19_isa_sync_tasks_remote.md R402); `element` is
the element of a push, read on another device (R392). -/
inductive BoardKind where
  | load (size : Nat) (signed capLoad : Bool)
  | atomic (width : Nat) (flag : Bool)
  | call
  | element
  deriving DecidableEq, Repr

/-- One of the 64 scoreboard entries of a core: the slot, its first register and their number (R363, R402), the tag of
the request and the time at which its deadline passes (R277). -/
structure Board where
  id : Nat
  slot : Nat
  reg : Nat
  count : Nat
  kind : BoardKind
  addr : Nat := 0
  seq : Nat := 0
  due : Nat := 0
  deriving DecidableEq, Repr

/-- A posted store or `rpost` that awaits its acknowledgement (spec/02_links.md R48, R404), with the barrier
that counts its bytes (R368) and their number; `late` where the early release does not wait for it: its task is no dealt task or
had triggered before (R83); `call` for an `rpost`; the tag of the
request and the time at which it lapses (R48); the copy command that makes it (R180). -/
structure Posted where
  id : Nat
  slot : Nat
  grid : Nat
  addr : Nat
  pc : Nat
  dev : Nat := 0
  barrier : Option (Nat × Nat) := none
  late : Bool := false
  call : Bool := false
  tag : Nat := 0
  due : Nat := 0
  copy : Option Nat := none
  bytes : Nat := 1
  deriving DecidableEq, Repr

/-- A bound stream register: its elements that have arrived, each with its bounded mark
(spec/13_engines.md R268, spec/20_isa_engines.md R437). -/
structure Stream where
  buffer : List (Word128 × Bool) := []
  bytes : Nat := 0
  deriving DecidableEq, Repr

/-- What a slot that cannot issue waits for: the answer to a typed-cell instruction (R385), to a row
operation (R204), the evaluation of a product (R441), or the reply to an acquire or an atomic of another device
(R372, R379), by its tag. -/
inductive Await where
  | reply (tag : Nat)
  | cell (seq : Nat) (op : DeskOp) (gd : Nat) (va pa : Nat) (area : Option Reg) (joining : Bool) (la : Nat)
  | rowop (gd la : Nat)
  | product (array la : Nat)
  deriving DecidableEq, Repr

/-- What a resume executes (R275): the base, how many instructions follow it, and which of them are done. -/
structure Skip where
  base : Word64
  len : Nat
  done : BitVec 15
  deriving DecidableEq, Repr

/-- One thread slot (spec/12_cores_and_strands.md R223-R226) with its strand's state; `popped` is an element taken from a
queue or read for one and not moved yet (R392), `answered` an answer that came while the slot was saved (R133), `due` the
time at which the deadline of a remote cell request passes (R386; 0 without one), `since` what an instruction that waits
for engine commands noted when it was first tried: the number before which they were issued (R426, R442), or the slot of a
carousel that it fills (R418). -/
structure Slot where
  st : SlotState := .free
  regs : List (Nat × Reg) := []
  marks : List (Nat × Mark) := []
  pc : Word64 := 0
  sstat : BitVec 32 := 0
  tcause : Word64 := 0
  taddr : Word64 := 0
  tpc : Word64 := 0
  trcause : Word64 := 0
  tla : BitVec 32 := 0
  tscratch : Reg := {}
  rdeadline : BitVec 32 := 100
  stbar : Reg := {}
  unsent : Nat := 0
  vcfg : BitVec 32 := 0
  boosts : List Nat := [0, 0, 0, 0, 0, 0, 0, 0]
  window : Nat := 0
  skip : Option Skip := none
  await : Option Await := none
  popped : Option (List Byte) := none
  streams : List (Nat × Stream) := []
  yielding : Nat := 0
  stopped : Bool := false
  task : Option Task := none
  lead : Option Nat := none
  answered : Option Answer := none
  due : Nat := 0
  since : Option Nat := none
  deriving DecidableEq, Repr

/-- A carousel descriptor (spec/13_engines.md R256 Table 3) and the reservations of copy and vector commands
that name it (spec/20_isa_engines.md R436). -/
structure Carousel where
  base : Nat := 0
  size : Nat := 0
  cnt : Nat := 0
  head : Nat := 0
  tail : Nat := 0
  rsv : Nat := 0
  claimed : Nat := 0
  deriving DecidableEq, Repr

/-- The forms of `mma` (spec/20_isa_engines.md R420). -/
inductive MmaForm where
  | float (a b : Fmt)
  | int8
  | ni (k : Nat)
  deriving DecidableEq, Repr

/-- A drain word (R424 Table 4), the tag of its closing message and the clear flag. -/
structure Drain where
  x : Nat
  y : Nat
  off : Nat
  fmt : Fmt
  cls : Nat
  int : Bool
  sat : Bool
  tag : Word128
  clear : Bool
  deriving DecidableEq, Repr

/-- The work of a matrix-unit command (R254). Operand slots are window offsets. -/
inductive MuOp where
  | mma (form : MmaForm) (ca cb a b : Nat) (scale : Reg)
  | mrec (fmt : Fmt) (prog : BitVec 32) (ca cb a b : Nat)
  | drain (d : Drain)
  | zero
  | accept
  deriving DecidableEq, Repr

/-- A command of a matrix-unit queue: the accumulator, the latched mode and priority, the steps in all and
done, read-all-then-write mode (R260), a doorbell command (R263); the order of its issue and the `pc` of its instruction;
`seen` keeps, for each element, the events met so far (R305, R306). -/
structure MuCmd where
  op : MuOp
  acc : Nat
  rmode : Nat
  prio : Nat
  qos : Nat
  grid : Nat
  slot : Nat
  steps : Nat
  done : Nat := 0
  whole : Bool := false
  door : Bool := false
  closing : Bool := false
  seq : Nat := 0
  pc : Nat := 0
  seen : List Nat := []
  deriving DecidableEq, Repr

/-- The vector instructions (R429 Table 6) and `accept.sp` (R443). -/
inductive VecOp where
  | add | sub | mul | fma | max | min | abs | neg | adds | muls
  | cvt (dest : Fmt) (sat : Bool)
  | exp | rcp | rsqrt | sum | maxr | argmax | sel | cmplt | and | or | xor | mov | fill | acceptSp
  deriving DecidableEq, Repr

/-- A command of a vector queue (R428): row offsets, the scalar, the latched format and mode; `car` names the
carousel that receives the rows and `carPos` the number of the slot there; `gd` the register that receives a reduction; the
order of its issue and the `pc` of its instruction. -/
structure VecCmd where
  op : VecOp
  d : Nat := 0
  a : Nat := 0
  b : Nat := 0
  scalar : Reg := {}
  fmt : Fmt
  sat : Bool
  rows : Nat
  rmode : Nat
  slot : Nat
  grid : Nat
  gd : Nat := 0
  car : Option Nat := none
  carPos : Nat := 0
  len : Nat := 0
  door : Bool := false
  seq : Nat := 0
  pc : Nat := 0
  prio : Nat := 0
  qos : Nat := 0
  deriving DecidableEq, Repr

/-- The copy instructions (R432). -/
inductive CopyOp where
  | copy | copy2d | gather | scatter | fill
  deriving DecidableEq, Repr

/-- A copy command (R432-R437): operands, control word, progress in bytes or elements, the barrier that it
counts on, and what its destination is. A footprint copy (R80) names its grid and task. `counted` is what its barrier still
counts, `ending` how the command ends once its record is written (R267: status, cause, address), `asked` the
tag and the address of a read of another device, `fetched` the source sectors that it has read, each once (R179), `reported` a fault that waits for the control program (R162). -/
structure CopyCmd where
  op : CopyOp
  dst : Reg
  src : Reg
  total : Nat
  pos : Nat
  es : Nat := 0
  idx : Reg := {}
  record : Nat := 0
  rb : Nat := 0
  nr : Nat := 0
  ss : Nat := 0
  ds : Nat := 0
  car : Option Nat := none
  carOff : Nat := 0
  carPos : Nat := 0
  stream : Option Nat := none
  barrier : Option Nat := none
  counted : Nat := 0
  commandCount : Bool := false
  slot : Nat
  grid : Nat
  ctx : Nat
  prio : Nat := 0
  qos : Nat := 0
  door : Bool := false
  stopped : Bool := false
  ending : Option (Nat × Nat × Nat) := none
  asked : Option (Nat × Nat) := none
  fetched : List (Nat × Reply) := []
  reported : Bool := false
  foot : Option Nat := none
  seq : Nat := 0
  pc : Nat := 0
  deriving DecidableEq, Repr

/-- A crossbar command (R438-R442): the array, the step reached, and the operands. -/
inductive XuOp where
  | prog (gd row0 n off : Nat)
  | cal
  | save (off : Nat)
  | load (off : Nat)
  | product (row0 n k src dst : Nat)
  deriving DecidableEq, Repr

structure XuCmd where
  array : Nat
  op : XuOp
  slot : Nat
  step : Nat := 0
  fails : Nat := 0
  grid : Nat := 0
  seq : Nat := 0
  pc : Nat := 0
  prio : Nat := 0
  qos : Nat := 0
  deriving DecidableEq, Repr

/-- The registers and queues of one core (spec/12_cores_and_strands.md, spec/13_engines.md). Its local SRAM,
accumulator tiles and shadows lie in memory, in its window (R143). -/
structure Core where
  grid : Option Nat := none
  gx : Nat := 0
  gy : Nat := 0
  bay : Nat := 0
  xbound : BitVec 32 := 0
  lsplit : BitVec 32 := 0
  vpool : BitVec 32 := 0
  stkctl : BitVec 32 := 0
  hmask : BitVec 32 := 0
  annexctl : BitVec 32 := 0x101C
  ovlh : Reg := {}
  thnd : Reg := {}
  evctl : BitVec 32 := 0xFFFF
  mqwt : Nat := 8
  ev : List (Nat × Nat) := []
  cat : List (Nat × Reg) := []
  runq : List Task := []
  deque : List Task := []
  inbox : List Task := []
  router : List Task := []
  selCount : Nat := 0
  steal : Option Nat := none
  stealWait : Bool := false
  stealAt : Nat := 0
  kept : List (Nat × Nat × Nat) := []
  cars : List (Nat × Carousel) := []
  recbuf : BitVec 32 := 0
  muStatus : Word64 := 0
  copyStatus : Word64 := 0
  vecStatus : Word64 := 0
  muq : List MuCmd := []
  vq : List VecCmd := []
  cq : List CopyCmd := []
  xq : List XuCmd := []
  accMark : List (Nat × Bool) := []
  accScale : List (Nat × BitVec 32) := []
  board : List Board := []
  posted : List Posted := []
  lines : List Nat := []
  pooled : List Nat := []
  crossbar : Bool := false
  deriving DecidableEq, Repr

/-- One resistive array (spec/11_crossbar_arrays.md R206-R221): weight bytes by 256 row + column, the
calibration image by offset, row write counts, `xctl`, a pending injection (R466). -/
structure XArray where
  weights : List (Nat × Byte) := []
  cal : List (Nat × Byte) := []
  failed : List Nat := []
  writes : List (Nat × Nat) := []
  xctl : BitVec 32 := 0
  inject : Bool := false
  turn : Nat := 0
  run : Bool := false
  deriving DecidableEq, Repr

/-- The parts of a cluster that its cores share: the arrays, the turns of its matrix units (queue index and
steps left in the turn, R255; `muRun0` and `muRun1` while a granted step of that queue runs) and of its copy engine (R265). -/
structure Cluster where
  arrays : List (Nat × XArray) := []
  muTurn0 : Nat × Nat := (7, 0)
  muTurn1 : Nat × Nat := (7, 0)
  muRun0 : Bool := false
  muRun1 : Bool := false
  copyTurn : Nat := 0
  deriving DecidableEq, Repr

/-- A row operation between its first and its last primitive (spec/10_bank_units.md R201-R204): the physical addresses of
the rows of D, A and B, the lines invalidated. -/
structure RowOp where
  slot : Nat
  op : Nat
  d : List Nat
  a : List Nat
  b : List Nat
  inv : Nat
  deriving DecidableEq, Repr

/-- A bank unit (R190-R196). Its code SRAM lies in memory, in the unit-register region (R141); `rows` holds the eight further
rows of its subarrays, by 8 times the subarray and the row's index (R199), `buffer` the base-die buffer (R190). -/
structure Bank where
  inbox : List Task := []
  router : List Task := []
  cat : List (Nat × Reg) := []
  bstat : Word64 := 0
  rowop : Option RowOp := none
  rows : List (Nat × List Byte) := []
  buffer : List (Nat × Byte) := []
  deriving DecidableEq, Repr

/-- An attached command queue (spec/04_host_interface.md R66-R71): `num` numbers its attachment; `size` holds the address,
the number of elements and the context of its buffer; `popping` is the tag of the pop under way; `taken` holds the command
that the last pop returned and that the service core has not taken; `starting` the command taken that has not started;
`pending` the started commands whose access has not been answered, by its tag; `running` counts the commands that have
started and not completed; `resetting` the tag of the initialisation that a reset awaits, with the request. -/
structure Queue where
  num : Nat
  cell : Nat
  pa : Nat
  ctx : Nat
  prio : Nat
  size : Nat × Nat × Nat
  stopped : Bool := false
  popping : Option Nat := none
  taken : Option (List Byte) := none
  starting : Option (List Byte) := none
  pending : List (Nat × List Byte) := []
  running : Nat := 0
  detaching : Bool := false
  resetting : Option (Nat × HostReq) := none
  deriving DecidableEq, Repr

/-- The request of a host stream that has not taken effect (R38, R65): its sequence number and the physical address of its
cell; `holds` for a cell request that can hold; for an access of another device, the bytes done and the bytes read; `parked`
for a relaxed write of this device that waits for its page. -/
structure HostHeld where
  req : HostReq
  seq : Nat
  cell : Nat := 0
  holds : Bool := false
  pos : Nat := 0
  got : List Byte := []
  parked : Bool := false
  deriving DecidableEq, Repr

/-- A network region with its governor, and the service core's attached queues (spec/01_package.md R19, R20); `tasks` the
control messages that the service core has not performed (spec/02_links.md R34), `asking` those that await an answer of another
device. -/
structure Region where
  nrctl : BitVec 32 := 0x1480
  low : Nat := 0
  target : Option Nat := none
  limit : Nat := 8
  queues : List (Nat × Queue) := []
  lastQueue : Nat := 15
  tasks : List HostReq := []
  asking : List HostHeld := []
  deriving DecidableEq, Repr

/-- A group of eight flits that a port has sent and whose acknowledgement has not come (spec/02_links.md R29): its number,
how often in succession it has failed, and what its flits carry. -/
structure Group where
  num : Nat
  fails : Nat := 0
  packet : Option Packet := none
  msg : Option HostMsg := none
  deriving DecidableEq, Repr

/-- A Jorust port, or the Ubgen port with number 32 (spec/02_links.md R29-R31, R49, R51); `run` counts how often in succession
the group that is due has failed, `txSeq` numbers the next group sent, `replay` is the replay buffer of 64 groups, `queue` and
`hostQueue` hold what finds it full; `failTimes` holds the times of the retrainings that have failed (R30), `cold` that the port
trains after having been down. -/
structure Port where
  fpctl : BitVec 32 := 1
  fshare : Word64 := 0x2020202020202020
  rxSeq : Nat := 0
  acked : Nat := 0
  run : Nat := 0
  txSeq : Nat := 0
  failTimes : List Nat := []
  finishing : Bool := false
  cold : Bool := false
  replay : List Group := []
  queue : List Packet := []
  hostQueue : List HostMsg := []
  received : Nat := 0
  deriving DecidableEq, Repr

/-- A host stream (R64, R65, R38): `hstream`, the requests that wait, the request that has not taken effect, the relaxed
writes that are not visible yet. -/
structure HStream where
  hstream : BitVec 32 := 0
  waiting : List HostReq := []
  boosts : List Nat := [0, 0, 0, 0, 0, 0, 0, 0]
  held : Option HostHeld := none
  relaxed : List HostHeld := []
  deriving DecidableEq, Repr

/-- A hold (spec/07_sync_objects.md R130 Table 13): `elem` is the element of a push, `void` marks a cancelled
lock entry, `stored` an entry that lies in the die's hold store, `cond` the condition for which a lock hold acts (R129), `late` the
status of a release that failed after the signal (R129). -/
structure Hold where
  pa : Nat
  who : Waiter
  op : DeskOp
  prio : Nat
  seq : Nat
  key : Nat := 0
  lock : Nat := 0
  signalled : Bool := false
  elem : List Byte := []
  elen : Nat := 0
  cond : Option Nat := none
  stored : Bool := false
  void : Bool := false
  late : Nat := 0
  qos : Nat := 0
  ctx : Nat := 0
  deriving DecidableEq, Repr

/-- A census in progress (R106, R123): the participants that have not been counted, and the sums. -/
structure Census where
  id : Nat
  pa : Nat
  phase : Nat
  cmask : Nat
  total : Nat
  count : Nat := 0
  sums : List Nat
  deriving DecidableEq, Repr

/-- A combining entry of a router (R106). -/
structure Combine where
  id : Nat
  router : Nat
  count : Nat
  sums : List Nat
  deriving DecidableEq, Repr

/-- A boost in force: who holds, at which level, for which cell (R86), and the QoS class of the hold that causes it (R138). -/
structure Boost where
  cell : Nat
  who : Waiter
  level : Nat
  qos : Nat := 0
  deriving DecidableEq, Repr

/-- A footprint entry of a node record (spec/05_scheduling.md R75 Table 2). -/
structure Foot where
  handle : Reg
  len : Nat
  dst : Nat
  stride : Nat
  deriving DecidableEq, Repr

/-- A graph node record as read at hand-off (R75 Table 1). -/
structure Node where
  flags : Nat := 0
  qos : Nat := 0
  prio : Nat := 0
  bw : Nat := 1
  bh : Nat := 1
  gw : Nat := 1
  gh : Nat := 1
  stages : Nat := 1
  cls : Nat := 1
  tasks : Nat := 1
  succ : Nat := 0
  entry : Reg := {}
  arg0 : Reg := {}
  arg1 : Reg := {}
  pred : Nat := 0
  slist : Nat := 0
  icount : Nat := 0
  save : Nat := 0
  setup : Nat := 0
  foots : List Foot := []
  deriving DecidableEq, Repr

/-- The launch states (R77 Table 3, spec/21_isa_system.md R457 Table 9). -/
inductive LaunchState where
  | handed | waiting | ready | placing | dealing | running | stopping | saving | saved | ending | done
  deriving DecidableEq, Repr

/-- The fault that ends a grid, as the error status record describes it (spec/04_host_interface.md Table 5). -/
structure EndCause where
  status : Nat := 0
  cause : Nat := 0
  taddr : Nat := 0
  tpc : Nat := 0
  x : Nat := 0
  y : Nat := 0
  slot : Nat := 0
  stage : Nat := 0
  bay : Nat := 0
  saved : Bool := false
  stopped : Nat := 0
  deriving DecidableEq, Repr

/-- A core saved by pre-emption: its place in the grid, the core that it was, its registers and queues and its slots. What
R281 lays out stands in the save area and is read from there at the resume; the rest is kept here. `dirty` names the slots
that have changed since their records were written (R283). -/
structure SavedCore where
  index : Nat
  place : Nat
  core : Core
  slots : List Slot
  dirty : List Nat := []
  deriving DecidableEq, Repr

/-- A core set-up record as read (spec/21_isa_system.md R469 Table 15): the flags, the code capability and its length, and
the values in the order of the table, from `xbound` to `hmask`. -/
structure SetUp where
  flags : Nat := 0
  clen : Nat := 0
  code : Reg := {}
  vals : List Nat := []
  ovlh : Reg := {}
  thnd : Reg := {}
  deriving DecidableEq, Repr

/-- A launch and its grid (R75-R90): `attach` is the number of the queue's attachment and `cell` the queue's address, `order`
that of its entry into Placing, `last` the rectangles that it had before it was saved, `stage` how far Ending has come (0 the
grid settles, 1 the record is due, 2 it is on its way, 3 the counter has been asked for, 4 the successors are due, 5 Done is
due), `written` when the error status record has been dealt with, `succAt` the successor that is due, `setUp` the set-up
record that is applied. -/
structure Grid where
  num : Nat
  st : LaunchState := .handed
  node : Node := {}
  addr : Nat := 0
  counter : Nat := 0
  errAddr : Nat := 0
  ctx : Nat := 0
  tag : Nat := 0
  flags : Nat := 0
  queue : Nat := 0
  region : Nat := 0
  gw : Nat := 0
  rects : List (Nat × Nat) := []
  trig : Nat := 0
  released : Bool := false
  undealt : List Task := []
  resuming : Bool := false
  ended : Option EndCause := none
  saved : List SavedCore := []
  affine : List Nat := []
  outcome : Nat := 0
  thermal : Bool := false
  waitSeq : Nat := 0
  attach : Nat := 0
  cell : Nat := 0
  order : Nat := 0
  last : List (Nat × Nat) := []
  written : Bool := false
  stage : Nat := 0
  succAt : Nat := 0
  setUp : Option SetUp := none
  deriving DecidableEq, Repr

/-- A translation-cache entry (spec/08_memory_and_translation.md R151): the cache, which is a cluster's number or 1,024 and a
bank unit's number (spec/10_bank_units.md R190), the context, the page it maps and the
leaf entry as it was read. -/
structure Tlb where
  cache : Nat
  ctx : Nat
  page : Nat
  size : Nat
  leaf : Word64
  deriving DecidableEq, Repr

/-- A drain in progress (R163-R165). -/
structure DrainRange where
  id : Nat
  ctx : Nat
  base : Nat
  len : Nat
  deriving DecidableEq, Repr

/-- An access that a drain has parked at its translating slice (R164), of a slot or of the copy engine for a command of a slot: it
takes a place among the holds of its die. -/
structure Parked where
  die : Nat
  slot : Nat
  ctx : Nat
  va : Nat
  engine : Bool := false
  deriving DecidableEq, Repr

/-- The metadata of a 32-byte granule (R160 Table 10) and its poison (spec/01_package.md R24). -/
structure Granule where
  tag0 : Bool := false
  tag1 : Bool := false
  ctype : Nat := 0
  bnd : Bool := false
  poison : Bool := false
  deriving DecidableEq, Repr

/-- A line of a slice (spec/06_network_and_slices.md R103): its sectors that are valid and those that are dirty, the grids that pin
it (R375). Which cores hold a copy and which engine owns it, the directory's other entries, stand in the cores' `lines` and in
their queues. -/
structure Line where
  valid : BitVec 4 := 0
  dirty : BitVec 4 := 0
  pins : List Nat := []
  deriving DecidableEq, Repr

/-- The records of an event source (spec/04_host_interface.md R73, R74). -/
structure Source where
  next : Nat := 0
  buffer : List EvRec := []
  lost : Nat := 0
  deriving DecidableEq, Repr

/-- The step entries of a start record copy (spec/03_start.md R53 Tables 1 and 2). -/
structure StartRec where
  seq : Nat := 0
  slot : Nat := 0
  steps : List (Nat × BitVec 32) := []
  valid : Bool := false
  deriving DecidableEq, Repr

/-- How far a start has come (R56-R58). -/
inductive StartPhase where
  | off
  | stepping (n : Nat)
  | held
  | dead
  | up
  | stopped
  deriving DecidableEq, Repr

/-- What start step 14 builds (R59 Table 4). -/
structure CapRec where
  built : Bool := false
  crossing : Nat := 0
  clusters : Nat := 0
  cores : Nat := 0
  conservative : Nat := 0
  banksOff : Nat := 0
  skipped : Nat := 0
  alternates : Nat := 0
  ports : Nat := 0
  uncalibrated : Nat := 0
  out : List Nat := []
  deriving DecidableEq, Repr

/-- The stages of the power limiter and the thermal limits in force (spec/01_package.md R22, R23). -/
structure Limiter where
  stage : Nat := 0
  thermal : Bool := false
  preempted : Bool := false
  deriving DecidableEq, Repr

/-- The bytes charged in a window, numbered by the multiples of 4,096 cycles at which windows begin, per regulator and
class (spec/05_scheduling.md R88). -/
structure Charge where
  window : Nat
  regulator : Nat
  cls : Nat
  bytes : Nat
  deriving DecidableEq, Repr

/-- A soft error that has struck and has not been read yet (spec/01_package.md R24): how many bits
are flipped, and which where an injection names them (R466). -/
structure Flip where
  at_ : Store
  bits : Nat
  places : List Nat := []
  deriving DecidableEq, Repr

/-- An access of a launch scheduler to another device (spec/05_scheduling.md R75): its tag, its context and address, what it asks
for, and the answer once it has come. -/
structure FarAccess where
  tag : Nat
  ctx : Nat
  addr : Nat
  op : FabricOp
  reply : Option Reply := none
  deriving DecidableEq, Repr

/-- A message in the mesh (spec/06_network_and_slices.md R91-R102): its header, what it does where it arrives, for a multicast
what each core's copy does, the cluster of the router where it is, and the input port that holds it; `inp` is none while its
source has not injected it. -/
structure Flight where
  head : Header
  act : Event
  copies : List (Nat × Event) := []
  router : Nat
  inp : Option Dir := none
  deriving DecidableEq, Repr

/-- A request in the ingress of a slice (R105): the cluster, its QoS class and priority, the router input by which it came, and the
request. -/
structure Ingress where
  cluster : Nat
  cls : Nat
  prio : Nat
  inp : Dir
  act : Event
  deriving DecidableEq, Repr

/-- The mesh (R91-R105): the messages in it, in the order in which each reached the place where it is; for each output port
(8 times the cluster plus the port) the input port granted last (R100); the requests in the ingress queues, for each class of a
slice (8 times the cluster plus the class) the input served last, and for each slice the class whose turn it is with what remains
of the turn (R88, R105). -/
structure Net where
  flights : List Flight := []
  granted : List (Nat × Dir) := []
  ingress : List Ingress := []
  served : List (Nat × Dir) := []
  turns : List (Nat × (Nat × Nat)) := []
  deriving DecidableEq, Repr

/-- The state of the device. -/
structure State where
  /-- the model's own: the number of the next free value (notes/assumptions/8.md) -/
  fresh : Nat := 0
  /-- the model's own: events that have happened and wait for their step, in order (notes/assumptions/4.md) -/
  agenda : List Event := []
  /-- the model's own: the event of the present step -/
  input : Event := .overlayTrap
  /-- the model's own: the slot that issues the present instruction -/
  cur : Nat := 0
  /-- the model's own: the core (or bank unit, by its slots' keys over 4) from which the next to issue is sought -/
  next : Nat := 0
  /-- the slot of each core and bank unit that issued last, where it is not the last one (R225) -/
  issued : List (Nat × Nat) := []
  /-- the model's own: the instruction tried last was not ready -/
  waited : Bool := false
  /-- the model's own: whether an event or an instruction comes next -/
  eventTurn : Bool := false
  /-- device time in cycles (R73, R451) -/
  time : Nat := 0
  powered : Bool := true
  phase : StartPhase := .off
  flashA : StartRec := {}
  flashB : StartRec := {}
  bootSlot : Nat := 0
  fuses : Nat := 0
  /-- the firmware images that the host has written, by slot (R60) -/
  images : List (Nat × Image) := []
  /-- the identity key pair that start step 15 derives: public and private key (R61) -/
  identity : Option (List Byte × List Byte) := none
  capRec : CapRec := {}
  negotiated : List Nat := []
  /-- the version ranges that the host has announced, in the order of the interfaces (R63) -/
  announced : List (Nat × Nat) := []
  attachSeen : Bool := false
  /-- the die-to-die crossing that has failed since the last start: 0 joins the C-dies 0 and 1, 1 the dies 2 and 3, 2 the dies
  0 and 2, 3 the dies 1 and 3 (R13, R94) -/
  crossingDown : Option Nat := none
  /-- the times of the retrainings of each crossing that have failed (R94) -/
  crossingFails : List (Nat × List Nat) := []
  leftOut : List Nat := []
  banksOff : List Nat := []
  ubgen : Nat := 0
  limiter : Limiter := {}
  mem : List Host.Cell := []
  granules : List (Nat × Granule) := []
  lines : List (Nat × Line) := []
  tlb : List Tlb := []
  drains : List DrainRange := []
  slots : List (Nat × Slot) := []
  cores : List (Nat × Core) := []
  clusters : List (Nat × Cluster) := []
  banks : List (Nat × Bank) := []
  regions : List (Nat × Region) := []
  ports : List (Nat × Port) := []
  streams : List (Nat × HStream) := []
  /-- the stream that the Ubgen port served last (R39) -/
  lastStream : Nat := 15
  rtab : Word64 := 0
  ctxbase : Word64 := 0
  eltab : Word64 := 0
  sshare : List (Nat × Word64) := []
  hshare : List (Nat × Word64) := []
  hlin : List (Nat × BitVec 32) := []
  charges : List Charge := []
  /-- the mesh of routers (R91-R105) -/
  net : Net := {}
  holds : List Hold := []
  resend : List (Waiter × Event) := []
  censuses : List Census := []
  combining : List Combine := []
  boosts : List Boost := []
  arrived : List (Nat × Waiter) := []
  /-- messages that an annex thread has taken, by the number in their origin field (R408) -/
  taken : List (Nat × Task) := []
  spillTime : List (Nat × Nat) := []
  grids : List (Nat × Grid) := []
  nextGrid : Nat := 0
  /-- what `preack` reports of a grid whose number no later grid has taken (R458) -/
  outcomes : List (Nat × Nat) := []
  setups : List (Nat × Nat) := []
  /-- accesses of launch schedulers to other devices (R75) -/
  far : List FarAccess := []
  sources : List (Nat × Source) := []
  flips : List Flip := []
  /-- correctable-error counts of the structures that no register counts (R24), by 65,536 times the line of Table 6 plus the unit -/
  errCounts : List (Nat × Nat) := []
  /-- accesses parked by a drain (R164) -/
  parked : List Parked := []
  toHost : List HostMsg := []
  toFabric : List Packet := []
  fabricNext : List (Nat × Nat) := []
  fabricSeen : List (Nat × Nat) := []
  deriving DecidableEq, Repr

/-- Why the machine stops. -/
inductive Fault where
  /-- raised by `step` when the device has no power and no start is due (R23, R53): safe, nothing happens until
  power returns -/
  | noPower
  deriving DecidableEq, Repr

/-- Why an instruction has no meaning here. -/
inductive Refusal where
  /-- raised by an arm of `exec` whose instruction has no meaning yet: safe, nothing is claimed of it -/
  | notModelled (mnemonic : String)
  deriving DecidableEq, Repr

/-- The device right after reset: no start has run, no slot is occupied, every register at the value that its
map states (the defaults above), and where the specification states none at the value of notes/assumptions/6.md. -/
def State.reset : State := {}

end Sys2Proof.Machine
end

