-- ==== Sys2Proof/Machine/Topology.lean ====
section
/-! DEFINITION. The places of the device: cores, clusters, quadrants, service cores, bank units, edge routers,
slot keys, waiter ids, physical addresses (spec/01_package.md R13-R18, spec/06_network_and_slices.md R91, R513,
spec/07_sync_objects.md R111, spec/08_memory_and_translation.md R139-R143). -/

namespace Sys2Proof.Machine

open Sys2Proof

/-- Physical coordinates of the core 128y + x (R139). -/
def coreX (n : Nat) : Nat := n % 128
def coreY (n : Nat) : Nat := n / 128
def coreAt (x y : Nat) : Nat := 128 * y + x

/-- The C-die of physical cluster coordinates (R13). -/
def dieOfCluster (cx cy : Nat) : Nat := cx / 16 + 2 * (cy / 16)

/-- Cluster number 256d + 16y + x of physical cluster coordinates, with y and x within the die (R111, R141). -/
def clusterAt (cx cy : Nat) : Nat := 256 * dieOfCluster cx cy + 16 * (cy % 16) + cx % 16

/-- Physical cluster coordinates of a cluster number. -/
def clusterX (c : Nat) : Nat := 16 * (c / 256 % 2) + c % 16
def clusterY (c : Nat) : Nat := 16 * (c / 256 / 2) + c / 16 % 16

/-- The cluster of a core, and the core's index 4y + x within it (R15, R150). -/
def clusterOf (n : Nat) : Nat := clusterAt (coreX n / 4) (coreY n / 4)
def coreInCluster (n : Nat) : Nat := 4 * (coreY n % 4) + coreX n % 4

/-- The core with index `i` of a cluster. -/
def clusterCore (c i : Nat) : Nat := coreAt (4 * clusterX c + i % 4) (4 * clusterY c + i / 4)

/-- The network region 4d + q of physical core coordinates (R16, R18). -/
def regionAt (x y : Nat) : Nat := 4 * (x / 64 + 2 * (y / 64)) + (x / 32 % 2 + 2 * (y / 32 % 2))

/-- The C-die of a core (R13). -/
def dieOfCore (n : Nat) : Nat := regionAt (coreX n) (coreY n) / 4

def regionOf (n : Nat) : Nat := regionAt (coreX n) (coreY n)

/-- The service core of a network region (R16): at physical coordinates (32i, 32j). -/
def serviceCore (r : Nat) : Nat :=
  coreAt (64 * (r / 4 % 2) + 32 * (r % 4 % 2)) (64 * (r / 4 / 2) + 32 * (r % 4 / 2))

def isService (n : Nat) : Bool := coreX n % 32 = 0 && coreY n % 32 = 0

/-- The region whose service core controls a port (R32, R40, R51). -/
def portRegion (p : Nat) : Nat := if p < 32 then 4 * (p / 8) else 0

/-- Slot keys: the slots of cores, then the slots of bank units (R223, R190). -/
def slotKey (core h : Nat) : Nat := 4 * core + h
def bankKey (bank h : Nat) : Nat := 65536 + 4 * bank + h
def isBankSlot (k : Nat) : Bool := 65536 ≤ k
def bankOf (k : Nat) : Nat := (k - 65536) / 4
def coreOf (k : Nat) : Nat := k / 4

/-- The execution level of a slot (spec/21_isa_system.md R445). -/
def levelOf (k : Nat) : Level :=
  if isBankSlot k then .b else if isService (coreOf k) then .s else if k % 4 = 3 then .a else .g

/-- Physical addresses: HBM, core windows, the unit-register region (R139). -/
def hbmEnd : Nat := 0xC000000000
def windowBase : Nat := 0x400000000000
def windowEnd : Nat := 0x400400000000
def unitBase : Nat := 0x400400000000
def unitEnd : Nat := 0x400500000000

/-- The physical address of an offset in a core's window (R139, R143). -/
def windowPA (core off : Nat) : Nat := windowBase + core * 0x100000 + off

/-- The physical address of an offset in a bank unit's 64 KiB of the unit-register region (R141). -/
def bankPA (bank off : Nat) : Nat := unitBase + 0x100000 + 0x10000 * bank + off

/-- The M-stack of an HBM address and the offset within it (R139, R140). -/
def stackOf (pa : Nat) : Nat := pa / 0x1000000000
def stackOff (pa : Nat) : Nat := pa % 0x1000000000

/-- The channel-linear share of a stack in units of 64 MiB per channel (R140 Table 2). -/
def State.lin (s : State) (stack : Nat) : Nat := min 32 (bits (look (0 : BitVec 32) s.hlin stack).toNat 5 0)

/-- The channel of an HBM address and the address within the channel (R140). -/
def State.channel (s : State) (pa : Nat) : Nat × Nat :=
  let o := stackOff pa
  let lin := s.lin (stackOf pa)
  let edge := 0x1000000000 - lin * 0x80000000
  if o < edge then (xorN (bits o 12 8) (bits o 17 13), o / 8192 * 256 + o % 256)
  else ((o - edge) / (lin * 0x4000000), 0x80000000 - lin * 0x4000000 + (o - edge) % (lin * 0x4000000))

/-- An HBM address lies in the channel-linear part of its stack (R140, R155). -/
def State.isLinear (s : State) (pa : Nat) : Bool :=
  0x1000000000 - s.lin (stackOf pa) * 0x80000000 ≤ stackOff pa

/-- The bank unit of the channel that holds an HBM address (R189). -/
def State.bankOfPA (s : State) (pa : Nat) : Nat := 32 * stackOf pa + (s.channel pa).1

/-- The next present cluster of a die in ascending order from index `t`, modulo 256 (R104, R151). -/
def State.presentCluster (s : State) (die t : Nat) : Nat :=
  go 256 t
where
  go : Nat → Nat → Nat
    | 0, t => 256 * die + t % 256
    | n + 1, t => if s.leftOut.contains (256 * die + t % 256) then go n (t + 1) else 256 * die + t % 256

/-- The cluster whose slice homes an HBM address (R104). -/
def State.homeCluster (s : State) (pa : Nat) : Nat :=
  s.presentCluster (stackOf pa / 3)
    (xorN (bits pa 14 7) (xorN (bits pa 22 15) (xorN (bits pa 30 23) (xorN (bits pa 38 31) (bits pa 46 39)))))

/-- The cluster whose slice translates a virtual address on a die (R151). -/
def State.translatingCluster (s : State) (die va : Nat) : Nat :=
  s.presentCluster die
    (xorN (bits va 28 21) (xorN (bits va 36 29) (xorN (bits va 44 37) (xorN (bits va 52 45) (bits va 60 53)))))

/-- The edge router of a channel of an M-stack, as physical cluster coordinates (R513 Table 6). -/
def channelRouter (stack c : Nat) : Nat × Nat :=
  let d := stack / 3
  let xd := if d % 2 = 0 then 0 else 31
  let yd := if d / 2 = 0 then 0 else 31
  let ox := 16 * (d % 2)
  let oy := 16 * (d / 2)
  match stack % 3 with
  | 0 => (xd, oy + c / 2)
  | 1 => (ox + c / 2, yd)
  | _ => if c < 16 then (xd, oy + c) else (ox + c - 16, yd)

/-- The edge router of a port (R513 Table 6). -/
def portRouter (p : Nat) : Nat × Nat :=
  if p = 32 then (0, 0)
  else (16 * (p / 8 % 2) + 2 * (p % 8) + 1, if p / 8 / 2 = 0 then 0 else 31)

/-- The 64 bits of a waiter id (R111 Table 3). -/
def Waiter.word (w : Waiter) : Nat :=
  w.dev % 8192 + w.kind % 8 * 2 ^ 13 + w.grid % 65536 * 2 ^ 16 + w.x % 65536 * 2 ^ 32 + w.y % 65536 * 2 ^ 48

/-- The waiter that 64 bits name, with the slot kept beside it. -/
def Waiter.ofWord (v slot : Nat) : Waiter :=
  ⟨bits v 12 0, bits v 15 13, bits v 31 16, bits v 47 32, bits v 63 48, slot⟩

/-- The register value of a waiter id: exact data (R230 Table 6). -/
def Waiter.reg (w : Waiter) : Reg := ⟨BitVec.ofNat 128 w.word, .exact⟩

/-- This device. -/
def thisDevice : Nat := Config.device % 8192

end Sys2Proof.Machine
end

