-- ==== Sys2Proof/Machine/Parts.lean ====
section
/-! DEFINITION. Reading and changing the parts of the state: slots, cores, banks, grids, bytes of memory with their
granules, the agenda, free values, event counters, event records, fabric packets. -/

namespace Sys2Proof.Machine

open Sys2Proof

/-- The answer of an instruction. -/
abbrev Answered := Host.Outcome State Fault Refusal

/-! ## Parts by number -/

def State.slot (s : State) (k : Nat) : Slot := look {} s.slots k
def State.setSlot (s : State) (k : Nat) (x : Slot) : State := { s with slots := put s.slots k x }
def State.onSlot (s : State) (k : Nat) (f : Slot → Slot) : State := s.setSlot k (f (s.slot k))
def State.core (s : State) (n : Nat) : Core := look {} s.cores n
def State.onCore (s : State) (n : Nat) (f : Core → Core) : State := { s with cores := change {} s.cores n f }
def State.cluster (s : State) (n : Nat) : Cluster := look {} s.clusters n
def State.onCluster (s : State) (n : Nat) (f : Cluster → Cluster) : State :=
  { s with clusters := change {} s.clusters n f }
def State.bank (s : State) (n : Nat) : Bank := look {} s.banks n
def State.onBank (s : State) (n : Nat) (f : Bank → Bank) : State := { s with banks := change {} s.banks n f }
def State.region (s : State) (n : Nat) : Region := look {} s.regions n
def State.onRegion (s : State) (n : Nat) (f : Region → Region) : State :=
  { s with regions := change {} s.regions n f }
def State.port (s : State) (n : Nat) : Port := look {} s.ports n
def State.onPort (s : State) (n : Nat) (f : Port → Port) : State := { s with ports := change {} s.ports n f }
def State.hostStream (s : State) (n : Nat) : HStream := look {} s.streams n
def State.onHostStream (s : State) (n : Nat) (f : HStream → HStream) : State :=
  { s with streams := change {} s.streams n f }
def State.array (s : State) (c a : Nat) : XArray := look {} (s.cluster c).arrays a
def State.onArray (s : State) (c a : Nat) (f : XArray → XArray) : State :=
  s.onCluster c fun x => { x with arrays := change {} x.arrays a f }
def State.carousel (s : State) (c i : Nat) : Carousel := look {} (s.core c).cars i
def State.onCarousel (s : State) (c i : Nat) (f : Carousel → Carousel) : State :=
  s.onCore c fun x => { x with cars := change {} x.cars i f }

/-- The live grid with a number (R111). -/
def State.grid (s : State) (n : Nat) : Option Grid := (s.grids.find? fun e => e.1 = n).map (·.2)
def State.onGrid (s : State) (n : Nat) (f : Grid → Grid) : State :=
  { s with grids := s.grids.map fun e => if e.1 = n then (e.1, f e.2) else e }

/-! ## Events and free values -/

/-- An event that has happened and will be performed (notes/assumptions/4.md). -/
def State.emit (s : State) (e : Event) : State := { s with agenda := s.agenda ++ [e] }
def State.emits (s : State) (es : List Event) : State := { s with agenda := s.agenda ++ es }

/-- The counter of free values advanced past the value in use (notes/assumptions/8.md). -/
def State.drawn (s : State) : State := { s with fresh := s.fresh + 1 }

/-! ## Memory -/

/-- The cells that hold bytes other than 0, from an address upwards. -/
def cellsFrom (a : Nat) : List Byte → List Host.Cell
  | [] => []
  | b :: bs => if b = 0 then cellsFrom (a + 1) bs else (a, b) :: cellsFrom (a + 1) bs

/-- Memory with bytes written from an address upwards: an unlisted address reads as 0
(notes/assumptions/5.md). -/
def Memory.write (m : List Host.Cell) (a : Nat) (bs : List Byte) : List Host.Cell :=
  m.filter (fun c => c.1 < a) ++ cellsFrom a bs ++ m.filter (fun c => a + bs.length ≤ c.1)

/-- The byte at an address. -/
def Memory.read (m : List Host.Cell) (a : Nat) : Byte := look 0 m a

/-- The canonical form: addresses strictly rising, no byte equal to what an unlisted address reads as. -/
def Memory.wf : List Host.Cell → Bool
  | [] => true
  | [c] => c.2 != 0
  | c :: d :: m => c.2 != 0 && decide (c.1 < d.1) && Memory.wf (d :: m)

def State.byte (s : State) (pa : Nat) : Byte := Memory.read s.mem pa
def State.store (s : State) (pa : Nat) (bs : List Byte) : State := { s with mem := Memory.write s.mem pa bs }

/-- `n` bytes from an address upwards. -/
def State.bytes (s : State) (pa : Nat) : Nat → List Byte
  | 0 => []
  | n + 1 => s.byte pa :: s.bytes (pa + 1) n

/-- The little-endian number in `n` bytes (R4). -/
def State.num (s : State) (pa n : Nat) : Nat := ofBytes (s.bytes pa n)

/-- The metadata and the poison of the granule that holds an address (R160, R26). -/
def State.granule (s : State) (pa : Nat) : Granule := look {} s.granules (pa / 32)
def State.onGranule (s : State) (pa : Nat) (f : Granule → Granule) : State :=
  let g := f (s.granule pa)
  { s with granules := if g = {} then without s.granules (pa / 32) else put s.granules (pa / 32) g }

/-- A change of every granule that `n` bytes from an address touch. -/
def State.onGranules (s : State) (pa n : Nat) (f : Nat → Granule → Granule) : State :=
  go s (pa / 32) (if n = 0 then 0 else (pa + n - 1) / 32 + 1 - pa / 32)
where
  go : State → Nat → Nat → State
    | s, _, 0 => s
    | s, g, m + 1 => go (s.onGranule (32 * g) (f g)) (g + 1) m

/-- Some granule that `n` bytes from an address touch satisfies a test. -/
def State.anyGranule (s : State) (pa n : Nat) (p : Granule → Bool) : Bool :=
  n != 0 && (List.range ((pa + n - 1) / 32 + 1 - pa / 32)).any fun i => p (s.granule (32 * (pa / 32 + i)))

/-- The capability tag of the 16-byte granule at an address (R160). -/
def State.tagAt (s : State) (pa : Nat) : Bool :=
  if pa % 32 < 16 then (s.granule pa).tag0 else (s.granule pa).tag1

/-- The capability tag of the 16-byte granule at an address, written. -/
def State.setTag (s : State) (pa : Nat) (t : Bool) : State :=
  s.onGranule pa fun g => if pa % 32 < 16 then { g with tag0 := t } else { g with tag1 := t }

/-- The write of a number of bytes as data: the bytes, the tags of every 16-byte granule written cleared (R160),
the poison of every sector written whole cleared (R26) and with it an error that had struck it, and the bounded mark of every sector written whole as
given (R160: an ordinary whole-sector store sets it to 0). -/
def State.storeData (s : State) (pa : Nat) (bs : List Byte) (bnd : Bool := false) : State :=
  ({ s.store pa bs with flips := s.flips.filter fun f => match f.at_ with
    | .memory q => !(pa ≤ q / 32 * 32 && q / 32 * 32 + 32 ≤ pa + bs.length)
    | _ => true } : State).onGranules pa bs.length fun g m =>
    let lo := 32 * g
    let whole := pa ≤ lo && lo + 32 ≤ pa + bs.length
    let hits0 := pa < lo + 16 && lo < pa + bs.length
    let hits1 := pa < lo + 32 && lo + 16 < pa + bs.length
    { m with
      tag0 := m.tag0 && !hits0, tag1 := m.tag1 && !hits1,
      bnd := if whole then bnd else m.bnd,
      poison := m.poison && !whole }

/-- A register value from 16 bytes and the metadata beside them, when the tag may be taken (R371). -/
def State.capAt (s : State) (pa : Nat) (lc : Bool) : Reg :=
  let d : Word128 := BitVec.ofNat 128 (s.num pa 16)
  if (s.granule pa).bnd then ⟨d, .bounded⟩
  else if lc && s.tagAt pa then ⟨d, if d.getLsbD 121 then .sealed else .cap⟩
  else ⟨d, .exact⟩

/-- A register stored with its tag as `cst` stores it (R371). -/
def State.storeCap (s : State) (pa : Nat) (r : Reg) : State :=
  (s.storeData pa (bytesOf 16 r.data.toNat)).setTag pa (r.tag == .cap || r.tag == .sealed)

/-- A sector poisoned (R25, R26). -/
def State.poison (s : State) (pa : Nat) : State := s.onGranule pa fun g => { g with poison := true }

/-! ## Counters and records -/

/-- An event counter of a core advanced, if enabled; it stops at its largest value (R305, R307). -/
def State.count (s : State) (c n amount : Nat) : State :=
  if (s.core c).evctl.getLsbD n then
    s.onCore c fun x => { x with ev := change 0 x.ev n fun v => min (v + amount) 0xFFFFFFFF }
  else s

/-- The number of a source of event records (R73 Table 6). -/
def sourceOfService (r : Nat) : Nat := r
def sourceOfDesk (c : Nat) : Nat := 0x1000 + c
def sourceOfPort (p : Nat) : Nat := if p = 32 then 0x3000 else 0x2000 + p

/-- An event record produced by a source (R73, R74): numbered, buffered if fewer than 16 records wait, and lost
otherwise. A severity that the specification does not state is a free value. -/
def State.record (s : State) (source : Nat) (sev : Option Nat) (kind payload : Nat) (tag : Nat := 0) : State :=
  let src := look ({} : Source) s.sources source
  let next := (src.next + 1) % 65536
  if src.buffer.length < 16 then
    let level := sev.getD (Config.choice s.fresh % 4)
    let r : EvRec := ⟨level, kind, source, src.next, s.time, tag, payload, s.negotiated = []⟩
    let s := s.drawn
    let s := { s with sources := put s.sources source { src with next := next, buffer := src.buffer ++ [r] } }
    if s.phase = .up then s.emit (.eventRecordSend source) else s
  else { s with sources := put s.sources source { src with next := next, lost := src.lost + 1 } }

/-- An event record with the contents that Table 7 states for its kind; how they are arranged in the payload it does not
say. -/
def State.openRecord (s : State) (source : Nat) (sev : Option Nat) (kind : Nat) (contents : List Nat) (tag : Nat := 0) : State :=
  s.record source sev kind (Config.payload kind contents % 2 ^ 64) tag

/-- The record of a corrected error (R24): a structure code, by its line of Table 6, and the physical location. -/
def State.corrected (s : State) (region structure_ place : Nat) : State :=
  s.openRecord (sourceOfService region) none 0x10 [structure_, place]

/-! ## Bandwidth (R87, R88) -/

/-- Bytes charged to a QoS class at a regulator in the present window, which began at a multiple of 4,096 cycles: charges of
earlier windows are gone. -/
def State.charge (s : State) (regulator cls bytes : Nat) : State :=
  let now := s.charges.filter fun c => c.window = s.time / 4096
  let mine (c : Charge) : Bool := c.regulator = regulator && c.cls = cls
  { s with charges := ⟨s.time / 4096, regulator, cls, ((now.filter mine).map (·.bytes)).sum + bytes⟩ ::
      now.filter fun c => !mine c }

/-- The regulators: HBM stack `m`, the slice ingress of die `d`, Jorust port `p`. -/
def stackRegulator (m : Nat) : Nat := m
def dieRegulator (d : Nat) : Nat := 16 + d
def portRegulator (p : Nat) : Nat := 32 + p

/-- A request for bytes of HBM admitted: charged at the slice ingress of the die that homes them and at the controllers of their
stack. -/
def State.enterSlice (s : State) (cls pa n : Nat) : State :=
  if hbmEnd ≤ pa then s
  else (s.charge (dieRegulator (stackOf pa / 3)) cls n).charge (stackRegulator (stackOf pa)) cls n

/-! ## Messages of the mesh (R91, R92, R513) -/

/-- The router at which an agent stands, by its cluster. -/
def NetAgent.router (a : NetAgent) : Nat :=
  match a.code with
  | 0 => clusterOf a.unit
  | 8 => let r := channelRouter (a.unit / 32) (a.unit % 32); clusterAt r.1 r.2
  | 9 => let r := portRouter a.unit; clusterAt r.1 r.2
  | 10 => 0
  | _ => a.unit

/-- The coordinates of an agent in a header (R92): the physical x and y of its core, or of the first core of its cluster. -/
def NetAgent.x (a : NetAgent) : Nat :=
  match a.code with
  | 0 => coreX a.unit
  | 8 => a.unit % 96
  | 9 => a.unit
  | 10 => 0
  | _ => 4 * clusterX a.unit
def NetAgent.y (a : NetAgent) : Nat := if a.code = 0 then coreY a.unit else 4 * clusterY a.router

/-- The four bytes of an agent in a header. -/
def NetAgent.word (a : NetAgent) : Nat := a.x % 128 + a.y % 128 * 2 ^ 7 + a.code % 16 * 2 ^ 14

/-- The 32 bytes of a header (R92 Table 1). -/
def Header.image (h : Header) : List Byte :=
  let b (p : Bool) (i : Nat) : Nat := if p then 2 ^ i else 0
  bytesOf 1 (h.op % 64 + h.family % 4 * 64) ++
    bytesOf 1 (h.cls % 16 + (h.len - 1) % 8 * 16 + b h.corners.isSome 7) ++
    bytesOf 1 (h.mode % 4 + h.vc % 16 * 4) ++
    bytesOf 1 (h.prio % 8 + h.qos % 8 * 8 + b h.release 6 + b h.poisoned 7) ++
    bytesOf 4 h.dst.word ++ bytesOf 4 h.src.word ++ bytesOf 2 h.tag ++ bytesOf 2 h.ctx ++ bytesOf 8 h.addr ++
    bytesOf 8 (match h.corners with
      | some (x0, y0, x1, y1) => x0 % 128 + y0 % 128 * 2 ^ 7 + x1 % 128 * 2 ^ 14 + y1 % 128 * 2 ^ 21
      | none => h.operand)

/-- The agents by their numbers. -/
def coreAgent (n : Nat) : NetAgent := ⟨0, n⟩
def sliceAgent (c : Nat) : NetAgent := ⟨1, c⟩
def deskAgent (c : Nat) : NetAgent := ⟨2, c⟩
def combiner (c : Nat) : NetAgent := ⟨7, c⟩
def bankAgent (b : Nat) : NetAgent := ⟨8, b⟩
def portAgent (p : Nat) : NetAgent := if p = 32 then ⟨10, 0⟩ else ⟨9, p⟩

/-- The core or the bank unit that a unit target names (spec/10_bank_units.md R190). -/
def unitAgent (n : Nat) : NetAgent := if n < 16384 then coreAgent n else bankAgent (n - 16384)

/-- Flits of a message with a payload (R92). -/
def flitsOf (payload : Nat) : Nat := min 6 (1 + (payload + 31) / 32)

/-- A message handed to the mesh at the router of its source: it is injected when its channel has room there (R95). -/
def State.carry (s : State) (h : Header) (act : Event) : State :=
  { s with net := { s.net with flights := s.net.flights ++ [⟨h, act, [], h.src.router, none⟩] } }

/-- A message to the cores of a rectangle (R101): `copies` are what each core's copy does. -/
def State.carryAll (s : State) (h : Header) (copies : List (Nat × Event)) : State :=
  match copies with
  | [] => s
  | c :: _ => { s with net := { s.net with flights := s.net.flights ++ [⟨h, c.2, copies, h.src.router, none⟩] } }

/-- A message to cores (R101): one multicast for each bay that they are in, to the rectangle that holds them there. -/
def State.carryTo (s : State) (h : Header) (cores : List Nat) (act : Nat → Event) : State :=
  ((cores.map fun n => (s.core n).bay).eraseDups).foldl (fun s b =>
    let mine := cores.filter fun n => (s.core n).bay = b
    let xs := mine.map coreX
    let ys := mine.map coreY
    s.carryAll { h with corners := some (xs.foldl min 127, ys.foldl min 127, xs.foldl max 0, ys.foldl max 0) }
      (mine.map fun n => (n, act n))) s

/-- What has happened and waits for its step, or is on its way in the mesh. -/
def State.coming (s : State) : List Event :=
  s.agenda ++ s.net.flights.flatMap (fun f => if f.copies = [] then [f.act] else f.copies.map (·.2)) ++ s.net.ingress.map (·.act)

/-- The header of a task-creating message from one unit to another (R92, R97). -/
def Task.header (t : Task) (src : NetAgent) (target : Nat) : Header :=
  { family := 3, op := t.kind, cls := t.cls, prio := t.prio, qos := t.qos, ctx := t.ctx, src := src, dst := unitAgent target,
    tag := t.seq, len := flitsOf (16 * t.args.length), poisoned := false }

/-- The header of a message of the Desk family (R97). -/
def deskHeader (src dst : NetAgent) (op prio qos ctx addr : Nat) : Header :=
  { family := 2, op := op, prio := prio, qos := qos, ctx := ctx, addr := addr, src := src, dst := dst }

/-! ## The fabric -/

/-- The ports that are up (R51 Table 4). -/
def State.upPorts (s : State) : List Nat :=
  (List.range 32).filter fun p => bits (s.port p).fpctl.toNat 3 2 = 2

/-- The bytes of a packet on a port (R42, R92): a link header, a message header, and the payload in whole flits. -/
def Packet.bytes (p : Packet) : Nat :=
  let regs (n : Nat) : Nat := (16 * n + 31) / 32
  64 + 32 * (match p.op with
    | .store bs _ _ _ _ => (bs.length + 31) / 32
    | .place .. | .cells _ => 1
    | .atomic .. | .loadReply .. => 1
    | .cell _ r => 1 + (r.elem.length + 31) / 32
    | .call t | .message t => 1 + regs t.args.length
    | .answer a => (a.elem.length + 31) / 32
    | .reply vals => regs vals.length
    | _ => 0)

/-- The virtual channel of a port on which a packet travels (R42): two for each class, the second for replies and
acknowledgements. -/
def FabricOp.isReply : FabricOp → Bool
  | .loadReply .. | .cells _ | .storeAck | .refusal _ | .noRoute | .answer _ | .reply _ | .boost .. | .expire .. => true
  | _ => false

def Packet.channel (p : Packet) : Nat := 2 * (p.qos % 8) + if p.op.isReply then 1 else 0

/-- The virtual channel of the mesh message that a packet carries (R95 Table 2, R97): a message of a class takes the channel
that `rtab` gives its class. -/
def channelOf (rtab : Word64) (cls : Nat) : Nat × Nat :=
  let mode := bits rtab.toNat (4 * cls + 1) (4 * cls) % 3
  (mode, 3 + 2 * mode + bits rtab.toNat (4 * cls + 2) (4 * cls + 2))

def State.channelOfOp (s : State) (cls : Nat) : FabricOp → Nat
  | .load _ | .capLoad | .sector | .store .. | .place .. | .atomic .. | .flush | .flags _ => 0
  | .loadReply .. | .cells _ | .storeAck | .refusal _ | .noRoute => 1
  | .message _ | .call _ | .reply _ => (channelOf s.rtab cls).2
  | _ => 2

/-- The bytes of a replay buffer: 64 groups (R29). -/
def replayGroups : Nat := 64

/-- A port fills groups from what waits, as long as its replay buffer has room (R29): replies go before requests, so that none is
blocked behind one (R42). -/
def State.fillGroups (s : State) (p : Nat) : Nat → State
  | 0 => s
  | n + 1 =>
    let q := s.port p
    if replayGroups ≤ q.replay.length then s
    else
      let numbered (g : Port) : Port := { g with txSeq := (g.txSeq + 1) % 4096 }
      match (q.queue.find? fun k => k.op.isReply).or q.queue.head?, q.hostQueue with
      | some k, _ => ({ s with ports := change {} s.ports p fun g => numbered { g with
          queue := g.queue.erase k, replay := g.replay ++ [⟨g.txSeq, 0, some k, none⟩] } } : State).fillGroups p n
      | none, m :: ms => ({ s with ports := change {} s.ports p fun g => numbered { g with
          hostQueue := ms, replay := g.replay ++ [⟨g.txSeq, 0, none, some m⟩] } } : State).fillGroups p n
      | none, [] => s

/-- The port that the plane hash picks over the ports that are up (R43), for a flow. -/
def State.planeOf (s : State) (p : Packet) : Option Nat :=
  match s.upPorts with
  | [] => none
  | up => some (up.getD (Config.planeHash p.dst p.cluster p.cls % up.length) 0)

/-- A packet handed to a port (R42, R49): charged to its class; it goes out in a group of its own as soon as the replay buffer
has room. `toFabric` keeps what the device has handed over. -/
def State.post (s : State) (port : Nat) (p : Packet) : State :=
  let q := { p with port := port }
  (({ s with
      ports := change {} s.ports port fun x => { x with queue := x.queue ++ [q] }
      toFabric := s.toFabric ++ [q] } : State).charge (portRegulator port) q.qos q.bytes).fillGroups port 1

/-- A packet sent to another device (R42, R43): its end-to-end number is the next for that device, and the plane
is a hash over the ports that are up. No port is up only where a port went down between the decision to send and the
sending; the model then leaves the packet unsent (a choice of the model, notes/assumptions/58.md). -/
def State.send (s : State) (p : Packet) (cluster : Nat) : State :=
  let num := look 0 s.fabricNext p.dst
  let q := { p with src := thisDevice, num := num, vc := s.channelOfOp p.cls p.op, cluster := cluster }
  match s.planeOf q with
  | none => s
  | some port => ({ s with fabricNext := put s.fabricNext p.dst ((num + 1) % 2 ^ 24) } : State).post port q

/-- A message sent to the host (R35, R29): it goes out in groups of the Ubgen port. -/
def State.toUbgen (s : State) (m : HostMsg) : State :=
  ({ s with
      ports := change {} s.ports 32 fun x => { x with hostQueue := x.hostQueue ++ [m] }
      toHost := s.toHost ++ [m] } : State).fillGroups 32 1

end Sys2Proof.Machine
end

