-- ==== Sys2Proof/Machine/Paging.lean ====
section
/-! DEFINITION. Regions of virtual addresses, the page walk with its checks, the translation caches, drains, and
what a translated address names (spec/08_memory_and_translation.md R145-R165). -/

namespace Sys2Proof.Machine

open Sys2Proof

/-- The regions of R145 Table 4. -/
inductive Region64 where
  | fabric (dev addr : Nat)
  | translated
  | grid (x y off : Nat)
  | own (off : Nat)
  | none
  deriving DecidableEq, Repr

/-- The region of a virtual address (R145, R45). -/
def regionOfVA (va : Nat) : Region64 :=
  if va / 2 ^ 63 % 2 = 1 then .fabric (bits va 62 50) (bits va 49 0)
  else if va / 2 ^ 56 % 256 = 0 then .translated
  else if va / 2 ^ 48 = 0x7FFE then .grid (bits va 33 20) (bits va 47 34) (bits va 19 0)
  else if va / 2 ^ 20 = 0x7FFFFFFFFFF then .own (bits va 19 0)
  else .none

/-- What an access asks of its page (R161 rows 5-7): a read, a write, an atomic, a cell request that only reads or
that writes, a copy of code, or nothing (the target of a call, R402). -/
inductive Use where
  | read | write | atomic | cellRead | cellWrite | code | find
  deriving DecidableEq, Repr

/-- A leaf entry with the page it maps (R154). -/
structure Leaf where
  word : Nat
  base : Nat
  size : Nat
  deriving DecidableEq, Repr

def Leaf.at_ (l : Leaf) : Bool := bit l.word 5
def Leaf.cm (l : Leaf) : Bool := bit l.word 6
def Leaf.el (l : Leaf) : Bool := bit l.word 7
def Leaf.rl (l : Leaf) : Bool := bit l.word 47
def Leaf.frame (l : Leaf) : Nat := bits l.word 46 16 * 65536
def Leaf.pat (l : Leaf) : Nat := bits l.word 15 8

/-- The end of a walk: a leaf with the address of its entry, a mark that parks the access, or a cause. -/
inductive Walked where
  | leaf (l : Leaf) (entry : Nat)
  | park
  | fail (c : Cause)
  deriving DecidableEq, Repr

/-- A table entry that points to a table is well formed (R155). -/
def tableOk (w nextSize : Nat) : Bool :=
  bits w 63 49 = 0 && bits w 7 2 = 0 && !bit w 47 && bits w 46 8 * 256 % nextSize = 0 &&
    bits w 46 8 * 256 + nextSize ≤ hbmEnd

/-- A leaf entry of a page of `size` bytes is well formed (R155). -/
def State.leafOk (s : State) (w size : Nat) : Bool :=
  let frame := bits w 46 16 * 65536
  bits w 63 49 = 0 && (bit w 7 || bits w 15 8 = 0) && frame % size = 0 && frame + size ≤ hbmEnd &&
    !(bit w 5 && (bit w 6 || bit w 7)) && !(bit w 7 && bit w 6) && !(bit w 6 && bit w 3) &&
    !(size = 0x40000000 && (bit w 7 || bit w 47)) && !(bit w 47 && !s.isLinear frame)

/-- The levels below the root: the lowest bit and the number of entries of the index, whether a leaf may, or must,
stand there, and the page it maps (R153 Table 8). The size of the table at a level is eight times its entries. -/
structure Rung where
  lo : Nat
  entries : Nat
  mayLeaf : Bool
  mayTable : Bool
  page : Nat
  deriving DecidableEq, Repr

def rungs : List Rung :=
  [⟨48, 256, false, true, 0⟩, ⟨39, 512, false, true, 0⟩, ⟨30, 512, true, true, 0x40000000⟩,
   ⟨21, 512, true, true, 0x200000⟩, ⟨16, 32, true, false, 0x10000⟩]

/-! ## Soft errors in memory (R24, R25) -/

/-- The protected word in which an address lies: 32 bytes in HBM and in slices, 8 bytes in a core's window. -/
def wordOf (pa : Nat) : Nat := if pa < hbmEnd then pa / 32 * 32 else pa / 8 * 8
def protectedBytes (pa : Nat) : Nat := if pa < hbmEnd then 32 else 8

/-- A correction counted where no register counts it: by the line of Table 6 and the unit. -/
def State.countError (s : State) (line unit : Nat) : State :=
  { s with errCounts := change 0 s.errCounts (65536 * line + unit) (· + 1) }

/-- A field of `bstat` counted up to its largest value. -/
def State.countBank (s : State) (pa hi lo : Nat) : State :=
  s.onBank (s.bankOfPA pa) fun b => { b with
    bstat := BitVec.ofNat 64 (setBits b.bstat.toNat hi lo (min (2 ^ (hi + 1 - lo) - 1) (bits b.bstat.toNat hi lo + 1))) }

/-- The region whose service core reports an error in HBM. DESIGN CHOICE (notes/assumptions/31.md): a stack lies in no quadrant;
the model takes quadrant 0 of the stack's die. -/
def hbmRegion (pa : Nat) : Nat := 4 * (stackOf pa / 3)

/-- A soft error in a word of HBM, of a slice or of a core's window is found: one bit is corrected and counted, more poison the
sector. -/
def State.mendWord (s : State) (at_ : Store) (bits : Nat) : State :=
  let s := { s with flips := s.flips.filter fun g => g.at_ != at_ }
  match at_ with
  | .slice q =>
    let c := s.homeCluster q
    let region := regionOf (clusterCore c 0)
    if bits ≤ 1 then (s.countError 5 c).corrected region 5 q
    else (s.poison q).record (sourceOfService region) none 0x11 (q / 32 * 32)
  | .memory q =>
    if q < hbmEnd then
      if bits ≤ 1 then (s.countBank q 15 0).corrected (hbmRegion q) 8 q
      else ((s.countBank q 23 16).poison q).record (sourceOfService (hbmRegion q)) none 0x11 (q / 32 * 32)
    else
      let core := (q - windowBase) / 0x100000
      if bits ≤ 1 then (s.count core 15 1).corrected (regionOf core) (if (q - windowBase) % 0x100000 < 0x40000 then 2 else 3) q
      else (s.poison q).record (sourceOfService (regionOf core)) none 0x11 (q / 32 * 32)
  | _ => s

/-- Soft errors that have struck the bytes about to be read are corrected, or poison their sector. -/
def State.mendMemory (s : State) (pa n : Nat) : State :=
  s.flips.foldl (fun s f =>
    match f.at_ with
    | .memory q | .slice q =>
      if q < pa + n && pa < wordOf q + protectedBytes q then s.mendWord f.at_ f.bits else s
    | _ => s) s

/-! ## The page walk -/

/-- The walk down the levels (R153-R155, R161 rows 3 and 4): at each level `v`, then the format, then `dr`, which a walk `through`
a drain passes over. -/
def State.descend (s : State) (through : Bool) (va : Nat) : List Rung → Nat → Walked
  | [], _ => .fail .pteFormat
  | r :: rs, table =>
    let entry := table + 8 * (va / 2 ^ r.lo % r.entries)
    let w := s.num entry 8
    let next := match rs with
      | n :: _ => 8 * n.entries
      | [] => 256
    if !bit w 0 then .fail .pageFault
    else if bit w 1 then
      if !(r.mayLeaf && s.leafOk w r.page) then .fail .pteFormat
      else if bit w 48 && !through then .park
      else .leaf ⟨w, va / r.page * r.page, r.page⟩ entry
    else if !(r.mayTable && tableOk w next) then .fail .pteFormat
    else if bit w 48 && !through then .park
    else s.descend through va rs (bits w 46 8 * 256)

/-- A walk from the context entry (R152, R161 row 2). -/
def State.walk (s : State) (ctx va : Nat) (through : Bool := false) : Walked :=
  let c := s.num (bits s.ctxbase.toNat 46 16 * 65536 + 8 * ctx) 8
  let root := bits c 46 11 * 2048
  if !bit c 0 || bits c 10 1 != 0 || bits c 63 47 != 0 || hbmEnd < root + 2048 then .fail .context
  else s.descend through va rungs root

/-- The entries that a walk reads. -/
def State.entriesFrom (s : State) (va : Nat) : List Rung → Nat → List Nat
  | [], _ => []
  | r :: rs, table =>
    let entry := table + 8 * (va / 2 ^ r.lo % r.entries)
    let w := s.num entry 8
    entry :: (if bit w 0 && !bit w 1 then s.entriesFrom va rs (bits w 46 8 * 256) else [])

/-- Soft errors in the entries that a walk reads are dealt with (R25, spec/10_bank_units.md R196). -/
def State.mendWalk (s : State) (ctx va : Nat) : State :=
  if s.flips = [] then s
  else
    let c := bits s.ctxbase.toNat 46 16 * 65536 + 8 * ctx
    let s := s.mendMemory c 8
    (s.entriesFrom va rungs (bits (s.num c 8) 46 11 * 2048)).foldl (fun s e => s.mendMemory e 8) s

/-- A drain covers the address (R163, R164). -/
def State.draining (s : State) (ctx va : Nat) : Bool :=
  s.drains.any fun d => d.ctx = ctx && d.base ≤ va && va < d.base + d.len

/-- The translation cache of a slice holds 2,048 entries (R151), that of a bank unit 32 (spec/10_bank_units.md R190). -/
def cacheSize (cache : Nat) : Nat := if cache < 1024 then 2048 else 32

/-- A leaf entered in a cache: where it is full, another entry leaves it by a free choice, because replacement is not
architectural. -/
def State.fillCache (s : State) (cache ctx : Nat) (l : Leaf) : State :=
  let rest := s.tlb.filter fun t => !(t.cache = cache && t.ctx = ctx && t.page = l.base && t.size = l.size)
  let mine := rest.filter fun t => t.cache = cache
  let rest := if mine.length < cacheSize cache then rest
    else match mine[Config.choice s.fresh % mine.length]? with
      | some t => rest.erase t
      | none => rest
  { s with tlb := ⟨cache, ctx, l.base, l.size, BitVec.ofNat 64 l.word⟩ :: rest }

/-- The translation of an address through a cache (R151, R164): an access in a drained range parks; a cached entry serves the
access where it equals the walk's leaf, and where it does not, either serves it or has been dropped, which is not
architectural and so a free value (notes/assumptions/13.md). -/
def State.translate (s : State) (cache ctx va : Nat) : Walked × State :=
  if s.draining ctx va then (.park, s) else
  let s := s.mendWalk ctx va
  let fresh := s.walk ctx va
  let fill := match fresh with
    | .leaf l _ => s.fillCache cache ctx l
    | _ => s
  match s.tlb.find? fun t => t.cache = cache && t.ctx = ctx && t.page ≤ va && va < t.page + t.size with
  | Option.none => (fresh, fill)
  | some t =>
    let old : Leaf := ⟨t.leaf.toNat, t.page, t.size⟩
    match fresh with
    | .leaf l e =>
      if l = old then (.leaf l e, s)
      else if Config.evicted s.fresh then (fresh, fill.drawn) else (.leaf old e, s.drawn)
    | _ => if Config.evicted s.fresh then (fresh, fill.drawn) else (.leaf old 0, s.drawn)

/-- The bank units of a stack are on (R58). -/
def State.bankOn (s : State) (pa : Nat) : Bool := !s.banksOff.contains (stackOf pa)

/-- The checks on the leaf (R161 rows 5-7, R156, R108, R115 item 4), with the ACQ permission of the capability. -/
def State.leafCheck (s : State) (l : Leaf) (va : Nat) (acq : Bool) (u : Use) : Option Cause :=
  let rd := bit l.word 2
  let wr := bit l.word 3
  let pa := l.frame + (va - l.base)
  match u with
  | .find => Option.none
  | .read => if !rd then some .protection else if l.at_ && !acq then some .atomicAccess
             else if l.at_ && !s.bankOn pa then some .bankOff else Option.none
  | .code => if !rd then some .protection else if !bit l.word 4 then some .protection
             else if l.at_ && !acq then some .atomicAccess
             else if l.at_ && !s.bankOn pa then some .bankOff else Option.none
  | .write => if !wr then some .protection else if l.at_ && !acq then some .atomicAccess
              else if l.at_ && !s.bankOn pa then some .bankOff else Option.none
  | .atomic => if !wr then some .protection
               else if !acq then some .atomicAccess
               else if !l.at_ then some .placement
               else if !s.bankOn pa then some .bankOff else Option.none
  | .cellRead => if !rd then some .protection else if l.at_ || l.cm then some .cellPlacement else Option.none
  | .cellWrite => if !(rd && wr) then some .protection else if l.at_ || l.cm then some .cellPlacement
                  else Option.none

/-- Where a byte of a page is held: in memory at a physical address, or in no frame at all: a sector that a
compressed page does not store, or the pattern of an elided page, whose metadata is 0 (R157, R158). -/
inductive Held where
  | mem (pa : Nat)
  | pattern (pa : Nat)
  | zero
  deriving DecidableEq, Repr

/-- The number of ones in the low `n` bits. -/
def ones (v : Nat) : Nat → Nat
  | 0 => 0
  | n + 1 => v / 2 ^ n % 2 + ones v n

/-- Where a read of a page finds the sector of an address (R157, R158). -/
def State.held (s : State) (l : Leaf) (va : Nat) : Held :=
  let o := va - l.base
  if l.el then .pattern (bits s.eltab.toNat 46 13 * 8192 + 32 * l.pat + va % 32)
  else if l.cm then
    let d := s.num (l.frame + 4 * (o / 128)) 4
    let i := o / 32 % 4
    if bit d i then .mem (l.frame + 32 * bits d 31 4 + 32 * ones d i + o % 32) else .zero
  else .mem (l.frame + o)

end Sys2Proof.Machine
end

