-- ==== Sys2Proof/Machine/Ops.lean ====
section
/-! DEFINITION. What every instruction shares: how it stops, reading sources and writing results, retiring, control
transfer, taking a trap and returning from one, the end of a grid, volumes (spec/12_cores_and_strands.md,
spec/14_traps_and_preemption.md, spec/16_isa_framework.md, spec/17_isa_integer_control.md R343, R344). -/

namespace Sys2Proof.Machine

open Sys2Proof

/-! ## How an instruction stops -/

/-- A trap: its cause, the value of `taddr`, the fields of `trcause`, the register of a class D trap; `after` when
`tpc` names the following instruction (R453), `from_` when it names another than the present one (R46). -/
structure TrapInfo where
  cause : Cause
  addr : Nat := 0
  rcode : Cause := .none
  dstat : Nat := 0
  dev : Nat := 0
  reg : Nat := 0
  deferred : Bool := false
  after : Bool := false
  from_ : Option Word64 := Option.none
  deriving DecidableEq, Repr

/-- An instruction stops in a trap, which leaves what it had done before (spec/00_scope.md R10) and does nothing more; waits, so
that its slot is not ready and nothing has been done but, with `again`, what it asks of the state before it; or ends in a state
of its own. -/
inductive Stop where
  | trap (t : TrapInfo) (s : State)
  | wait
  | again (f : State → State)
  | done (s : State)

/-- The acts of one instruction on the state. -/
abbrev Act := StateT State (Except Stop)

/-- An act ends in a trap. -/
def raise {α : Type} (t : TrapInfo) : Act α := fun s => .error (.trap t s)
def trap {α : Type} (c : Cause) (addr : Nat := 0) : Act α := raise { cause := c, addr := addr }

/-- The slot is not ready (R225). -/
def waitHere {α : Type} : Act α := throw .wait

/-- The slot is not ready, and something has been asked for meanwhile. -/
def waitAfter {α : Type} (f : State → State) : Act α := throw (.again f)

/-- The act ends here with a state. -/
def finishWith {α : Type} (s : State) : Act α := throw (.done s)

/-! ## Cause codes and classes (R269, R272 Table 5) -/

def Cause.code : Cause → Nat
  | .none => 0
  | .illegalInstruction => 1 | .boundedValue => 2 | .capability => 3 | .alignment => 4 | .overlay => 5
  | .codeAccess => 6 | .window => 7 | .ecall => 8 | .ebreak => 9 | .scope => 0xA | .migrate => 0xB
  | .type => 0x10 | .cell => 0x11 | .holdExhausted => 0x12 | .cellPlacement => 0x13
  | .noncanonical => 0x100 | .context => 0x101 | .pageFault => 0x102 | .pteFormat => 0x103
  | .protection => 0x104 | .atomicAccess => 0x105 | .placement => 0x106 | .poison => 0x107
  | .noRoute => 0x108 | .remoteFault => 0x109 | .replyLost => 0x10A | .postedTimeout => 0x10B
  | .remoteOp => 0x200 | .badEntry => 0x201 | .channel => 0x202 | .bankOff => 0x203 | .noHandler => 0x204
  | .rowFormat => 0x205
  | .nodeFormat => 0x300 | .nodeBusy => 0x301 | .footprint => 0x302 | .predFault => 0x303
  | .launchShape => 0x304 | .saveFault => 0x305 | .cancelled => 0x306 | .thermal => 0x307
  | .crossingDown => 0x308 | .setup => 0x309
  | .carousel => 0x400 | .recurrence => 0x401 | .engineCmd => 0x402 | .streamEnd => 0x403
  | .recalibrate => 0x404 | .xuOwner => 0x405 | .xuFormat => 0x406
  | .regError => 0x500 | .holdError => 0x501

/-- The class of a cause that an instruction raises. A deferred cause is raised as class D by the reader of the
marked register; raised otherwise it is grid-ending. -/
def Cause.cls : Cause → TrapClass
  | .overlay | .ebreak | .recalibrate => .inSlot
  | .ecall | .pageFault => .parked
  | .nodeFormat | .nodeBusy | .footprint | .predFault | .launchShape | .saveFault | .cancelled | .thermal
  | .crossingDown | .setup => .status
  | _ => .grid

/-! ## Slots and strands -/

def Slot.reg (sl : Slot) (r : Nat) : Reg := if r = 0 then {} else look {} sl.regs r

/-- A register written (R308: a write to g0 is discarded; R276: a write clears the deferred mark). -/
def Slot.setReg (sl : Slot) (r : Nat) (v : Reg) : Slot :=
  if r = 0 then sl else { sl with regs := put sl.regs r v, marks := without sl.marks r }

def Slot.bprio (sl : Slot) : Nat := bits sl.sstat.toNat 2 0
def Slot.qos (sl : Slot) : Nat := bits sl.sstat.toNat 5 3
def Slot.rmode (sl : Slot) : Nat := bits sl.sstat.toNat 8 6
def Slot.oclass (sl : Slot) : Nat := bits sl.sstat.toNat 12 9
def Slot.vsz (sl : Slot) : Nat := bits sl.sstat.toNat 15 13
def Slot.setVsz (sl : Slot) (v : Nat) : Slot :=
  { sl with sstat := BitVec.ofNat 32 (setBits sl.sstat.toNat 15 13 v) }
def Slot.inh (sl : Slot) : Bool := sl.tcause.getLsbD 24

/-- The highest level whose boost count is not 0 (R85). -/
def highestBoost (b : List Nat) : Nat :=
  (List.range 8).foldl (fun m i => if b.getD i 0 != 0 then i else m) 0

/-- The reply deadline of a slot in cycles (R277): 1,200 to the microsecond at the clock of spec/01_package.md R17. -/
def Slot.deadline (sl : Slot) : Nat := 1200 * max 1 (bits sl.rdeadline.toNat 23 0)

/-- The effective priority (R85). -/
def Slot.prio (sl : Slot) : Nat := max sl.bprio (highestBoost sl.boosts)

/-- The grid to which a slot's work belongs: its core's, or the caller's at a bank unit (R192); a service core
belongs to none (R447). -/
def State.gridOf (s : State) (k : Nat) : Option Nat :=
  if isBankSlot k then (s.slot k).task.map (·.grid) else (s.core (coreOf k)).grid

/-- The context in which a slot's accesses are translated: the grid's, the caller's (R192), and for the control
program that of its task (notes/assumptions/20.md). -/
def State.ctxOf (s : State) (k : Nat) : Nat :=
  let own := match (s.slot k).task with
    | some t => t.ctx
    | none => 0
  match levelOf k with
  | .b | .s => own
  | _ => match (s.core (coreOf k)).grid with
    | some g => match s.grid g with
      | some x => x.ctx
      | none => own
    | none => own

/-- The waiter id of a slot's strand (R111 Table 3). -/
def State.waiterOf (s : State) (k : Nat) : Waiter :=
  match levelOf k with
  | .b => ⟨thisDevice, 4, 0, bankOf k, 0, k % 4⟩
  | .s => ⟨thisDevice, 6, 0, regionOf (coreOf k), 16, k % 4⟩
  | _ => ⟨thisDevice, 1, (s.core (coreOf k)).grid.getD 0, (s.core (coreOf k)).gx, (s.core (coreOf k)).gy, k % 4⟩

/-- The physical address of the instruction at an offset: local SRAM, or the code SRAM of a bank unit. -/
def fetchPA (k : Nat) (pc : Nat) : Nat :=
  if isBankSlot k then bankPA (bankOf k) pc else windowPA (coreOf k) pc

/-- The instruction word at the `pc` of a slot. -/
def State.wordAt (s : State) (k : Nat) (pc : Word64) : Word32 := BitVec.ofNat 32 (s.num (fetchPA k pc.toNat) 4)

/-- The issuing slot and its core. -/
def State.here (s : State) : Slot := s.slot s.cur
def State.hereCore (s : State) : Core := s.core (coreOf s.cur)
def State.onHere (s : State) (f : Slot → Slot) : State := s.onSlot s.cur f
def State.onHereCore (s : State) (f : Core → Core) : State := s.onCore (coreOf s.cur) f

/-- The instruction cannot be executed: ILLEGAL_INSTRUCTION, with the word in `taddr`. -/
def illegal {α : Type} : Act α := do
  let s ← get
  trap .illegalInstruction (s.wordAt s.cur s.here.pc).toNat

/-- The levels at which an instruction executes (R445 Table 1); at level B the refusal is REMOTE_OP (R193). -/
def atLevels (allowed : List Level) : Act Unit := do
  let s ← get
  if allowed.contains (levelOf s.cur) then pure ()
  else if isBankSlot s.cur then trap .remoteOp
  else illegal

def everywhere : List Level := [.g, .a, .s, .b]
def onCores : List Level := [.g, .a, .s]
def inGrids : List Level := [.g, .a]

/-! ## Streams, scoreboards and sources -/

/-- The stream bound to a register of a slot (R268). -/
def Slot.stream (sl : Slot) (r : Nat) : Option Stream :=
  if 24 ≤ r then (sl.streams.find? fun e => 24 + e.1 = r).map (·.2) else none

/-- A copy command that still delivers elements into a stream of a slot (R437). -/
def State.streamFeeds (s : State) (k n : Nat) : Bool :=
  (s.core (coreOf k)).cq.any fun c => c.slot = k && c.stream = some n && c.pos < c.total

/-- A result for the register is outstanding: a scoreboard entry, a vector reduction or a crossbar command
(R225, R363, R402, R428, R438). -/
def State.outstanding (s : State) (k r : Nat) : Bool :=
  r != 0 &&
  ((s.core (coreOf k)).board.any (fun b => b.slot = k && b.reg ≤ r && r < b.reg + b.count) ||
   (s.core (coreOf k)).vq.any (fun v => v.slot = k && v.gd = r) ||
   (s.core (coreOf k)).xq.any fun x => x.slot = k && match x.op with
     | .prog gd _ _ _ => gd = r
     | _ => false)

/-- The trap of a deferred mark (R276, R46): class D, but grid-ending where the target found poison. -/
def markTrap (r : Nat) (m : Mark) : TrapInfo :=
  { cause := m.cause, addr := m.addr, rcode := m.rcode, dev := m.dev, reg := r,
    deferred := !(m.cause = .remoteFault && m.rcode = .poison) }

/-- The first marked register of a list. -/
def Slot.firstMark (sl : Slot) : List Nat → Option (Nat × Mark)
  | [] => none
  | r :: rs => match sl.marks.find? fun e => e.1 = r with
    | some (_, m) => some (r, m)
    | none => sl.firstMark rs

/-- What an instruction does before its operation (R319, R330, R343, R268): its level, a destination that is a
bound stream, outstanding results, deferred marks, and elements for the streams among its sources. -/
def enter (allowed : List Level) (srcs dsts : List RegNo) : Act Unit := do
  atLevels allowed
  let s ← get
  let sl := s.here
  let srcs := srcs.map BitVec.toNat
  let dsts := dsts.map BitVec.toNat
  if dsts.any fun r => (sl.stream r).isSome then illegal
  if (srcs ++ dsts).any fun r => s.outstanding s.cur r then waitHere
  match sl.firstMark srcs with
  | some (r, m) => raise (markTrap r m)
  | none => pure ()
  match srcs.find? fun r => match sl.stream r with
      | some q => q.buffer.length < srcs.count r
      | none => false with
  | some r => if s.streamFeeds s.cur (r - 24) then waitHere else trap .streamEnd (r - 24)
  | none => pure ()

/-- The next element of a stream (R268): zero-extended, bounded if its granule was marked. -/
def takeElement (r : Nat) (q : Stream) (s : State) : Reg × State :=
  match q.buffer with
  | [] => ({}, s)
  | (d, b) :: rest =>
    let n := r - 24
    let s := s.onHere fun sl => { sl with streams := change {} sl.streams n fun q => { q with buffer := rest } }
    (⟨d, if b then .bounded else .exact⟩, if s.streamFeeds s.cur n then s.emit (.streamElement s.cur n) else s)

/-- An error in a word of a register. -/
def Store.isRegister (at_ : Store) (k r : Nat) : Bool :=
  match at_ with
  | .register j q _ => j = k && q = r
  | _ => false

/-- A corrected word of a register of the issuing slot (R24): counted in `ev15`, or at a bank unit on its own, and reported. -/
def State.correctedRegister (s : State) (n : Nat) : State :=
  if isBankSlot s.cur then (s.countError 1 (1024 + bankOf s.cur)).corrected (4 * (bankOf s.cur / 96)) 1 (32 * s.cur + n)
  else (s.count (coreOf s.cur) 15 1).corrected (regionOf (coreOf s.cur)) 1 (32 * s.cur + n)

/-- A source register read (R343): g0 reads 0, a bound stream gives its next element, a soft error that has struck
the register is corrected or ends the grid (R24). -/
def source (r : RegNo) : Act Reg := do
  let s ← get
  let n := r.toNat
  match s.here.stream n with
  | some q =>
    let (v, s) := takeElement n q s
    set s
    pure v
  | none =>
    match s.flips.filter fun f => f.at_.isRegister s.cur n with
    | [] => pure (s.here.reg n)
    | struck => do
      if n != 0 && struck.any (2 ≤ ·.bits) then trap .regError n
      let s : State := { s with flips := s.flips.filter fun g => !g.at_.isRegister s.cur n }
      set (struck.foldl (fun s _ => s.correctedRegister n) s)
      pure (s.here.reg n)

/-- A source that may not be bounded (R311). -/
def exactSource (r : RegNo) : Act Reg := do
  let v ← source r
  if v.tag = .bounded then trap .boundedValue else pure v

/-- A bounded operand is refused (R311). -/
def refuseBounded (v : Reg) : Act Unit := if v.tag = .bounded then trap .boundedValue else pure ()

/-- A register group of `n` registers from a first one (R319). -/
def groupOf (r : RegNo) (n : Nat) : List RegNo := (List.range n).map fun i => r + BitVec.ofNat 5 i

/-- The registers of a group, read in ascending order (R319). -/
def sources : List RegNo → Act (List Reg)
  | [] => pure []
  | r :: rs => do
    let v ← source r
    let vs ← sources rs
    pure (v :: vs)

/-- A register of a slot written (R344). -/
def State.writeReg (s : State) (k : Nat) (r : Nat) (v : Reg) : State :=
  if r = 0 then s
  else { s.onSlot k (fun sl => sl.setReg r v) with
    flips := s.flips.filter fun f => !f.at_.isRegister k r }

/-- A result written (R344). -/
def result (r : RegNo) (v : Reg) : Act Unit := modify fun s => s.writeReg s.cur r.toNat v

/-- Exact data in 64 bits, the high half 0 (R310). -/
def exactData (v : Nat) : Reg := ⟨BitVec.ofNat 128 (v % 2 ^ 64), .exact⟩

/-- The tag of a result (R310, R344): bounded if any source is. -/
def tagOf (srcs : List Reg) : Tag := if srcs.any fun r => r.tag = .bounded then .bounded else .exact

/-! ## Retiring and control transfer -/

/-- One more instruction retired (R305): bank units have no counters. -/
def State.retired (s : State) : State := if isBankSlot s.cur then s else s.count (coreOf s.cur) 7 1

/-- The instruction ends and the next follows it: an L-format instruction opens the window of its lookahead field
unless it stands in one (R321, R274). -/
def State.retire (la : Nat) (s : State) : State :=
  (s.onHere fun sl => { sl with
    pc := sl.pc + 4
    window := if sl.window = 0 then la else sl.window - 1 }).retired

def retire (la : Look) : Act Unit := modify (State.retire la.toNat)

/-! ## Remote callers -/

/-- The unit at which a slot's strand runs. -/
def slotAgent (k : Nat) : NetAgent := if isBankSlot k then bankAgent (bankOf k) else coreAgent (coreOf k)

/-- The reply or the acknowledgement of a call or a message task sent to its caller (R403, R404, R46), on the class, the priority
and the QoS class of the request (R49). -/
def State.answerCall (s : State) (src : NetAgent) (t : Task) (r : Route) (status rcode : Cause) (vals : List Reg) : State :=
  let rep : Reply := ⟨coreOf r.slot, r.entry, status, rcode, thisDevice, vals, []⟩
  if r.dev = thisDevice then
    s.carry
      { family := 3, op := 8, cls := t.cls, prio := t.prio, qos := t.qos, ctx := t.ctx, src := src, dst := slotAgent r.slot,
        tag := r.entry, len := flitsOf (16 * vals.length) }
      (if r.posted then .storeAck rep else .rcallReply rep)
  else s.send
    { dst := r.dev, core := coreOf r.slot, entry := r.entry, cls := t.cls, qos := t.qos, ctx := t.ctx,
      op := if status != .none then .refusal rcode else if r.posted then .storeAck else .reply vals } src.router

/-! ## The end of a grid -/

/-- The grid ends by a fault (R90, R278 rank 1, R457): the first cause stands; a grid with cores stops them first; a fault
that is found in Ending before the error status record is written gives the record its cause. -/
def State.endGrid (s : State) (n : Nat) (e : EndCause) : State :=
  match s.grid n with
  | none => s
  | some g =>
    if g.ended.isSome || g.st = .done then s
    else if g.st = .ending then
      if g.written then s else s.onGrid n fun g => { g with ended := some e }
    else
      let s := s.onGrid n fun g => { g with
        ended := some { e with saved := g.st == .saved || (g.st == .placing && g.resuming) } }
      if g.st = .saving || g.st = .stopping then s
      else if g.rects = [] || g.st = .saved then
        (s.onGrid n fun g => { g with st := .ending }).emit (.completionRelease n)
      else (s.onGrid n fun g => { g with st := .stopping }).emit (.preemptBoundary n)

/-- The stage of a bay (R79). -/
def Grid.stageOf (g : Grid) (bay : Nat) : Nat :=
  if g.gw = 0 then 0 else bay % g.gw * g.node.stages / g.gw

/-- What the error status record says of a fault of a slot (R72 Table 5). -/
def State.slotFault (s : State) (k : Nat) (c : Cause) (addr tpc : Nat) : EndCause :=
  let n := coreOf k
  let bay := (s.core n).bay
  { status := 1, cause := c.code, taddr := addr, tpc := tpc, x := coreX n, y := coreY n, slot := k % 4, bay := bay,
    stage := match s.gridOf k with
      | some g => match s.grid g with
        | some x => x.stageOf bay
        | none => 0
      | none => 0 }

/-! ## Bank-unit tasks -/

/-- A bank-unit slot becomes free (R192). -/
def State.freeBankSlot (s : State) (k : Nat) : State :=
  (s.onSlot k fun sl => { sl with st := .free, task := none, marks := [], window := 0, await := none }).emit
    (.taskSelect (16384 + bankOf k))

/-- A bank-unit task ends (R192, R404): a call without a reply answers with no values, a posted call is
acknowledged, a message sends nothing. -/
def State.endBankTask (s : State) (k : Nat) : State :=
  let s := match (s.slot k).task with
    | some t => match t.route with
      | some r => if t.kind = 6 || t.kind = 5 && !t.replied then s.answerCall (slotAgent k) t r .none .none [] else s
      | none => s
    | none => s
  s.freeBankSlot k

/-- A remote fault of a bank-unit task ends its slot (R193): it returns to the caller, or ends the caller's grid. -/
def State.bankFault (s : State) (k : Nat) (t : TrapInfo) : State :=
  let s := match (s.slot k).task with
    | some x => match x.route with
      | some r => if x.kind = 5 && x.replied then s else s.answerCall (slotAgent k) x r .remoteFault t.cause []
      | none => s.endGrid x.grid { status := 1, cause := t.cause.code, taddr := t.addr }
    | none => s
  s.freeBankSlot k

/-! ## Volumes (R243-R249) -/

/-- The lower corner of a volume's block in cluster-local coordinates, and its size, for 2^v cores (Table 10). -/
def volumeBlock (v x y : Nat) : Nat × Nat × Nat × Nat :=
  match v with
  | 1 => (x - x % 2, y, 2, 1)
  | 2 => (x - x % 2, y - y % 2, 2, 2)
  | 3 => (0, y - y % 2, 4, 2)
  | _ => (0, 0, 4, 4)

/-- The cores of the block that contains a core, in member order (R243). -/
def volumeCores (v n : Nat) : List Nat :=
  let (x0, y0, w, h) := volumeBlock v (coreX n % 4) (coreY n % 4)
  (List.range (w * h)).map fun m =>
    coreAt (coreX n / 4 * 4 + x0 + m % w) (coreY n / 4 * 4 + y0 + m / w)

/-- The strand of a slot is bound: slots are lent to it. -/
def State.isBound (s : State) (k : Nat) : Bool := s.slots.any fun e => e.2.lead = some k

/-- Hand-back (R249): the Lent slots become Free, and the members' selectors and annex threads are released. -/
def State.handBack (s : State) (k : Nat) : State :=
  let members := ((s.slots.filter fun e => e.2.lead = some k).map fun e => coreOf e.1).eraseDups
  let back (e : Nat × Slot) : Nat × Slot :=
    if e.2.lead = some k then (e.1, { e.2 with st := .free, lead := none }) else e
  let s : State := { s with slots := s.slots.map back }
  s.emits (members.flatMap fun n => [.taskSelect n, .annexStart n])

/-- The conditions of a bind in the order of Table 11, from PREEMPT on. -/
def State.bindStatus (s : State) (k v : Nat) : Nat :=
  let n := coreOf k
  let members := volumeCores v n
  let g := (s.core n).grid
  let pending : Bool := match g with
    | some i => match s.grid i with
      | some x => x.st == .stopping
      | none => false
    | none => false
  if pending then 3
  else if members.any fun m => isService m || s.leftOut.contains (clusterOf m) || (s.core m).grid != g then 4
  else if members.any fun m => (List.range 4).any fun h =>
      slotKey m h != k && (s.slot (slotKey m h)).st != SlotState.free then 5
  else if members.any fun m => m != n &&
      !((s.core m).muq.isEmpty && (s.core m).vq.isEmpty && (s.core m).cq.isEmpty && (s.core m).xq.isEmpty) then 6
  else 0

/-- A bind of 2^v cores (R244): on status 0 every other slot of every member becomes Lent. -/
def State.tryBind (s : State) (k v : Nat) : Nat × State :=
  let st := s.bindStatus k v
  if st != 0 then (st, s)
  else
    let keys := ((volumeCores v (coreOf k)).flatMap fun m => (List.range 4).map (slotKey m ·)).filter (· != k)
    let s := keys.foldl (fun s j => s.onSlot j fun sl => { sl with st := .lent, lead := some k }) s
    (0, s.onSlot k fun sl => sl.setVsz v)

/-! ## Barrier-counted stores -/

/-- The die at which a slot's strand runs. -/
def State.dieOf (_s : State) (k : Nat) : Nat := if isBankSlot k then bankOf k / 96 else dieOfCore (coreOf k)


/-- The place of a cell that has not been translated yet. -/
def untranslated : Nat := 2 ^ 64

/-- A Desk request on its way (R113, R97): from its requester to the slice that translates the cell's address (R151). -/
def State.carryDesk (s : State) (src : NetAgent) (die op : Nat) (r : DeskReq) (e : Event) : State :=
  s.carry (deskHeader src (deskAgent (s.translatingCluster die r.va)) op r.prio r.qos r.ctx r.va) e

/-- The unsent byte count of a slot goes to its barrier as BPENDADD (R368). -/
def State.flushBarrier (s : State) (k : Nat) : State :=
  let sl := s.slot k
  let r : DeskReq :=
    { pa := untranslated, va := (lo64 sl.stbar.data).toNat, ctx := s.ctxOf k, who := s.waiterOf k,
      seq := s.fresh, prio := sl.prio, qos := sl.qos, n := sl.unsent, pc := some sl.pc.toNat }
  if sl.unsent = 0 then s
  else (s.drawn.onSlot k fun sl => { sl with unsent := 0 }).carryDesk (slotAgent k) (s.dieOf k) 0x13 r (.bpendadd r)

/-! ## Lookahead windows in a trap (R274) -/

/-- An instruction that ends a lookahead window; a `fork` does so where it is performed inline. -/
def endsWindow (dequeFull : Bool) : Instr → Bool
  | .jal .. | .jalr .. | .beq .. | .bne .. | .blt .. | .bge .. | .bltu .. | .bgeu .. => true
  | .exit .. | .tret .. | .join .. | .migrate .. => true
  | .fork .. => dequeFull
  | _ => false

/-- How many of the next `n` instructions a window covers: up to the first that ends it. -/
def State.windowReach (s : State) (k : Nat) (pc : Word64) : Nat → Nat → Nat
  | 0, j => j
  | n + 1, j =>
    let full := 32 ≤ (s.core (coreOf k)).deque.length
    match decodeWord (s.wordAt k (pc + BitVec.ofNat 64 (4 * (j + 1)))) with
    | .ok i => if endsWindow full i then j + 1 else s.windowReach k pc n (j + 1)
    | .error _ => s.windowReach k pc n (j + 1)

/-- The image of `tla` for a trap at the present instruction: what remains of a resume's record, of the window in
force, or the window that the instruction itself opens. No younger instruction has been performed. -/
def State.tlaOf (s : State) (k la : Nat) : BitVec 32 :=
  let sl := s.slot k
  let fresh : BitVec 32 :=
    let ends := match decodeWord (s.wordAt k sl.pc) with
      | .ok i => endsWindow (32 ≤ (s.core (coreOf k)).deque.length) i
      | .error _ => false
    if sl.window != 0 then
      BitVec.ofNat 32 ((if ends then 0 else s.windowReach k sl.pc (sl.window - 1) 0) + 2 ^ 19)
    else if la != 0 then BitVec.ofNat 32 (s.windowReach k sl.pc la 0 + 2 ^ 19)
    else 0
  match sl.skip with
  | some r =>
    let j := (sl.pc - r.base).toNat / 4
    if j ≤ r.len then BitVec.ofNat 32 (r.len - j + (r.done.toNat / 2 ^ j) * 16 + 2 ^ 19) else fresh
  | none => fresh

/-! ## Taking a trap -/

/-- A handler register is not empty (R250 Table 13, R271): sealed, with X. -/
def handlerOpen (h : Reg) : Bool := h.tag == .sealed && h.data.getLsbD 114

/-- The slot word of R461 Table 11. -/
def State.slotWord (s : State) (k : Nat) : Nat :=
  coreX (coreOf k) + coreY (coreOf k) * 2 ^ 7 + k % 4 * 2 ^ 14 +
    (if isService (coreOf k) then 0xFFFF else (s.core (coreOf k)).grid.getD 0) * 2 ^ 32

/-- The report of a parked slot to a service core (R462): a message of class 15 with four payload registers. -/
def State.reportTrap (s : State) (k service : Nat) : State :=
  let sl := s.slot k
  let m : Task :=
    { kind := 3, cls := 15, prio := sl.prio, qos := sl.qos, sender := s.waiterOf k,
      args := [exactData (s.slotWord k), exactData sl.tcause.toNat, exactData sl.taddr.toNat,
               exactData sl.tpc.toNat] }
  s.carry (m.header (coreAgent (coreOf k)) service) (.messageArrival service m)

/-- How a trap is handled (R269, R453, R454, R514). -/
inductive Handling where
  | enter
  | park
  | stop
  | endGrid
  deriving DecidableEq, Repr

/-- The class of a trap as it is raised at a level (R453: `ecall` at level S is class I). -/
def TrapInfo.cls (t : TrapInfo) (l : Level) : TrapClass :=
  if t.deferred then .deferred else if t.cause = .ecall && l = .s then .inSlot else t.cause.cls

/-- The choice among the classes (R269, R514): the handler is `ovlh` for the overlay trap and `thnd` otherwise. -/
def handling (t : TrapInfo) (l : Level) (opened inh : Bool) : Handling :=
  match t.cls l with
  | .inSlot | .deferred =>
    if opened && !inh then .enter
    else if l = .s then .stop
    else if t.cause = .ebreak && !opened then .park
    else .endGrid
  | .parked => if l = .s then .stop else .park
  | _ => if l = .s then .stop else .endGrid

/-- The class code of `tcause.cls` (R270 Table 2). -/
def classCode (t : TrapInfo) (l : Level) (h : Handling) : Nat :=
  match h with
  | .park => 2
  | .endGrid => 4
  | _ => match t.cls l with
    | .inSlot => 1
    | .parked => 2
    | .deferred => 3
    | _ => 4

/-- The trap registers written (R270): before anything else is done. -/
def Slot.trapped (sl : Slot) (t : TrapInfo) (cls : Nat) (vol : Bool) (tla : BitVec 32) : Slot :=
  { sl with
    tcause := BitVec.ofNat 64 (t.cause.code + cls * 2 ^ 16 + (if t.deferred then t.reg * 2 ^ 19 else 0) +
      (if sl.inh then 2 ^ 24 else 0) + (if vol then 2 ^ 25 else 0))
    taddr := BitVec.ofNat 64 t.addr
    tpc := t.from_.getD (if t.after then sl.pc + 4 else sl.pc)
    trcause := BitVec.ofNat 64 (t.rcode.code + t.dstat * 2 ^ 16 + t.dev * 2 ^ 32)
    tla := if t.after then 0 else tla }

/-- Entry to a handler (R271, R250): `inh` set, the slot continues at the handler's address, unbound. -/
def Slot.enterHandler (sl : Slot) (h : Reg) : Slot :=
  { sl with tcause := sl.tcause ||| (1 <<< 24 : BitVec 64), pc := lo64 h.data, window := 0, skip := none }

/-- Taking a trap: what R270 writes, then what the class asks. The instruction has left nothing but what is said
here. -/
def State.takeTrap (s : State) (t : TrapInfo) (la : Nat) : State :=
  let k := s.cur
  if isBankSlot k then s.bankFault k t
  else
    let l := levelOf k
    let n := coreOf k
    let sl := s.slot k
    let h := if t.cause = .overlay then (s.core n).ovlh else (s.core n).thnd
    let how := handling t l (handlerOpen h) sl.inh
    let vol := s.isBound k
    let s := ((s.flushBarrier k).handBack k).onSlot k fun x =>
      (x.trapped t (classCode t l how) vol (s.tlaOf k la))
    let s := if t.deferred then s.count n 12 1 else if t.after then s.count n 7 1 else s
    match how with
    | .enter => s.onSlot k fun x => x.enterHandler h
    | .park =>
      (s.onSlot k fun x => { x with st := .parked, window := 0, skip := none }).reportTrap k
        (serviceCore (regionOf n))
    | .stop =>
      ((s.onSlot k fun x => { x with st := .parked, stopped := true, window := 0, skip := none }).record
        (sourceOfService (regionOf n)) (some 3) 0x70 (s.slotWord k % 2 ^ 32 + t.cause.code * 2 ^ 32)).reportTrap k
        (serviceCore 0)
    | .endGrid =>
      match (s.core n).grid with
      | some g => s.endGrid g (s.slotFault k t.cause t.addr (s.slot k).tpc.toNat)
      | none => s.onSlot k fun x => { x with st := .parked }

/-- A grid-ending fault that is found after its instruction has completed (R46, R362 step 7, R262): the slot's trap
registers name the instruction, its unsent bytes go to their barrier (R368), and the grid of the issuing core ends; at
level S the slot stops (R514). -/
def State.lateFault (s : State) (k : Nat) (g : Option Nat) (t : TrapInfo) : State :=
  let pc := t.from_.getD (s.slot k).pc
  match g with
  | some g =>
    let s := if s.gridOf k = some g then (s.flushBarrier k).onSlot k fun x => x.trapped t 4 false 0 else s
    s.endGrid g (s.slotFault k t.cause t.addr pc.toNat)
  | none =>
    if isBankSlot k then s.bankFault k t
    else { ({ s with cur := k } : State).takeTrap t 0 with cur := s.cur }

/-! ## Returning from a trap (R275) -/

/-- Resume: `inh` is cleared, a volume's shape is bound again or given up, unless it stands already (R249), and the slot continues at `tpc`,
passing over the instructions that `tla` marks as done. -/
def State.resume (s : State) (k : Nat) : State :=
  let s := s.onSlot k fun sl => { sl with tcause := sl.tcause &&& ~~~(1 <<< 24 : BitVec 64) }
  let v := (s.slot k).vsz
  let s := if v = 0 || s.isBound k then s else
    match s.tryBind k v with
    | (0, s) => s
    | (_, s) => s.onSlot k fun sl => sl.setVsz 0
  s.onSlot k fun sl => { sl with
    st := .running
    stopped := false
    pc := sl.tpc
    window := 0
    skip := if sl.tla.getLsbD 19 then some ⟨sl.tpc, bits sl.tla.toNat 3 0, (sl.tla >>> 4).setWidth 15⟩
            else none }

/-! ## Control transfer (R350-R353, R192) -/

/-- Control passes to an offset: the lookahead window ends (R274); at a bank unit a transfer to offset 0 ends the
task (R192). -/
def State.jumpTo (s : State) (pc : Word64) : State :=
  let s := (s.onHere fun sl => { sl with pc := pc, window := 0, skip := none }).retired
  if isBankSlot s.cur && pc = 0 then s.endBankTask s.cur else s

def jumpTo (pc : Word64) : Act Unit := modify fun s => s.jumpTo pc

/-! ## The outcome of an instruction -/

/-- The acts of an instruction, with its lookahead field: they end in the next state, in a trap taken after what the instruction
had done (spec/00_scope.md R10), or in the state before it where the slot is not ready. -/
def settle (la : Nat) (a : Act Unit) (s : State) : Answered :=
  match a s with
  | .ok (_, s') => .next s'
  | .error (.trap t u) => .next (u.takeTrap t la)
  | .error .wait => .next { s with waited := true }
  | .error (.again f) => .next { f s with waited := true }
  | .error (.done s') => .next s'

end Sys2Proof.Machine
end

