-- ==== Sys2Proof/Machine/Units.lean ====
section
/-! DEFINITION. The unit-register region and the registers in it: which register an offset names, what a read gives,
what a write by an agent changes (spec/08_memory_and_translation.md R141, spec/00_scope.md R8, R9). -/

namespace Sys2Proof.Machine

open Sys2Proof

/-- The registers of R141 Table 12. -/
inductive UnitReg where
  | rtab | ctxbase | eltab
  | nrctl (r : Nat) | sshare (d : Nat) | hshare (m : Nat) | hlin (m : Nat)
  | fshare (p : Nat) | fpctl (p : Nat) | hstream (n : Nat)
  | code (b : Nat) (off : Nat) | catalogue (b i : Nat) | bstat (b : Nat)
  | xctl (c a : Nat) | mqctl (n : Nat)
  | unnamed
  deriving DecidableEq, Repr

/-- The register whose bytes hold an offset from U, the offset at which it starts, and its width; a width of 0 is
memory of any width. -/
def unitRegister (off : Nat) : UnitReg × Nat × Nat :=
  if off < 8 then (.rtab, 0, 8)
  else if off < 0x10 then (.ctxbase, 8, 8)
  else if off < 0x18 then (.eltab, 0x10, 8)
  else if 0x10000 ≤ off && off < 0x20000 then
    if off % 0x1000 < 4 then (.nrctl ((off - 0x10000) / 0x1000), off / 0x1000 * 0x1000, 4) else (.unnamed, 0, 0)
  else if 0x20000 ≤ off && off < 0x24000 then
    if off % 0x1000 < 8 then (.sshare ((off - 0x20000) / 0x1000), off / 0x1000 * 0x1000, 8) else (.unnamed, 0, 0)
  else if 0x30000 ≤ off && off < 0x3C000 then
    if off % 0x1000 < 8 then (.hshare ((off - 0x30000) / 0x1000), off / 0x1000 * 0x1000, 8)
    else if off % 0x1000 < 12 then (.hlin ((off - 0x30000) / 0x1000), off / 0x1000 * 0x1000 + 8, 4)
    else (.unnamed, 0, 0)
  else if 0x40000 ≤ off && off < 0x42100 then
    let p := (off - 0x40000) / 0x100
    if off % 0x100 < 8 then (if p < 32 then (.fshare p, off / 0x100 * 0x100, 8) else (.unnamed, 0, 0))
    else if off % 0x100 < 12 then (.fpctl p, off / 0x100 * 0x100 + 8, 4)
    else (.unnamed, 0, 0)
  else if 0x50000 ≤ off && off < 0x50400 then
    if off % 0x40 < 4 then (.hstream ((off - 0x50000) / 0x40), off / 0x40 * 0x40, 4) else (.unnamed, 0, 0)
  else if 0x100000 ≤ off && off < 0x100000 + 384 * 0x10000 then
    let b := (off - 0x100000) / 0x10000
    let o := off % 0x10000
    if o < 0x8000 then (.code b o, off, 0)
    else if o < 0x8110 then (.catalogue b ((o - 0x8000) / 16), off / 16 * 16, 16)
    else if 0x9000 ≤ o && o < 0x9008 then (.bstat b, off / 0x1000 * 0x1000, 8)
    else (.unnamed, 0, 0)
  else if 0x2000000 ≤ off && off < 0x2400000 then
    if off % 0x1000 < 16 then (.xctl ((off - 0x2000000) / 0x1000) (off % 0x1000 / 4), off / 4 * 4, 4)
    else (.unnamed, 0, 0)
  else if 0x4000000 ≤ off && off < 0x4400000 then
    if off % 0x100 < 4 then (.mqctl ((off - 0x4000000) / 0x100), off / 0x100 * 0x100, 4) else (.unnamed, 0, 0)
  else (.unnamed, 0, 0)

/-- The sum of the eight shares of a share register (R49, R87). -/
def shareSum (v : Word64) : Nat := (List.range 8).foldl (fun a c => a + bits v.toNat (8 * c + 7) (8 * c)) 0

/-- A step of a core's queue runs (R255): the matrix unit that serves it has granted it a step that has not ended. -/
def State.muRuns (s : State) (n : Nat) : Bool :=
  let k := s.cluster (clusterOf n)
  let i := coreInCluster n
  if i < 8 then k.muRun0 && k.muTurn0.1 = i else k.muRun1 && k.muTurn1.1 = i % 8

/-- `mqctl` as it reads (R255 Table 2). -/
def State.mqctl (s : State) (n : Nat) : Nat :=
  let c := s.core n
  c.mqwt % 16 + 8 * 16 + c.muq.length % 16 * 256 + (if s.muRuns n then 4096 else 0)

/-- A register read. -/
def State.readUnit (s : State) : UnitReg → Nat
  | .rtab => s.rtab.toNat
  | .ctxbase => s.ctxbase.toNat
  | .eltab => s.eltab.toNat
  | .nrctl r => (s.region r).nrctl.toNat
  | .sshare d => (look (0x2020202020202020 : Word64) s.sshare d).toNat
  | .hshare m => (look (0x2020202020202020 : Word64) s.hshare m).toNat
  | .hlin m => (look (0 : BitVec 32) s.hlin m).toNat
  | .fshare p => (s.port p).fshare.toNat
  | .fpctl p => (s.port p).fpctl.toNat
  | .hstream n =>
    let h := s.hostStream n
    setBits (setBits h.hstream.toNat 7 7 (if h.held.any (·.holds) then 1 else 0)) 31 16 (min 65535 h.waiting.length)
  | .code b o => (s.byte (bankPA b o)).toNat
  | .catalogue b i => (look ({} : Reg) (s.bank b).cat i).data.toNat
  | .bstat b => (s.bank b).bstat.toNat
  | .xctl c a => (s.array c a).xctl.toNat
  | .mqctl n => s.mqctl n
  | .unnamed => 0

/-- The source is the control program of the service core of a region (R20, R51, R96). -/
def Writer.isControl : Writer → Nat → Bool
  | .control r, n => r = n
  | .other, _ => false

def Writer.isService : Writer → Bool
  | .control _ => true
  | .other => false

/-! ## One write for each register -/

/-- `nrctl` (R20): floor, ceil, hi, lo and pin are written, cur is not. -/
def State.writeNrctl (s : State) (src : Writer) (r : Nat) (v : BitVec 32) : State :=
  if src.isService then
    s.onRegion r fun g => { g with
      nrctl := BitVec.ofNat 32 (setBits (setBits g.nrctl.toNat 15 0 v.toNat) 20 20 (bits v.toNat 20 20)) }
  else s

/-- A port changes its state, with an event record whose source is the port (R30, R51). -/
def State.setPortState (s : State) (p st : Nat) : State :=
  let s := s.onPort p fun q => { q with
    fpctl := BitVec.ofNat 32 (setBits (setBits q.fpctl.toNat 3 2 st) 11 4
      (if st = 2 then bits q.fpctl.toNat 11 4 else 0)) }
  s.record (sourceOfPort p) none 0x20 (s.port p).fpctl.toNat

/-- A port goes down (R43): its flows are rehashed, and the packets that the other side has not acknowledged are sent again on
their new ports. DESIGN CHOICE (notes/assumptions/58.md): where no port is up, which the specification does not speak of, they stay
in the queue of this one and leave when it comes up again; messages to the host do the same. -/
def State.portDown (s : State) (p st : Nat) : State :=
  let q := s.port p
  let lost := q.replay.filterMap (·.packet) ++ q.queue
  let msgs := q.replay.filterMap (·.msg) ++ q.hostQueue
  let s := (s.onPort p fun q => { q with replay := [], queue := [], hostQueue := msgs, finishing := false, run := 0 }).setPortState p st
  if s.upPorts = [] then s.onPort p fun q => { q with queue := lost }
  else lost.foldl (fun s k => match s.planeOf k with
    | some port => s.post port k
    | none => s) s

/-- `fpctl.down` written with 1 (R51). -/
def State.writeFpctlDown (s : State) (src : Writer) (p : Nat) : State :=
  if src.isControl (portRegion p) then
    (s.onPort p fun q => { q with fpctl := q.fpctl ||| 2 }).portDown p 0
  else s

/-- `fpctl.en` written (R51): 1 lets a port that is down train again; 0 lets it finish its replay buffer and go
down. -/
def State.writeFpctlEn (s : State) (src : Writer) (p : Nat) (en : Bool) : State :=
  if src.isControl (portRegion p) then
    let st := bits (s.port p).fpctl.toNat 3 2
    if en then
      let s := s.onPort p fun q => { q with fpctl := (q.fpctl ||| 1) &&& ~~~(2 : BitVec 32), finishing := false }
      if st = 0 || st = 3 then
        (s.onPort p fun q => { q with failTimes := [], cold := true }).setPortState p 1
      else s
    else
      let s := s.onPort p fun q => { q with fpctl := q.fpctl &&& ~~~(3 : BitVec 32) }
      if (s.port p).replay = [] then (if st = 0 then s else s.portDown p 0)
      else s.onPort p fun q => { q with finishing := true }
  else s

/-- `fpctl` written whole (R51): with en and down both 1, down takes effect. -/
def State.writeFpctl (s : State) (src : Writer) (p : Nat) (v : BitVec 32) : State :=
  if src.isControl (portRegion p) then
    if v.getLsbD 1 then
      (s.onPort p fun q => { q with fpctl := BitVec.ofNat 32 (setBits q.fpctl.toNat 0 0 v.toNat) }).writeFpctlDown src p
    else s.writeFpctlEn src p (v.getLsbD 0)
  else s

/-- `fshare` (R49): ignored with an event record if the shares sum above 256. -/
def State.writeFshare (s : State) (src : Writer) (p : Nat) (v : Word64) : State :=
  if src.isControl (portRegion p) && p < 32 then
    if 256 < shareSum v then s.record (sourceOfPort p) none 0x50 v.toNat
    else s.onPort p fun q => { q with fshare := v }
  else s

/-- `hshare` (R87): ignored if the shares sum above 256. -/
def State.writeHshare (s : State) (src : Writer) (m : Nat) (v : Word64) : State :=
  if src.isControl (4 * (m / 3)) && shareSum v ≤ 256 then { s with hshare := put s.hshare m v } else s

/-- `sshare` (R87): ignored if the shares sum above 256. -/
def State.writeSshare (s : State) (src : Writer) (d : Nat) (v : Word64) : State :=
  if src.isControl (4 * d) && shareSum v ≤ 256 then { s with sshare := put s.sshare d v } else s

/-- `hlin` (R140): written by the start core during start step 10 alone. -/
def State.writeHlin (s : State) (src : Writer) (m : Nat) (v : BitVec 32) : State :=
  if src.isControl 0 && s.phase = .stepping 10 then
    { s with hlin := put s.hlin m (v &&& 0x3F) } else s

/-- `ctxbase` (R152). -/
def State.writeCtxbase (s : State) (src : Writer) (v : Word64) : State :=
  if src.isControl 0 then { s with ctxbase := v &&& 0x00007FFFFFFF0000 } else s

/-- `eltab` (R158). -/
def State.writeEltab (s : State) (src : Writer) (v : Word64) : State :=
  if src.isControl 0 then { s with eltab := v &&& 0x00007FFFFFFFE000 } else s

/-- `rtab` (R96): the mode and the channel of classes 1-15. -/
def State.writeRtab (s : State) (src : Writer) (v : Word64) : State :=
  if src.isControl 0 then { s with rtab := v &&& 0x7777777777777770 } else s

/-- `hstream` (R64): prio, qos and relax. DESIGN CHOICE (notes/assumptions/55.md): the specification does not say whether a
write of prio changes the priority of a request that is already held; the hold keeps the priority with which it was made. -/
def State.writeHstream (s : State) (n : Nat) (v : BitVec 32) : State :=
  s.onHostStream n fun h => { h with hstream := v &&& 0x7F }

/-- `xctl` (R220): by the control program of the cluster's quadrant. -/
def State.writeXctl (s : State) (src : Writer) (c a : Nat) (v : BitVec 32) : State :=
  if src.isControl (regionOf (clusterCore c 0)) then s.onArray c a fun x => { x with xctl := v &&& 0x1FFFF } else s

/-- `mqctl` (R255 Table 2): the weight alone, by the resident control program. -/
def State.writeMqctl (s : State) (src : Writer) (n : Nat) (v : BitVec 32) : State :=
  if src.isService then s.onCore n fun c => { c with mqwt := v.toNat % 16 } else s

/-- No slot of a bank unit is occupied (R191). -/
def State.bankIdle (s : State) (b : Nat) : Bool :=
  (List.range 4).all fun h => (s.slot (bankKey b h)).st == SlotState.free

/-- The source may rewrite a bank unit's code SRAM and catalogue: a control program of the stack's die, while no
slot of the unit is occupied (R191). -/
def State.mayWriteBank (s : State) (src : Writer) (b : Nat) : Bool :=
  match src with
  | .control r => r / 4 = b / 32 / 3 && s.bankIdle b
  | .other => false

/-- A register written by its number (R141). -/
def State.writeUnit (s : State) (src : Writer) (u : UnitReg) (v : Nat) : State :=
  match u with
  | .rtab => s.writeRtab src (BitVec.ofNat 64 v)
  | .ctxbase => s.writeCtxbase src (BitVec.ofNat 64 v)
  | .eltab => s.writeEltab src (BitVec.ofNat 64 v)
  | .nrctl r => s.writeNrctl src r (BitVec.ofNat 32 v)
  | .sshare d => s.writeSshare src d (BitVec.ofNat 64 v)
  | .hshare m => s.writeHshare src m (BitVec.ofNat 64 v)
  | .hlin m => s.writeHlin src m (BitVec.ofNat 32 v)
  | .fshare p => s.writeFshare src p (BitVec.ofNat 64 v)
  | .fpctl p => s.writeFpctl src p (BitVec.ofNat 32 v)
  | .hstream n => if src.isControl 0 then s.writeHstream n (BitVec.ofNat 32 v) else s
  | .xctl c a => s.writeXctl src c a (BitVec.ofNat 32 v)
  | .mqctl n => s.writeMqctl src n (BitVec.ofNat 32 v)
  | .code _ _ | .catalogue _ _ | .bstat _ | .unnamed => s

/-- A bank unit's catalogue entry written with its tag (R141, R191). -/
def State.writeBankEntry (s : State) (src : Writer) (b i : Nat) (v : Reg) : State :=
  if s.mayWriteBank src b then s.onBank b fun x => { x with cat := put x.cat i v } else s

/-- Bytes of a bank unit's code SRAM written (R191). -/
def State.writeBankCode (s : State) (src : Writer) (b off : Nat) (bs : List Byte) : State :=
  if s.mayWriteBank src b then s.store (bankPA b off) bs else s

end Sys2Proof.Machine
end

