-- ==== Sys2Proof/Machine/Spots.lean ====
section
/-! DEFINITION. Where an access goes: the region and the page of an address become a spot (memory, a register image,
a carousel descriptor, an engine register, a unit register), with the checks that stand on the way; what a read of
a spot gives and what a write changes (spec/08_memory_and_translation.md R143-R149, spec/18_isa_memory.md R361-R370,
spec/13_engines.md R256, R263). -/

namespace Sys2Proof.Machine

open Sys2Proof

/-- Who makes an access: the core whose own window it sees, its grid, its context, and whether it is a strand
(R147), a control program or its launch scheduler (R141) or a bank-unit slot (R194), and the die on which its addresses are
translated (R151): the issuing one, or that of the port by which it came (R45). -/
structure Agent where
  core : Option Nat := none
  strand : Bool := false
  grid : Option Nat := none
  ctx : Nat := 0
  service : Option Nat := none
  bank : Option Nat := none
  die : Nat := 0
  deriving DecidableEq, Repr

/-- The agent that a slot is. -/
def State.agentOf (s : State) (k : Nat) : Agent :=
  match levelOf k with
  | .b => { grid := s.gridOf k, ctx := s.ctxOf k, bank := some (bankOf k), die := bankOf k / 96 }
  | .s => { core := some (coreOf k), strand := true, ctx := s.ctxOf k, service := some (regionOf (coreOf k)),
            die := dieOfCore (coreOf k) }
  | _ => { core := some (coreOf k), strand := true, grid := s.gridOf k, ctx := s.ctxOf k, die := dieOfCore (coreOf k) }

/-- An agent as its accesses to its own device through the fabric window show it (R45): it has no window there. -/
def Agent.outside (a : Agent) : Agent := { a with core := none, strand := false, grid := none, service := none }

/-- The translation cache that serves an agent's access (R151, spec/10_bank_units.md R190). -/
def State.cacheFor (s : State) (a : Agent) (va : Nat) : Nat :=
  match a.bank with
  | some b => 1024 + b
  | none => s.translatingCluster a.die va

/-- The writer that an agent is, at a unit register. -/
def Agent.writer (a : Agent) : Writer :=
  match a.service with
  | some r => .control r
  | none => .other

/-- Where the bytes of one sector part of an access are; `atm` is memory of an atomic page, which a bank unit reads and writes and
no slice holds (R103, R156). -/
inductive Spot where
  | mem (pa : Nat)
  | atm (pa : Nat)
  | pattern (pa : Nat)
  | zero
  | image (slot reg off : Nat)
  | car (core i off : Nat)
  | engine (core off : Nat)
  | unit (off : Nat)
  deriving DecidableEq, Repr

/-- The outcome of finding a spot. -/
inductive Resolved where
  | spot (sp : Spot)
  | fabric (dev addr : Nat)
  | park
  | materialise
  | fail (c : Cause)
  deriving DecidableEq, Repr

/-! ## Grid placement (R78, R79, R146, R239) -/

/-- A hole: a service core or a core of a left-out cluster. -/
def State.isHole (s : State) (n : Nat) : Bool := isService n || s.leftOut.contains (clusterOf n)

/-- The core at position (i, j) of a rectangle, passing over holes in ring order. -/
def State.ringCore (s : State) (px py bw bh : Nat) : Nat → Nat → Option Nat
  | 0, _ => none
  | m + 1, p =>
    let q := p % (bw * bh)
    let n := coreAt (px + q % bw) (py + q / bw)
    if s.isHole n then s.ringCore px py bw bh m (p + 1) else some n

/-- The core that stands for grid coordinates (R79, R146): none outside the grid. -/
def State.gridCore (s : State) (g x y : Nat) : Option Nat :=
  match s.grid g with
  | none => none
  | some gr =>
    let bw := gr.node.bw
    let bh := gr.node.bh
    if bw = 0 || bh = 0 || gr.gw * bw ≤ x || gr.node.gh * bh ≤ y then none
    else
      match gr.rects[x / bw + gr.gw * (y / bh)]? with
      | none => none
      | some (px, py) => s.ringCore px py bw bh (bw * bh) (x % bw + bw * (y % bh))

/-! ## Windows (R143, R147) -/

/-- The offset in an engine register block of one of its registers (R263 Table 4). -/
def engineNamed (o : Nat) : Bool :=
  o < 0x90 || (0x100 ≤ o && o < 0x190) || (0x200 ≤ o && o < 0x290) || (0x300 ≤ o && o < 0x304) ||
    (0x308 ≤ o && o < 0x30C)

/-- The start of the cache portion of a core (R147). -/
def State.spadEnd (s : State) (c : Nat) : Nat := 0x30000 - 0x4000 * bits (s.core c).lsplit.toNat 3 0

/-- The end of the code region of a core (R147 Table 5). -/
def State.codeEnd (s : State) (c : Nat) : Nat := (s.core c).xbound.toNat

/-- The spot of `n` bytes in a core's window; reserved ranges and the cache portion raise WINDOW. -/
def State.windowSpot (s : State) (c off n : Nat) : Except Cause Spot :=
  if off + n ≤ 0x30000 then (if s.spadEnd c < off + n then .error .window else .ok (.mem (windowPA c off)))
  else if 0x30000 ≤ off && off + n ≤ 0x31000 then
    .ok (.image (slotKey c ((off - 0x30000) / 1024)) (off % 1024 / 32) (off % 32))
  else if 0x31000 ≤ off && off + n ≤ 0x31100 then .ok (.car c ((off - 0x31000) / 32) (off % 32))
  else if 0x32000 ≤ off && off + n ≤ 0x33000 && (List.range n).all (fun i => engineNamed (off - 0x32000 + i)) then
    .ok (.engine c (off - 0x32000))
  else if 0x40000 ≤ off && off + n ≤ 0x48000 then .ok (.mem (windowPA c off))
  else .error .window

/-- A store to a register image must be of its 16 bytes, aligned (R367, R144). -/
def imageStoreOk : Spot → Nat → Bool
  | .image _ _ o, n => 16 ≤ o || (o = 0 && n = 16)
  | _, _ => true

/-- An access to the unit-register region must have the width of the register (R141). -/
def unitWidthOk (off n : Nat) : Bool :=
  match unitRegister off with
  | (.unnamed, _, _) => true
  | (_, start, w) => w = 0 || (start = off && w = n)

/-! ## Finding a spot -/

def windowResolved (s : State) (c off n : Nat) (u : Use) : Resolved :=
  match u with
  | .atomic => .fail .placement
  | .cellRead | .cellWrite => .fail .cellPlacement
  | _ => match s.windowSpot c off n with
    | .error e => .fail e
    | .ok sp => if u = .write && !imageStoreOk sp n then .fail .window else .spot sp

/-- The spot of an address of a page: a load or a store of an atomic page is the bank unit's. -/
def Leaf.spot (l : Leaf) (u : Use) (pa : Nat) : Spot := if l.at_ && (u == .read || u == .write) then .atm pa else .mem pa

/-- The spot of `n` bytes within one sector at an address, for an agent and a use, with the ACQ permission
(R145, R146, R161, R194): the checks of steps 5 and 6 of R362. -/
def State.resolve (s : State) (a : Agent) (va n : Nat) (u : Use) (acq : Bool) : Resolved × State :=
  match regionOfVA va with
  | .none => (.fail .noncanonical, s)
  | .fabric dev addr => (.fabric dev addr, s)
  | .own off =>
    match a.core with
    | none => (.fail .window, s)
    | some c =>
      if a.strand && off < s.codeEnd c && u != .atomic && u != .cellRead && u != .cellWrite then
        (.fail .codeAccess, s)
      else (windowResolved s c off n u, s)
  | .grid x y off =>
    match a.grid with
    | none => (.fail .window, s)
    | some g =>
      if a.service.isSome then (.fail .window, s) else
      match s.gridCore g x y with
      | none => (.fail .window, s)
      | some c => (windowResolved s c off n u, s)
  | .translated =>
    if unitBase ≤ va && va < unitEnd then
      (if a.service.isNone then .fail .protection
       else if u = .atomic then .fail .placement else if u = .cellRead || u = .cellWrite then .fail .cellPlacement
       else if unitWidthOk (va - unitBase) n then .spot (.unit (va - unitBase)) else .fail .window, s)
    else
      match s.translate (s.cacheFor a va) a.ctx va with
      | (.park, s) => (.park, s)
      | (.fail c, s) => (.fail c, s)
      | (.leaf l _, s) =>
        match s.leafCheck l va acq u with
        | some c => (.fail c, s)
        | none =>
          match s.held l va with
          | .zero => (.spot .zero, s)
          | .pattern pa => (if u = .write then .materialise else .spot (.pattern pa), s)
          | .mem pa =>
            match a.bank with
            | some b => if u != .find && s.bankOfPA pa != b then (.fail .channel, s) else (.spot (l.spot u pa), s)
            | none => (.spot (l.spot u pa), s)

/-! ## Reading a spot -/

/-- What a read gives: the bytes, whether a granule was marked, whether a sector was poisoned, the capability tag
of the 16-byte granule. -/
structure Got where
  bytes : List Byte := []
  bnd : Bool := false
  poison : Bool := false
  tag : Bool := false
  deriving DecidableEq, Repr

/-- The accumulator tile that holds a physical address (R143, R253): core and number. -/
def tileOfPA (pa : Nat) : Option (Nat × Nat) :=
  let o := (pa - windowBase) % 0x100000
  if windowBase ≤ pa && pa < windowEnd && 0x40000 ≤ o && o < 0x48000 then
    some ((pa - windowBase) / 0x100000, (o - 0x40000) / 0x4000)
  else none

/-- Some granule read is marked: the accumulator share shows the marks of the tiles that the range touches (R253). -/
def State.bndAt (s : State) (pa n : Nat) : Bool :=
  let mark (t : Nat × Nat) : Bool := look false (s.core t.1).accMark t.2
  match tileOfPA pa with
  | some t => mark t || (tileOfPA (pa + n - 1)).any mark
  | none => s.anyGranule pa n (·.bnd)

/-- The bytes of a carousel descriptor (R256 Table 3). -/
def Carousel.image (c : Carousel) : List Byte :=
  bytesOf 32 (c.base % 2 ^ 32 + c.size % 256 * 2 ^ 32 + c.cnt % 256 * 2 ^ 40 + c.head % 2 ^ 32 * 2 ^ 64 +
    c.tail % 2 ^ 32 * 2 ^ 96 + c.rsv % 2 ^ 32 * 2 ^ 128)

/-- The two tag bits of a register (R308). -/
def Tag.code : Tag → Nat
  | .exact => 0
  | .bounded => 1
  | .cap => 2
  | .sealed => 3

/-- A register image of 32 bytes (R143): the register of a Lent slot reads 0 (R245). -/
def State.imageReg (s : State) (k r : Nat) : Reg := if (s.slot k).st = .lent then {} else (s.slot k).reg r

def imageBytes (r : Reg) : List Byte := bytesOf 16 r.data.toNat ++ [BitVec.ofNat 8 r.tag.code] ++ List.replicate 15 0

/-- One byte of the engine command registers (R263): the shadows lie in memory, a doorbell reads 0. -/
def State.engineByte (s : State) (c o : Nat) : Byte :=
  let k := s.core c
  let at8 (v base : Nat) : Byte := BitVec.ofNat 8 (v / 256 ^ (o - base))
  if 0x88 ≤ o && o < 0x90 then at8 k.muStatus.toNat 0x88
  else if 0x188 ≤ o && o < 0x190 then at8 k.copyStatus.toNat 0x188
  else if 0x288 ≤ o && o < 0x290 then at8 k.vecStatus.toNat 0x288
  else if 0x300 ≤ o && o < 0x304 then at8 k.recbuf.toNat 0x300
  else if 0x308 ≤ o && o < 0x30C then at8 (s.mqctl c) 0x308
  else if o % 0x100 < 0x80 then s.byte (windowPA c (0x32000 + o))
  else 0

/-- A read of `n` bytes within one sector. -/
def State.readSpot (s : State) (sp : Spot) (n : Nat) : Got :=
  match sp with
  | .mem pa | .atm pa => ⟨s.bytes pa n, s.bndAt pa n, s.anyGranule pa n (·.poison), s.tagAt pa⟩
  | .pattern pa => { bytes := s.bytes pa n }
  | .zero => { bytes := List.replicate n 0 }
  | .image k r o =>
    let v := s.imageReg k r
    { bytes := ((imageBytes v).drop o).take n, bnd := v.tag == .bounded,
      tag := o < 16 && (v.tag == .cap || v.tag == .sealed) }
  | .car c i o => { bytes := ((s.carousel c i).image.drop o).take n }
  | .engine c o =>
    { bytes := (List.range n).map fun i => s.engineByte c (o + i),
      tag := o % 0x100 < 0x80 && s.tagAt (windowPA c (0x32000 + o)) }
  | .unit o =>
    match unitRegister o with
    | (.code b x, _, _) => { bytes := s.bytes (bankPA b x) n }
    | (.catalogue b i, _, _) =>
      let v := look ({} : Reg) (s.bank b).cat i
      { bytes := bytesOf n v.data.toNat, tag := v.tag == .cap || v.tag == .sealed }
    | (u, _, _) => { bytes := bytesOf n (s.readUnit u) }

/-! ## Writing a spot -/

/-- How a store writes (R367, R370, R371): as data, as bounded data, with a capability tag. -/
inductive StoreKind where
  | plain
  | bounded
  | cap (tag : Tag)
  deriving DecidableEq, Repr

/-- A slot of a carousel lies in the scratchpad or in the accumulator share, and the other conditions of R256. -/
def State.carouselOk (s : State) (c base size cnt : Nat) : Bool :=
  let bytes := size * 128
  base % 128 = 0 && cnt != 0 && size != 0 && size ≤ 128 && cnt ≤ 64 &&
    ((s.codeEnd c ≤ base && base + bytes * cnt ≤ s.spadEnd c) ||
     (0x40000 ≤ base && base + bytes * cnt ≤ 0x48000))

/-- A queued command reads a carousel (R256): the slots that it reads are counted there. -/
def State.carouselInUse (s : State) (c i : Nat) : Bool := (s.carousel c i).rsv != 0

/-- A write to a carousel descriptor through a window (R256): ignored where it is not allowed. -/
def State.writeDescriptor (s : State) (c i : Nat) (v : BitVec 256) : State :=
  let base := bits v.toNat 31 0
  let size := bits v.toNat 39 32
  let cnt := bits v.toNat 47 40
  if s.carouselOk c base size cnt && !s.carouselInUse c i then
    s.onCarousel c i fun k => { k with base := base, size := size, cnt := cnt }
  else s

/-- A write of an aligned register image (R144): ignored for g0 and for a Lent slot. -/
def State.writeImage (s : State) (k r : Nat) (v : Reg) : State :=
  if (s.slot k).st = .lent then s else s.writeReg k r v

/-- Bytes `bs` laid over bytes `old` from offset `o`. -/
def overlay (old : List Byte) (o : Nat) (bs : List Byte) : List Byte :=
  old.take o ++ bs ++ old.drop (o + bs.length)

/-- A write to the engine command registers (R263): shadows are memory; a doorbell is rung; `err` is cleared by
writing 1. -/
def State.writeEngine (s : State) (c o : Nat) (bs : List Byte) (kind : StoreKind) : State :=
  let b := o / 0x100
  let r := o % 0x100
  let shadow := bs.take (0x80 - r)
  let s :=
    if r < 0x80 && b < 3 then
      let pa := windowPA c (0x32000 + o)
      let s := s.storeData pa shadow (kind == .bounded)
      match kind with
      | .cap t => s.setTag pa (t == .cap || t == .sealed)
      | .bounded => s.onGranules pa shadow.length fun _ g => { g with bnd := true }
      | .plain => s
    else s
  let s :=
    if r ≤ 0x80 && 0x80 < r + bs.length && b < 3 then
      let v : Word64 := BitVec.ofNat 64 (ofBytes (bs.drop (0x80 - r)))
      s.emit (match b with
        | 0 => .muDoorbell c v
        | 1 => .copyDoorbell c v
        | _ => .vectorDoorbell c v)
    else s
  if r ≤ 0x8A && 0x8A < r + bs.length && b < 3 && (bs.getD (0x8A - r) 0).getLsbD 0 then
    s.onCore c fun k => match b with
      | 0 => { k with muStatus := k.muStatus &&& ~~~(0x10000 : Word64) }
      | 1 => { k with copyStatus := k.copyStatus &&& ~~~(0x10000 : Word64) }
      | _ => { k with vecStatus := k.vecStatus &&& ~~~(0x10000 : Word64) }
  else s

/-- A write to memory (R160, R367, R370): data, metadata, poison, the mark of an accumulator tile. -/
def State.writeMem (s : State) (pa : Nat) (bs : List Byte) (kind : StoreKind) : State :=
  let s := s.storeData pa bs (kind == .bounded)
  match kind with
  | .plain => s
  | .cap t => s.setTag pa (t == .cap || t == .sealed)
  | .bounded =>
    match tileOfPA pa with
    | some (c, a) => s.onCore c fun k => { k with accMark := put k.accMark a true }
    | none => s.onGranules pa bs.length fun _ g => { g with bnd := true }

/-- The tag that a store gives to a register image (R144, R370, R371). -/
def StoreKind.tag : StoreKind → Tag
  | .plain => .exact
  | .bounded => .bounded
  | .cap t => t

/-- A write of bytes within one sector by an agent. -/
def State.writeSpot (s : State) (w : Writer) (sp : Spot) (bs : List Byte) (kind : StoreKind) : State :=
  match sp with
  | .mem pa | .atm pa => s.writeMem pa bs kind
  | .pattern _ | .zero => s
  | .image k r o =>
    if o = 0 then s.writeImage k r ⟨BitVec.ofNat 128 (ofBytes bs), kind.tag⟩ else s
  | .car c i o =>
    s.writeDescriptor c i (BitVec.ofNat 256 (ofBytes (overlay (s.carousel c i).image o bs)))
  | .engine c o => s.writeEngine c o bs kind
  | .unit o =>
    match unitRegister o with
    | (.code b x, _, _) => s.writeBankCode w b x bs
    | (.catalogue b i, _, _) => s.writeBankEntry w b i ⟨BitVec.ofNat 128 (ofBytes bs), kind.tag⟩
    | (u, _, _) => s.writeUnit w u (ofBytes bs)

/-- A byte of a typed cell lies in the bytes written (R109). -/
def State.typedAt (s : State) (sp : Spot) (n : Nat) : Bool :=
  match sp with
  | .mem pa | .atm pa => s.anyGranule pa n (·.ctype != 0)
  | _ => false

/-! ## Slices and cache portions (R103, R149) -/

/-- The 128-byte line of an HBM address. -/
def lineOf (pa : Nat) : Nat := pa / 128

/-- A set of a slice (R103): bits [16:7] of the address. -/
def setOf (pa : Nat) : Nat := bits pa 16 7

/-- The lines that a home slice holds in the set of an address. -/
def State.setLines (s : State) (pa : Nat) : List (Nat × Line) :=
  s.lines.filter fun e => e.2.valid != 0 && setOf (128 * e.1) = setOf pa && s.homeCluster (128 * e.1) = s.homeCluster pa

/-- A way of a full set is freed (R103): by a free choice among the lines that nothing pins, whose dirty sectors are written
back. -/
def State.freeWay (s : State) (pa : Nat) : State :=
  let held := s.setLines pa
  if held.length < 16 || held.any (fun e => e.1 = lineOf pa) then s
  else
    let loose := held.filter fun e => e.2.pins = []
    match loose[Config.choice s.fresh % loose.length]? with
    | some e => { s.drawn with lines := without s.lines e.1 }
    | none => s

/-- A home slice has read a sector, or written it: its line takes a way (R103). -/
def State.touch (s : State) (pa : Nat) (dirty : Bool) : State :=
  if hbmEnd ≤ pa then s
  else
    let sector : BitVec 4 := BitVec.ofNat 4 (2 ^ (pa / 32 % 4))
    let s := s.freeWay pa
    { s with lines := change {} s.lines (lineOf pa) fun l => { l with
      valid := l.valid ||| sector, dirty := if dirty then l.dirty ||| sector else l.dirty } }

/-- A store invalidates the copies of a line in the cache portions of cores other than its issuer (R149). -/
def State.invalidate (s : State) (pa : Nat) (me : Option Nat) : State :=
  if hbmEnd ≤ pa then s
  else { s with cores := s.cores.map fun e =>
    if (me == some e.1 || !e.2.lines.contains (lineOf pa)) && !e.2.pooled.contains (lineOf pa) then e
    else (e.1, { e.2 with
      lines := if me == some e.1 then e.2.lines else e.2.lines.erase (lineOf pa)
      pooled := e.2.pooled.erase (lineOf pa) }) }

/-- A spot in HBM that a slice homes. -/
def Spot.hbm : Spot → Option Nat
  | .mem pa => if pa < hbmEnd then some pa else none
  | _ => none

/-- The sector parts of a range. -/
def sectors : Nat → Nat → Nat → List (Nat × Nat)
  | 0, _, _ => []
  | k + 1, va, n =>
    if n = 0 then [] else
    let room := min n (32 - va % 32)
    (va, room) :: sectors k (va + room) (n - room)

/-- The parts of an access of at most 128 bytes: one for each sector that it touches (R166). -/
def partsOf (va n : Nat) : List (Nat × Nat) := sectors 5 va n

end Sys2Proof.Machine
end

