-- ==== Sys2Proof/Machine/Operands.lean ====
section
/-! DEFINITION. The operand forms: immediates (R345), capabilities and their bounds (R312-R316, R355), effective
addresses (R361), target words (R394), scope operands (R175), group and command words. -/

namespace Sys2Proof.Machine

open Sys2Proof

/-! ## Immediates (R345 Table 1) -/

def immI (imm : BitVec 12) : Word64 := imm.signExtend 64
def immU (imm : BitVec 20) : Word64 := (imm ++ (0 : BitVec 12)).signExtend 64
def immB (off : BitVec 12) : Word64 := (off ++ (0 : BitVec 1)).signExtend 64
def immJ (off : BitVec 20) : Word64 := (off ++ (0 : BitVec 1)).signExtend 64

/-- SX32 (R346): bits [31:0] sign-extended to 64 bits. -/
def sx32 (v : Word64) : Word64 := (v.setWidth 32).signExtend 64

/-- Sign or zero extension of `n` bytes to bits [63:0], the high half 0 (R366). -/
def extend (sgn : Bool) (n v : Nat) : Word128 :=
  if n = 16 then BitVec.ofNat 128 v
  else BitVec.ofNat 128 (if sgn then low 64 (signed (8 * n) v) else v % 2 ^ (8 * n))

/-! ## Capabilities (R312-R316) -/

def capAddr (d : Word128) : Nat := (lo64 d).toNat
def capPerm (d : Word128) : Nat := bits d.toNat 127 112

/-- The permissions by their bit in [127:112] (R313 Table 3). -/
def permR : Nat := 0
def permW : Nat := 1
def permX : Nat := 2
def permLC : Nat := 3
def permSC : Nat := 4
def permOBJ : Nat := 5
def permRC : Nat := 6
def permACQ : Nat := 7
def permG : Nat := 8
def permS : Nat := 9

def hasPerm (d : Word128) (p : Nat) : Bool := bit (capPerm d) p

/-- `Corr` of R314. -/
def corr (a m lim : Nat) : Int :=
  if decide (a < lim) = decide (m < lim) then 0 else if a < lim then -1 else 1

/-- The bounds of a capability (R314): base and top, or INVALID. -/
def decodeBounds (d : Word128) : Option (Nat × Nat) :=
  let v := d.toNat
  let e := bits v 111 106
  let bm := bits v 84 64
  let tm := bits v 105 85
  let a := bits v 63 0
  if 43 < e then none
  else
    let w := e + 21
    let amid := a / 2 ^ e % 2 ^ 21
    let lim := (bm + 2 ^ 21 - 2 ^ 19) % 2 ^ 21
    let ahi : Int := a / 2 ^ w
    let base : Int := ((ahi + corr amid bm lim) * 2 ^ w + bm * 2 ^ e) % 2 ^ 64
    let top : Int := (ahi + corr amid tm lim) * 2 ^ w + tm * 2 ^ e
    if 2 ^ 64 < top ∨ top < base then none else some (base.toNat, top.toNat)

/-- A capability with an address and bounds (R312 Table 2), written over the permissions of another. -/
def withFields (d : Word128) (addr e bm tm : Nat) : Word128 :=
  BitVec.ofNat 128 (addr % 2 ^ 64 + bm % 2 ^ 21 * 2 ^ 64 + tm % 2 ^ 21 * 2 ^ 85 + e % 64 * 2 ^ 106 +
    capPerm d * 2 ^ 112)

/-- A capability with another address. -/
def withAddr (d : Word128) (addr : Nat) : Word128 := BitVec.ofNat 128 (setBits d.toNat 63 0 addr)

/-- The encoding of bounds (R355): exponent, mantissas, and the rounded base and top; tried from `e` upwards. -/
def encodeBounds (b t : Nat) : Nat → Nat → Option (Nat × Nat × Nat × Nat × Nat)
  | _, 0 => none
  | e, n + 1 =>
    let lo := b / 2 ^ e
    let hi := ceilDiv t (2 ^ e)
    if hi - lo ≤ 2 ^ 20 then some (e, lo % 2 ^ 21, hi % 2 ^ 21, lo * 2 ^ e, hi * 2 ^ e)
    else encodeBounds b t (e + 1) n

/-- A capability over [base, base + len), with an address and permissions: one that the device makes itself
(R230, R470). -/
def makeCap (addr base len perm : Nat) : Word128 :=
  match encodeBounds base (base + len) 0 44 with
  | some (e, bm, tm, _, _) =>
    BitVec.ofNat 128 (addr % 2 ^ 64 + bm * 2 ^ 64 + tm * 2 ^ 85 + e * 2 ^ 106 + perm % 65536 * 2 ^ 112)
  | none => 0

/-- Bytes [ea, ea + n) lie within the bounds (R315 items 3 and 4). -/
def inBounds (d : Word128) (ea n : Nat) : Bool :=
  match decodeBounds d with
  | some (base, top) => base ≤ ea && ea + n ≤ top
  | none => false

/-- The checks of a dereference after the tag 01 (R315): tag 10, bounds, permissions. -/
def capOk (c : Reg) (ea n : Nat) (perms : List Nat) : Bool :=
  c.tag == .cap && inBounds c.data ea n && perms.all (hasPerm c.data)

/-- The effective address of a base and an offset (R361). -/
def effective (c : Reg) (off : Word64) : Nat := (lo64 c.data + off).toNat

/-- An address lies in the fabric window (R45). -/
def isFabric (ea : Nat) : Bool := bit ea 63

/-- The permissions of a use, with G for the fabric window (R46). -/
def withG (perms : List Nat) (ea : Nat) : List Nat := if isFabric ea then permG :: perms else perms

/-- The checks of R362 steps 2 to 4 on a base register. -/
def checkBase (c : Reg) (ea n align : Nat) (perms : List Nat) : Act Unit := do
  refuseBounded c
  if !capOk c ea n (withG perms ea) then trap .capability ea
  if align != 0 && ea % align != 0 then trap .alignment ea

/-! ## Scope operands (R175 Table 3) -/

/-- A scope: a rectangle, the device or the pod. -/
inductive Scope where
  | rect (x0 y0 x1 y1 : Nat)
  | device
  | pod
  deriving DecidableEq, Repr

/-- A scope operand decoded; none where it raises SCOPE. -/
def scopeOf (d : Word128) : Option Scope :=
  let v := d.toNat
  if v / 2 ^ 66 != 0 then none
  else match bits v 65 64 with
    | 0 => if bits v 15 0 ≤ bits v 47 32 && bits v 31 16 ≤ bits v 63 48 then
        some (.rect (bits v 15 0) (bits v 31 16) (bits v 47 32) (bits v 63 48)) else none
    | 1 => some .device
    | 2 => some .pod
    | _ => none

/-- The scope register of a fence, read at issue (R373). -/
def scopeOperand (r : RegNo) : Act Scope := do
  let v ← exactSource r
  match scopeOf v.data with
  | some sc => pure sc
  | none => trap .scope

end Sys2Proof.Machine
end

