-- ==== Sys2Proof/Machine/Flags.lean ====
section
/-! DEFINITION. The conditions of branches (R352) and the event counts of arithmetic (R305 Table 7): the machine has
no flag register. -/

namespace Sys2Proof.Machine

open Sys2Proof

/-- The comparisons of the conditional branches (R352). -/
inductive Cond where
  | eq | ne | lt | ge | ltu | geu
  deriving DecidableEq, Repr

/-- A condition on two 64-bit operands. -/
def Cond.holds (c : Cond) (a b : Word64) : Bool :=
  match c with
  | .eq => a == b
  | .ne => a != b
  | .lt => a.slt b
  | .ge => !a.slt b
  | .ltu => a.ult b
  | .geu => !a.ult b

/-- What one result element, or many, count (R305): NaNs produced, overflows, underflows to zero, saturations. -/
structure Tally where
  nan : Nat := 0
  overs : Nat := 0
  under : Nat := 0
  sat : Nat := 0
  deriving DecidableEq, Repr

/-- Two counts together. -/
def Tally.add (a b : Tally) : Tally := ⟨a.nan + b.nan, a.overs + b.overs, a.under + b.under, a.sat + b.sat⟩

/-- An element counts at most once for each event (R305). -/
def Tally.once (a : Tally) : Tally := ⟨min a.nan 1, min a.overs 1, min a.under 1, min a.sat 1⟩

/-- The counters of a core advanced by a count (R305, R306). -/
def State.tally (s : State) (c : Nat) (t : Tally) : State :=
  (((s.count c 0 t.nan).count c 1 t.overs).count c 2 t.under).count c 3 t.sat

end Sys2Proof.Machine
end

