-- ==== Sys2Proof/Machine/Memory.lean ====
section
/-! DEFINITION. The accesses of strands: claims of engine commands on memory, loads, stores, posted stores, the
scoreboard, releases (spec/18_isa_memory.md R361-R368, spec/20_isa_engines.md R415, spec/09_consistency.md R174,
R178, spec/02_links.md R46-R48). -/

namespace Sys2Proof.Machine

open Sys2Proof

/-! ## What engine commands claim (R178, R179, R415) -/

/-- The physical address at which a page holds the byte of an address: none for a sector that no frame holds. A drain does not
change it. -/
def State.physOf (s : State) (ctx va : Nat) : Option Nat :=
  match s.walk ctx va true with
  | .leaf l _ => match s.held l va with
    | .mem pa => some pa
    | .pattern _ => some (l.frame + (va - l.base))
    | .zero => none
  | _ => none

/-- The virtual addresses in the `n` bytes from `start` that name a physical address, for an agent of a core, a grid and a context:
one for each 64 KiB of a page that maps it. -/
def State.viewsOf (s : State) (core : Nat) (grid : Option Nat) (ctx start n p : Nat) : List Nat :=
  let inWindow (c off : Nat) : List Nat :=
    if windowPA c 0 ≤ p && p < windowPA (c + 1) 0 then [start - off + (p - windowPA c 0)] else []
  match regionOfVA start with
  | .own off => inWindow core off
  | .grid x y off => match grid.bind fun g => s.gridCore g x y with
    | some c => inWindow c off
    | none => []
  | .translated =>
    if hbmEnd ≤ p then []
    else (List.range (ceilDiv (start % 65536 + n) 65536)).filterMap fun i =>
      let v := start / 65536 * 65536 + 65536 * i
      match s.walk ctx v true with
      | .leaf l _ =>
        let f := l.frame + (v - l.base)
        if f ≤ p && p < f + 65536 then some (v + (p - f)) else none
      | _ => none
  | _ => []

/-- Two ranges meet. -/
def meets (a n b m : Nat) : Bool := a < b + m && b < a + n && n != 0 && m != 0

/-- Rows `first` to `last` of length `rb` at a stride from `start` meet a range. -/
def rowsMeet (start stride rb first last a n : Nat) : Bool :=
  if stride = 0 then first < last && meets start rb a n
  else
    let lo := if a < start + rb then 0 else (a - start - rb) / stride + 1
    let hi := if a + n ≤ start then 0 else (a + n - 1 - start) / stride + 1
    max lo first < min hi last && rb != 0 && n != 0

/-- The address of an offset in the local window (R145). -/
def localVA (off : Nat) : Nat := 0x7FFFFFFFFFF00000 + off

/-- The address where a command's destination begins: the slot of a carousel lies in the core's own window (R436). -/
def CopyCmd.dstAt (q : CopyCmd) : Nat := if q.car.isSome then localVA q.carOff else capAddr q.dst.data

/-- The addresses among which a command's destination lies. -/
def CopyCmd.dstSpan (c : CopyCmd) : Nat × Nat :=
  match c.op with
  | .copy | .fill => (c.dstAt, c.total)
  | .gather => (c.dstAt, c.total * 2 ^ c.es)
  | .copy2d => (c.dstAt, c.ds * (c.nr - 1) + c.rb)
  | .scatter => match decodeBounds c.dst.data with
    | some (base, top) => (base, top - base)
    | none => (c.dstAt, 0)

/-- The destination range that a copy command has not written meets a range of addresses. -/
def CopyCmd.writesAt (c : CopyCmd) (a n : Nat) : Bool :=
  c.stream.isNone &&
  match c.op with
  | .copy | .fill => meets (c.dstAt + c.pos) (c.total - c.pos) a n
  | .gather => meets (c.dstAt + c.pos * 2 ^ c.es) ((c.total - c.pos) * 2 ^ c.es) a n
  | .copy2d => rowsMeet c.dstAt c.ds c.rb (if c.rb = 0 then 0 else c.pos / c.rb) c.nr a n
  | .scatter => c.pos < c.total && meets c.dstSpan.1 c.dstSpan.2 a n

/-- The destination of a command that runs for a core, a grid and a context covers bytes at a physical address. -/
def State.copyClaims (s : State) (core : Nat) (grid : Option Nat) (c : CopyCmd) (p n : Nat) : Bool :=
  c.stream.isNone && (s.viewsOf core grid c.ctx c.dstSpan.1 c.dstSpan.2 p).any fun v => c.writesAt v n

/-- The source range that a copy command has not read meets a range of addresses. -/
def CopyCmd.readsAt (c : CopyCmd) (a n : Nat) : Bool :=
  let src := capAddr c.src.data
  match c.op with
  | .copy => meets (src + c.pos) (c.total - c.pos) a n
  | .fill => false
  | .scatter => meets (src + c.pos * 2 ^ c.es) ((c.total - c.pos) * 2 ^ c.es) a n
  | .copy2d => rowsMeet src c.ss c.rb (if c.rb = 0 then 0 else c.pos / c.rb) c.nr a n
  | .gather => match decodeBounds c.src.data with
    | some (base, top) => c.pos < c.total && meets base (top - base) a n
    | none => false

/-- Bytes of one element of a format (R285 Table 1); nested integers are counted by planes. -/
def Fmt.bytes : Fmt → Nat
  | .fp32 | .int32 => 4
  | .fp16 | .bf16 => 2
  | _ => 1

/-- Elements of a 128-byte row (R428). -/
def Fmt.perRow (f : Fmt) : Nat := 128 / f.bytes

/-- The bytes that a vector command writes at its destination (R428). -/
def VecCmd.dstBytes (v : VecCmd) : Nat :=
  match v.op with
  | .cvt dest _ => ceilDiv (v.rows * v.fmt.perRow * dest.bytes) 128 * 128
  | .sum | .maxr | .argmax => 0
  | .acceptSp => v.len
  | _ => v.rows * 128

/-- The bytes that a drain writes (R425). -/
def Drain.bytes (d : Drain) : Nat :=
  match d.fmt with
  | .ni k => 512 * k
  | f => 4096 * f.bytes

/-- The window ranges that the vector and crossbar commands of a core write, and those that they read. -/
def VecCmd.writes (v : VecCmd) : List (Nat × Nat) := [(v.d, v.dstBytes)]
def VecCmd.reads (v : VecCmd) : List (Nat × Nat) :=
  let n := v.rows * 128
  match v.op with
  | .fill => []
  | .acceptSp => [(v.d, v.len)]
  | .fma | .sel => [(v.d, n), (v.a, n), (v.b, n)]
  | .add | .sub | .mul | .max | .min | .cmplt | .and | .or | .xor => [(v.a, n), (v.b, n)]
  | _ => [(v.a, n)]

def XuCmd.writes (x : XuCmd) : List (Nat × Nat) :=
  match x.op with
  | .save off => [(off, 2208)]
  | .product _ _ _ _ dst => [(dst, 1024)]
  | _ => []
def XuCmd.reads (x : XuCmd) : List (Nat × Nat) :=
  match x.op with
  | .prog _ _ n off => [(off, 256 * n)]
  | .load off => [(off, 2208)]
  | .product _ _ k src _ => [(src, 64 * k)]
  | _ => []

/-- The bytes of an operand tile (R298 Table 5), and the formats of the operands of an `mma` (R420). -/
def Fmt.tileBytes : Fmt → Nat
  | .ni k => 512 * k
  | f => 4096 * f.bytes

def MmaForm.fmts : MmaForm → Fmt × Fmt
  | .float a b => (a, b)
  | .int8 => (.int8, .int8)
  | .ni k => (.ni k, .ni 8)

/-- The operand slots that a matrix-unit command reads. -/
def MuCmd.reads (m : MuCmd) : List (Nat × Nat) :=
  match m.op with
  | .mma form _ _ a b _ => [(a, form.fmts.1.tileBytes), (b, form.fmts.2.tileBytes)]
  | .mrec f _ _ _ a b => [(a, f.tileBytes), (b, f.tileBytes)]
  | _ => []

/-- Bytes at a physical address are the destination of an engine command issued before a number, which has not written them (R178,
R415); a copy command of a saved grid keeps what it owns. -/
def State.writePending (s : State) (before p n : Nat) : Bool :=
  (s.cores.any fun e =>
    let win (r : Nat × Nat) : Bool := meets (windowPA e.1 r.1) r.2 p n
    e.2.cq.any (fun c => c.seq < before && s.copyClaims e.1 e.2.grid c p n) ||
    e.2.vq.any (fun v => v.seq < before && v.writes.any win) ||
    e.2.xq.any (fun x => x.seq < before && x.writes.any win) ||
    e.2.muq.any fun m => m.seq < before && match m.op with
      | .drain d => m.done < m.steps && match e.2.grid with
        | some g => match s.gridCore g d.x d.y with
          | some t => meets (windowPA t d.off) d.bytes p n
          | none => false
        | none => false
      | _ => false) ||
  s.grids.any fun g => g.2.saved.any fun k => k.core.cq.any fun c =>
    regionOfVA c.dstSpan.1 = .translated && s.copyClaims 0 none c p n

/-- Bytes in a core's own window are read by a command of that core, issued before a number, that has not finished with them (R179,
R415). -/
def State.readPending (s : State) (before c p n : Nat) : Bool :=
  let k := s.core c
  let win (r : Nat × Nat) : Bool := meets (windowPA c r.1) r.2 p n
  windowPA c 0 ≤ p && p < windowPA (c + 1) 0 && (k.vq.any (fun v => v.seq < before && v.reads.any win) ||
    k.xq.any (fun x => x.seq < before && x.reads.any win) ||
    k.muq.any (fun m => m.seq < before && m.reads.any win) ||
    k.cq.any fun q => q.seq < before &&
      (s.viewsOf c k.grid q.ctx (capAddr q.src.data) (2 ^ 20) p).any fun v => q.readsAt v n)

/-- A doorbell of a core has been written and its command has not been issued yet. -/
def State.doorbellPending (s : State) (c : Nat) : Bool :=
  s.agenda.any fun e => match e with
    | .muDoorbell d _ | .copyDoorbell d _ | .vectorDoorbell d _ => d = c
    | _ => false

/-- The physical address of the bytes of a spot; of an elided page, where its frame would hold them. -/
def State.placeOf (s : State) (ctx va : Nat) : Spot → Option Nat
  | .mem pa | .atm pa => some pa
  | .pattern _ => s.physOf ctx va
  | .engine c o => some (windowPA c (0x32000 + o))
  | _ => none

/-- An access to a spot waits for the engine commands that own its bytes (R178, R415); a write to the engine command registers
waits for a doorbell that has been written and not yet rung (R263). -/
def State.claimed (s : State) (ctx va : Nat) (sp : Spot) (n : Nat) (write : Bool) : Bool :=
  (match s.placeOf ctx va sp with
  | some p => s.writePending s.fresh p n
  | none => false) ||
  (write && match sp with
  | .engine c _ => s.doorbellPending c
  | _ => false)

/-- An access of a strand waits in the same way, and a write also for the commands of its own core that read the bytes (R179,
R415). -/
def State.mustWait (s : State) (k va : Nat) (sp : Spot) (n : Nat) (write : Bool) : Bool :=
  s.claimed (s.ctxOf k) va sp n write ||
    (write && !isBankSlot k && match sp with
      | .mem p => s.readPending s.fresh (coreOf k) p n
      | _ => false)

/-- A row operation reads or rewrites a row that a range of physical addresses touches: its accesses are parked (R204). -/
def State.rowParked (s : State) (pa n : Nat) : Bool :=
  s.banks.any fun e => match e.2.rowop with
    | some r => (r.d ++ r.a ++ r.b).any fun row => meets row 1024 pa n
    | none => false

/-- A spot lies in a row that is being rewritten. -/
def State.spotParked (s : State) (sp : Spot) (n : Nat) : Bool :=
  match sp with
  | .mem pa | .atm pa => s.rowParked pa n
  | _ => false

/-! ## Finding every part before any is performed (R361) -/

/-- A drain parks the accesses of an address (R164). -/
def State.parks (s : State) (ctx va : Nat) : Bool := s.draining ctx va || s.walk ctx va = .park

/-- The parked access of a slot, as the hold that it is at its translating slice (R164). -/
def State.parkAccess (s : State) (k ctx va : Nat) : State :=
  let p : Parked := { die := s.dieOf k, slot := k, ctx := ctx, va := va }
  if s.parked.contains p then s else { s with parked := s.parked.filter (fun q => q.engine || q.slot != k) ++ [p] }

/-- The first write to an elided page is on its way to the page table (R158). -/
def State.askPage (s : State) (ctx va : Nat) : State :=
  if s.agenda.any (fun e => match e with
      | .elMaterialise c v => c = ctx && v / 65536 = va / 65536
      | _ => false) then s
  else s.emit (.elMaterialise ctx va)

/-- The spots of the parts of an access: a drained page or a claimed byte leaves the slot not ready, an elided page
is materialised first (R158), any other failure traps with the address. -/
def findParts (u : Use) (acq : Bool) : List (Nat × Nat) → Act (List (Spot × Nat))
  | [] => pure []
  | (va, n) :: rest => do
    let s ← get
    let a := s.agentOf s.cur
    let (r, s') := s.resolve a va n u acq
    match r with
    | .spot sp => do
      set s'
      if s.spotParked sp n || s.mustWait s.cur va sp n (u = .write || u = .atomic) then waitHere
      let more ← findParts u acq rest
      pure ((sp, n) :: more)
    | .park => waitAfter fun o => o.parkAccess s.cur a.ctx va
    | .materialise => waitAfter fun o => o.askPage a.ctx va
    | .fabric _ _ => trap .noncanonical va
    | .fail c => trap c va

/-- What an access does to the bytes of a spot before it reads them, on a QoS class: they are admitted where HBM holds them (R87),
soft errors that have struck them are dealt with (R24), and the home slice holds them afterwards (R103), not those of an atomic
page. -/
def State.beforeRead (s : State) (cls : Nat) (sp : Spot) (n : Nat) : State :=
  let mended (s : State) (pa : Nat) : State := if s.flips = [] then s else s.mendMemory pa n
  match sp with
  | .mem pa => (mended (s.enterSlice cls pa n) pa).touch pa false
  | .atm pa | .pattern pa => mended (s.enterSlice cls pa n) pa
  | _ => s

/-- The bytes of the parts, read after soft errors have been dealt with. -/
def State.readParts (s : State) (cls : Nat) : List (Spot × Nat) → Got × State
  | [] => ({}, s)
  | (sp, n) :: rest =>
    let s := s.beforeRead cls sp n
    let g := s.readSpot sp n
    let (h, s) := s.readParts cls rest
    (⟨g.bytes ++ h.bytes, g.bnd || h.bnd, g.poison || h.poison, g.tag⟩, s)

/-- What a write to a spot leaves at its home slice (R87, R103, R149). -/
def State.afterWrite (s : State) (cls : Nat) (me : Option Nat) (sp : Spot) (n : Nat) : State :=
  match sp with
  | .mem pa => if pa < hbmEnd then ((s.enterSlice cls pa n).touch pa true).invalidate pa me else s
  | .atm pa => s.enterSlice cls pa n
  | _ => s

/-- The bytes written to the parts. -/
def State.writeParts (s : State) (cls : Nat) (w : Writer) (me : Option Nat) (kind : StoreKind) :
    List (Spot × Nat) → List Byte → State
  | [], _ => s
  | (sp, n) :: rest, bs =>
    ((s.writeSpot w sp (bs.take n) kind).afterWrite cls me sp n).writeParts cls w me kind rest (bs.drop n)

/-! ## Loads -/

/-- What a load finds: its bytes, a refusal by the target that marks the destination (R46), or another device. -/
inductive Fetched where
  | got (g : Got)
  | mark (m : Mark)
  | away (dev addr : Nat)

/-- The parts of an access that reaches this device through the fabric window, from an agent (R45): translated in the context as
pod-wide, by the slices of the agent's die; none while it has to wait. -/
def State.ownFabricParts (s : State) (a : Agent) (u : Use) (acq : Bool) :
    List (Nat × Nat) → Except Cause (Option (List (Spot × Nat))) × State
  | [] => (.ok (some []), s)
  | (va, n) :: rest =>
    match s.resolve a.outside va n u acq with
    | (.spot sp, s) =>
      if s.spotParked sp n || s.claimed a.ctx va sp n (u = .write || u = .atomic) then (.ok none, s) else
      match s.ownFabricParts a u acq rest with
      | (.ok (some l), s) => (.ok (some ((sp, n) :: l)), s)
      | r => r
    | (.park, s) => (.ok none, s)
    | (.materialise, s) => (.ok none, s.askPage a.ctx va)
    | (.fabric _ _, s) => (.error .noncanonical, s)
    | (.fail c, s) => (.error c, s)

/-- A strand's access through its device's own fabric window that has to wait: what it asked for from `s` to `t` stands. -/
def waitOutside {α : Type} (s t : State) (va : Nat) : Act α :=
  waitAfter fun o =>
    let o := o.emits (t.agenda.drop s.agenda.length)
    if o.parks (o.ctxOf o.cur) va then o.parkAccess o.cur (o.ctxOf o.cur) va else o

/-- The capability of a strand permits atomic pages (R156). -/
def acqOf (c : Reg) : Bool := hasPerm c.data permACQ

/-- A read of `n` bytes at an address through a base, with every check of R362. -/
def fetch (c : Reg) (ea n align : Nat) (perms : List Nat) (u : Use) : Act Fetched := do
  checkBase c ea n align perms
  let s ← get
  match regionOfVA ea with
  | .fabric dev addr =>
    if dev != thisDevice then pure (.away dev addr)
    else
      match s.ownFabricParts (s.agentOf s.cur) u (acqOf c) (partsOf addr n) with
      | (.error e, s) => do
        set s
        pure (.mark ⟨.remoteFault, e, dev, ea⟩)
      | (.ok none, t) => waitOutside s t addr
      | (.ok (some parts), s) =>
        let (g, s) := s.readParts s.here.qos parts
        set s
        if g.poison then pure (.mark ⟨.remoteFault, .poison, dev, ea⟩) else pure (.got g)
  | _ => do
    let parts ← findParts u (acqOf c) (partsOf ea n)
    let s ← get
    let (g, s) := s.readParts s.here.qos parts
    set s
    if g.poison then trap .poison ea
    pure (.got g)

/-- The first number below a limit that is not in use. -/
def freeId (used : List Nat) : Nat → Nat → Option Nat
  | 0, _ => none
  | n + 1, i => if used.contains i then freeId used n (i + 1) else some i

/-- A free scoreboard entry of the issuing core; the slot is not ready while there is none (R363). -/
def takeEntry : Act Nat := do
  let s ← get
  match freeId (s.hereCore.board.map (·.id)) 64 0 with
  | some i => pure i
  | none => waitHere

/-- A request to another device (R45-R48), answered NO_ROUTE where no port is up. -/
def sendAway (p : Packet) (unroutable : Event) : Act Unit := modify fun s =>
  let s := s.count (coreOf s.cur) 11 1
  if s.upPorts = [] then s.emit unroutable
  else s.send { p with ctx := s.ctxOf s.cur, qos := s.here.qos, core := coreOf s.cur } (clusterOf (coreOf s.cur))

/-- A scoreboard entry taken for the destinations of a remote request, under a tag of its own: its deadline runs from
now (R47, R277). -/
def takeBoard (gd : RegNo) (count : Nat) (kind : BoardKind) (ea : Nat) : Act Nat := do
  let id ← takeEntry
  let s ← get
  let b : Board := ⟨id, s.cur, gd.toNat, count, kind, ea, s.fresh, s.time + s.here.deadline⟩
  set ((s.drawn.onHereCore fun c => { c with board := b :: c.board }).emit (.replyDeadline (coreOf s.cur) s.fresh))
  pure s.fresh

/-- A request whose reply goes to the destinations. -/
def expectReply (gd : RegNo) (count : Nat) (kind : BoardKind) (ea : Nat) (p : Packet) : Act Unit := do
  let tag ← takeBoard gd count kind ea
  let s ← get
  sendAway { p with entry := tag }
    (.memoryReply { core := coreOf s.cur, entry := tag, status := .noRoute, dev := p.dst })

/-- A deferred mark on a destination register (R276). -/
def State.mark (s : State) (k r : Nat) (m : Mark) : State :=
  if r = 0 then s else s.onSlot k fun sl => { sl with marks := put sl.marks r m }

/-- The tag of a loaded value (R366): bounded if a granule read is marked. -/
def Got.dataTag (g : Got) : Tag := if g.bnd then .bounded else .exact

/-- The lines that a core's cache portion has room for (R147). -/
def Core.portionLines (c : Core) : Nat := 128 * min 8 (bits c.lsplit.toNat 3 0)

/-- A core takes part in pooling: its mask includes its own index (R150). -/
def State.pools (s : State) (n : Nat) : Bool := (s.core n).vpool.getLsbD 16 && (s.core n).vpool.getLsbD (coreInCluster n)

/-- The other members of a core's pool (R150): the cores of its cluster that take part with the same mask. -/
def State.poolOf (s : State) (n : Nat) : List Nat :=
  if s.pools n then
    ((List.range 16).map (clusterCore (clusterOf n) ·)).filter fun m =>
      m != n && s.pools m && (s.core m).vpool.setWidth 16 = (s.core n).vpool.setWidth 16
  else []

/-- A line leaves a full cache portion by a free choice; where the core has a pool, it may go to a member with room (R150). -/
def State.evictLine (s : State) (n : Nat) : State :=
  let c := s.core n
  let held := c.lines ++ c.pooled
  if held.length < c.portionLines then s
  else match held[Config.choice s.fresh % held.length]? with
    | none => s
    | some l =>
      let s := s.drawn.onCore n fun c => { c with lines := c.lines.erase l, pooled := c.pooled.erase l }
      let room := (s.poolOf n).filter fun m => (s.core m).lines.length + (s.core m).pooled.length < (s.core m).portionLines
      match room[Config.choice s.fresh % (room.length + 1)]? with
      | some m => s.drawn.onCore m fun c => { c with pooled := l :: c.pooled }
      | none => s.drawn

/-- A line that a core's strand has loaded enters its cache portion, if it has one (R149), unless its pool serves it (R150). -/
def State.fillPortion (s : State) (k ea : Nat) : State :=
  if isBankSlot k || bits (s.core (coreOf k)).lsplit.toNat 3 0 = 0 then s
  else
    match s.walk (s.ctxOf k) ea with
    | .leaf l _ =>
      let pa := l.frame + (ea - l.base)
      let n := coreOf k
      if l.at_ || l.el || l.cm || s.anyGranule (128 * lineOf pa) 128 (·.ctype != 0) || (s.core n).lines.contains (lineOf pa) ||
          (n :: s.poolOf n).any (fun m => (s.core m).pooled.contains (lineOf pa)) then s
      else (s.evictLine n).onCore n fun c => { c with lines := lineOf pa :: c.lines }
    | _ => s

/-- A load (R366): the value, extended, goes to the destination now, or when the reply of another device
arrives. -/
def load (la : Look) (gd gs1 : RegNo) (off : Word64) (n align : Nat) (sgn : Bool) : Act Unit := do
  enter everywhere [gs1] [gd]
  let c ← source gs1
  let ea := effective c off
  match ← fetch c ea n align [permR] .read with
  | .got g => do
    result gd ⟨extend sgn n (ofBytes g.bytes), g.dataTag⟩
    modify fun s => if regionOfVA ea = .translated then s.fillPortion s.cur ea else s
  | .mark m => modify fun s => s.mark s.cur gd.toNat m
  | .away dev addr =>
    expectReply gd 1 (.load n sgn false) ea { dst := dev, addr := addr, acq := acqOf c, op := .load n }
  retire la

/-- `cld` (R371): the tag is kept where the base carries LC and the granule's tag bit is set. -/
def loadCap (la : Look) (gd gs1 : RegNo) (off : Word64) : Act Unit := do
  enter everywhere [gs1] [gd]
  let c ← source gs1
  let ea := effective c off
  match ← fetch c ea 16 16 [permR] .read with
  | .got g =>
    let d : Word128 := BitVec.ofNat 128 (ofBytes g.bytes)
    let t : Tag :=
      if g.bnd then .bounded
      else if g.tag && hasPerm c.data permLC then (if d.getLsbD 121 then .sealed else .cap)
      else .exact
    result gd ⟨d, t⟩
  | .mark m => modify fun s => s.mark s.cur gd.toNat m
  | .away dev addr =>
    expectReply gd 1 (.load 16 false (hasPerm c.data permLC)) ea { dst := dev, addr := addr, acq := acqOf c, op := .capLoad }
  retire la

/-! ## Stores -/

/-- A store is counted for the barrier of `stbar` (R368): where the tag is 10 and the address lies outside the
local window. -/
def State.counts (s : State) (k ea : Nat) : Bool :=
  (s.slot k).stbar.tag == .cap && match regionOfVA ea with
    | .own _ => false
    | _ => true

/-- The device that homes a cell, and the cell's address there (R45). -/
def homeOfCell (va : Nat) : Nat × Nat :=
  match regionOfVA va with
  | .fabric dev addr => (dev, addr)
  | _ => (thisDevice, va)

/-- The unit at which a write to a spot becomes visible: the home slice of its sector, the bank unit of an atomic page, or the
core of a window. -/
def State.siteOf (s : State) (k : Nat) : Spot → NetAgent
  | .mem pa => if pa < hbmEnd then sliceAgent (s.homeCluster pa) else coreAgent ((pa - windowBase) / 0x100000)
  | .atm pa => bankAgent (s.bankOfPA pa)
  | .image j _ _ => coreAgent (coreOf j)
  | .car c _ _ | .engine c _ => coreAgent c
  | _ => slotAgent k

/-- The barrier's request for bytes that a store has made visible (R122, R368), sent by the unit that holds them. -/
def State.visible (s : State) (k : Nat) (src : NetAgent) (n : Nat) : State :=
  let r : DeskReq :=
    { pa := untranslated, va := capAddr (s.slot k).stbar.data, ctx := s.ctxOf k, who := s.waiterOf k,
      seq := s.fresh, prio := (s.slot k).prio, qos := (s.slot k).qos, n := n }
  s.drawn.carryDesk src (s.dieOf k) 0x14 r (.bpendsub r)

/-- The same for the parts of a store. -/
def State.visibleAt (s : State) (k n : Nat) (parts : List (Spot × Nat)) : State :=
  s.visible k (s.siteOf k (parts.head?.elim .zero (·.1))) n

/-- Bytes of a counted store: added to the unsent count, which is sent when it reaches 4,096 (R368). -/
def State.countStore (s : State) (k n : Nat) : State :=
  let s := s.onSlot k fun sl => { sl with unsent := sl.unsent + n }
  if 4096 ≤ (s.slot k).unsent then s.flushBarrier k else s

/-- An entry for a posted access of another unit (R48, R404), under a tag of its own: it lapses after four times the
deadline of the slot. -/
def takePosted (dev ea n : Nat) (barrier : Option (Nat × Nat)) (call : Bool) : Act Nat := do
  let s ← get
  match freeId (s.hereCore.posted.map (·.id)) 256 0 with
  | none => waitHere
  | some id => do
    let late := match s.here.task with
      | some t => t.dealt.isNone || t.triggered
      | none => true
    let p : Posted := ⟨id, s.cur, (s.gridOf s.cur).getD 0xFFFF, ea, s.here.pc.toNat, dev, barrier, late, call, s.fresh,
      s.time + 4 * s.here.deadline, none, n⟩
    set ((s.drawn.onHereCore fun k => { k with posted := p :: k.posted }).emit (.postedTimeout (coreOf s.cur) s.fresh))
    pure s.fresh

/-- A store refused at its target after the instruction has completed (R46). -/
def storeRefused (e : Cause) (dev ea : Nat) : Act Unit := modify fun s =>
  s.lateFault s.cur (s.gridOf s.cur)
    { cause := .remoteFault, addr := ea, rcode := e, dev := dev, from_ := some s.here.pc }

/-- A store of bytes through a base (R367, R370, R371), with every check of R362. -/
def storeAt (c : Reg) (ea : Nat) (bs : List Byte) (kind : StoreKind) (align : Nat) (perms : List Nat)
    (count : Bool := true) : Act Unit := do
  let n := bs.length
  checkBase c ea n align perms
  let s ← get
  let counted := count && s.counts s.cur ea
  match regionOfVA ea with
  | .fabric dev addr =>
    if dev != thisDevice then do
      let tag ← takePosted dev ea n (if counted then some (capAddr s.here.stbar.data, n) else none) false
      modify fun s => if counted then s.countStore s.cur n else s
      sendAway { dst := dev, addr := addr, entry := tag, acq := acqOf c,
                 op := .store bs (match kind with
                   | .cap t => t == .cap || t == .sealed
                   | _ => false) (kind == .bounded) false
                   (if counted then some (homeOfCell (capAddr s.here.stbar.data)) else none) }
        (.storeAck { core := coreOf s.cur, entry := tag, status := .noRoute, dev := dev })
    else
      match s.ownFabricParts (s.agentOf s.cur) .write (acqOf c) (partsOf addr n) with
      | (.error e, s) => do
        set s
        storeRefused e dev ea
      | (.ok none, t) => waitOutside s t addr
      | (.ok (some parts), s) =>
        if parts.any fun p => s.typedAt p.1 p.2 then do
          set s
          storeRefused .type dev ea
        else do
          let s := s.writeParts s.here.qos .other (some (coreOf s.cur)) kind parts bs
          set (if counted then (s.countStore s.cur n).visibleAt s.cur n parts else s)
  | _ => do
    let parts ← findParts .write (acqOf c) (partsOf ea n)
    let s ← get
    if parts.any fun p => s.typedAt p.1 p.2 then trap .type ea
    let s := s.writeParts s.here.qos (s.agentOf s.cur).writer (some (coreOf s.cur)) kind parts bs
    set (if counted then (s.countStore s.cur n).visibleAt s.cur n parts else s)

/-- A store instruction (R367): the data may not be bounded. -/
def store (la : Look) (gs1 gs2 : RegNo) (off : Word64) (n align : Nat) : Act Unit := do
  enter everywhere [gs1, gs2] []
  let c ← source gs1
  let d ← source gs2
  refuseBounded d
  storeAt c (effective c off) (bytesOf n d.data.toNat) .plain align [permW]
  retire la

/-! ## Waiting for earlier accesses (R174, R176) -/

/-- Earlier accesses of a slot that have not been performed: reads through the fabric and, for pod scope, posted
stores and `rpost` calls. Accesses on the device have been performed when their instruction completed. -/
def State.readsOpen (s : State) (k : Nat) : Bool :=
  (s.core (coreOf k)).board.any fun b => b.slot = k && match b.kind with
    | .call => false
    | _ => true

def State.postsOpen (s : State) (k : Nat) : Bool := (s.core (coreOf k)).posted.any fun p => p.slot = k

/-- A release is performed only after the earlier accesses of its reach (R174): pod scope covers posted stores. -/
def awaitEarlier (pod : Bool) : Act Unit := do
  let s ← get
  if s.readsOpen s.cur || (pod && s.postsOpen s.cur) then waitHere

end Sys2Proof.Machine
end

