-- ==== Sys2Proof/Machine/Integer.lean ====
section
/-! DEFINITION. Integer computation, multiply and divide (spec/17_isa_integer_control.md R343-R349): one meaning for
each instruction over three shared bodies. -/

namespace Sys2Proof.Machine

open Sys2Proof

/-- The body of an instruction with two register sources (R344). -/
def registerOp (gd gs1 gs2 : RegNo) (f : Word64 → Word64 → Word64) : Act Unit := do
  enter everywhere [gs1, gs2] [gd]
  let a ← source gs1
  let b ← source gs2
  result gd ⟨(f (lo64 a.data) (lo64 b.data)).setWidth 128, tagOf [a, b]⟩
  retire 0

/-- The body of an instruction with an immediate (R344); with rd = g0 it is a hint, which reads nothing (R325). -/
def immediateOp (rd rs1 : RegNo) (b : Word64) (f : Word64 → Word64 → Word64) : Act Unit := do
  if rd = 0 then retire 0
  else do
    enter everywhere [rs1] [rd]
    let a ← source rs1
    result rd ⟨(f (lo64 a.data) b).setWidth 128, tagOf [a]⟩
    retire 0

/-- The body of `lui` and `auipc` (R346): exact data; with rd = g0 a hint. -/
def upperOp (rd : RegNo) (v : State → Word64) : Act Unit := do
  if rd = 0 then retire 0
  else do
    enter everywhere [] [rd]
    let s ← get
    result rd ⟨(v s).setWidth 128, .exact⟩
    retire 0

/-- 1 or 0, as a comparison writes it (R346). -/
def ofBool64 (b : Bool) : Word64 := if b then 1 else 0

/-- Shifts by the low six bits of an amount, and of 32-bit values by the low five (R346). -/
def shl64 (a b : Word64) : Word64 := a <<< (b.toNat % 64)
def shr64 (a b : Word64) : Word64 := a >>> (b.toNat % 64)
def sar64 (a b : Word64) : Word64 := a.sshiftRight (b.toNat % 64)
def shl32 (a b : Word64) : Word64 := (a.setWidth 32 <<< (b.toNat % 32)).signExtend 64
def shr32 (a b : Word64) : Word64 := (a.setWidth 32 >>> (b.toNat % 32)).signExtend 64
def sar32 (a b : Word64) : Word64 := ((a.setWidth 32).sshiftRight (b.toNat % 32)).signExtend 64

/-- Quotients and remainders at a width (R348 Table 4). -/
def quotS {w : Nat} (a b : BitVec w) : BitVec w := if b = 0 then BitVec.allOnes w else a.sdiv b
def quotU {w : Nat} (a b : BitVec w) : BitVec w := if b = 0 then BitVec.allOnes w else a.udiv b
def remS {w : Nat} (a b : BitVec w) : BitVec w := if b = 0 then a else a.srem b
def remU {w : Nat} (a b : BitVec w) : BitVec w := if b = 0 then a else a.umod b

/-- A 32-bit operation whose result is sign-extended (R348). -/
def op32 (f : BitVec 32 → BitVec 32 → BitVec 32) (a b : Word64) : Word64 :=
  (f (a.setWidth 32) (b.setWidth 32)).signExtend 64

/-- The high half of a product of extended operands (R348). -/
def mulHigh (signA signB : Bool) (a b : Word64) : Word64 :=
  let x : Word128 := if signA then a.signExtend 128 else a.setWidth 128
  let y : Word128 := if signB then b.signExtend 128 else b.setWidth 128
  ((x * y) >>> 64).setWidth 64

/-- R346. `lui`. -/
def execLui (rd : RegNo) (imm : BitVec 20) (s : State) : Answered := settle 0 (upperOp rd fun _ => immU imm) s

/-- R346. `auipc`: the local pc plus the immediate. -/
def execAuipc (rd : RegNo) (imm : BitVec 20) (s : State) : Answered := settle 0 (upperOp rd fun s => s.here.pc + immU imm) s

/-- R346. `addi`: a + imm. -/
def execAddi (rd rs1 : RegNo) (imm : BitVec 12) (s : State) : Answered :=
  settle 0 (immediateOp rd rs1 (immI imm) ((· + ·))) s

/-- R346. `slti`: a < imm, signed. -/
def execSlti (rd rs1 : RegNo) (imm : BitVec 12) (s : State) : Answered :=
  settle 0 (immediateOp rd rs1 (immI imm) (fun a b => ofBool64 (a.slt b))) s

/-- R346. `sltiu`: a < imm, unsigned. -/
def execSltiu (rd rs1 : RegNo) (imm : BitVec 12) (s : State) : Answered :=
  settle 0 (immediateOp rd rs1 (immI imm) (fun a b => ofBool64 (a.ult b))) s

/-- R346. `xori`: exclusive or. -/
def execXori (rd rs1 : RegNo) (imm : BitVec 12) (s : State) : Answered :=
  settle 0 (immediateOp rd rs1 (immI imm) ((· ^^^ ·))) s

/-- R346. `ori`: or. -/
def execOri (rd rs1 : RegNo) (imm : BitVec 12) (s : State) : Answered :=
  settle 0 (immediateOp rd rs1 (immI imm) ((· ||| ·))) s

/-- R346. `andi`: and. -/
def execAndi (rd rs1 : RegNo) (imm : BitVec 12) (s : State) : Answered :=
  settle 0 (immediateOp rd rs1 (immI imm) ((· &&& ·))) s

/-- R346. `addiw`: SX32(a + imm). -/
def execAddiw (rd rs1 : RegNo) (imm : BitVec 12) (s : State) : Answered :=
  settle 0 (immediateOp rd rs1 (immI imm) (fun a b => sx32 (a + b))) s

/-- R346. `slli`. -/
def execSlli (rd rs1 : RegNo) (sh : BitVec 6) (s : State) : Answered :=
  settle 0 (immediateOp rd rs1 (sh.setWidth 64) shl64) s

/-- R346. `srli`. -/
def execSrli (rd rs1 : RegNo) (sh : BitVec 6) (s : State) : Answered :=
  settle 0 (immediateOp rd rs1 (sh.setWidth 64) shr64) s

/-- R346. `srai`. -/
def execSrai (rd rs1 : RegNo) (sh : BitVec 6) (s : State) : Answered :=
  settle 0 (immediateOp rd rs1 (sh.setWidth 64) sar64) s

/-- R346. `slliw`. -/
def execSlliw (rd rs1 : RegNo) (sh : BitVec 5) (s : State) : Answered :=
  settle 0 (immediateOp rd rs1 (sh.setWidth 64) shl32) s

/-- R346. `srliw`. -/
def execSrliw (rd rs1 : RegNo) (sh : BitVec 5) (s : State) : Answered :=
  settle 0 (immediateOp rd rs1 (sh.setWidth 64) shr32) s

/-- R346. `sraiw`. -/
def execSraiw (rd rs1 : RegNo) (sh : BitVec 5) (s : State) : Answered :=
  settle 0 (immediateOp rd rs1 (sh.setWidth 64) sar32) s

/-- R346. `add`. -/
def execAdd (gd gs1 gs2 : RegNo) (s : State) : Answered := settle 0 (registerOp gd gs1 gs2 ((· + ·))) s

/-- R346. `sub`. -/
def execSub (gd gs1 gs2 : RegNo) (s : State) : Answered := settle 0 (registerOp gd gs1 gs2 ((· - ·))) s

/-- R346. `sll`. -/
def execSll (gd gs1 gs2 : RegNo) (s : State) : Answered := settle 0 (registerOp gd gs1 gs2 (shl64)) s

/-- R346. `slt`. -/
def execSlt (gd gs1 gs2 : RegNo) (s : State) : Answered := settle 0 (registerOp gd gs1 gs2 (fun a b => ofBool64 (a.slt b))) s

/-- R346. `sltu`. -/
def execSltu (gd gs1 gs2 : RegNo) (s : State) : Answered := settle 0 (registerOp gd gs1 gs2 (fun a b => ofBool64 (a.ult b))) s

/-- R346. `xor`. -/
def execXor (gd gs1 gs2 : RegNo) (s : State) : Answered := settle 0 (registerOp gd gs1 gs2 ((· ^^^ ·))) s

/-- R346. `srl`. -/
def execSrl (gd gs1 gs2 : RegNo) (s : State) : Answered := settle 0 (registerOp gd gs1 gs2 (shr64)) s

/-- R346. `sra`. -/
def execSra (gd gs1 gs2 : RegNo) (s : State) : Answered := settle 0 (registerOp gd gs1 gs2 (sar64)) s

/-- R346. `or`. -/
def execOr (gd gs1 gs2 : RegNo) (s : State) : Answered := settle 0 (registerOp gd gs1 gs2 ((· ||| ·))) s

/-- R346. `and`. -/
def execAnd (gd gs1 gs2 : RegNo) (s : State) : Answered := settle 0 (registerOp gd gs1 gs2 ((· &&& ·))) s

/-- R346. `addw`. -/
def execAddw (gd gs1 gs2 : RegNo) (s : State) : Answered := settle 0 (registerOp gd gs1 gs2 (fun a b => sx32 (a + b))) s

/-- R346. `subw`. -/
def execSubw (gd gs1 gs2 : RegNo) (s : State) : Answered := settle 0 (registerOp gd gs1 gs2 (fun a b => sx32 (a - b))) s

/-- R346. `sllw`. -/
def execSllw (gd gs1 gs2 : RegNo) (s : State) : Answered := settle 0 (registerOp gd gs1 gs2 (shl32)) s

/-- R346. `srlw`. -/
def execSrlw (gd gs1 gs2 : RegNo) (s : State) : Answered := settle 0 (registerOp gd gs1 gs2 (shr32)) s

/-- R346. `sraw`. -/
def execSraw (gd gs1 gs2 : RegNo) (s : State) : Answered := settle 0 (registerOp gd gs1 gs2 (sar32)) s

/-- R348. `mul`. -/
def execMul (gd gs1 gs2 : RegNo) (s : State) : Answered := settle 0 (registerOp gd gs1 gs2 ((· * ·))) s

/-- R348. `mulh`. -/
def execMulh (gd gs1 gs2 : RegNo) (s : State) : Answered := settle 0 (registerOp gd gs1 gs2 (mulHigh true true)) s

/-- R348. `mulhsu`. -/
def execMulhsu (gd gs1 gs2 : RegNo) (s : State) : Answered := settle 0 (registerOp gd gs1 gs2 (mulHigh true false)) s

/-- R348. `mulhu`. -/
def execMulhu (gd gs1 gs2 : RegNo) (s : State) : Answered := settle 0 (registerOp gd gs1 gs2 (mulHigh false false)) s

/-- R348. `div`. -/
def execDiv (gd gs1 gs2 : RegNo) (s : State) : Answered := settle 0 (registerOp gd gs1 gs2 (quotS)) s

/-- R348. `divu`. -/
def execDivu (gd gs1 gs2 : RegNo) (s : State) : Answered := settle 0 (registerOp gd gs1 gs2 (quotU)) s

/-- R348. `rem`. -/
def execRem (gd gs1 gs2 : RegNo) (s : State) : Answered := settle 0 (registerOp gd gs1 gs2 (remS)) s

/-- R348. `remu`. -/
def execRemu (gd gs1 gs2 : RegNo) (s : State) : Answered := settle 0 (registerOp gd gs1 gs2 (remU)) s

/-- R348. `mulw`. -/
def execMulw (gd gs1 gs2 : RegNo) (s : State) : Answered := settle 0 (registerOp gd gs1 gs2 (op32 (· * ·))) s

/-- R348. `divw`. -/
def execDivw (gd gs1 gs2 : RegNo) (s : State) : Answered := settle 0 (registerOp gd gs1 gs2 (op32 quotS)) s

/-- R348. `divuw`. -/
def execDivuw (gd gs1 gs2 : RegNo) (s : State) : Answered := settle 0 (registerOp gd gs1 gs2 (op32 quotU)) s

/-- R348. `remw`. -/
def execRemw (gd gs1 gs2 : RegNo) (s : State) : Answered := settle 0 (registerOp gd gs1 gs2 (op32 remS)) s

/-- R348. `remuw`. -/
def execRemuw (gd gs1 gs2 : RegNo) (s : State) : Answered := settle 0 (registerOp gd gs1 gs2 (op32 remU)) s

end Sys2Proof.Machine
end

