-- ==== Sys2Proof/Machine/Control.lean ====
section
/-! DEFINITION. Jumps and branches (spec/17_isa_integer_control.md R350-R353). -/

namespace Sys2Proof.Machine

open Sys2Proof

/-- The target of a transfer must be a multiple of 4 (R350-R352). -/
def checkTarget (t : Word64) : Act Unit := if t.getLsbD 1 then trap .alignment t.toNat else pure ()

/-- The body of the conditional branches (R352): a bounded source is refused, a taken branch checks its target. -/
def branch (c : Cond) (rs1 rs2 : RegNo) (off : BitVec 12) : Act Unit := do
  enter everywhere [rs1, rs2] []
  let a ← source rs1
  let b ← source rs2
  refuseBounded a
  refuseBounded b
  let s ← get
  if c.holds (lo64 a.data) (lo64 b.data) then do
    let t := s.here.pc + immB off
    checkTarget t
    jumpTo t
  else jumpTo (s.here.pc + 4)

/-- R352. `beq`. -/
def execBeq (rs1 rs2 : RegNo) (off : BitVec 12) (s : State) : Answered := settle 0 (branch .eq rs1 rs2 off) s
/-- R352. `bne`. -/
def execBne (rs1 rs2 : RegNo) (off : BitVec 12) (s : State) : Answered := settle 0 (branch .ne rs1 rs2 off) s
/-- R352. `blt`. -/
def execBlt (rs1 rs2 : RegNo) (off : BitVec 12) (s : State) : Answered := settle 0 (branch .lt rs1 rs2 off) s
/-- R352. `bge`. -/
def execBge (rs1 rs2 : RegNo) (off : BitVec 12) (s : State) : Answered := settle 0 (branch .ge rs1 rs2 off) s
/-- R352. `bltu`. -/
def execBltu (rs1 rs2 : RegNo) (off : BitVec 12) (s : State) : Answered := settle 0 (branch .ltu rs1 rs2 off) s
/-- R352. `bgeu`. -/
def execBgeu (rs1 rs2 : RegNo) (off : BitVec 12) (s : State) : Answered := settle 0 (branch .geu rs1 rs2 off) s

/-- R350. `jal`: the link is exact data; a misaligned target changes nothing. -/
def execJal (rd : RegNo) (off : BitVec 20) (s : State) : Answered :=
  settle 0 (do
    enter everywhere [] [rd]
    let s ← get
    let pc := s.here.pc
    let t := pc + immJ off
    checkTarget t
    result rd ⟨(pc + 4).setWidth 128, .exact⟩
    jumpTo t) s

/-- The target that a register gives to `jalr` (R351): a sealed handle, a code capability, a plain code offset. -/
def jalrTarget (v : Reg) (off : Word64) : Act Word64 := do
  let a := lo64 v.data
  match v.tag with
  | .bounded => trap .boundedValue
  | .sealed =>
    if off != 0 || !(hasPerm v.data permX && hasPerm v.data permS) || !inBounds v.data a.toNat 4 then
      trap .capability a.toNat
    else pure a
  | .cap =>
    if !hasPerm v.data permX || !inBounds v.data (a + off).toNat 4 then trap .capability (a + off).toNat
    else pure (a + off)
  | .exact => pure (a + off)

/-- R351. `jalr`: the handle is not changed, the link is written after the source has been read. -/
def execJalr (rd rs1 : RegNo) (imm : BitVec 12) (s : State) : Answered :=
  settle 0 (do
    enter everywhere [rs1] [rd]
    let v ← source rs1
    let t ← jalrTarget v (immI imm)
    let t := t &&& ~~~(1 : Word64)
    checkTarget t
    let s ← get
    result rd ⟨(s.here.pc + 4).setWidth 128, .exact⟩
    jumpTo t) s

end Sys2Proof.Machine
end

