-- ==== Sys2Proof/Machine/LoadStore.lean ====
section
/-! DEFINITION. Loads, stores, fences, prefetch, pins, flush and atomics (spec/18_isa_memory.md R364-R380). -/

namespace Sys2Proof.Machine

open Sys2Proof

/-! ## Base loads and stores (R364) -/

def execLdI8 (rd rs1 : RegNo) (imm : BitVec 12) (s : State) : Answered :=
  settle 0 (load 0 rd rs1 (immI imm) 1 0 true) s
def execLdI16 (rd rs1 : RegNo) (imm : BitVec 12) (s : State) : Answered :=
  settle 0 (load 0 rd rs1 (immI imm) 2 0 true) s
def execLdI32 (rd rs1 : RegNo) (imm : BitVec 12) (s : State) : Answered :=
  settle 0 (load 0 rd rs1 (immI imm) 4 0 true) s
def execLdI64 (rd rs1 : RegNo) (imm : BitVec 12) (s : State) : Answered :=
  settle 0 (load 0 rd rs1 (immI imm) 8 0 true) s
def execLdN8 (rd rs1 : RegNo) (imm : BitVec 12) (s : State) : Answered :=
  settle 0 (load 0 rd rs1 (immI imm) 1 0 false) s
def execLdN16 (rd rs1 : RegNo) (imm : BitVec 12) (s : State) : Answered :=
  settle 0 (load 0 rd rs1 (immI imm) 2 0 false) s
def execLdN32 (rd rs1 : RegNo) (imm : BitVec 12) (s : State) : Answered :=
  settle 0 (load 0 rd rs1 (immI imm) 4 0 false) s
def execStI8 (rs2 rs1 : RegNo) (imm : BitVec 12) (s : State) : Answered :=
  settle 0 (store 0 rs1 rs2 (immI imm) 1 0) s
def execStI16 (rs2 rs1 : RegNo) (imm : BitVec 12) (s : State) : Answered :=
  settle 0 (store 0 rs1 rs2 (immI imm) 2 0) s
def execStI32 (rs2 rs1 : RegNo) (imm : BitVec 12) (s : State) : Answered :=
  settle 0 (store 0 rs1 rs2 (immI imm) 4 0) s
def execStI64 (rs2 rs1 : RegNo) (imm : BitVec 12) (s : State) : Answered :=
  settle 0 (store 0 rs1 rs2 (immI imm) 8 0) s

/-! ## L-format loads and stores (R365-R369) -/

/-- An offset field scaled by the access width (R365). -/
def scaled (off : BitVec 5) (w : Nat) : Word64 := BitVec.ofNat 64 (off.toNat * w)

def execLdlI8 (la : Look) (gd gs1 : RegNo) (off : BitVec 5) (s : State) : Answered :=
  settle la.toNat (load la gd gs1 (scaled off 1) 1 0 true) s
def execLdlN8 (la : Look) (gd gs1 : RegNo) (off : BitVec 5) (s : State) : Answered :=
  settle la.toNat (load la gd gs1 (scaled off 1) 1 0 false) s
def execLdlI16 (la : Look) (gd gs1 : RegNo) (off : BitVec 5) (s : State) : Answered :=
  settle la.toNat (load la gd gs1 (scaled off 2) 2 0 true) s
def execLdlN16 (la : Look) (gd gs1 : RegNo) (off : BitVec 5) (s : State) : Answered :=
  settle la.toNat (load la gd gs1 (scaled off 2) 2 0 false) s
def execLdlI32 (la : Look) (gd gs1 : RegNo) (off : BitVec 5) (s : State) : Answered :=
  settle la.toNat (load la gd gs1 (scaled off 4) 4 0 true) s
def execLdlN32 (la : Look) (gd gs1 : RegNo) (off : BitVec 5) (s : State) : Answered :=
  settle la.toNat (load la gd gs1 (scaled off 4) 4 0 false) s
def execLdlI64 (la : Look) (gd gs1 : RegNo) (off : BitVec 5) (s : State) : Answered :=
  settle la.toNat (load la gd gs1 (scaled off 8) 8 0 true) s
/-- R369. All 128 bits. -/
def execLdq (la : Look) (gd gs1 : RegNo) (off : BitVec 5) (s : State) : Answered :=
  settle la.toNat (load la gd gs1 (scaled off 16) 16 0 false) s
def execStlI8 (la : Look) (gs1 gs2 : RegNo) (off : BitVec 5) (s : State) : Answered :=
  settle la.toNat (store la gs1 gs2 (scaled off 1) 1 0) s
def execStlI16 (la : Look) (gs1 gs2 : RegNo) (off : BitVec 5) (s : State) : Answered :=
  settle la.toNat (store la gs1 gs2 (scaled off 2) 2 0) s
def execStlI32 (la : Look) (gs1 gs2 : RegNo) (off : BitVec 5) (s : State) : Answered :=
  settle la.toNat (store la gs1 gs2 (scaled off 4) 4 0) s
def execStlI64 (la : Look) (gs1 gs2 : RegNo) (off : BitVec 5) (s : State) : Answered :=
  settle la.toNat (store la gs1 gs2 (scaled off 8) 8 0) s
/-- R369. All 128 bits; the tags of the granules written are cleared. -/
def execStq (la : Look) (gs1 gs2 : RegNo) (off : BitVec 5) (s : State) : Answered :=
  settle la.toNat (store la gs1 gs2 (scaled off 16) 16 0) s

/-- R370. `sb.b`: the data may be bounded, and every granule written is marked. -/
def execSbB (la : Look) (gs1 gs2 : RegNo) (off : BitVec 5) (s : State) : Answered :=
  settle la.toNat (do
    enter everywhere [gs1, gs2] []
    let c ← source gs1
    let d ← source gs2
    storeAt c (effective c (scaled off 16)) (bytesOf 16 d.data.toNat) .bounded 0 [permW]
    retire la) s

/-- R371. `cld`. -/
def execCld (la : Look) (gd gs1 : RegNo) (off : BitVec 5) (s : State) : Answered :=
  settle la.toNat (loadCap la gd gs1 (scaled off 16)) s

/-- R371. `cst`: a tagged value needs SC. -/
def execCst (la : Look) (gs1 gs2 : RegNo) (off : BitVec 5) (s : State) : Answered :=
  settle la.toNat (do
    enter everywhere [gs1, gs2] []
    let c ← source gs1
    let d ← source gs2
    refuseBounded d
    let tagged := d.tag == .cap || d.tag == .sealed
    storeAt c (effective c (scaled off 16)) (bytesOf 16 d.data.toNat) (.cap d.tag) 16
      (if tagged then [permW, permSC] else [permW])
    retire la) s

/-! ## Acquire and release forms (R372) -/

/-- An acquire is not performed before an earlier release of the strand (R372). -/
def awaitReleases : Act Unit := do
  let s ← get
  if s.postsOpen s.cur then waitHere

/-- The slot issues nothing until the reply to its latest remote request has come (R372, R379). -/
def holdForReply : Act Unit := modify fun s =>
  match s.hereCore.board with
  | b :: _ => if b.slot = s.cur then s.onHere fun sl => { sl with await := some (.reply b.seq) } else s
  | [] => s

/-- A base register and an offset name another device (R45). -/
def State.namesAway (s : State) (r : RegNo) (off : Word64) : Bool :=
  match regionOfVA (effective (s.here.reg r.toNat) off) with
  | .fabric dev _ => dev != thisDevice
  | _ => false

/-- An acquire load: later accesses wait until its value has returned. -/
def acquireLoad (la : Look) (gd gs1 : RegNo) (off : BitVec 5) (n : Nat) : Act Unit := do
  awaitReleases
  let s ← get
  load la gd gs1 (scaled off n) n n false
  if s.namesAway gs1 (scaled off n) then holdForReply

def execLdacqI64 (la : Look) (gd gs1 : RegNo) (off : BitVec 5) (s : State) : Answered :=
  settle la.toNat (acquireLoad la gd gs1 off 8) s
def execLdacqQ (la : Look) (gd gs1 : RegNo) (off : BitVec 5) (s : State) : Answered :=
  settle la.toNat (acquireLoad la gd gs1 off 16) s

/-- A release store waits for every earlier access, posted stores among them. -/
def releaseStore (la : Look) (gs1 gs2 : RegNo) (off : BitVec 5) (n : Nat) : Act Unit := do
  awaitEarlier true
  store la gs1 gs2 (scaled off n) n n

def execStrelI64 (la : Look) (gs1 gs2 : RegNo) (off : BitVec 5) (s : State) : Answered :=
  settle la.toNat (releaseStore la gs1 gs2 off 8) s
def execStrelQ (la : Look) (gs1 gs2 : RegNo) (off : BitVec 5) (s : State) : Answered :=
  settle la.toNat (releaseStore la gs1 gs2 off 16) s

/-! ## Fences (R373, R325) -/

/-- The earlier reads of the slot have returned (R373). -/
def awaitReads : Act Unit := do
  let s ← get
  if s.readsOpen s.cur then waitHere

/-- R373. `fence.rel`: the accesses of the scope's reach have been performed. -/
def execFenceRel (la : Look) (gs1 : RegNo) (s : State) : Answered :=
  settle la.toNat (do
    enter onCores [gs1] []
    let sc ← scopeOperand gs1
    awaitEarlier (sc = .pod)
    retire la) s

/-- R373. `fence.acq`: the earlier reads have returned; writes are not waited for. -/
def execFenceAcq (la : Look) (gs1 : RegNo) (s : State) : Answered :=
  settle la.toNat (do
    enter onCores [gs1] []
    let _ ← scopeOperand gs1
    awaitReads
    retire la) s

/-- R373. `fence.full`: both. -/
def execFenceFull (la : Look) (gs1 : RegNo) (s : State) : Answered :=
  settle la.toNat (do
    enter onCores [gs1] []
    let sc ← scopeOperand gs1
    awaitReads
    awaitEarlier (sc = .pod)
    retire la) s

/-- R325, R446. The base `fence`: a full fence of device scope at every level, whatever its other fields hold. -/
def execFence (_imm : BitVec 12) (_rs1 _rd : RegNo) (s : State) : Answered :=
  settle 0 (do
    enter everywhere [] []
    awaitReads
    retire 0) s

/-! ## Prefetch, pins and flush (R374-R376) -/

/-- The line of an address of translated space on an ordinary page, for a base that passes every check of a read:
none in every other case. -/
def State.plainLine (s : State) (k : Nat) (c : Reg) (ea : Nat) : Option Nat :=
  if !capOk c ea 1 (withG [permR] ea) || regionOfVA ea != .translated || s.draining (s.ctxOf k) ea then none
  else match s.walk (s.ctxOf k) ea with
    | .leaf l _ =>
      if (s.leafCheck l ea (acqOf c) .read).isSome || l.at_ then none else some (l.frame + (ea - l.base))
    | _ => none

/-- R374. `pref`: a bounded base traps; every other failing check makes it a no-op. -/
def execPref (la : Look) (gs1 : RegNo) (off hint : BitVec 5) (s : State) : Answered :=
  settle la.toNat (do
    enter onCores [gs1] []
    let c ← exactSource gs1
    let s ← get
    let ea := effective c (scaled off 128)
    match s.plainLine s.cur c ea with
    | some pa => modify fun s =>
      let s := s.touch pa false
      if hint = 1 then s.fillPortion s.cur ea else s
    | none => pure ()
    retire la) s

/-- The pinned ways of the set of a line (R103, R375). -/
def State.pinnedWays (s : State) (pa : Nat) : Nat :=
  (s.lines.filter fun e =>
    e.2.pins != [] && bits (e.1 * 128) 16 7 = bits pa 16 7 && s.homeCluster (e.1 * 128) = s.homeCluster pa).length

/-- The line that `pin`, `unpin` and `cflush` act on, after the checks of a 1-byte load (R375): none in a window,
the fabric window or on an atomic page. -/
def pinLine (gs1 : RegNo) (off : BitVec 5) : Act (Option Nat × Nat) := do
  let c ← source gs1
  let ea := effective c (scaled off 128)
  checkBase c ea 1 0 [permR]
  match regionOfVA ea with
  | .fabric .. => pure (none, ea)
  | _ => do
    let parts ← findParts .read (acqOf c) [(ea, 1)]
    match parts with
    | [(.mem pa, _)] => pure (if pa < hbmEnd then some pa else none, ea)
    | _ => pure (none, ea)

/-- R375. `pin`: 1 with the pin, 0 without. -/
def execPin (la : Look) (gd gs1 : RegNo) (off : BitVec 5) (s : State) : Answered :=
  settle la.toNat (do
    enter onCores [gs1] [gd]
    let (line, _) ← pinLine gs1 off
    let s ← get
    let g := (s.gridOf s.cur).getD 0xFFFF
    match line with
    | none => result gd (exactData 0)
    | some pa =>
      let l := look ({} : Line) s.lines (lineOf pa)
      if l.pins.contains g then result gd (exactData 1)
      else if l.pins = [] && 8 ≤ s.pinnedWays pa then result gd (exactData 0)
      else do
        let s := s.touch pa false
        set { s with lines := change {} s.lines (lineOf pa) fun l => { l with pins := g :: l.pins } }
        result gd (exactData 1)
    retire la) s

/-- R375. `unpin`: 1 where the grid held a pin. -/
def execUnpin (la : Look) (gd gs1 : RegNo) (off : BitVec 5) (s : State) : Answered :=
  settle la.toNat (do
    enter onCores [gs1] [gd]
    let (line, _) ← pinLine gs1 off
    let s ← get
    let g := (s.gridOf s.cur).getD 0xFFFF
    match line with
    | none => result gd (exactData 0)
    | some pa =>
      let l := look ({} : Line) s.lines (lineOf pa)
      if l.pins.contains g then do
        set { s with lines := put s.lines (lineOf pa) { l with pins := l.pins.erase g } }
        result gd (exactData 1)
      else result gd (exactData 0)
    retire la) s

/-- R376. `cflush`: the line leaves the cache portion, its dirty sectors are written back; it changes no value. -/
def execCflush (la : Look) (gs1 : RegNo) (off : BitVec 5) (s : State) : Answered :=
  settle la.toNat (do
    enter onCores [gs1] []
    let (line, ea) ← pinLine gs1 off
    match line with
    | some pa => modify fun s =>
      let s := s.onHereCore fun c => { c with lines := c.lines.erase (lineOf pa) }
      let s := (coreOf s.cur :: s.poolOf (coreOf s.cur)).foldl (fun s n =>
        s.onCore n fun c => { c with pooled := c.pooled.erase (lineOf pa) }) s
      { s with lines := change {} s.lines (lineOf pa) fun l => { l with dirty := 0 } }
    | none => modify fun s => match regionOfVA ea with
      | .fabric dev addr =>
        if dev = thisDevice || s.upPorts = [] then s
        else s.send { dst := dev, addr := addr, ctx := s.ctxOf s.cur, qos := s.here.qos, op := .flush }
          (clusterOf (coreOf s.cur))
      | _ => s
    retire la) s

/-! ## Atomics (R377-R380, R197) -/

/-- The atomics (R377 Table 5). -/
inductive AtomicOp where
  | add | swap | cas | max | min | and | or | xor
  deriving DecidableEq, Repr

/-- The number by which a packet names an atomic: its sub-opcode. -/
def AtomicOp.code : AtomicOp → Nat
  | .add => 0x18 | .swap => 0x19 | .cas => 0x1B | .max => 0x1C | .min => 0x1D | .and => 0x1E | .or => 0x1F
  | .xor => 0x20

def AtomicOp.ofCode (n : Nat) : AtomicOp :=
  match n with
  | 0x18 => .add | 0x19 => .swap | 0x1A => .cas | 0x1B => .cas | 0x1C => .max | 0x1D => .min | 0x1E => .and
  | 0x1F => .or | _ => .xor

/-- The new value of `n` bytes from the old value and the operand, or for a compare-and-swap its new value
(R379, R197). -/
def AtomicOp.value (op : AtomicOp) (n : Nat) (sgn : Bool) (old a b : Nat) : Nat :=
  let m := 2 ^ (8 * n)
  let x := a % m
  let less (u v : Nat) : Bool := if sgn then signed (8 * n) u < signed (8 * n) v else u < v
  match op with
  | .add => (old + x) % m
  | .swap => x
  | .cas => b % m
  | .max => if less old x then x else old
  | .min => if less x old then x else old
  | .and => Nat.land old x
  | .or => Nat.lor old x
  | .xor => Nat.xor old x

/-- A compare-and-swap writes only where the old value is as expected; every other atomic writes. -/
def AtomicOp.writes (op : AtomicOp) (n : Nat) (old a : Nat) : Bool := op != .cas || old = a % 2 ^ (8 * n)

/-- The old value as its destination receives it (R379). -/
def atomicResult (n old : Nat) : Word128 :=
  if n = 4 then BitVec.ofNat 128 (low 64 (signed 32 old)) else BitVec.ofNat 128 old

/-- One atomic performed in place (R379): the old value with its marks, and the state after it. -/
def State.atomicAt (s : State) (cls : Nat) (op : AtomicOp) (pa n : Nat) (sgn : Bool) (a b : Nat) : Got × Bool × State :=
  let s := s.beforeRead cls (.atm pa) n
  let g := s.readSpot (.mem pa) n
  let old := ofBytes g.bytes
  let ok := op.writes n old a
  if g.poison then (g, false, s)
  else (g, ok, if ok then s.storeData pa (bytesOf n (op.value n sgn old a b)) else s)

/-- The body of the atomics: the operands a (operand or expected value) and b (new value of a compare-and-swap). -/
def atomic (op : AtomicOp) (n : Nat) (sgn flag : Bool) (ord : BitVec 2) (gd gs1 : RegNo) (srcs : List RegNo) :
    Act Unit := do
  enter everywhere (gs1 :: srcs) (if flag then [gd, gd + 1] else [gd])
  let c ← exactSource gs1
  let vs ← sources srcs
  if vs.any fun v => v.tag = .bounded then trap .boundedValue
  let a := (vs.getD 0 {}).data.toNat
  let b := (vs.getD 1 {}).data.toNat
  let ea := capAddr c.data
  checkBase c ea n n [permR, permW]
  if ord.getLsbD 1 then awaitEarlier true
  if ord.getLsbD 0 then awaitReleases
  let finishAt (pa : Nat) (away : Option Mark) : Act Unit := do
    let s ← get
    let (g, ok, s) := s.atomicAt s.here.qos op pa n sgn a b
    match g.poison, away with
    | true, none => do
      set s
      trap .poison ea
    | true, some m => set ((s.mark s.cur gd.toNat m).mark s.cur (if flag then gd.toNat + 1 else 0) m)
    | false, _ => do
      set s
      result gd ⟨atomicResult n (ofBytes g.bytes), g.dataTag⟩
      if flag then result (gd + 1) (exactData (if ok then 1 else 0))
  match regionOfVA ea with
  | .fabric dev addr =>
    if dev != thisDevice then do
      expectReply gd (if flag then 2 else 1) (.atomic n flag) ea
        { dst := dev, addr := addr, acq := acqOf c, op := .atomic op.code n sgn a b }
      holdForReply
    else do
      let s ← get
      match s.ownFabricParts (s.agentOf s.cur) .atomic (acqOf c) [(addr, n)] with
      | (.ok (some [(.mem pa, _)]), s) => do
        set s
        if s.typedAt (.mem pa) n then
          let m : Mark := ⟨.remoteFault, .type, dev, ea⟩
          set ((s.mark s.cur gd.toNat m).mark s.cur (if flag then gd.toNat + 1 else 0) m)
        else finishAt pa (some ⟨.remoteFault, .poison, dev, ea⟩)
      | (.ok _, t) => waitOutside s t addr
      | (.error e, s) =>
        let m : Mark := ⟨.remoteFault, e, dev, ea⟩
        set ((s.mark s.cur gd.toNat m).mark s.cur (if flag then gd.toNat + 1 else 0) m)
  | _ => do
    let parts ← findParts .atomic (acqOf c) [(ea, n)]
    match parts with
    | [(.mem pa, _)] => do
      let s ← get
      if s.typedAt (.mem pa) n then trap .type ea
      finishAt pa none
    | _ => trap .placement ea
  retire 0

/-- The width and the signedness that `wd` gives (R326 Table 9). -/
def wdBytes (wd : BitVec 2) : Nat := if wd = 0 then 4 else if wd = 1 then 8 else 16
def minMaxBytes (wd : BitVec 2) : Nat := if wd.getLsbD 0 then 8 else 4

def execAfadd (ord wd : BitVec 2) (gd gs1 gs2 : RegNo) (s : State) : Answered :=
  settle 0 (atomic .add (wdBytes wd) false false ord gd gs1 [gs2]) s
def execAswap (ord wd : BitVec 2) (gd gs1 gs2 : RegNo) (s : State) : Answered :=
  settle 0 (atomic .swap (wdBytes wd) false false ord gd gs1 [gs2]) s
def execAcas64 (ord : BitVec 2) (gd gs1 gs2 : RegNo) (s : State) : Answered :=
  settle 0 (atomic .cas 8 false false ord gd gs1 (groupOf gs2 2)) s
def execAcas128 (ord : BitVec 2) (gd gs1 gs2 : RegNo) (s : State) : Answered :=
  settle 0 (atomic .cas 16 false true ord gd gs1 (groupOf gs2 2)) s
def execAmax (ord wd : BitVec 2) (gd gs1 gs2 : RegNo) (s : State) : Answered :=
  settle 0 (atomic .max (minMaxBytes wd) (!wd.getLsbD 1) false ord gd gs1 [gs2]) s
def execAmin (ord wd : BitVec 2) (gd gs1 gs2 : RegNo) (s : State) : Answered :=
  settle 0 (atomic .min (minMaxBytes wd) (!wd.getLsbD 1) false ord gd gs1 [gs2]) s
def execAand (ord wd : BitVec 2) (gd gs1 gs2 : RegNo) (s : State) : Answered :=
  settle 0 (atomic .and (wdBytes wd) false false ord gd gs1 [gs2]) s
def execAor (ord wd : BitVec 2) (gd gs1 gs2 : RegNo) (s : State) : Answered :=
  settle 0 (atomic .or (wdBytes wd) false false ord gd gs1 [gs2]) s
def execAxor (ord wd : BitVec 2) (gd gs1 gs2 : RegNo) (s : State) : Answered :=
  settle 0 (atomic .xor (wdBytes wd) false false ord gd gs1 [gs2]) s

end Sys2Proof.Machine
end

