-- ==== Sys2Proof/Machine/Desk.lean ====
section
/-! DEFINITION. The Desk: cell images, holds, boosts, answers, and every Desk operation performed whole
(spec/07_sync_objects.md R108-R138, spec/05_scheduling.md R86). -/

namespace Sys2Proof.Machine

open Sys2Proof

/-! ## Elided pages (R158) -/

/-- The frame of a page filled with a pattern: its bytes, with metadata 0. -/
def State.fillFrame (s : State) (frame size : Nat) (pattern : List Byte) : State :=
  { s with
    mem := Memory.write s.mem frame ((List.replicate (size / 32) pattern).flatten)
    granules := s.granules.filter fun g => g.1 < frame / 32 || (frame + size) / 32 ≤ g.1 }

/-- The first write to an elided page (R158): the frame takes the pattern, the entry loses el, dr and pat, and the
translation caches drop the page. A page that is not elided, or that a drain covers, stays as it is. -/
def State.materialise (s : State) (ctx va : Nat) : State :=
  if s.draining ctx va then s else
  match s.walk ctx va with
  | .leaf l e =>
    if l.el && bit l.word 3 then
      let pattern := s.bytes (bits s.eltab.toNat 46 13 * 8192 + 32 * l.pat) 32
      let s := s.fillFrame l.frame l.size pattern
      let s := s.store e (bytesOf 8 (setBits (setBits (setBits l.word 48 48 0) 15 8 0) 7 7 0))
      { s with tlb := s.tlb.filter fun t => !(t.ctx = ctx && t.page ≤ va && va < t.page + t.size) }
    else s
  | _ => s

/-! ## Finding a cell (R115 items 2-4, R383 steps 4-6) -/

/-- Where a cell lies: at a physical address, in an elided page (whose sectors have no type), behind a drain, or
nowhere. -/
inductive Found where
  | cell (pa : Nat)
  | untyped
  | park
  | fail (c : Cause)
  deriving DecidableEq, Repr

/-- Operations that write the cell whatever its type (R108, R136). -/
def DeskOp.creates (op : DeskOp) : Bool := op == .init || op == .free

/-- Accesses to a cell wait for a row operation that rewrites its row (R204) and for an engine that owns its sector (R178). -/
def State.cellParked (s : State) (pa : Nat) : Bool := s.rowParked pa 32 || s.writePending s.fresh pa 32

/-- A cell found by its address for an agent. -/
def State.findCell (s : State) (a : Agent) (va : Nat) (op : DeskOp) : Found × State :=
  if va % 32 != 0 then (.fail .alignment, s) else
  match regionOfVA va with
  | .own _ | .grid _ _ _ => (.fail .cellPlacement, s)
  | .fabric _ _ | .none => (.fail .noncanonical, s)
  | .translated =>
    let use : Use := if op = .query then .cellRead else .cellWrite
    match s.resolve a va 32 use false with
    | (.spot (.mem pa), s) =>
      if s.cellParked pa then (.park, s) else (.cell pa, if s.flips = [] then s else s.mendMemory pa 32)
    | (.spot (.pattern _), s) =>
      if op.creates then
        let s := s.materialise a.ctx va
        match s.resolve a va 32 use false with
        | (.spot (.mem pa), s) => if s.cellParked pa then (.park, s) else (.cell pa, s)
        | (.fail c, s) => (.fail c, s)
        | (_, s) => (.park, s)
      else (.untyped, s)
    | (.fail c, s) => (.fail c, s)
    | (_, s) => (.park, s)

/-! ## Images -/

def State.cellType (s : State) (pa : Nat) : Nat := (s.granule pa).ctype
def State.image (s : State) (pa : Nat) : Nat := s.num pa 32

/-- An image written with its type: the sector is written whole (R108, R136), and copies of its line in cache portions go (R149). -/
def State.putImage (s : State) (pa v t : Nat) : State :=
  (((s.storeData pa (bytesOf 32 v)).onGranule pa fun g => { g with ctype := t }).touch pa true).invalidate pa none

/-- The image of a cell changed in one field. -/
def State.setField (s : State) (pa hi lo x : Nat) : State := s.store pa (bytesOf 32 (setBits (s.image pa) hi lo x))

/-- The holds of a cell in order of age: void entries and signalled waits are none (R129, R135). -/
def State.holdsOn (s : State) (pa : Nat) : List Hold := s.holds.filter fun h => h.pa = pa && !h.void && !h.signalled

/-- The highest priority among holds. -/
def topPrio (hs : List Hold) : Nat := hs.foldl (fun m h => max m h.prio) 0

/-! ## Boosts (R86) -/

/-- The holder of a lock, from its image (R124 Table 9). -/
def holderOf (v : Nat) : Waiter := Waiter.ofWord (bits v 127 64) (bits v 129 128)

/-- A slot holds a strand. -/
def Slot.occupied (sl : Slot) : Bool :=
  match sl.st with
  | .starting | .running | .held | .parked => true
  | _ => false

/-- The strands of a grid on the cores of a rectangle of grid coordinates, or in its save area. -/
def State.strandsIn (s : State) (g x0 y0 x1 y1 : Nat) : List Waiter :=
  ((s.grid g).elim [] fun x => if x.rects = [] then x.saved else []).flatMap (fun c =>
    if x0 ≤ c.core.gx && c.core.gx ≤ x1 && y0 ≤ c.core.gy && c.core.gy ≤ y1 then
      ((List.range 4).filter fun h => (c.slots.getD h {}).occupied).map fun h => ⟨thisDevice, 1, g, c.core.gx, c.core.gy, h⟩
    else []) ++
  (List.range (y1 + 1 - y0)).flatMap fun j =>
    (List.range (x1 + 1 - x0)).flatMap fun i =>
      match s.gridCore g (x0 + i) (y0 + j) with
      | some n =>
        if (s.core n).gx = x0 + i && (s.core n).gy = y0 + j then
          ((List.range 4).filter fun h => (s.slot (slotKey n h)).occupied).map fun h => ⟨thisDevice, 1, g, x0 + i, y0 + j, h⟩
        else []
      | none => []

/-- The places of the strands of another device's grid in a rectangle: that device applies a boost where a strand is (R138). -/
def placesIn (dev g x0 y0 x1 y1 : Nat) : List Waiter :=
  (List.range (y1 + 1 - y0)).flatMap fun j => (List.range (x1 + 1 - x0)).flatMap fun i =>
    (List.range 4).map fun h => ⟨dev, 1, g, x0 + i, y0 + j, h⟩

/-- The QoS class of the hold that has a priority (R138). -/
def qosOf (hs : List Hold) (prio : Nat) : Nat := ((hs.find? fun h => h.prio = prio).map (·.qos)).getD 0

/-- Whom the holds of a cell boost, to which level (R86 Table 5), and on which QoS class. -/
def State.wantedBoosts (s : State) (pa : Nat) : List (Waiter × Nat × Nat) :=
  let v := s.image pa
  let level (hs : List Hold) : Nat × Nat := (topPrio hs, qosOf hs (topPrio hs))
  match s.cellType pa with
  | 3 =>
    let hs := s.holdsOn pa
    if hs = [] || (holderOf v).kind = 0 then [] else [(holderOf v, level hs)]
  | 2 =>
    let hs := (s.holdsOn pa).filter fun h => h.key = bits v 111 96
    if hs = [] || bits v 191 128 = 2 ^ 64 - 1 then []
    else
      let in_ := if bits v 204 192 = thisDevice then s.strandsIn else placesIn (bits v 204 192)
      ((in_ (bits v 223 208) (bits v 143 128) (bits v 159 144) (bits v 175 160) (bits v 191 176)).filter
        fun w => !s.arrived.contains (pa, w)).map fun w => (w, level hs)
  | _ => []

/-- The cluster whose Desk homes a cell; the first cluster where the cell has not been found. -/
def State.deskOf (s : State) (pa : Nat) : Nat := if pa < hbmEnd then s.homeCluster pa else 0

/-- The agent by which a waiter on this device is reached (R111 Table 3, R133). -/
def State.waiterAgent (s : State) (w : Waiter) : NetAgent :=
  match w.kind with
  | 1 => coreAgent (((s.gridCore w.grid w.x w.y)).getD (serviceCore (((s.grid w.grid).map (·.region)).getD 0)))
  | 2 => ⟨6, w.x⟩
  | 3 => portAgent 32
  | 4 => bankAgent w.x
  | 5 => portAgent w.x
  | _ => coreAgent (serviceCore (w.x % 16))

/-- A boost or an expiry sent by a Desk to the slot of a waiter, on this device or on another, on the QoS class of the hold that
causes it (R86, R138). -/
def State.sendBoost (s : State) (pa : Nat) (up : Bool) (w : Waiter) (level qos : Nat) : State :=
  let desk := s.deskOf pa
  if w.dev = thisDevice then
    s.carry (deskHeader (deskAgent desk) (s.waiterAgent w) (if up then 0x32 else 0x33) level qos 0 0)
      (if up then .boost w level else .expire w level)
  else s.send { dst := w.dev, qos := qos, op := if up then .boost w level else .expire w level } desk

/-- The boosts of a cell brought up to date: the new ones are sent before the old ones expire (R86). -/
def State.updateBoosts (s : State) (pa : Nat) : State :=
  let want := s.wantedBoosts pa
  let old := s.boosts.filter fun b => b.cell = pa
  if want = [] && old = [] then s
  else
    let s := (want.filter fun x => !old.any fun b => b.who = x.1 && b.level = x.2.1).foldl
      (fun s x => s.sendBoost pa true x.1 x.2.1 x.2.2) s
    let s := (old.filter fun b => !want.any fun x => b.who = x.1 && b.level = x.2.1).foldl
      (fun s b => s.sendBoost pa false b.who b.level b.qos) s
    { s with boosts := s.boosts.filter (fun b => b.cell != pa) ++ want.map fun x => ⟨pa, x.1, x.2.1, x.2.2⟩ }

/-- The fields of an image that follow from the holds, and the boosts, after an operation (R110, R126, R128). -/
def State.settleCell (s : State) (pa : Nat) : State :=
  let t := s.cellType pa
  if t = 0 then s.updateBoosts pa
  else
    let hs := s.holdsOn pa
    let v := s.image pa
    let v := setBits v 226 224 t
    let v := setBits v 231 231 (if hs.any (·.stored) then 1 else 0)
    let v := setBits v 234 232 (topPrio hs)
    let v := setBits v 239 239 (if hs = [] then 0 else 1)
    let v := if t = 4 then
        setBits (setBits v 175 160 (min 65535 (hs.filter fun h => h.op = .qpush).length)) 191 176
          (min 65535 (hs.filter fun h => h.op = .qpop).length)
      else v
    let v := if t = 5 then setBits v 95 64 hs.length else v
    (s.store pa (bytesOf 32 v)).updateBoosts pa

/-! ## Holds (R130-R132) -/

/-- The entries that a hold occupies: one more for each 32 bytes of a held element (R130). -/
def Hold.entries (h : Hold) : Nat := 1 + ceilDiv h.elem.length 32

/-- The clusters whose slices keep accesses that a drain parks, one for each access (R164): those of slots that still wait. -/
def State.parkedAt (s : State) : List Nat :=
  (s.parked.filter fun p => (p.engine || (s.slot p.slot).st = .running) && s.parks p.ctx p.va).map fun p => s.translatingCluster p.die p.va

/-- The entries in the hold list of a Desk, and in the hold store of a die: parked accesses take the places of holds (R164), in the
list as long as it has room. -/
def State.listHolds (s : State) (desk : Nat) : Nat :=
  ((s.holds.filter fun h => !h.stored && s.homeCluster h.pa = desk).map Hold.entries).sum
def State.listUsed (s : State) (desk : Nat) : Nat := min 256 (s.listHolds desk + s.parkedAt.count desk)
def State.storeUsed (s : State) (die : Nat) : Nat :=
  let parked := s.parkedAt
  ((s.holds.filter fun h => h.stored && s.homeCluster h.pa / 256 = die).map Hold.entries).sum +
    ((parked.eraseDups.filter fun c => c / 256 = die).map fun c => s.listHolds c + parked.count c - 256).sum

/-- A spill into the hold store is reported when the Desk had no entry there, and then at most once in each
millisecond of 1,200,000 cycles (R130). -/
def State.reportSpill (s : State) (desk : Nat) (had : Bool) : State :=
  let last := look 0 s.spillTime desk
  if had && s.time < last + 1200000 then s
  else ({ s with spillTime := put s.spillTime desk s.time } : State).record (sourceOfDesk desk) none 0x40
    (s.storeUsed (desk / 256))

/-- A hold made (R130): in the hold list, else in the hold store, else refused (R132). -/
def State.makeHold (s : State) (h : Hold) : Option State :=
  let desk := s.homeCluster h.pa
  if s.listUsed desk + h.entries ≤ 256 then some { s with holds := s.holds ++ [{ h with stored := false }] }
  else if s.storeUsed (desk / 256) + h.entries ≤ 2097152 then
    let had := s.holds.any fun x => x.stored && s.homeCluster x.pa = desk
    some (({ s with holds := s.holds ++ [{ h with stored := true }] } : State).reportSpill desk had)
  else none

/-- Entries of a Desk return from the store to its list, oldest first, while there is room (R130); the images of their cells follow
(R110). -/
def State.refill (s : State) (desk : Nat) : State :=
  if s.holds.any fun h => h.stored && s.homeCluster h.pa = desk then
    let step (acc : Nat × Bool × List Hold) (h : Hold) : Nat × Bool × List Hold :=
      let (used, stop, out) := acc
      if h.stored && s.homeCluster h.pa = desk && !stop then
        if used + h.entries ≤ 256 then (used + h.entries, false, out ++ [{ h with stored := false }])
        else (used, true, out ++ [h])
      else (used, stop, out ++ [h])
    let after := (s.holds.foldl step (s.listUsed desk, false, [])).2.2
    let moved := ((s.holds.filter fun h => h.stored && !after.contains h).map (·.pa / 32 * 32)).eraseDups
    moved.foldl State.settleCell { s with holds := after }
  else s

/-- A hold removed, from the list or from the store, wherever it lies now. -/
def State.dropHold (s : State) (h : Hold) : State :=
  ({ s with holds := s.holds.eraseP fun x => { x with stored := h.stored } = h } : State).refill (s.homeCluster h.pa)

/-- An answer sent to its requester: a RESULT or a WAKE, on this device or across the fabric (R114, R133, R138). -/
def State.sendAnswer (s : State) (fill : Bool) (a : Answer) : State :=
  let desk := s.deskOf a.pa
  if a.who.dev = thisDevice then
    s.carry { deskHeader (deskAgent desk) (s.waiterAgent a.who) (if fill then 0x31 else 0x30) 0 a.qos a.ctx a.pa with
        tag := a.seq, cls := (a.task.map (·.cls)).getD 0, len := flitsOf (a.elem.length + if a.task.isSome then 64 else 0) }
      (if fill then .wake a else .result a)
  else s.send { dst := a.who.dev, qos := a.qos, ctx := a.ctx, op := .answer a } desk

/-- A hold filled (R133). A lock hold that acts for a waiter of a condition ends that wait, with the status that its
release left (R129). -/
def State.fill (s : State) (h : Hold) (st val : Nat) (elem : List Byte := []) : State :=
  let s := s.dropHold h
  match h.cond with
  | none =>
    s.sendAnswer true { who := h.who, seq := h.seq, st := st, op := h.op, val := val, elem := elem, pa := h.pa, qos := h.qos, ctx := h.ctx }
  | some c =>
    let wait := s.holds.find? fun x => x.pa = c && x.op = .vwait && x.who = h.who && x.seq = h.seq
    let late := (wait.map (·.late)).getD 0
    let s := match wait with
      | some x => s.dropHold x
      | none => s
    s.sendAnswer true { who := h.who, seq := h.seq, st := if st = 0 then late else st, op := .vwait, pa := c, qos := h.qos, ctx := h.ctx }

/-! ## Continuations (R118, R119) -/

/-- The agent as which a Desk makes an access of its own in a context (R118, R127). -/
def State.deskActor (s : State) (pa ctx : Nat) : Agent := { ctx := ctx, die := s.deskOf pa / 256 }

/-- The record of an armed continuation lies behind a drain (R118, R164). -/
def State.taskParked (s : State) (v : Nat) : Bool :=
  (List.range 4).any fun i => s.parks (bits v 215 200) (bits v 127 64 + 16 * i)

/-- The record of a continuation, if it can be read: four registers with their tags (R228). -/
def State.readTask (s : State) (a : Agent) (va : Nat) : Option (List Reg) × State :=
  let one (i : Nat) (s : State) : Option Reg × State :=
    match s.resolve a (va + 16 * i) 16 .read false with
    | (.spot sp, s) =>
      let s := s.beforeRead 0 sp 16
      let g := s.readSpot sp 16
      if g.poison then (none, s)
      else
        let d : Word128 := BitVec.ofNat 128 (ofBytes g.bytes)
        (some ⟨d, if g.bnd then .bounded else if g.tag then (if d.getLsbD 121 then .sealed else .cap) else .exact⟩, s)
    | (_, s) => (none, s)
  let (a, s) := one 0 s
  let (b, s) := one 1 s
  let (c, s) := one 2 s
  let (d, s) := one 3 s
  match a, b, c, d with
  | some a, some b, some c, some d => (some [a, b, c, d], s)
  | _, _, _, _ => (none, s)

/-- An armed continuation fires (R118): armed is cleared, the record is read and sent as a WAKE; a record that cannot
be read drops it with an event record of the Desk. -/
def State.fireContinuation (s : State) (pa : Nat) : State :=
  let v := s.image pa
  let s := s.setField pa 199 199 0
  let ctx := bits v 215 200
  match s.readTask (s.deskActor pa ctx) (bits v 127 64) with
  | (some (e :: args), s) =>
    let w := Waiter.ofWord (bits v 191 128) 0
    s.sendAnswer true
      { who := w, pa := pa, task := some
          { kind := 4, cls := bits v 195 192, prio := bits v 198 196, grid := w.grid, ctx := ctx, entry := e,
            args := args } }
  | (_, s) => s.record (sourceOfDesk (s.homeCluster pa)) none 0x41 pa

/-! ## The outcome of an operation -/

/-- What a Desk answers: a status with data, a hold, or nothing yet because a page of its buffer is drained. -/
inductive DeskOut where
  | done (st val : Nat) (elem : List Byte)
  | held
  | park
  deriving DecidableEq, Repr

/-- The type on which an operation acts (R113, R115 item 5); 0 for the operations that take any. -/
def DeskOp.cellType : DeskOp → Nat
  | .query | .free | .init => 0
  | .cadd | .cwait | .carm | .cdisarm => 1
  | .barrive | .bwait | .bsync | .bpendadd | .bpendsub => 2
  | .lacq | .ltry | .lrel => 3
  | .qpush | .qpop | .qtrypush | .qtrypop => 4
  | .vwait | .vsignal | .vbcast => 5

/-- The hold of a request. -/
def DeskReq.hold (r : DeskReq) (op : DeskOp) (key : Nat := 0) : Hold :=
  { pa := r.pa, who := r.who, op := op, prio := r.prio, seq := r.seq, key := key, cond := r.acting, qos := r.qos, ctx := r.ctx }

/-! ## Counter (R116, R117) -/

/-- What follows from a counter at 0 (R117). -/
def State.atZero (s : State) (pa : Nat) : State :=
  let s := (s.holdsOn pa).foldl (fun s h => s.fill h 0 0) s
  if bit (s.image pa) 199 then s.fireContinuation pa else s

def deskCadd (s : State) (r : DeskReq) : DeskOut × State :=
  let old := bits (s.image r.pa) 63 0
  let new := signed 64 old + r.n
  if new < -2 ^ 63 || 2 ^ 63 - 1 < new then (.done 4 0 [], s)
  else if new = 0 && bit (s.image r.pa) 199 && s.taskParked (s.image r.pa) then (.park, s)
  else
    let s := s.setField r.pa 63 0 (low 64 new)
    (.done 0 old [], if new = 0 then s.atZero r.pa else s)

def deskCwait (s : State) (r : DeskReq) : DeskOut × State :=
  if bits (s.image r.pa) 63 0 = 0 then (.done 0 0 [], s)
  else match s.makeHold (r.hold .cwait) with
    | some s => (.held, s)
    | none => (.done 8 0 [], s)

def deskCarm (s : State) (r : DeskReq) : DeskOut × State :=
  let v := s.image r.pa
  if r.cls % 16 = 0 then (.done 4 0 [], s)
  else if bit v 199 then (.done 1 0 [], s)
  else
    let v := setBits v 127 64 r.cont
    let v := setBits v 191 128 r.target.word
    let v := setBits v 195 192 r.cls
    let v := setBits v 198 196 r.cprio
    let v := setBits v 199 199 1
    let v := setBits v 215 200 r.ctx
    if bits v 63 0 = 0 && s.taskParked v then (.park, s)
    else
      let s := s.store r.pa (bytesOf 32 v)
      (.done 0 0 [], if bits v 63 0 = 0 then s.fireContinuation r.pa else s)

def deskCdisarm (s : State) (r : DeskReq) : DeskOut × State :=
  (.done 0 (if bit (s.image r.pa) 199 then 1 else 0) [], s.setField r.pa 199 199 0)

/-! ## Phased barrier (R120-R123) -/

/-- The cores that take part in a census: the cores of the rectangle that are not holes; a core of a grid that is not
placed is named by its grid coordinates, above the numbers of cores. DESIGN CHOICE (notes/assumptions/71.md): the specification does
not say who answers for a rectangle of a grid that is no longer live, nor for one of another device's grid; here no core does,
so the record is written at once and counts 0 cores. -/
def State.participants (s : State) (v : Nat) : List Nat :=
  let (x0, y0, x1, y1) := (bits v 143 128, bits v 159 144, bits v 175 160, bits v 191 176)
  let g := bits v 223 208
  match if bits v 204 192 = thisDevice then s.grid g else none with
  | none => []
  | some gr =>
    let inside (c : Core) : Bool := x0 ≤ c.gx && c.gx ≤ x1 && y0 ≤ c.gy && c.gy ≤ y1
    if gr.rects = [] then (gr.saved.filter fun c => inside c.core).map fun c => 16384 + c.core.gx + 65536 * c.core.gy
    else (s.cores.filter fun e => e.2.grid = some g && inside e.2).map (·.1)

/-- The record of a census written with release, and the holds of its phase filled (R123 Table 8). -/
def State.closeCensus (s : State) (c : Census) : State :=
  let bytes := (c.sums.flatMap fun v => bytesOf 4 v) ++ bytesOf 4 c.count ++ bytesOf 2 c.phase ++ bytesOf 2 c.cmask ++
    bytesOf 8 s.time ++ List.replicate 16 0
  let s := (s.storeData (c.pa + 32) bytes)
  let s := (List.range 3).foldl (fun s i => (s.touch (c.pa + 32 + 32 * i) true).invalidate (c.pa + 32 + 32 * i) none) s
  let s := { s with censuses := s.censuses.filter fun x => x.id != c.id }
  let s := ((s.holdsOn c.pa).filter fun h => h.key = c.phase).foldl
    (fun s h => s.fill h 0 (if h.op = .bsync then c.phase else 0)) s
  s.settleCell c.pa

/-- A census request goes out (R123, R101): by multicast to the cores of the rectangle in each bay of the grid that it meets, and
to the launch scheduler for a core that is not placed. -/
def State.askCensus (s : State) (c : Census) (cores : List Nat) : State :=
  let desk := deskAgent (s.deskOf c.pa)
  let placed := cores.filter (· < 16384)
  let s := s.carryTo { family := 2, op := 0x36, src := desk } placed (.censusreq c.id)
  let home := coreAgent (serviceCore (((s.grid (bits (s.image c.pa) 223 208)).map (·.region)).getD 0))
  (cores.filter (16384 ≤ ·)).foldl (fun s n => s.carry (deskHeader desk home 0x36 0 0 0 c.pa) (.censusreq c.id n)) s

/-- A phase completes (R121): the next phase begins, and the holds of this one are filled, after its census if it has
one. -/
def State.completePhase (s : State) (pa : Nat) : State :=
  let v := s.image pa
  let p := bits v 111 96
  let v' := setBits (setBits v 111 96 (p + 1)) 63 32 (bits v 31 0)
  let s : State := { s.store pa (bytesOf 32 v') with arrived := s.arrived.filter fun e => e.1 != pa }
  if bits v 127 112 = 0 then
    ((s.holdsOn pa).filter fun h => h.key = p).foldl (fun s h => s.fill h 0 (if h.op = .bsync then p else 0)) s
  else
    let cores := s.participants v
    let c : Census := { id := s.fresh, pa := pa, phase := p, cmask := bits v 127 112, total := cores.length,
                        sums := List.replicate 16 0 }
    let s : State := { s.drawn with censuses := s.censuses ++ [c] }
    if cores = [] then s.closeCensus c else s.askCensus c cores

/-- An arrival (R121): the phase to which it counts, or none where no arrival is left. -/
def State.arrive (s : State) (r : DeskReq) : Option Nat × State :=
  let v := s.image r.pa
  let left := bits v 63 32
  if left = 0 then (none, s)
  else
    let s : State := { s.setField r.pa 63 32 (left - 1) with
      arrived := if r.who.kind = 1 then (r.pa, r.who) :: s.arrived else s.arrived }
    (some (bits v 111 96), if left = 1 && bits v 95 64 = 0 then s.completePhase r.pa else s)

/-- A wait for a phase (R121): true where it is complete and its record has been written. -/
def State.phaseDone (s : State) (pa p : Nat) : Bool :=
  2 ^ 15 ≤ (p + 2 ^ 16 - bits (s.image pa) 111 96) % 2 ^ 16 &&
    !s.censuses.any fun c => c.pa = pa && c.phase = p

def deskBarrive (s : State) (r : DeskReq) : DeskOut × State :=
  match s.arrive r with
  | (some p, s) => (.done 0 p [], s)
  | (none, s) => (.done 5 0 [], s)

def deskBwait (s : State) (r : DeskReq) : DeskOut × State :=
  let p := r.phase % 2 ^ 16
  if s.phaseDone r.pa p then (.done 0 0 [], s)
  else match s.makeHold (r.hold .bwait p) with
    | some s => (.held, s)
    | none => (.done 8 0 [], s)

def deskBsync (s : State) (r : DeskReq) : DeskOut × State :=
  match s.arrive r with
  | (none, s) => (.done 5 0 [], s)
  | (some p, t) =>
    if t.phaseDone r.pa p then (.done 0 p [], t)
    else match t.makeHold (r.hold .bsync p) with
      | some t => (.held, t)
      | none => (.done 8 0 [], s)

def deskBpendadd (s : State) (r : DeskReq) : DeskOut × State :=
  (.done 0 0 [], s.setField r.pa 95 64 (low 32 (bits (s.image r.pa) 95 64 + r.n)))

def deskBpendsub (s : State) (r : DeskReq) : DeskOut × State :=
  let pend := low 32 (bits (s.image r.pa) 95 64 - r.n)
  let s := s.setField r.pa 95 64 pend
  (.done 0 0 [], if pend = 0 && bits (s.image r.pa) 63 32 = 0 then s.completePhase r.pa else s)

/-! ## Ticket lock (R124, R125) -/

/-- A lock granted to a waiter (R125). -/
def State.grantLock (s : State) (pa : Nat) (w : Waiter) : State :=
  let v := s.image pa
  let v := setBits v 127 64 w.word
  let v := setBits v 129 128 w.slot
  s.store pa (bytesOf 32 (setBits v 191 160 (bits v 191 160 + 1)))

/-- The lock is free for its next ticket. -/
def lockFree (v : Nat) : Bool := bits v 31 0 = bits v 63 32 && bits v 79 77 = 0

def deskLacq (s : State) (r : DeskReq) : DeskOut × State :=
  let v := s.image r.pa
  let t := bits v 31 0
  let taken := s.setField r.pa 31 0 (t + 1)
  if lockFree v then (.done 0 t [], taken.grantLock r.pa r.who)
  else match taken.makeHold (r.hold .lacq t) with
    | some s => (.held, s)
    | none => (.done 8 0 [], s)

def deskLtry (s : State) (r : DeskReq) : DeskOut × State :=
  let v := s.image r.pa
  let t := bits v 31 0
  if lockFree v then (.done 0 t [], (s.setField r.pa 31 0 (t + 1)).grantLock r.pa r.who)
  else (.done 1 0 [], s)

/-- The next ticket served (R125): void entries are passed over. -/
def State.serveNext (s : State) (pa : Nat) : Nat → Nat → State
  | 0, serving => s.setField pa 63 32 serving
  | n + 1, serving =>
    match s.holds.find? fun h => h.pa = pa && h.op = .lacq && h.key = serving % 2 ^ 32 with
    | some h =>
      if h.void then (s.dropHold h).serveNext pa n (serving + 1)
      else (((s.setField pa 63 32 serving).grantLock pa h.who).fill h 0 h.key)
    | none => ((s.setField pa 63 32 serving).setField pa 127 64 0).setField pa 129 128 0

def deskLrel (s : State) (r : DeskReq) : DeskOut × State :=
  let v := s.image r.pa
  if bits v 127 64 = r.who.word && bits v 129 128 = r.who.slot % 4 && r.who.kind != 0 then
    (.done 0 0 [], s.serveNext r.pa (s.holds.length + 1) (bits v 63 32 + 1))
  else (.done 3 0 [], s)

/-! ## Bounded queue (R126, R127) -/

/-- Bytes of one element. -/
def elementSize (v : Nat) : Nat := 8 * 2 ^ bits v 146 144

/-- The address of the element at an index (R126). -/
def elementVA (v index : Nat) : Nat := bits v 63 0 + index % bits v 143 128 * elementSize v

/-- A page found for the Desk's own access in a context: an elided page is materialised by a write. -/
def State.bufferSpot (s : State) (a : Agent) (va n : Nat) (u : Use) : Resolved × State :=
  let r := match s.resolve a va n u false with
    | (.materialise, s) => (s.materialise a.ctx va).resolve a va n u false
    | r => r
  match r with
  | (.spot sp, s) => if s.spotParked sp n || s.claimed a.ctx va sp n (u = .write) then (.park, s) else (.spot sp, s)
  | r => r

/-- The element read by the Desk: none where its buffer does not translate or holds poison. -/
def State.readElement (s : State) (a : Agent) : List (Nat × Nat) → Except Bool (List Byte) × State
  | [] => (.ok [], s)
  | (va, n) :: rest =>
    match s.bufferSpot a va n .read with
    | (.spot sp, s) =>
      let s := s.beforeRead 0 sp n
      let g := s.readSpot sp n
      if g.poison then (.error false, s)
      else match s.readElement a rest with
        | (.ok bs, s) => (.ok (g.bytes ++ bs), s)
        | r => r
    | (.park, s) => (.error true, s)
    | (_, s) => (.error false, s)

/-- The element written by the Desk. DESIGN CHOICE (notes/assumptions/34.md): the specification does not say what a push or a pop gives
when the sector of the ring buffer that it must write holds a typed cell; the model answers XLATE, as for a failed translation. -/
def State.writeElement (s : State) (a : Agent) : List (Nat × Nat) → List Byte → Except Bool State
  | [], _ => .ok s
  | (va, n) :: rest, bs =>
    match s.bufferSpot a va n .write with
    | (.spot sp, s) =>
      if s.typedAt sp n then .error false
      else ((s.writeSpot .other sp (bs.take n) .plain).afterWrite 0 none sp n).writeElement a rest (bs.drop n)
    | (.park, _) => .error true
    | _ => .error false

/-- The first pop hold or the first push hold of a queue. -/
def State.firstHold (s : State) (pa : Nat) (op : DeskOp) : Option Hold := (s.holdsOn pa).find? fun h => h.op = op

/-- Elements in the ring. -/
def queued (v : Nat) : Nat := (bits v 127 96 + 2 ^ 32 - bits v 95 64) % 2 ^ 32

/-- An element written at tail, and tail advanced. -/
def State.pushTail (s : State) (pa : Nat) (e : List Byte) : Except Bool State :=
  let v := s.image pa
  match s.writeElement (s.deskActor pa (bits v 207 192)) (partsOf (elementVA v (bits v 127 96)) (elementSize v)) e with
  | .ok s => .ok (s.setField pa 127 96 (bits v 127 96 + 1))
  | .error p => .error p

/-- A failed access of the buffer: it waits for a drain, or is XLATE (R127). -/
def bufferFailed (park : Bool) (s : State) : DeskOut × State := if park then (.park, s) else (.done 9 0 [], s)

def deskPush (s : State) (r : DeskReq) (try_ : Bool) : DeskOut × State :=
  let v := s.image r.pa
  let size := elementSize v
  if size < r.elem.length then (.done 4 0 [], s)
  else
    let e := r.elem ++ List.replicate (size - r.elem.length) 0
    match s.firstHold r.pa .qpop with
    | some h =>
      let s := (s.setField r.pa 95 64 (bits v 95 64 + 1)).setField r.pa 127 96 (bits v 127 96 + 1)
      (.done 0 0 [], s.fill h 0 0 e)
    | none =>
      if queued v < bits v 143 128 then
        match s.pushTail r.pa e with
        | .ok s => (.done 0 0 [], s)
        | .error p => bufferFailed p s
      else if try_ then (.done 1 0 [], s)
      else match s.makeHold { r.hold .qpush with elem := e } with
        | some s => (.held, s)
        | none => (.done 8 0 [], s)

def deskPop (s : State) (r : DeskReq) (try_ : Bool) : DeskOut × State :=
  let v := s.image r.pa
  let size := elementSize v
  if r.elen < size then (.done 4 0 [], s)
  else if queued v = 0 then
    if try_ then (.done 1 0 [], s)
    else match s.makeHold { r.hold .qpop with elen := r.elen } with
      | some s => (.held, s)
      | none => (.done 8 0 [], s)
  else
    match s.readElement (s.deskActor r.pa (bits v 207 192)) (partsOf (elementVA v (bits v 95 64)) size) with
    | (.error p, _) => bufferFailed p s
    | (.ok e, t) =>
      let t := t.setField r.pa 95 64 (bits v 95 64 + 1)
      match t.firstHold r.pa .qpush with
      | none => (.done 0 0 e, t)
      | some h => match t.pushTail r.pa h.elem with
        | .ok t => (.done 0 0 e, t.fill h 0 0)
        | .error p => bufferFailed p s

/-! ## Condition (R128, R129) -/

/-- The header of a request that a condition's Desk sends to its lock's (R129). -/
def State.toLock (s : State) (cond op : Nat) (q : DeskReq) : Header :=
  deskHeader (deskAgent (s.deskOf cond)) (deskAgent (s.deskOf q.pa)) op q.prio q.qos q.ctx q.pa

def deskVwait (s : State) (r : DeskReq) : DeskOut × State :=
  let v := s.image r.pa
  if s.holdsOn r.pa != [] && bits v 63 0 != r.lock then (.done 6 0 [], s)
  else match s.makeHold { r.hold .vwait with lock := r.lock, cond := none } with
    | none => (.done 8 0 [], s)
    | some s =>
      let q : DeskReq :=
        { pa := r.lock, who := r.who, seq := r.seq, prio := r.prio, qos := r.qos, ctx := r.ctx, acting := some r.pa }
      (.held, (s.setField r.pa 63 0 r.lock).carry (s.toLock r.pa 0x1A q) (.lrel q))

/-- A wait is signalled (R129): its re-acquire goes to the lock. -/
def State.signalHold (s : State) (h : Hold) : State :=
  let s := { s with holds := s.holds.map fun x => if x = h then { x with signalled := true } else x }
  let q : DeskReq :=
    { pa := h.lock, who := h.who, seq := h.seq, prio := h.prio, qos := h.qos, ctx := h.ctx, acting := some h.pa }
  (s.setField h.pa 127 96 (bits (s.image h.pa) 127 96 + 1)).carry (s.toLock h.pa 0x18 q) (.lacq q)

def deskVsignal (s : State) (r : DeskReq) : DeskOut × State :=
  match s.holdsOn r.pa with
  | [] => (.done 0 0 [], s)
  | h :: _ => (.done 0 1 [], s.signalHold h)

def deskVbcast (s : State) (r : DeskReq) : DeskOut × State :=
  let hs := s.holdsOn r.pa
  (.done 0 hs.length [], hs.foldl State.signalHold s)

/-! ## Query, initialise, free (R113, R136) -/

/-- What INIT and FREE do to a cell that has a type (R136): every hold is filled with FREED, void entries go, the
boosts expire, the continuation and the census are dropped. -/
def State.clearCell (s : State) (pa : Nat) : State :=
  let s := (s.holdsOn pa).foldl (fun s h => s.fill h 2 (if h.op = .bsync then h.key else 0)) s
  let s := (s.holds.filter fun h => h.pa = pa && h.void).foldl State.dropHold s
  { s with
    arrived := s.arrived.filter fun e => e.1 != pa
    censuses := s.censuses.filter fun c => c.pa != pa }

def deskFree (s : State) (r : DeskReq) : DeskOut × State :=
  (.done 0 0 [], ((s.clearCell r.pa).putImage r.pa 0 0))

/-- A byte translates with write permission in a context (R127). -/
def State.writable (s : State) (a : Agent) (va : Nat) : Bool :=
  match s.resolve a va 1 .write false with
  | (.spot _, _) | (.materialise, _) | (.park, _) => true
  | _ => false

/-- A rectangle lies within a grid of this device (R121). -/
def State.rectInside (s : State) (g : Nat) (r : Nat × Nat × Nat × Nat) : Bool :=
  r.1 ≤ r.2.2.1 && r.2.1 ≤ r.2.2.2 && match s.grid g with
    | some g => r.2.2.1 < g.gw * g.node.bw && r.2.2.2 < g.node.gh * g.node.bh
    | none => false

/-- The image that INIT makes, without the trailer, or none where an operand is out of range (R117, R121, R125, R127,
R128). A rectangle that a strand of another device gives is held against its grid by that device, which sends an empty one where
it does not fit. -/
def State.newImage (s : State) (r : DeskReq) : Option Nat :=
  match r.ctype with
  | 1 => some (low 64 r.n)
  | 2 =>
    let inside := match r.rect with
      | none => r.cmask = 0
      | some (x0, y0, x1, y1) =>
        r.who.kind = 1 && x0 ≤ x1 && y0 ≤ y1 && (r.who.dev != thisDevice || s.rectInside r.who.grid (x0, y0, x1, y1))
    if r.total = 0 || 2 ^ 32 ≤ r.total || !inside then none
    else
      let rect := match r.rect with
        | none => 2 ^ 64 - 1
        | some (x0, y0, x1, y1) => x0 + y0 * 2 ^ 16 + x1 * 2 ^ 32 + y1 * 2 ^ 48
      some (r.total + r.total * 2 ^ 32 + r.cmask % 65536 * 2 ^ 112 + rect * 2 ^ 128 + r.who.dev % 8192 * 2 ^ 192 +
        (if r.who.kind = 1 then r.who.grid else 0) % 65536 * 2 ^ 208)
  | 4 =>
    let size := 8 * 2 ^ r.esz
    if r.cap = 0 || 65535 < r.cap || 4 < r.esz || r.buf % size != 0 || !s.writable (s.deskActor r.pa r.ctx) r.buf ||
        !s.writable (s.deskActor r.pa r.ctx) (r.buf + r.cap * size - 1) then none
    else some (r.buf % 2 ^ 64 + r.cap * 2 ^ 128 + r.esz * 2 ^ 144 + r.ctx % 65536 * 2 ^ 192)
  | _ => some 0

def deskInit (s : State) (r : DeskReq) : DeskOut × State :=
  if r.ctype = 0 || 5 < r.ctype then (.done 10 0 [], s)
  else match s.newImage r with
    | none => (.done 4 0 [], s)
    | some v =>
      let gen := if s.cellType r.pa = 0 then 0 else bits (s.image r.pa) 255 240 + 1
      (.done 0 0 [], (s.clearCell r.pa).putImage r.pa (setBits v 255 240 gen) r.ctype)

def deskQuery (s : State) (r : DeskReq) : DeskOut × State := (.done 0 0 (s.bytes r.pa 32), s)

/-! ## One operation performed whole (R112-R115) -/

/-- The operation itself, on a cell of the right type. -/
def deskAct (op : DeskOp) (s : State) (r : DeskReq) : DeskOut × State :=
  match op with
  | .query => deskQuery s r
  | .free => deskFree s r
  | .init => deskInit s r
  | .cadd => deskCadd s r
  | .cwait => deskCwait s r
  | .carm => deskCarm s r
  | .cdisarm => deskCdisarm s r
  | .barrive => deskBarrive s r
  | .bwait => deskBwait s r
  | .bsync => deskBsync s r
  | .bpendadd => deskBpendadd s r
  | .bpendsub => deskBpendsub s r
  | .lacq => deskLacq s r
  | .ltry => deskLtry s r
  | .lrel => deskLrel s r
  | .qpush => deskPush s r false
  | .qpop => deskPop s r false
  | .qtrypush => deskPush s r true
  | .qtrypop => deskPop s r true
  | .vwait => deskVwait s r
  | .vsignal => deskVsignal s r
  | .vbcast => deskVbcast s r

/-- The type of a cell allows an operation (R115 item 5). -/
def DeskOp.typeOk (op : DeskOp) (t : Nat) : Bool :=
  match op with
  | .init | .free => true
  | .query => 1 ≤ t && t ≤ 5
  | op => t = op.cellType

/-- Soft errors that have struck the holds of a Desk are corrected, or end every grid that holds there (R24). -/
def State.mendHolds (s : State) (pa : Nat) : State :=
  let desk := s.homeCluster pa
  s.flips.foldl (fun s f =>
    match f.at_ with
    | .holdEntry cell =>
      if s.homeCluster cell = desk then
        let s := { s with flips := s.flips.filter fun g => g.at_ != f.at_ }
        if f.bits ≤ 1 then (s.countError 6 desk).corrected (regionOf (clusterCore desk 0)) 6 cell
        else
          ((s.holds.filter fun h => s.homeCluster h.pa = desk && h.who.kind = 1 && h.who.dev = thisDevice).map
              (·.who.grid)).foldl
            (fun s g => s.endGrid g { status := 1, cause := Cause.holdError.code, taddr := cell }) s
      else s
    | _ => s) s

/-- A Desk performs an operation on the cell at a physical address (R112, R115 items 5 and 6). -/
def State.desk (s : State) (op : DeskOp) (r : DeskReq) : DeskOut × State :=
  let s := if s.flips = [] then s else s.mendHolds r.pa
  if !op.typeOk (s.cellType r.pa) then (.done 10 0 [], s)
  else match deskAct op s r with
    | (.park, t) => (.park, t)
    | (o, t) => (o, t.settleCell r.pa)

end Sys2Proof.Machine
end

