-- ==== Sys2Proof/Machine/Work.lean ====
section
/-! DEFINITION. Work on a core and on a bank unit: inboxes, run queues, the selector, the start of a task, the annex
thread, stealing, the end of a task and of a grid's last task (spec/12_cores_and_strands.md R223-R242,
spec/05_scheduling.md R77-R84, spec/10_bank_units.md R191-R193). -/

namespace Sys2Proof.Machine

open Sys2Proof

/-! ## Inbox (R233, R235, R236) -/

/-- A migration of which only the first message has an inbox entry, and the second that still waits (R235, R242). -/
def Task.half (t : Task) : Bool := t.kind = 7 && t.cause = 1
def Task.rest (t : Task) : Bool := t.kind = 7 && t.cause = 2

/-- The inbox entries of a message: both messages of a migration take one (R235). -/
def Task.size (t : Task) : Nat := if t.kind = 7 && t.cause = 0 then 2 else 1
def Core.inboxUsed (c : Core) : Nat := (c.inbox.map Task.size).sum

/-- An entry of a core's catalogue: 0-15 for the classes, 16 for the annex (R232). -/
def State.entryOf (s : State) (n i : Nat) : Reg := look {} (s.core n).cat i

/-- The fields of `annexctl` (R236 Table 9). -/
def Core.annexHi (c : Core) : Nat := min 32 (bits c.annexctl.toNat 5 0)
def Core.annexLo (c : Core) : Nat := bits c.annexctl.toNat 13 8

/-- The annex thread is due (R236). -/
def State.annexDue (s : State) (n : Nat) : Bool :=
  let c := s.core n
  c.annexctl.getLsbD 14 && handlerOpen (s.entryOf n 16) && (s.slot (slotKey n 3)).st == .free &&
    (c.annexHi ≤ c.inboxUsed || (c.annexctl.getLsbD 15 && c.inboxUsed ≤ c.annexLo))

/-- The annex thread is asked to start where it is due. -/
def State.askAnnex (s : State) (n : Nat) : State := if s.annexDue n then s.emit (.annexStart n) else s

/-- A message enters the inbox: its number is the order of its arrival. -/
def State.enterInbox (s : State) (n : Nat) (m : Task) : State :=
  let m := { m with inbox := some s.fresh, age := 0 }
  ((s.drawn.onCore n fun c => { c with inbox := c.inbox ++ [m] }).emit (.messageReady n)).askAnnex n

/-- The second message of a migration joins the first, by the number of the migration. -/
def joined (second : Task) (inbox : List Task) : List Task :=
  inbox.map fun m => if m.half && m.seq = second.seq then { m with cause := 0 } else m
def State.joinInbox (s : State) (n : Nat) (second : Task) : State :=
  ((s.onCore n fun c => { c with inbox := joined second c.inbox }).emit (.messageReady n)).askAnnex n

/-- Messages that wait in the router enter while there is room, in order. -/
def State.admitWaiting (s : State) (n : Nat) : Nat → State
  | 0 => s
  | k + 1 =>
    match (s.core n).router with
    | [] => s
    | m :: rest =>
      if (s.core n).inboxUsed + m.size ≤ 32 then
        let s := s.onCore n fun c => { c with router := rest }
        (if m.rest then s.joinInbox n m else s.enterInbox n m).admitWaiting n k
      else s

/-- A message at a core: into the inbox, or into the router while every entry is taken (R99, R235). -/
def State.deliver (s : State) (n : Nat) (m : Task) : State :=
  let waiting := (s.core n).router
  let s := s.onCore n fun c => { c with router := c.router ++ [m] }
  if waiting = [] then s.admitWaiting n 1 else s

/-- An inbox entry is freed (R235). -/
def State.leaveInbox (s : State) (n : Nat) (id : Option Nat) : State :=
  if id.isNone then s
  else ((s.onCore n fun c => { c with inbox := c.inbox.filter fun m => m.inbox != id }).admitWaiting n 32).askAnnex n

/-- A message discarded (R233): counted in `ev6`. -/
def State.discardMessage (s : State) (n : Nat) (id : Option Nat) : State := (s.count n 6 1).leaveInbox n id

/-- A message belongs to the core (R395): messages, spawns, calls and arrivals of a grid to a core of that grid;
anything may come to a service core. -/
def State.takesFrom (s : State) (n : Nat) (m : Task) : Bool :=
  isService n || (s.core n).grid == some m.grid

/-- A change of a core of a saved grid, found by the place it had (R283). -/
def State.onSavedCore (s : State) (g place : Nat) (f : Core → Core) : State :=
  s.onGrid g fun x => { x with saved := x.saved.map fun c => if c.place = place then { c with core := f c.core } else c }

/-- A message arrives at a core (R233, R283, R395): a message of another grid is discarded and counted, one for a
saved grid goes to the saved inbox, or waits for it in order while that is full (R98). -/
def State.arriveAt (s : State) (n : Nat) (m : Task) : State :=
  if s.takesFrom n m then s.deliver n m
  else
    match s.grid m.grid with
    | some g =>
      match g.saved.find? fun c => c.place = n && g.rects = [] with
      | some c =>
        if c.core.router = [] && c.core.inboxUsed + m.size ≤ 32 then
          s.drawn.onSavedCore m.grid n fun c =>
            { c with inbox := if m.rest then joined m c.inbox else c.inbox ++ [{ m with inbox := some s.fresh, age := 0 }] }
        else s.onSavedCore m.grid n fun c => { c with router := c.router ++ [m] }
      | none => s.count n 6 1
    | none => if (s.core n).grid.isSome then s.count n 6 1 else s

/-! ## Becoming ready (R229, R230, R233) -/

/-- The number at which a dealt task that waits for an entry of a core's run queue reached the core (R229). -/
def State.dealtClaim (s : State) (n : Nat) : Option Nat :=
  match (s.core n).grid with
  | none => none
  | some g => match s.grid g with
    | none => none
    | some x => (x.undealt.find? fun t => t.inbox = some n && t.age != 0).map (·.age)

/-- The first inbox message that is not ready. -/
def Core.firstUnready (c : Core) : Option Task :=
  c.inbox.find? fun m => !m.half && !c.runq.any fun t => t.inbox = m.inbox

/-- A run-queue entry has been freed: the claimants are asked in the order in which they reached the core (R229); the one that finds
no entry left, or an earlier claim, goes on waiting. -/
def State.entryFreed (s : State) (n : Nat) : State :=
  let m := ((s.core n).firstUnready).bind (·.inbox)
  let deal : Event := .dealTask ((s.core n).grid.getD 0)
  match s.dealtClaim n, m with
  | none, none => s
  | none, some _ => s.emit (.messageReady n)
  | some _, none => s.emit deal
  | some d, some i => s.emits (if d < i then [deal, .messageReady n] else [.messageReady n, deal])

/-- An earlier claim than a dealt record's waits for a run-queue entry of a core (R229). -/
def State.messageFirst (s : State) (n claim : Nat) : Bool :=
  match ((s.core n).firstUnready).bind (·.inbox) with
  | some i => i < claim
  | none => false

/-- The record that a message becomes, or none where it is discarded (R230, R233): the catalogue entry of its class,
its own entry, or the undeliverable handler with the cause. -/
def State.readyRecord (s : State) (n : Nat) (m : Task) : Option Task :=
  let undeliverable (cause : Nat) : Option Task :=
    if handlerOpen (s.entryOf n 0) then some { m with kind := 8, cls := 0, cause := cause, entry := s.entryOf n 0 }
    else none
  match m.kind with
  | 3 =>
    if m.cls = 0 then undeliverable 2
    else if handlerOpen (s.entryOf n m.cls) then some { m with entry := s.entryOf n m.cls }
    else undeliverable 1
  | 4 => if handlerOpen m.entry then some m else undeliverable 3
  | _ => some m

/-- The first unready message of a core becomes ready, if an entry is free for it. -/
def State.makeReady (s : State) (n : Nat) : State :=
  let c := s.core n
  match c.firstUnready with
  | none => s
  | some m =>
    let earlier : Bool := match s.dealtClaim n, m.inbox with
      | some d, some i => d < i
      | _, _ => false
    if 64 ≤ c.runq.length || earlier then s
    else match s.readyRecord n m with
      | none => (s.discardMessage n m.inbox).entryFreed n
      | some t =>
        let t := { t with age := s.fresh + 1 }
        ((s.drawn.onCore n fun c => { c with runq := c.runq ++ [t], stealWait := false }).emit (.taskSelect n)).entryFreed n

/-! ## Selection (R84, R238) -/

/-- A task may be chosen: it is ready, and its class is not held (R84, R234). -/
def Core.mayChoose (c : Core) (t : Task) : Bool :=
  t.age != 0 && (t.kind = 7 || t.kind = 8 || !c.hmask.getLsbD t.cls || t.cls = 0)

/-- The candidates of a selection: the ready tasks of the run queue and the bottom entry of the deque. -/
def Core.candidates (c : Core) : List Task :=
  (c.runq ++ (c.deque.getLast?).toList).filter c.mayChoose

/-- The oldest of some tasks. -/
def oldest (ts : List Task) : Option Task :=
  ts.foldl (fun b t => match b with
    | none => some t
    | some x => if t.age < x.age then some t else b) none

/-- The task that a selection takes, by priority, age and the aging reserve (R84). -/
def Core.choose (c : Core) : Option Task :=
  let ts := c.candidates
  let top := ts.foldl (fun m t => max m t.prio) 0
  let normal := oldest (ts.filter fun t => t.prio = top)
  if c.selCount = 15 then
    match oldest (ts.filter fun t => t.prio < top) with
    | some t => some t
    | none => normal
  else normal

/-- A slot of a core that the selector may fill: one of ht0-ht2 that is free (R223). -/
def State.freeSlot (s : State) (n : Nat) : Option Nat :=
  ((List.range 3).map (slotKey n ·)).find? fun k => (s.slot k).st == .free

/-- Selections are made on a core: a service core, or a core whose grid deals or runs (R278 rank 6). -/
def State.selects (s : State) (n : Nat) : Bool :=
  if isService n then true else
  match (s.core n).grid with
  | none => false
  | some g => match s.grid g with
    | none => false
    | some x => x.st == .dealing || x.st == .running

/-! ## Stealing (R239, R240) -/

/-- The cores of a core's bay in ring order, without holes. -/
def State.ring (s : State) (n : Nat) : List Nat :=
  match (s.core n).grid with
  | none => []
  | some g => match s.grid g with
    | none => []
    | some x => match x.rects[(s.core n).bay]? with
      | none => []
      | some (px, py) =>
        ((List.range (x.node.bw * x.node.bh)).map fun q => coreAt (px + q % x.node.bw) (py + q / x.node.bw)).filter
          fun m => !s.isHole m

/-- The cores that a thief asks, in order. -/
def State.victims (s : State) (n : Nat) : List Nat :=
  let r := s.ring n
  (r.dropWhile (· != n)).drop 1 ++ r.takeWhile (· != n)

/-- A thief asks the next victim, or waits when every victim was empty (R240). -/
def State.askVictim (s : State) (n i : Nat) : State :=
  match (s.victims n)[i]? with
  | some v => (s.onCore n fun c => { c with steal := some i }).carry
      { family := 0, op := 0x20, src := coreAgent n, dst := coreAgent v } (.stealRequest n v none)
  | none =>
    if i = 0 then s
    else (s.onCore n fun c => { c with steal := none, stealWait := true, stealAt := s.time }).emit (.stealRetry n)

/-- A core begins to steal: it has a free slot, no candidate, and no steal outstanding (R240). -/
def State.beginSteal (s : State) (n : Nat) : State :=
  let c := s.core n
  if isService n || !s.selects n || (s.freeSlot n).isNone || c.candidates != [] || c.steal.isSome || c.stealWait then s
  else s.askVictim n 0

/-- The selector of a core fills a free slot (R84): the task enters Starting, its inbox entry and its run-queue entry
are freed. -/
def State.select (s : State) (n : Nat) : State :=
  if !s.selects n then s else
  match s.freeSlot n, (s.core n).choose with
  | some k, some t =>
    let fromDeque := !(s.core n).runq.contains t
    let s := s.onCore n fun c => { c with
      runq := c.runq.erase t
      deque := if fromDeque then c.deque.dropLast else c.deque
      selCount := (c.selCount + 1) % 16
      stealWait := false }
    let s := s.onSlot k fun sl => { sl with st := .starting, task := some t }
    let s := (s.leaveInbox n t.inbox).emit (.taskStart k)
    (if fromDeque then s else s.entryFreed n).emit (.taskSelect n)
  | some _, none => s.beginSteal n
  | _, _ => s

/-! ## The start of a task (R230 Table 6, R192, R119) -/

/-- The stack capability of a slot (R230, Table 7). -/
def State.stackCap (s : State) (n h : Nat) : Reg :=
  let v := (s.core n).stkctl.toNat
  let base := bits v 7 0 * 1024
  let size := bits v 15 8 * 1024
  if size = 0 || 3 ≤ h || base < s.codeEnd n || s.spadEnd n < base + 3 * size then {}
  else ⟨makeCap (localVA (base + (h + 1) * size)) (localVA (base + h * size)) size 3, .cap⟩

/-- The task word of g3 (R230). -/
def Task.word (t : Task) (h : Nat) : Nat :=
  t.kind % 16 + t.cls % 16 * 16 + t.prio % 8 * 256 + h * 2 ^ 11 +
    (if t.kind = 2 || t.kind = 3 || t.kind = 5 || t.kind = 6 || t.kind = 8 then t.args.length % 16 else 0) * 2 ^ 13 +
    (if t.kind = 8 then t.cause % 256 else 0) * 2 ^ 32

/-- The arguments or payload in g16 upwards. -/
def argRegs (args : List Reg) : List (Nat × Reg) := (List.range args.length).map fun i => (16 + i, args.getD i {})

/-- A kind that carries a sender (R230). -/
def Task.hasSender (t : Task) : Bool := t.kind = 2 || t.kind = 3 || t.kind = 5 || t.kind = 6 || t.kind = 8
def Task.isCall (t : Task) : Bool := t.kind = 5 || t.kind = 6

/-- The registers at the start of a task on a core. -/
def State.startRegs (s : State) (n h : Nat) (t : Task) : List (Nat × Reg) :=
  [(2, s.stackCap n h), (3, exactData (t.word h)),
   (13, if t.hasSender then t.sender.reg else {}), (14, if t.isCall then t.target else ({} : Reg)),
   (15, if t.isCall then exactData (t.seq % 65536) else ({} : Reg))] ++ argRegs t.args

/-- `sstat` at the start of a task: its priority, QoS class and route class (R226 Table 3). -/
def Task.sstat0 (t : Task) : BitVec 32 :=
  BitVec.ofNat 32 (t.prio % 8 + t.qos % 8 * 8 +
    (if t.kind = 0 || t.kind = 7 || t.kind = 8 then 0 else t.cls % 16) * 2 ^ 9)

/-- A slot cleared of what belongs to one strand: trap state, marks, windows, streams, boosts, the counted stores. -/
def Slot.fresh (sl : Slot) : Slot :=
  { sl with
    marks := [], tcause := 0, taddr := 0, tpc := 0, trcause := 0, tla := 0, unsent := 0,
    boosts := [0, 0, 0, 0, 0, 0, 0, 0], window := 0, skip := none, await := none, popped := none, streams := [],
    yielding := 0, stopped := false, lead := none, answered := none, due := 0, since := none }

/-- A task starts in its slot (R230): a kind 7 task restores its portable context. -/
def State.startTask (s : State) (k : Nat) : State :=
  let sl := s.slot k
  match sl.st, sl.task with
  | .starting, some t =>
    let s := { s with
      flips := s.flips.filter fun f => match f.at_ with
        | .register j _ _ => j != k
        | _ => true
      parked := s.parked.filter fun p => p.engine || p.slot != k }
    if isBankSlot k then
      s.setSlot k { sl.fresh with
        st := .running
        regs := [(13, if t.kind = 4 then ({} : Reg) else t.sender.reg), (14, t.target),
                 (15, if t.isCall then exactData (t.seq % 65536) else ({} : Reg))] ++ argRegs t.args
        pc := BitVec.ofNat 64 (capAddr t.entry.data % 2 ^ 15)
        sstat := BitVec.ofNat 32 (t.prio % 8 + t.qos % 8 * 8 + t.cls % 16 * 2 ^ 9) }
    else if t.kind = 7 then
      s.setSlot k { sl.fresh with
        st := .running
        regs := (List.range 16).map fun i => (i, t.args.getD i {})
        pc := t.pc
        sstat := BitVec.ofNat 32 (setBits t.sstat.toNat 15 13 0)
        vcfg := 0 }
    else
      s.setSlot k { sl.fresh with
        st := .running
        regs := s.startRegs (coreOf k) (k % 4) t
        pc := lo64 t.entry.data
        sstat := t.sstat0 }
  | _, _ => s

/-- The QoS class of a grid (R226 Table 3). -/
def State.gridQos (s : State) (g : Nat) : Nat := ((s.grid g).map (·.node.qos)).getD 0 % 8

/-- The annex thread starts at the annex entry (R236). -/
def State.startAnnex (s : State) (n : Nat) : State :=
  if s.annexDue n && s.selects n then
    let k := slotKey n 3
    s.setSlot k { (s.slot k).fresh with
      st := .running, regs := [], pc := lo64 (s.entryOf n 16).data
      sstat := BitVec.ofNat 32 (8 * s.gridQos ((s.core n).grid.getD 0xFFFF)), task := none }
  else s

/-! ## Bank units (R191-R193) -/

/-- The offset at which a handle enters the code SRAM, or none (R191: BAD_ENTRY). -/
def bankEntry (h : Reg) : Option Nat :=
  let o := capAddr h.data % 2 ^ 15
  if h.tag == .sealed && hasPerm h.data permX && o != 0 && o % 4 = 0 then some o else none

/-- A task of a bank unit is refused (R193): a call is answered, a message ends its sender's grid with the unit as the
target (R272). -/
def State.refuseBank (s : State) (b : Nat) (t : Task) (c : Cause) : State :=
  match t.route with
  | some r => s.answerCall (bankAgent b) t r .remoteFault c []
  | none =>
    if t.kind = 4 then s
    else match if t.sender.kind = 1 then s.gridCore t.grid t.sender.x t.sender.y else none with
      | some n => s.lateFault (slotKey n t.sender.slot) (some t.grid) { cause := c, addr := b, from_ := some t.pc }
      | none => s.endGrid t.grid { status := 1, cause := c.code, taddr := b, tpc := t.pc.toNat }

/-- A task arrives at a bank unit (R192, R193). -/
def State.arriveBank (s : State) (b : Nat) (t : Task) : State :=
  if s.banksOff.contains (b / 32) then s.refuseBank b t .bankOff
  else
    let t := { t with age := s.fresh + 1 }
    if (s.bank b).router = [] && (s.bank b).inbox.length < 16 then
      (s.drawn.onBank b fun x => { x with inbox := x.inbox ++ [t] }).emit (.taskSelect (16384 + b))
    else s.drawn.onBank b fun x => { x with router := x.router ++ [t] }

/-- The entry of a bank-unit task: its own handle, or the catalogue's for a message (R191, R233). -/
def State.bankRecord (s : State) (b : Nat) (t : Task) : Except Cause Task :=
  let cat (i : Nat) : Reg := look {} (s.bank b).cat i
  let with_ (h : Reg) (t : Task) : Except Cause Task :=
    match bankEntry h with
    | some _ => .ok { t with entry := h }
    | none => .error .badEntry
  if t.kind = 3 then
    if t.cls != 0 && handlerOpen (cat t.cls) then with_ (cat t.cls) t
    else if handlerOpen (cat 0) then with_ (cat 0) { t with kind := 8, cls := 0, cause := if t.cls = 0 then 2 else 1 }
    else .error .noHandler
  else with_ t.entry t

/-- A free slot of a bank unit takes the ready task of highest priority, the oldest among equals (R192). -/
def State.selectBank (s : State) (b : Nat) : State :=
  let x := s.bank b
  let top := x.inbox.foldl (fun m t => max m t.prio) 0
  match ((List.range 4).map (bankKey b ·)).find? (fun k => (s.slot k).st == .free),
      oldest (x.inbox.filter fun t => t.prio = top) with
  | some k, some t =>
    let s := s.onBank b fun x => match x.router with
      | [] => { x with inbox := x.inbox.erase t }
      | m :: rest => { x with inbox := x.inbox.erase t ++ [m], router := rest }
    match s.bankRecord b t with
    | .ok t => ((s.onSlot k fun sl => { sl with st := .starting, task := some t }).emit (.taskStart k)).emit
        (.taskSelect (16384 + b))
    | .error c => (s.refuseBank b t c).emit (.taskSelect (16384 + b))
  | _, _ => s

/-- A message or a call arrives at a core or at a bank unit. -/
def State.arrive_ (s : State) (target : Nat) (m : Task) : State :=
  if 16384 ≤ target then s.arriveBank (target - 16384) m else s.arriveAt target m

/-! ## Footprint pins (R80) -/

/-- Two ranges of a core's scratchpad overlap. -/
def pinMeets (a b : Nat × Nat) : Bool := a.1 < b.1 + b.2 && b.1 < a.1 + a.2

/-- The ranges that other tasks of a core keep pinned. -/
def State.pinned (s : State) (n : Nat) (but : Nat) : List (Nat × Nat) :=
  let c := s.core n
  let ofTask (t : Task) : List (Nat × Nat) := if t.dealt = some but || t.kind = 7 then [] else t.pins
  (c.runq.flatMap ofTask) ++ ((List.range 4).flatMap fun h => match (s.slot (slotKey n h)).task with
    | some t => ofTask t
    | none => []) ++ (c.kept.filter fun e => e.1 != but).map (·.2)

/-- Tasks of a core that wait for their footprints look again. -/
def State.recheckFeet (s : State) (n : Nat) : State :=
  match (s.core n).grid with
  | none => s
  | some g => s.emits (((s.core n).runq.filter fun t => t.age = 0 && t.kind = 0).map fun t =>
      .footprintCopy g n (t.dealt.getD 0))

/-- The pins of a dealt task are released, on whichever core they lie (R231, R242). -/
def State.releasePins (s : State) (n : Nat) (t : Task) : State :=
  match t.dealt with
  | none => s
  | some l =>
    if t.pins = [] then s
    else if t.kind = 7 then
      match s.cores.find? fun e => e.2.grid = (s.core n).grid && e.2.kept.any fun p => p.1 = l with
      | some e => (s.onCore e.1 fun c => { c with kept := c.kept.filter fun p => p.1 != l }).recheckFeet e.1
      | none => s
    else s.recheckFeet n

/-! ## The end of a task and of a grid (R77, R83, R231, R398) -/

/-- The trigger count falls by one; at 0 before Ending the successors are released (R83). -/
def State.decTrigger (s : State) (g : Nat) : State :=
  match s.grid g with
  | none => s
  | some x =>
    if x.trig = 0 then s
    else
      let s := s.onGrid g fun x => { x with trig := x.trig - 1 }
      if x.trig = 1 && !x.released && x.st != .ending && x.st != .done then s.emit (.triggerRelease g) else s

/-- The cores of a grid. -/
def State.coresOf (s : State) (g : Nat) : List (Nat × Core) := s.cores.filter fun e => e.2.grid == some g

/-- No task of a grid is left, a migrating or stolen one among them, and every engine command has completed or stopped (R77, R398). -/
def State.gridIdle (s : State) (g : Nat) : Bool :=
  !(s.coming.any fun e => match e with
    | .migrateArrival _ t | .stealRequest _ _ (some (some t)) => t.grid = g
    | _ => false) &&
  (s.coresOf g).all fun e =>
    !((e.2.inbox ++ e.2.router).any fun t => t.kind = 7) && e.2.runq = [] && e.2.deque = [] && e.2.muq = [] &&
      e.2.vq = [] && e.2.xq = [] && (e.2.cq.all (·.stopped)) &&
      (List.range 4).all fun h => match (s.slot (slotKey e.1 h)).st with
        | .free => true
        | _ => false

/-- A running grid whose last task has ended goes to Ending (R77). -/
def State.checkGridEnd (s : State) (g : Nat) : State :=
  match s.grid g with
  | none => s
  | some x =>
    if x.st == .running && x.undealt = [] && s.gridIdle g then
      (s.onGrid g fun x => { x with st := .ending }).emit (.completionRelease g)
    else s

/-- A crossbar command without a register for its result. -/
def XuCmd.noResult (x : XuCmd) : XuCmd :=
  match x.op with
  | .prog _ row0 n off => { x with op := .prog 0 row0 n off }
  | _ => x

/-- A strand's slot becomes Free at `exit` (R398, R231): a stopped copy that it has not resumed is abandoned (R267). -/
def State.exitSlot (s : State) (k : Nat) : State :=
  let n := coreOf k
  let s := (s.flushBarrier k).handBack k
  let task := (s.slot k).task
  let s := match task with
    | some t => match t.route with
      | some r => if r.posted || !t.replied then s.answerCall (slotAgent k) t r .none .none [] else s
      | none => s
    | none => s
  let s := s.onSlot k fun sl => { sl.fresh with st := .free, task := none }
  let s := (s.onCore n fun c => { c with
    board := c.board.filter fun b => b.slot != k
    vq := c.vq.map fun v => if v.slot = k then { v with gd := 0 } else v
    xq := c.xq.map fun x => if x.slot = k then x.noResult else x
    cq := c.cq.map fun q => if q.slot = k && (q.stopped || q.stream.isSome) then { q with ending := some (3, 0, 0) } else q })
  let s := if (s.core n).cq.any (·.ending.isSome) then s.emit (.copyChunk (clusterOf n)) else s
  let s := match task with
    | some t =>
      let s := s.releasePins n t
      if t.dealt.isSome && !t.triggered then s.decTrigger t.grid else s
    | none => s
  let s := if k % 4 = 3 then s.askAnnex n else s.emit (.taskSelect n)
  match (s.core n).grid with
  | some g => s.checkGridEnd g
  | none => s

end Sys2Proof.Machine
end

