-- ==== Sys2Proof/Machine/Cells.lean ====
section
/-! DEFINITION. The typed-cell instructions (spec/19_isa_sync_tasks_remote.md R381-R393): their checks, the request to
the Desk of this device or of another, and the completion with its answer. -/

namespace Sys2Proof.Machine

open Sys2Proof

/-! ## Completion (R382, R383 Table 3) -/

/-- The levels of the instructions that can hold, and of the others (R381, R445). -/
def holders : List Level := [.g, .s]

/-- The cause of a Desk status at a strand (R383 Table 3). -/
def deskFault (st : Nat) : Option Cause :=
  match st with
  | 0 | 1 | 2 | 7 => none
  | 8 => some .holdExhausted
  | 10 => some .type
  | _ => some .cell

/-- The result of an operation with its status (R381 Table 1, R382 Table 2). -/
def cellResult (op : DeskOp) (st val sel : Nat) (elem : List Byte) : Reg :=
  match op with
  | .cadd | .cdisarm | .vsignal | .vbcast => exactData val
  | .query => ⟨BitVec.ofNat 128 (ofBytes ((elem.drop (16 * sel)).take 16)), .exact⟩
  | .barrive | .bsync => exactData (st % 16 + val % 65536 * 2 ^ 16)
  | .lacq | .ltry => exactData (st % 16 + (if st = 0 then val % 2 ^ 32 else 0) * 2 ^ 16)
  | _ => exactData (st % 16)

/-- What `join` does after its count (R397): it returns to the forking code as `jalr g0, 0(lk)` does, or ends the task. -/
def returnForked : Act Unit := do
  let s ← get
  if (s.here.reg 3).data.getLsbD 40 then do
    match s.here.firstMark [1] with
    | some (r, m) => raise (markTrap r m)
    | none => pure ()
    let lk ← source 1
    let t ← jalrTarget lk 0
    let t := t &&& ~~~(1 : Word64)
    checkTarget t
    jumpTo t
  else modify fun s => s.retired.exitSlot s.cur

/-- The same as the end of a `join`: the count has been made when the return traps, and stays. -/
def leaveForked (la : Nat) : Act Unit := fun s =>
  match returnForked s with
  | .error (.trap x u) => .error (.done (u.takeTrap x la))
  | r => r

/-- The element of a pop goes to its area (R392): it is kept in the slot while its write cannot be done, and lost
where the write faults for good. -/
def completePop (la gd : Nat) (area : Reg) (elem : List Byte) : Act Unit := do
  modify fun s => s.onHere fun sl => { sl with popped := some elem }
  let s ← get
  match storeAt area (capAddr area.data) elem .plain 0 [permW] false s with
  | .ok (_, t) => do
    set (t.onHere fun sl => { sl with popped := none })
    modify fun s => (s.writeReg s.cur gd (cellResult .qpop 0 0 0 [])).retire la
  | .error (.trap t u) =>
    let u := if t.cause = .pageFault then u else u.onHere fun sl => { sl with popped := none }
    finishWith (u.takeTrap t la)
  | .error (.done t) => finishWith t
  | .error .wait => finishWith s
  | .error (.again f) => finishWith (f s)

/-- The instruction completes with the answer of its Desk. -/
def completeCell (la gd : Nat) (op : DeskOp) (va : Nat) (area : Option Reg) (joining : Bool) (sel st val : Nat)
    (elem : List Byte) : Act Unit := do
  match deskFault st with
  | some c => raise { cause := c, addr := va, dstat := st }
  | none => pure ()
  if joining then leaveForked la
  else
    match area, op, st with
    | some a, .qpop, 0 | some a, .qtrypop, 0 => completePop la gd a elem
    | _, _, _ => modify fun s => (s.writeReg s.cur gd (cellResult op st val sel elem)).retire la

/-- A refusal before the Desk marks the destination of a fabric-window operation (R386), or ends the grid where a
`join` has no register to mark (R397). -/
def refuseCell (la gd : Nat) (joining : Bool) (m : Mark) : Act Unit := do
  if joining then raise { cause := m.cause, addr := m.addr, rcode := m.rcode, dev := m.dev }
  else modify fun s => ((s.writeReg s.cur gd {}).mark s.cur gd m).retire la

/-! ## The request (R384, R385) -/

/-- The operations that release (R113 Table 4). -/
def DeskOp.releases : DeskOp → Bool
  | .free | .init | .cadd | .carm | .barrive | .bsync | .bpendsub | .lrel | .qpush | .qtrypush | .vwait | .vsignal
  | .vbcast => true
  | _ => false

/-- The operations that can hold (R381 Table 1). -/
def DeskOp.canHold : DeskOp → Bool
  | .cwait | .bwait | .bsync | .lacq | .qpush | .qpop | .vwait => true
  | _ => false

/-- The unsent count of `stbar` goes to its barrier before the next Desk request (R368, R384). -/
def flushFirst : Act Unit := do
  let s ← get
  if s.here.unsent != 0 then waitAfter fun o => o.flushBarrier o.cur
  let me := s.waiterOf s.cur
  if s.coming.any fun e => match e with
      | .bpendadd r => r.who = me
      | _ => false then waitHere

/-- The slot waits for an answer (R385). -/
def State.awaitCell (s : State) (op : DeskOp) (seq gd va pa la : Nat) (area : Option Reg) (joining : Bool) : State :=
  s.onHere fun sl => { sl with
    st := if op.canHold then .held else sl.st
    await := some (.cell seq op gd va pa area joining la) }

/-- The request of the issuing slot. -/
def State.cellRequest (s : State) (r : DeskReq) (va pa : Nat) : DeskReq :=
  { r with va := va, pa := pa, ctx := s.ctxOf s.cur, who := s.waiterOf s.cur, seq := s.fresh, prio := s.here.prio,
           qos := s.here.qos }

/-- A cell request sent to another device: behind the requester's requests that were refused there (R112). -/
def State.sendCell (s : State) (p : Packet) (who : Waiter) (cluster : Nat) : State :=
  if s.resend.any fun e => e.1 = who && match e.2 with
      | .fabricPacket q => q.dst = p.dst
      | _ => false then
    { s with resend := s.resend ++ [(who, .fabricPacket { p with cluster := cluster })] }
  else s.send p cluster

/-- A request to another device (R138, R386): its deadline runs from now. -/
def askRemote (la gd : Nat) (op : DeskOp) (va dev addr : Nat) (r : DeskReq) (area : Option Reg) (joining : Bool) :
    Act Unit := modify fun s =>
  let q := s.cellRequest r addr untranslated
  let pa := if op = .query then r.phase else untranslated
  let t := (s.drawn.awaitCell op s.fresh gd va pa la area joining).onHere fun sl => { sl with
    due := s.time + sl.deadline }
  let t := t.emit (.replyDeadline (coreOf s.cur) s.fresh)
  if s.upPorts = [] then t.emit (.memoryReply { core := coreOf s.cur, entry := s.fresh, status := .noRoute })
  else t.sendCell { dst := dev, addr := addr, ctx := s.ctxOf s.cur, qos := s.here.qos, core := coreOf s.cur, entry := s.fresh,
                    op := .cell op q } q.who (slotAgent s.cur).router

/-- A request to the Desk of this device, at a physical address. -/
def askDesk (la gd : Nat) (op : DeskOp) (va pa : Nat) (r : DeskReq) (area : Option Reg) (joining : Bool) : Act Unit := do
  let s ← get
  let q := s.cellRequest r va pa
  match s.drawn.desk op q with
  | (.park, _) => waitHere
  | (.held, t) => set (t.awaitCell op q.seq gd va pa la area joining)
  | (.done st val elem, t) => do
    set (t.onHere fun sl => { sl with popped := none })
    completeCell la gd op va area joining r.phase st val elem

/-- A typed-cell operation on the cell that a capability names, from step 5 of R383 on. `prepare` is what remains to be
done before the request is sent, for the device that performs it (none: this device). -/
def performCell (la gd : Nat) (op : DeskOp) (c : Reg) (area : Option Reg) (joining : Bool)
    (prepare : Option Nat → Act DeskReq) : Act Unit := do
  let va := capAddr c.data
  let s ← get
  match regionOfVA va with
  | .own _ | .grid _ _ _ => trap .cellPlacement va
  | .none => trap .noncanonical va
  | .fabric dev addr =>
    if dev != thisDevice then do
      if op.releases then awaitEarlier true
      flushFirst
      let r ← prepare (some dev)
      askRemote la gd op va dev addr r area joining
    else
      match s.findCell (s.agentOf s.cur).outside addr op with
      | (.fail e, s) => do
        set s
        refuseCell la gd joining ⟨.remoteFault, e, dev, va⟩
      | (.park, _) => waitOutside s s addr
      | (.untyped, _) => raise { cause := .type, addr := va, dstat := 10 }
      | (.cell pa, s) =>
        if (s.granule pa).poison then do
          set s
          refuseCell la gd joining ⟨.remoteFault, .poison, dev, va⟩
        else do
          set s
          if op.releases then awaitEarlier true
          flushFirst
          let r ← prepare none
          askDesk la gd op va pa r area joining
  | .translated =>
    match s.findCell (s.agentOf s.cur) va op with
    | (.fail e, s) => do
      set s
      trap e va
    | (.park, _) => waitOutside s s va
    | (.untyped, _) => raise { cause := .type, addr := va, dstat := 10 }
    | (.cell pa, s) => do
      set s
      if (s.granule pa).poison then trap .poison va
      if op.releases then awaitEarlier true
      flushFirst
      let r ← prepare none
      askDesk la gd op va pa r area joining

/-! ## The checks (R383 steps 2-4) -/

/-- A cell operand (R381): tag 10, OBJ over 32 bytes, G in the fabric window. -/
def cellCap (c : Reg) : Act Unit :=
  let va := capAddr c.data
  if capOk c va 32 (withG [permOBJ] va) then pure () else trap .capability va

/-- An address must be a multiple of `n`. -/
def alignTo (n va : Nat) : Act Unit := if va % n != 0 then trap .alignment va else pure ()

/-- An instruction whose only operands are its cell and registers of data. -/
def plainCell (la : Look) (gd gs1 : RegNo) (others : List RegNo) (op : DeskOp) (request : List Reg → DeskReq) :
    Act Unit := do
  enter (if op.canHold then holders else everywhere) (gs1 :: others) [gd]
  let c ← exactSource gs1
  let vs ← sources others
  if vs.any fun v => v.tag = .bounded then trap .boundedValue
  cellCap c
  alignTo 32 (capAddr c.data)
  performCell la.toNat gd.toNat op c none false fun _ => pure (request vs)

/-- The signed value in bits [63:0]. -/
def signedLow (r : Reg) : Int := (lo64 r.data).toInt

/-! ## Initialise, free, query (R387, R388) -/

def execCntInit (gd gs1 gs2 : RegNo) (s : State) : Answered :=
  settle 0 (plainCell 0 gd gs1 [gs2] .init fun vs => { ctype := 1, n := signedLow (vs.getD 0 {}) }) s

/-- R387. `bar.init`: gs2 + 1 is read only when the rectangle flag is set. For a cell of another device the requester's device holds
the rectangle against its grid (R121), and sends an empty one where it does not fit. -/
def execBarInit (gd gs1 gs2 : RegNo) (s : State) : Answered :=
  settle 0 (do
    enter everywhere [gs1, gs2] [gd]
    let c ← exactSource gs1
    let v ← exactSource gs2
    let w := v.data.toNat
    let rect ← if bit w 48 then do
        enter everywhere [gs2 + 1] []
        let sc ← exactSource (gs2 + 1)
        match scopeOf sc.data with
        | some (.rect x0 y0 x1 y1) => pure (some (x0, y0, x1, y1))
        | _ => trap .scope
      else pure none
    cellCap c
    alignTo 32 (capAddr c.data)
    performCell 0 gd.toNat .init c none false fun away => do
      let s ← get
      let rect := match away, rect with
        | some _, some r => some (if s.rectInside ((s.gridOf s.cur).getD 0xFFFF) r then r else (1, 0, 0, 0))
        | _, r => r
      pure { ctype := 2, total := bits w 31 0, cmask := bits w 47 32, rect := rect }) s

def execLckInit (gd gs1 : RegNo) (s : State) : Answered :=
  settle 0 (plainCell 0 gd gs1 [] .init fun _ => { ctype := 3 }) s

/-- R387. `que.init`: the buffer capability covers the ring when the element size is not reserved. -/
def execQueInit (gd gs1 gs2 : RegNo) (s : State) : Answered :=
  settle 0 (do
    enter everywhere [gs1, gs2, gs2 + 1] [gd]
    let c ← exactSource gs1
    let b ← exactSource gs2
    let w ← exactSource (gs2 + 1)
    let cap := bits w.data.toNat 15 0
    let esz := bits w.data.toNat 18 16
    let buf := capAddr b.data
    cellCap c
    if !capOk b buf (if esz ≤ 4 then cap * 2 ^ (esz + 3) else 0) (withG [permR, permW] buf) then trap .capability buf
    alignTo 32 (capAddr c.data)
    performCell 0 gd.toNat .init c none false fun _ => pure { ctype := 4, buf := buf, cap := cap, esz := esz }) s

def execCndInit (gd gs1 : RegNo) (s : State) : Answered :=
  settle 0 (plainCell 0 gd gs1 [] .init fun _ => { ctype := 5 }) s
def execCellFree (gd gs1 : RegNo) (s : State) : Answered :=
  settle 0 (plainCell 0 gd gs1 [] .free fun _ => {}) s

/-- R388. `cell.query`: the half of the image that the immediate selects. -/
def execCellQuery (la : Look) (gd gs1 : RegNo) (sel : BitVec 5) (s : State) : Answered :=
  settle la.toNat (plainCell la gd gs1 [] .query fun _ => { phase := sel.toNat % 2 }) s

/-! ## Counters (R389) -/

def execCntAdd (la : Look) (gd gs1 gs2 : RegNo) (s : State) : Answered :=
  settle la.toNat (plainCell la gd gs1 [gs2] .cadd fun vs => { n := signedLow (vs.getD 0 {}) }) s
def execCntWait (la : Look) (gd gs1 : RegNo) (s : State) : Answered :=
  settle la.toNat (plainCell la gd gs1 [] .cwait fun _ => {}) s
def execCntDisarm (la : Look) (gd gs1 : RegNo) (s : State) : Answered :=
  settle la.toNat (plainCell la gd gs1 [] .cdisarm fun _ => {}) s

/-- The target of a continuation (R389 Table 4, R119, R447): the issuing core, or the grid core at (x, y). -/
def continuationTarget (w : Nat) : Act Waiter := do
  let s ← get
  if bit w 7 then
    match levelOf s.cur with
    | .s => illegal
    | .b => trap .window (bits w 63 0)
    | _ =>
      let g := (s.gridOf s.cur).getD 0xFFFF
      match s.gridCore g (bits w 23 8) (bits w 39 24) with
      | some _ => pure ⟨thisDevice, 1, g, bits w 23 8, bits w 39 24, 0⟩
      | none => trap .window (bits w 63 0)
  else pure { s.waiterOf s.cur with slot := 0 }

/-- R389. `cnt.arm`: the control word stands in gd on entry. -/
def execCntArm (la : Look) (gd gs1 gs2 : RegNo) (s : State) : Answered :=
  settle la.toNat (do
    enter everywhere [gs1, gs2, gd] [gd]
    let c ← exactSource gs1
    let rec_ ← exactSource gs2
    let ctl ← exactSource gd
    let w := ctl.data.toNat
    let cont := capAddr rec_.data
    cellCap c
    if !capOk rec_ cont 64 (withG [permR] cont) then trap .capability cont
    alignTo 32 (capAddr c.data)
    alignTo 64 cont
    let target ← continuationTarget w
    performCell la.toNat gd.toNat .carm c none false fun _ => do
      let s ← get
      pure { cont := cont, cls := bits w 3 0, cprio := min (bits w 6 4) s.here.prio, target := target }) s

/-! ## Barriers and locks (R390, R391) -/

def execBarArrive (la : Look) (gd gs1 : RegNo) (s : State) : Answered :=
  settle la.toNat (plainCell la gd gs1 [] .barrive fun _ => {}) s
def execBarWait (la : Look) (gd gs1 gs2 : RegNo) (s : State) : Answered :=
  settle la.toNat (plainCell la gd gs1 [gs2] .bwait fun vs => { phase := bits (vs.getD 0 {}).data.toNat 31 16 }) s
def execBarSync (la : Look) (gd gs1 : RegNo) (s : State) : Answered :=
  settle la.toNat (plainCell la gd gs1 [] .bsync fun _ => {}) s
def execLckAcq (la : Look) (gd gs1 : RegNo) (s : State) : Answered :=
  settle la.toNat (plainCell la gd gs1 [] .lacq fun _ => {}) s
def execLckTry (la : Look) (gd gs1 : RegNo) (s : State) : Answered :=
  settle la.toNat (plainCell la gd gs1 [] .ltry fun _ => {}) s
def execLckRel (la : Look) (gd gs1 : RegNo) (s : State) : Answered :=
  settle la.toNat (plainCell la gd gs1 [] .lrel fun _ => {}) s

/-! ## Queues (R392) -/

/-- The length of an element area: the largest of 8, 16, 32, 64 and 128 within its bounds; 0 where it holds less
than 8. -/
def areaLength (a : Reg) : Nat :=
  match decodeBounds a.data with
  | none => 0
  | some (_, top) =>
    let room := top - capAddr a.data
    if 128 ≤ room then 128 else if 64 ≤ room then 64 else if 32 ≤ room then 32 else if 16 ≤ room then 16
    else if 8 ≤ room then 8 else 0

/-- The element of a push, read at issue with the checks of a load: an area of another device is read first, and the
push begins again with what came (the element waits in the slot). -/
def readArea (a : Reg) (n : Nat) : Act (List Byte) := do
  let s ← get
  let ea := capAddr a.data
  match s.here.popped with
  | some bs => pure bs
  | none =>
    match ← fetch a ea n 0 [permR] .read with
    | .got g => if g.bnd then trap .boundedValue else pure g.bytes
    | .mark m => raise { cause := m.cause, addr := m.addr, rcode := m.rcode, dev := m.dev }
    | .away dev addr => do
      expectReply 0 0 .element ea { dst := dev, addr := addr, op := .load n }
      holdForReply
      finishWith (← get)

/-- The body of the queue instructions. -/
def queueOp (la : Look) (gd gs1 gs2 : RegNo) (op : DeskOp) (push : Bool) : Act Unit := do
  enter (if op.canHold then holders else everywhere) [gs1, gs2] [gd]
  let c ← exactSource gs1
  let a ← exactSource gs2
  let s ← get
  match push, s.here.popped with
  | false, some e => completePop la.toNat gd.toNat a e
  | _, _ => do
    let n := areaLength a
    let ea := capAddr a.data
    cellCap c
    if n = 0 || !capOk a ea n (withG [if push then permR else permW] ea) then trap .capability ea
    alignTo 32 (capAddr c.data)
    alignTo 8 ea
    performCell la.toNat gd.toNat op c (if push then none else some a) false fun _ => do
      if push then do
        let e ← readArea a n
        pure { elem := e, elen := n }
      else pure { elen := n }

def execQuePush (la : Look) (gd gs1 gs2 : RegNo) (s : State) : Answered :=
  settle la.toNat (queueOp la gd gs1 gs2 .qpush true) s
def execQuePop (la : Look) (gd gs1 gs2 : RegNo) (s : State) : Answered :=
  settle la.toNat (queueOp la gd gs1 gs2 .qpop false) s
def execQueTrypush (la : Look) (gd gs1 gs2 : RegNo) (s : State) : Answered :=
  settle la.toNat (queueOp la gd gs1 gs2 .qtrypush true) s
def execQueTrypop (la : Look) (gd gs1 gs2 : RegNo) (s : State) : Answered :=
  settle la.toNat (queueOp la gd gs1 gs2 .qtrypop false) s

/-! ## Conditions (R393) -/

/-- The lock of a wait as the request carries it: its physical address on this device, its address on the device of the
condition (R383 step 6). -/
def lockPlace (l : Nat) (away : Option Nat) : Act Nat := do
  let s ← get
  let here (addr : Nat) : Act Nat := do
    match s.findCell (s.agentOf s.cur) addr .lrel with
    | (.cell pa, s) => do
      set s
      if (s.granule pa).poison then trap .poison l else pure pa
    | (.untyped, _) => raise { cause := .type, addr := l, dstat := 10 }
    | (.park, _) => waitOutside s s addr
    | (.fail e, _) => trap e l
  match regionOfVA l, away with
  | .fabric dev addr, some d => if dev = d then pure addr else trap .cellPlacement l
  | .fabric dev addr, none => if dev = thisDevice then here addr else trap .cellPlacement l
  | _, some _ => trap .cellPlacement l
  | _, none => here l

/-- R393. `cnd.wait`. -/
def execCndWait (la : Look) (gd gs1 gs2 : RegNo) (s : State) : Answered :=
  settle la.toNat (do
    enter holders [gs1, gs2] [gd]
    let c ← exactSource gs1
    let l ← exactSource gs2
    cellCap c
    cellCap l
    alignTo 32 (capAddr c.data)
    alignTo 32 (capAddr l.data)
    performCell la.toNat gd.toNat .vwait c none false fun away => do
      let lock ← lockPlace (capAddr l.data) away
      pure { lock := lock }) s

def execCndSignal (la : Look) (gd gs1 : RegNo) (s : State) : Answered :=
  settle la.toNat (plainCell la gd gs1 [] .vsignal fun _ => {}) s
def execCndBcast (la : Look) (gd gs1 : RegNo) (s : State) : Answered :=
  settle la.toNat (plainCell la gd gs1 [] .vbcast fun _ => {}) s

/-! ## Answers (R133, R385) -/

/-- An answer applied to a slot that awaits it (R385, R386); any other answer is discarded. -/
def State.cellAnswered (s : State) (k : Nat) (a : Answer) : State :=
  match (s.slot k).await with
  | some (.cell seq op gd va pa area joining la) =>
    if seq != a.seq then s
    else
      let t := ({ s with cur := k } : State).onSlot k fun sl => { sl with
        st := if sl.st = .held then .running else sl.st, await := none, due := 0 }
      let sel := if op = .query then pa else 0
      let t := match completeCell la gd op va area joining sel a.st a.val a.elem t with
        | .ok (_, u) => u
        | .error (.trap x u) => u.takeTrap x la
        | .error .wait => t
        | .error (.again f) => f t
        | .error (.done u) => u
      { t with cur := s.cur }
  | _ => s

/-- A refusal of a remote cell request, or the lapse of its deadline (R386): the destination is marked. -/
def State.cellRefused (s : State) (k : Nat) (m : Mark) : State :=
  match (s.slot k).await with
  | some (.cell _ _ gd va _ _ joining la) =>
    let t := ({ s with cur := k } : State).onSlot k fun sl => { sl with
      st := if sl.st = .held then .running else sl.st, await := none, due := 0 }
    let t := match refuseCell la gd joining { m with addr := va } t with
      | .ok (_, u) => u
      | .error (.trap x u) => u.takeTrap x la
      | .error .wait => t
      | .error (.again f) => f t
      | .error (.done u) => u
    { t with cur := s.cur }
  | _ => s

end Sys2Proof.Machine
end

