-- ==== Sys2Proof/Machine/BankUnit.lean ====
section
/-! DEFINITION. Row operations of a bank unit (spec/10_bank_units.md R199-R205). -/

namespace Sys2Proof.Machine

open Sys2Proof

/-! ## The control word (R201 Table 5) -/

/-- The composed operations that read source B. -/
def rowReadsB (op : Nat) : Bool := op = 2 || op = 4 || op = 5

/-- The rows that each operand names: n for `radd` and `rmul`, m for the others. -/
def rowCount (w : Nat) : Nat := if bits w 3 0 = 4 || bits w 3 0 = 5 then bits w 8 4 + 1 else bits w 14 9 + 1

/-- A control word is allowed (R203 check 1). -/
def rowWordOk (w : Nat) : Bool := bits w 3 0 ≤ 6 && w / 2 ^ 15 = 0 && (bits w 3 0 != 5 || bits w 8 4 ≤ 15)

/-! ## Rows (R199, R203) -/

/-- The virtual addresses of the rows of an operand. -/
def rowVAs (c : Reg) (n : Nat) : List Nat := (List.range n).map fun i => capAddr c.data + 1024 * i

/-- A row translated (R203 checks 3 and 4): its leaf entry and its physical address. -/
def rowFind (acq : Bool) (u : Use) (va : Nat) : Act (Leaf × Nat) := do
  let s ← get
  match regionOfVA va with
  | .translated =>
    match s.translate (s.cacheFor (s.agentOf s.cur) va) (s.ctxOf s.cur) va with
    | (.park, _) => waitAfter fun o => o.parkAccess s.cur (s.ctxOf s.cur) va
    | (.fail c, _) => trap c va
    | (.leaf l _, s') =>
      match s'.leafCheck l va acq u with
      | some c => trap c va
      | none => do
        set s'
        pure (l, l.frame + (va - l.base))
  | .own _ | .grid _ _ _ => trap .window va
  | .fabric _ _ => trap .channel va
  | .none => trap .noncanonical va

/-- The rows of an operand translated in ascending order. -/
def rowsFind (acq : Bool) (u : Use) : List Nat → Act (List (Leaf × Nat))
  | [] => pure []
  | va :: rest => do
    let r ← rowFind acq u va
    let rs ← rowsFind acq u rest
    pure (r :: rs)

/-- The subarray of a row: bank and subarray of its channel address (R199). -/
def State.subarray (s : State) (pa : Nat) : Nat := bits (s.channel pa).2 30 19

/-- Every row of a list lies in one subarray. -/
def State.oneSubarray (s : State) : List Nat → Bool
  | [] => true
  | r :: rs => rs.all fun x => s.subarray x = s.subarray r

/-- The same-subarray column of R202 Table 7. -/
def State.rowsTogether (s : State) (op : Nat) (d a b : List Nat) : Bool :=
  let pairs (x y : List Nat) : Bool := (List.range x.length).all fun i => s.subarray (x.getD i 0) = s.subarray (y.getD i 0)
  match op with
  | 0 | 3 => pairs d a
  | 2 => pairs d a && pairs d b
  | 4 | 5 => s.oneSubarray (d ++ a ++ b)
  | _ => true

/-- A destination row is also a source row (R203 check 7). -/
def rowsOverlap (op : Nat) (d a b : List Nat) : Bool :=
  let srcs := if op = 1 then [] else if rowReadsB op then a ++ b else a
  let same := (op = 3 || op = 4) && (d.head? == a.head? || (rowReadsB op && d.head? == b.head?))
  !same && d.any fun r => srcs.contains r

/-- A row holds a poisoned word. -/
def State.rowPoisoned (s : State) (r : Nat) : Bool := s.anyGranule r 1024 (·.poison)

/-- The status of R201 Table 6. -/
def State.rowStatus (s : State) (op : Nat) (d a b : List Nat) : Nat :=
  if !s.rowsTogether op d a b then 1
  else if rowsOverlap op d a b then 2
  else if d.any fun r => s.anyGranule r 1024 (·.ctype != 0) then 3
  else 0

/-! ## Coherence (R204) -/

/-- The lines of a row. -/
def linesOfRow (r : Nat) : List Nat := (List.range 8).map fun i => lineOf r + i

/-- A line is held in a slice, in the cache portion of a core or in a pool of portions. -/
def State.lineHeld (s : State) (l : Nat) : Bool :=
  (look ({} : Line) s.lines l).valid != 0 || s.cores.any fun e => e.2.lines.contains l || e.2.pooled.contains l

/-- Source lines made clean, destination lines made invalid; pins stay. -/
def State.cohere (s : State) (d srcs : List Nat) : State :=
  let dl := d.flatMap linesOfRow
  let sl := srcs.flatMap linesOfRow
  { s with
    lines := s.lines.map fun e =>
      if dl.contains e.1 then (e.1, { e.2 with valid := 0, dirty := 0 })
      else if sl.contains e.1 then (e.1, { e.2 with dirty := 0 }) else e
    cores := s.cores.map fun e => (e.1, { e.2 with
      lines := e.2.lines.filter fun l => !dl.contains l, pooled := e.2.pooled.filter fun l => !dl.contains l }) }

/-! ## The instruction (R201, R203) -/

/-- R201. `rowop`: the checks in their order; the operation begins, and its slot awaits the completion. -/
def execRowop (la : Look) (gd gs1 gs2 : RegNo) (s : State) : Answered :=
  settle la.toNat (do
    enter [.b] [gd, gs1, gs2] [gd]
    let w ← exactSource gd
    let op := bits w.data.toNat 3 0
    if !rowWordOk w.data.toNat then trap .rowFormat
    let two := rowReadsB op
    if two && (gs2 = 0 || gs2 = 31) then illegal
    if two then enter [.b] [gs2 + 1] []
    let d ← source gs1
    let a ← source gs2
    let b ← if two then source (gs2 + 1) else pure {}
    let n := rowCount w.data.toNat
    let check (c : Reg) (p : Nat) : Act Unit :=
      if capOk c (capAddr c.data) (1024 * n) [p] && capAddr c.data % 1024 = 0 then pure () else trap .capability (capAddr c.data)
    check d permW
    check a permR
    if two then check b permR
    let ds ← rowsFind (acqOf d) .write (rowVAs d n)
    let as_ ← if op = 1 then pure [] else rowsFind (acqOf a) .read (rowVAs a n)
    let bs ← if two then rowsFind (acqOf b) .read (rowVAs b n) else pure []
    let all := ds ++ as_ ++ bs
    if all.any fun r => !r.1.rl || r.1.cm || r.1.el then trap .placement (capAddr d.data)
    let s ← get
    if all.any fun r => s.bankOfPA r.2 != bankOf s.cur then trap .channel (capAddr d.data)
    let dr := ds.map (·.2)
    let ar := as_.map (·.2)
    let br := bs.map (·.2)
    if dr.any (fun r => s.mustWait s.cur 0 (.mem r) 1024 true) || (ar ++ br).any (fun r => s.mustWait s.cur 0 (.mem r) 1024 false) then
      waitHere
    if (s.bank (bankOf s.cur)).rowop.isSome then waitHere
    let eats := (if 2 ≤ op && op ≤ 5 then ar ++ br else []) ++ (if op = 2 then dr else [])
    let s := if s.flips = [] then s else eats.foldl (fun s r => s.mendMemory r 1024) s
    set s
    if eats.any s.rowPoisoned then trap .poison (capAddr d.data)
    match s.rowStatus op dr ar br with
    | 0 =>
      let inv := ((dr.flatMap linesOfRow).filter s.lineHeld).length
      let r : RowOp := { slot := s.cur, op := op, d := dr, a := ar, b := br, inv := inv }
      set ((((s.cohere dr (ar ++ br)).onBank (bankOf s.cur) fun x => { x with rowop := some r }).onHere fun sl =>
        { sl with await := some (.rowop gd.toNat la.toNat) }).emit (.rowOpComplete (bankOf s.cur)))
    | st => do
      result gd (exactData st)
      retire la) s

/-! ## The composed operations (R202, R205) -/

/-- The eight further rows of the subarray of a row (R199): the zero row, the ones row, two dual-contact rows, T0 to T3. -/
def zeroRow : Nat := 0
def onesRow : Nat := 1
def contactRow : Nat := 2
def tempRow (i : Nat) : Nat := 4 + i
def State.spare (s : State) (pa i : Nat) : List Byte :=
  if i = zeroRow then List.replicate 1024 0
  else if i = onesRow then List.replicate 1024 0xFF
  else look (List.replicate 1024 0) (s.bank (s.bankOfPA pa)).rows (8 * s.subarray pa + i)
def State.setSpare (s : State) (pa i : Nat) (bs : List Byte) : State :=
  s.onBank (s.bankOfPA pa) fun b => { b with rows := put b.rows (8 * s.subarray pa + i) bs }

/-- Soft errors that have struck a row are gone: its words have been written anew. -/
def State.rowClean (s : State) (d : Nat) : State :=
  { s with flips := s.flips.filter fun f => match f.at_ with
      | .memory q | .slice q => !meets q 32 d 1024
      | _ => true }

/-- Every bit of a row copied onto another, its check bits and metadata among them (R200, R203): a soft error in a word of the source
goes with it. -/
def State.rowCopy (s : State) (d a : Nat) : State :=
  let carried := s.flips.filterMap fun f => match f.at_ with
    | .memory q => if meets q 32 a 1024 then some { f with at_ := .memory (d + (q - a)) } else none
    | _ => none
  let t := (s.store d (s.bytes a 1024)).rowClean d
  (List.range 32).foldl (fun t i => t.onGranule (d + 32 * i) fun _ => s.granule (a + 32 * i)) { t with flips := t.flips ++ carried }

/-- A row written with valid check bits and zero metadata. -/
def State.rowWrite (s : State) (d : Nat) (bs : List Byte) : State :=
  ((s.store d bs).rowClean d).onGranules d 1024 fun _ _ => {}

/-- Element `e` of an operand in the vertical layout (R205): its lowest bit in the first row. -/
def vertical (rows : List (List Byte)) (e : Nat) : Nat :=
  rows.foldr (fun r v => 2 * v + (if (r.getD (e / 8) 0).getLsbD (e % 8) then 1 else 0)) 0

/-- A row of a result in the vertical layout: bit `i` of every element. -/
def verticalRow (vs : List Nat) (i : Nat) : List Byte :=
  (List.range 1024).map fun b => BitVec.ofNat 8
    ((List.range 8).foldl (fun v j => v + (if bit (vs.getD (8 * b + j) 0) i then 2 ^ j else 0)) 0)

/-- The majority of three bytes, bit by bit. -/
def majority (a b d : Byte) : Byte := (a &&& b) ||| (a &&& d) ||| (b &&& d)

/-- Bytes of rows combined. -/
def rowsWith (f : Byte → Byte → Byte → Byte) (x y z : List Byte) : List Byte :=
  (List.range 1024).map fun j => f (x.getD j 0) (y.getD j 0) (z.getD j 0)

/-- One row of `rmaj`: A, B and D in the temporary rows, set to their majority, which goes to D. -/
def State.rowMajority (s : State) (d a b : Nat) : State :=
  let m := rowsWith majority (s.bytes a 1024) (s.bytes b 1024) (s.bytes d 1024)
  ((((s.setSpare d (tempRow 0) m).setSpare d (tempRow 1) m).setSpare d (tempRow 2) m)).rowWrite d m

/-- One row of `rnot`: the complement of A in a dual-contact row, which goes to D. -/
def State.rowNot (s : State) (d a : Nat) : State :=
  let n := (s.bytes a 1024).map fun b => ~~~b
  (s.setSpare d contactRow n).rowWrite d n

/-- One row of `radd`: the bits of A and B with the carry of the row below, kept in T3 of the subarray of D. -/
def State.rowAdd (s : State) (t d a b : Nat) : State :=
  let x := s.bytes a 1024
  let y := s.bytes b 1024
  let c := s.spare t (tempRow 3)
  (s.setSpare t (tempRow 3) (rowsWith majority x y c)).rowWrite d (rowsWith (fun x y c => x ^^^ y ^^^ c) x y c)

/-- Rows taken into the base-die buffer (R190). -/
def State.rowBuffer (s : State) (rows : List Nat) : State :=
  match rows with
  | [] => s
  | r :: _ =>
    let bs := rows.flatMap fun a => s.bytes a 1024
    s.onBank (s.bankOfPA r) fun b => { b with
      buffer := (((List.range bs.length).zip bs).filter fun e => e.2 != 0) ++ b.buffer.filter fun e => bs.length ≤ e.1 }

/-- The effect of a row operation (R202 Table 7), row by row in ascending order. What the temporary rows hold after `rmul`, and the
order of the primitives of `radd`, are the model's choice (notes/assumptions/6.md): every operation writes them before it reads
them. -/
def State.rowEffect (s : State) (r : RowOp) : State :=
  let row (l : List Nat) (i : Nat) : Nat := l.getD i 0
  let each (s : State) (f : State → Nat → State) : State := (List.range r.d.length).foldl f s
  match r.op with
  | 0 => each s fun s i => s.rowCopy (row r.d i) (row r.a i)
  | 1 => each s fun s i => s.rowWrite (row r.d i) (s.spare (row r.d i) zeroRow)
  | 2 => each s fun s i => s.rowMajority (row r.d i) (row r.a i) (row r.b i)
  | 3 => each s fun s i => s.rowNot (row r.d i) (row r.a i)
  | 4 => each (s.setSpare (row r.d 0) (tempRow 3) (s.spare (row r.d 0) zeroRow)) fun s i =>
      s.rowAdd (row r.d 0) (row r.d i) (row r.a i) (row r.b i)
  | 5 =>
    let xs := r.a.map fun p => s.bytes p 1024
    let ys := r.b.map fun p => s.bytes p 1024
    let vs := (List.range 8192).map fun e => vertical xs e * vertical ys e
    each s fun s i => s.rowWrite (row r.d i) (verticalRow vs i)
  | _ => each s fun s i =>
    let s := if i % 8 = 0 then s.rowBuffer ((r.a.drop i).take 8) else s
    s.rowCopy (row r.d i) (row r.a i)

/-- The gd and the lookahead field of the row operation that a slot awaits. -/
def Slot.rowAwait (sl : Slot) : Option (Nat × Nat) :=
  match sl.await with
  | some (.rowop gd la) => some (gd, la)
  | _ => none

/-- The last primitive has been written (R204): the parked accesses proceed, and `rowop` retires. -/
def State.rowDone (s : State) (b : Nat) : State :=
  match (s.bank b).rowop with
  | none => s
  | some r =>
    let s := (s.rowEffect r).onBank b fun x => { x with
      rowop := none
      bstat := BitVec.ofNat 64 (setBits x.bstat.toNat 63 32 (bits x.bstat.toNat 63 32 + 1)) }
    match (s.slot r.slot).rowAwait with
    | none => s
    | some (gd, la) =>
      let t := (s.onSlot r.slot fun sl => { sl with await := none }).writeReg r.slot gd (exactData (r.inv % 65536 * 65536))
      { ({ t with cur := r.slot } : State).retire la with cur := s.cur }

/-- R204. A bank unit completes its row operation. -/
def execRowOpComplete (s : State) : Answered :=
  .next (match s.input with
    | .rowOpComplete b => s.rowDone b
    | _ => s)

end Sys2Proof.Machine
end

