-- ==== Sys2Proof/Machine/Capability.lean ====
section
/-! DEFINITION. Capability instructions (spec/17_isa_integer_control.md R354-R357). -/

namespace Sys2Proof.Machine

open Sys2Proof

/-- The checks of R354 items 1 and 2 on the capability source of an instruction other than `cmov`, `cseal` and
`cget`. -/
def capSource (r : RegNo) : Act Reg := do
  let v ← source r
  if v.tag = .sealed then trap .capability (capAddr v.data)
  refuseBounded v
  pure v

/-- The result keeps tag 10 when the source has it and the condition holds (R354 item 4). -/
def capResult (s : Reg) (d : Word128) (keep : Bool) : Reg := ⟨d, if s.tag == .cap && keep then .cap else .exact⟩

/-- The bounds of two capabilities decode to the same valid pair (R316). -/
def sameBounds (a b : Word128) : Bool := (decodeBounds a).isSome && decodeBounds a == decodeBounds b

/-- A capability moved to another address (R354 Table 7). -/
def moved (s : Reg) (addr : Nat) : Reg :=
  let d := withAddr s.data addr
  capResult s d (sameBounds d s.data)

/-- R354. `cmov`: the register with its tag, whatever it is. -/
def execCmov (_la : Look) (gd gs1 : RegNo) (s : State) : Answered :=
  settle 0 (do
    enter everywhere [gs1] [gd]
    let v ← source gs1
    result gd v
    retire 0) s

/-- R354. `csetaddr`. -/
def execCsetaddr (_la : Look) (gd gs1 gs2 : RegNo) (s : State) : Answered :=
  settle 0 (do
    enter everywhere [gs1, gs2] [gd]
    let v ← capSource gs1
    let b ← exactSource gs2
    result gd (moved v (capAddr b.data))
    retire 0) s

/-- R354. `cincaddr`. -/
def execCincaddr (_la : Look) (gd gs1 gs2 : RegNo) (s : State) : Answered :=
  settle 0 (do
    enter everywhere [gs1, gs2] [gd]
    let v ← capSource gs1
    let b ← exactSource gs2
    result gd (moved v ((lo64 v.data + lo64 b.data).toNat))
    retire 0) s

/-- R354. `cincaddri`: the immediate is signed and scaled by 16. -/
def execCincaddri (_la : Look) (gd gs1 : RegNo) (imm : BitVec 5) (s : State) : Answered :=
  settle 0 (do
    enter everywhere [gs1] [gd]
    let v ← capSource gs1
    result gd (moved v ((lo64 v.data + (imm ++ (0 : BitVec 4)).signExtend 64).toNat))
    retire 0) s

/-- The narrowed capability of R355. -/
def narrowed (s : Reg) (len : Nat) : Reg :=
  let b := capAddr s.data
  let t := b + len
  if 2 ^ 64 < t then ⟨s.data, .exact⟩
  else match encodeBounds b t 0 44 with
    | none => ⟨s.data, .exact⟩
    | some (e, bm, tm, base, top) =>
      capResult s (withFields s.data b e bm tm) (match decodeBounds s.data with
        | some (bs, ts) => bs ≤ base && top ≤ ts
        | none => false)

/-- R355. `csetbnd`. -/
def execCsetbnd (_la : Look) (gd gs1 gs2 : RegNo) (s : State) : Answered :=
  settle 0 (do
    enter everywhere [gs1, gs2] [gd]
    let v ← capSource gs1
    let b ← exactSource gs2
    result gd (narrowed v (capAddr b.data))
    retire 0) s

/-- R354. `candperm`: tag 10 is always kept. -/
def execCandperm (_la : Look) (gd gs1 gs2 : RegNo) (s : State) : Answered :=
  settle 0 (do
    enter everywhere [gs1, gs2] [gd]
    let v ← capSource gs1
    let b ← exactSource gs2
    let m := b.data.toNat % 65536
    result gd (capResult v (v.data &&& BitVec.ofNat 128 (m * 2 ^ 112 + (2 ^ 112 - 1))) true)
    retire 0) s

/-- The sealed handle of R356. -/
def sealedHandle (v : Reg) : Reg :=
  let d := v.data ||| (1 <<< 121 : Word128)
  if v.tag = .sealed then v
  else if v.tag = .cap && hasPerm v.data permX && (decodeBounds v.data).isSome then ⟨d, .sealed⟩
  else ⟨d, .exact⟩

/-- R356. `cseal`: of a bounded source it is refused (R354 item 2). -/
def execCseal (_la : Look) (gd gs1 : RegNo) (s : State) : Answered :=
  settle 0 (do
    enter everywhere [gs1] [gd]
    let v ← exactSource gs1
    result gd (sealedHandle v)
    retire 0) s

/-- The field that a selector of `cget` names (R357 Table 8). -/
def capField (v : Reg) (sel : Nat) : Nat :=
  let b := decodeBounds v.data
  match sel with
  | 0 => capAddr v.data
  | 1 => match b with
    | some (base, _) => base
    | none => 0
  | 2 => match b with
    | some (base, top) => min (top - base) (2 ^ 64 - 1)
    | none => 0
  | 3 => capPerm v.data
  | 4 => bits v.data.toNat 111 106
  | 5 => v.tag.code
  | _ => if b.isSome then 1 else 0

/-- R357. `cget`: exact for the tag, bounded otherwise where the source is. -/
def execCget (_la : Look) (gd gs1 : RegNo) (sel : BitVec 5) (s : State) : Answered :=
  settle 0 (do
    enter everywhere [gs1] [gd]
    let v ← source gs1
    result gd ⟨BitVec.ofNat 128 (capField v sel.toNat), if sel = 5 then .exact else tagOf [v]⟩
    retire 0) s

end Sys2Proof.Machine
end

