-- ==== Sys2Proof/Machine/Float.lean ====
section
/-! DEFINITION. Number formats and exact arithmetic: values of elements, rounding and overflow, the operations of
scalar, vector and matrix units on exact values, and the scalar floating-point instructions
(spec/15_number_formats.md R285-R303, spec/17_isa_integer_control.md R358-R360). -/

namespace Sys2Proof.Machine

open Sys2Proof

/-! ## Exact values -/

/-- The value of an element: NaN, a signed infinity, or a signed dyadic number m * 2^e, whose zero keeps its
sign. -/
inductive Value where
  | nan
  | inf (neg : Bool)
  | fin (neg : Bool) (m : Nat) (e : Int)
  deriving DecidableEq, Repr

/-- A floating-point format (R286 Table 2): fraction bits, exponent bits, bias. E4M3 has no infinity (R287). -/
structure Layout where
  frac : Nat
  exp : Nat
  bias : Nat
  finite : Bool := false
  deriving DecidableEq, Repr

/-- The layout of a floating-point format; none for the integer formats. -/
def Fmt.layout : Fmt → Option Layout
  | .fp32 => some ⟨23, 8, 127, false⟩
  | .fp16 => some ⟨10, 5, 15, false⟩
  | .bf16 => some ⟨7, 8, 127, false⟩
  | .e4m3 => some ⟨3, 4, 7, true⟩
  | .e5m2 => some ⟨2, 5, 15, false⟩
  | _ => none

def Fmt.isFloat (f : Fmt) : Bool := f.layout.isSome

/-- The code of the largest finite value (R286 Table 2). -/
def Layout.largest (l : Layout) : Nat :=
  if l.finite then 2 ^ (l.frac + l.exp) - 2 else 2 ^ (l.frac + l.exp) - 2 ^ l.frac - 1

/-- The code of +infinity. -/
def Layout.infinity (l : Layout) : Nat := (2 ^ l.exp - 1) * 2 ^ l.frac

/-- The canonical NaN (R288). -/
def Layout.canonical (l : Layout) : Nat :=
  if l.finite then 2 ^ (l.frac + l.exp) - 1 else l.infinity + 2 ^ (l.frac - 1)

/-- The exponent of the last place of the smallest normal value. -/
def Layout.floor (l : Layout) : Int := 1 - (l.bias : Int) - l.frac

/-- The value of a code of a floating-point format (R286, R287). -/
def Layout.value (l : Layout) (v : Nat) : Value :=
  let neg := bit v (l.frac + l.exp)
  let e := bits v (l.frac + l.exp - 1) l.frac
  let f := v % 2 ^ l.frac
  if e = 0 then .fin neg f l.floor
  else if l.finite then
    if e = 2 ^ l.exp - 1 && f = 2 ^ l.frac - 1 then .nan else .fin neg (f + 2 ^ l.frac) (l.floor + (e - 1))
  else if e = 2 ^ l.exp - 1 then (if f = 0 then .inf neg else .nan)
  else .fin neg (f + 2 ^ l.frac) (l.floor + (e - 1))

/-- The value of an integer. -/
def Value.ofInt (i : Int) : Value := .fin (i < 0) i.natAbs 0

/-- The exact value of an element (R295): a nested integer is given by its signed value (R292). -/
def Fmt.value (f : Fmt) (v : Nat) : Value :=
  match f with
  | .int8 => Value.ofInt (signed 8 v)
  | .int32 => Value.ofInt (signed 32 v)
  | .ni k => Value.ofInt (signed k v)
  | f => match f.layout with
    | some l => l.value v
    | none => .nan

def Value.isNaN : Value → Bool
  | .nan => true
  | _ => false

def Value.isZero : Value → Bool
  | .fin _ m _ => m = 0
  | _ => false

def Value.negate : Value → Value
  | .nan => .nan
  | .inf n => .inf !n
  | .fin n m e => .fin (!n) m e

/-! ## Rounding (R294-R297) -/

/-- Whether a magnitude between two representable ones goes to the greater: `up` when the lower one is odd, `half`
compares the remainder with one half (-1, 0, 1), `exact` where there is no remainder. -/
def roundsUp (mode : Nat) (neg odd : Bool) (half : Int) (exact : Bool) : Bool :=
  if exact then false else
  match mode with
  | 1 => false
  | 2 => neg
  | 3 => !neg
  | 4 => decide (0 ≤ half)
  | _ => decide (0 < half) || (half = 0 && odd)

/-- A magnitude m * 2^e, increased by less than one place where `sticky`, as a whole number of 2^q with the rest
rounded; the second part says that nothing was lost. -/
def roundAt (mode : Nat) (neg : Bool) (m : Nat) (e : Int) (sticky : Bool) (q : Int) : Nat × Bool :=
  if q ≤ e then
    let n := m * 2 ^ (e - q).toNat
    let up := roundsUp mode neg (n % 2 = 1) (-1) (!sticky)
    (if up then n + 1 else n, !sticky)
  else
    let d := (q - e).toNat
    let n := m / 2 ^ d
    let r := 2 * (m % 2 ^ d)
    let exact := r = 0 && !sticky
    let half : Int := if r < 2 ^ d then -1 else if r = 2 ^ d && !sticky then 0 else 1
    (if roundsUp mode neg (n % 2 = 1) half exact then n + 1 else n, exact)

/-- Overflow gives the infinity rather than the largest finite value (R296). -/
def overflowsToInf (mode : Nat) (neg : Bool) : Bool :=
  match mode with
  | 1 => false
  | 2 => neg
  | 3 => !neg
  | _ => true

/-- The number of bits of a magnitude. -/
def bitLength (m : Nat) : Nat := if m = 0 then 0 else Nat.log2 m + 1

/-- A result with the events that it counts. -/
structure Rounded where
  code : Nat
  tally : Tally := {}
  deriving DecidableEq, Repr

/-- A code with its sign. -/
def Layout.withSign (l : Layout) (neg : Bool) (c : Nat) : Nat := if neg then c + 2 ^ (l.frac + l.exp) else c

/-- An infinite result in a format (R296): E4M3 delivers NaN or, saturating, the largest value; E5M2 saturates. -/
def Layout.infinite (l : Layout) (sat neg : Bool) (overs : Nat) (nanIn : Bool) : Rounded :=
  if sat then ⟨l.withSign neg l.largest, { overs := overs, sat := 1 }⟩
  else if l.finite then ⟨l.canonical, { overs := overs, nan := if nanIn then 0 else 1 }⟩
  else ⟨l.withSign neg l.infinity, { overs := overs }⟩

/-- A magnitude rounded into a floating-point format (R295, R296). -/
def Layout.round (l : Layout) (mode : Nat) (sat neg : Bool) (m : Nat) (e : Int) (sticky : Bool) : Rounded :=
  if m = 0 && !sticky then ⟨l.withSign neg 0, {}⟩
  else
    let q := max ((bitLength m : Int) - (l.frac + 1) + e) l.floor
    let (n, _) := roundAt mode neg m e sticky q
    let code := (q - l.floor).toNat * 2 ^ l.frac + n
    if n = 0 then ⟨l.withSign neg 0, { under := 1 }⟩
    else if l.largest < code then
      if overflowsToInf mode neg then l.infinite sat neg 1 false
      else ⟨l.withSign neg l.largest, { overs := 1 }⟩
    else ⟨l.withSign neg code, {}⟩

/-- An integer result clamped to n bits (R297, R301). -/
def saturate (n : Nat) (i : Int) : Int × Nat :=
  let hi : Int := 2 ^ (n - 1) - 1
  if hi < i then (hi, 1) else if i < -hi - 1 then (-hi - 1, 1) else (i, 0)

/-- A finite value rounded to an integer by a mode. -/
def roundInt (mode : Nat) (neg : Bool) (m : Nat) (e : Int) : Int :=
  let (n, _) := roundAt mode neg m e false 0
  if neg then -(n : Int) else n

/-- A value converted to an integer of n bits (R297). -/
def Value.toInteger (n mode : Nat) : Value → Int × Nat
  | .nan => (0, 1)
  | .inf neg => (if neg then -2 ^ (n - 1) else 2 ^ (n - 1) - 1, 1)
  | .fin neg m e => saturate n (roundInt mode neg m e)

/-- An exact value delivered in a format (R293, R295-R297): `nanIn` when a NaN among the inputs contributed. A nested
integer is rounded and saturated as 8 bits; its code is that byte. -/
def Value.deliver (v : Value) (f : Fmt) (mode : Nat) (sat nanIn : Bool) : Rounded :=
  match f.layout with
  | some l => match v with
    | .nan => ⟨l.canonical, { nan := if nanIn then 0 else 1 }⟩
    | .inf neg => l.infinite sat neg 0 false
    | .fin neg m e => l.round mode sat neg m e false
  | none =>
    let n := if f = .int32 then 32 else 8
    let (i, c) := v.toInteger n mode
    ⟨low n i, { sat := c }⟩

/-! ## Operations on exact values (R289, R295) -/

/-- The sum (R289): an exact zero sum is +0, or -0 in round down; like signs of zero are kept. -/
def Value.add (mode : Nat) (a b : Value) : Value :=
  match a, b with
  | .nan, _ | _, .nan => .nan
  | .inf x, .inf y => if x = y then .inf x else .nan
  | .inf x, _ => .inf x
  | _, .inf y => .inf y
  | .fin x m e, .fin y n f =>
    let g := min e f
    let i : Int := (if x then -1 else 1) * (m * 2 ^ (e - g).toNat : Nat)
    let j : Int := (if y then -1 else 1) * (n * 2 ^ (f - g).toNat : Nat)
    let s := i + j
    if s = 0 then .fin (if x = y then x else mode = 2) 0 0 else .fin (s < 0) s.natAbs g

def Value.sub (mode : Nat) (a b : Value) : Value := a.add mode b.negate

/-- The product. -/
def Value.mul (a b : Value) : Value :=
  match a, b with
  | .nan, _ | _, .nan => .nan
  | .inf x, .inf y => .inf (x != y)
  | .inf x, .fin y n _ => if n = 0 then .nan else .inf (x != y)
  | .fin x m _, .inf y => if m = 0 then .nan else .inf (x != y)
  | .fin x m e, .fin y n f => .fin (x != y) (m * n) (e + f)

/-- A quotient, rounded once into a floating-point format (R358). -/
def Value.divideTo (l : Layout) (mode : Nat) (sat nanIn : Bool) (a b : Value) : Rounded :=
  let nan : Rounded := ⟨l.canonical, { nan := if nanIn then 0 else 1 }⟩
  match a, b with
  | .nan, _ | _, .nan => nan
  | .inf _, .inf _ => nan
  | .inf x, .fin y _ _ => l.infinite sat (x != y) 0 nanIn
  | .fin x _ _, .inf y => ⟨l.withSign (x != y) 0, {}⟩
  | .fin x m e, .fin y n f =>
    if n = 0 then (if m = 0 then nan else l.infinite sat (x != y) 0 nanIn)
    else if m = 0 then ⟨l.withSign (x != y) 0, {}⟩
    else
      let k := bitLength n + 32
      let p := m * 2 ^ k
      l.round mode sat (x != y) (p / n) (e - f - k) (p % n != 0)

/-- The integer square root, by binary digits. -/
def isqrt (n : Nat) : Nat :=
  go (bitLength n / 2 + 1) 0
where
  go : Nat → Nat → Nat
    | 0, r => r
    | i + 1, r => if (r + 2 ^ i) * (r + 2 ^ i) ≤ n then go i (r + 2 ^ i) else go i r

/-- A square root, rounded once (R358). -/
def Value.sqrtTo (l : Layout) (mode : Nat) (nanIn : Bool) (a : Value) : Rounded :=
  let nan : Rounded := ⟨l.canonical, { nan := if nanIn then 0 else 1 }⟩
  match a with
  | .nan => nan
  | .inf neg => if neg then nan else ⟨l.infinity, {}⟩
  | .fin neg m e =>
    if m = 0 then ⟨l.withSign neg 0, {}⟩
    else if neg then nan
    else
      let odd := (e % 2).toNat
      let n := m * 2 ^ (odd + 64)
      let r := isqrt n
      l.round mode false false r ((e - odd - 64) / 2) (r * r != n)

/-- The reciprocal of a square root, rounded once (R430). -/
def Value.rsqrtTo (l : Layout) (mode : Nat) (sat nanIn : Bool) (a : Value) : Rounded :=
  let nan : Rounded := ⟨l.canonical, { nan := if nanIn then 0 else 1 }⟩
  match a with
  | .nan => nan
  | .inf neg => if neg then nan else ⟨0, {}⟩
  | .fin neg m e =>
    if m = 0 then l.infinite sat neg 0 nanIn
    else if neg then nan
    else
      let odd := (e % 2).toNat
      let m := m * 2 ^ odd
      let k := 2 * bitLength m + 80
      let r := isqrt (2 ^ (2 * k) / m)
      l.round mode sat false r (-(e - odd) / 2 - k) (r * r * m != 2 ^ (2 * k))

/-! ## The exponential (R430)

The value is bracketed by integers over a power of two; where both ends of the bracket round alike, that is the
rounded value, and where they do not, which of the two is a free value (notes/assumptions/19.md). -/

/-- The sum of the first terms of the series of e^y for y = p / 2^160, from below or from above. -/
def expSeries (up : Bool) (p : Nat) : Nat → Nat → Nat → Nat → Nat
  | 0, _, t, sum => if up then sum + t + 1 else sum
  | n + 1, i, t, sum =>
    let t := if up then t * p / (i * 2 ^ 160) + 1 else t * p / (i * 2 ^ 160)
    expSeries up p n (i + 1) t (sum + t)

/-- Repeated squaring of a number over 2^160. -/
def expSquare (up : Bool) : Nat → Nat → Nat
  | 0, v => v
  | n + 1, v => expSquare up n (v * v / 2 ^ 160 + (if up then 1 else 0))

/-- e^|x| over 2^160 for x = m * 2^e with |x| < 256: from below or from above. -/
def expBound (up : Bool) (m : Nat) (e : Int) : Nat :=
  let s := e + 160 - 10
  let p := if 0 ≤ s then m * 2 ^ s.toNat
    else m / 2 ^ (-s).toNat + (if up && m % 2 ^ (-s).toNat != 0 then 1 else 0)
  expSquare up 10 (expSeries up p 40 1 (2 ^ 160) (2 ^ 160))

/-- e^a rounded once into a floating-point format. -/
def Value.expTo (l : Layout) (mode : Nat) (sat nanIn tail : Bool) (a : Value) : Rounded :=
  match a with
  | .nan => ⟨l.canonical, { nan := if nanIn then 0 else 1 }⟩
  | .inf neg => if neg then ⟨0, {}⟩ else l.infinite sat false 0 nanIn
  | .fin neg m e =>
    if m = 0 then l.round mode sat false 1 0 false
    else if 8 ≤ (bitLength m : Int) + e then
      if neg then l.round mode sat false 1 (-1000) true else l.round mode sat false 1 1000 true
    else
      let lo := expBound false m e
      let hi := expBound true m e
      let (lo, hi, q) : Nat × Nat × Int :=
        if neg then (2 ^ 720 / hi, 2 ^ 720 / lo + 1, -560) else (lo, hi, -160)
      let low := l.round mode sat false lo q true
      let high := l.round mode sat false (hi - 1) q true
      if low = high || !tail then low else high

/-! ## Comparisons (R359) -/

/-- The exact order of two values that are not NaN: negative, zero or positive as a is below, equal to or above b. -/
def Value.compare (a b : Value) : Int :=
  match a, b with
  | .inf x, .inf y => (if x then -1 else 1) - (if y then -1 else 1)
  | .inf x, _ => if x then -1 else 1
  | _, .inf y => if y then 1 else -1
  | .fin x m e, .fin y n f =>
    let g := min e f
    (if x then -1 else 1) * (m * 2 ^ (e - g).toNat : Nat) - (if y then -1 else 1) * (n * 2 ^ (f - g).toNat : Nat)
  | _, _ => 0

/-- The sign bit of a value. -/
def Value.isNeg : Value → Bool
  | .inf n => n
  | .fin n _ _ => n
  | .nan => false

/-- a comes before b where -0 comes before +0 (R359). -/
def Value.before (a b : Value) : Bool :=
  a.compare b < 0 || (a.compare b = 0 && a.isZero && a.isNeg && !b.isNeg)

/-- The larger or the smaller of two codes by their values; a NaN gives way (R359). -/
def pickCode (f : Fmt) (larger : Bool) (a b : Nat) : Nat :=
  let x := f.value a
  let y := f.value b
  let nan := match f.layout with
    | some l => l.canonical
    | none => 0
  match x.isNaN, y.isNaN with
  | true, true => nan
  | true, false => b
  | false, true => a
  | false, false => if larger then (if x.before y then b else a) else (if y.before x then b else a)

/-! ## The scalar instructions (R358-R360) -/

/-- FP32. -/
def single : Layout := ⟨23, 8, 127, false⟩

/-- The FP32 value that a register supplies (R290). -/
def Reg.single (r : Reg) : Value := Machine.single.value (bits r.data.toNat 31 0)

/-- The body of the scalar instructions: the operation gives a code from the mode and the values. -/
def floatOp (gd : RegNo) (srcs : List RegNo) (f : Nat → List Value → Rounded) : Act Unit := do
  enter onCores srcs [gd]
  let vs ← sources srcs
  let s ← get
  let r := f s.here.rmode (vs.map Reg.single)
  result gd ⟨BitVec.ofNat 128 r.code, tagOf vs⟩
  modify fun s => s.tally (coreOf s.cur) r.tally
  retire 0

/-- Some value is a NaN. -/
def anyNaN (vs : List Value) : Bool := vs.any Value.isNaN

/-- A result in FP32. -/
def inSingle (mode : Nat) (vs : List Value) (v : Value) : Rounded := v.deliver .fp32 mode false (anyNaN vs)

/-- A fused form (R358): the product of a and b with a sign, plus c with a sign. -/
def fusedOp (negP negC : Bool) (mode : Nat) (vs : List Value) : Rounded :=
  let p := (vs.getD 0 .nan).mul (vs.getD 1 .nan)
  let c := vs.getD 2 .nan
  inSingle mode vs ((if negP then p.negate else p).add mode (if negC then c.negate else c))

def execFmaddS (gd gs1 gs2 gs3 : RegNo) (s : State) : Answered :=
  settle 0 (floatOp gd [gs1, gs2, gs3] (fusedOp false false)) s
def execFmsubS (gd gs1 gs2 gs3 : RegNo) (s : State) : Answered :=
  settle 0 (floatOp gd [gs1, gs2, gs3] (fusedOp false true)) s
def execFnmaddS (gd gs1 gs2 gs3 : RegNo) (s : State) : Answered :=
  settle 0 (floatOp gd [gs1, gs2, gs3] (fusedOp true true)) s
def execFnmsubS (gd gs1 gs2 gs3 : RegNo) (s : State) : Answered :=
  settle 0 (floatOp gd [gs1, gs2, gs3] (fusedOp true false)) s

/-- A form with two sources. -/
def twoOp (f : Nat → Value → Value → Value) (mode : Nat) (vs : List Value) : Rounded :=
  inSingle mode vs (f mode (vs.getD 0 .nan) (vs.getD 1 .nan))

def execFaddS (gd gs1 gs2 : RegNo) (s : State) : Answered :=
  settle 0 (floatOp gd [gs1, gs2] (twoOp fun m a b => a.add m b)) s
def execFsubS (gd gs1 gs2 : RegNo) (s : State) : Answered :=
  settle 0 (floatOp gd [gs1, gs2] (twoOp fun m a b => a.sub m b)) s
def execFmulS (gd gs1 gs2 : RegNo) (s : State) : Answered :=
  settle 0 (floatOp gd [gs1, gs2] (twoOp fun _ a b => a.mul b)) s
def execFdivS (gd gs1 gs2 : RegNo) (s : State) : Answered :=
  settle 0 (floatOp gd [gs1, gs2] fun m vs =>
    (vs.getD 0 .nan).divideTo single m false (anyNaN vs) (vs.getD 1 .nan)) s
def execFsqrtS (gd gs1 : RegNo) (s : State) : Answered :=
  settle 0 (floatOp gd [gs1] fun m vs => (vs.getD 0 .nan).sqrtTo single m (anyNaN vs)) s

/-- The smaller or the larger operand, every bit of it (R359). -/
def extremeOp (larger : Bool) (gd gs1 gs2 : RegNo) : Act Unit := do
  enter onCores [gs1, gs2] [gd]
  let a ← source gs1
  let b ← source gs2
  result gd ⟨BitVec.ofNat 128 (pickCode .fp32 larger (bits a.data.toNat 31 0) (bits b.data.toNat 31 0)), tagOf [a, b]⟩
  retire 0

def execFminS (gd gs1 gs2 : RegNo) (s : State) : Answered := settle 0 (extremeOp false gd gs1 gs2) s
def execFmaxS (gd gs1 gs2 : RegNo) (s : State) : Answered := settle 0 (extremeOp true gd gs1 gs2) s

/-- A comparison (R359): 0 where an operand is NaN. -/
def compareOp (f : Int → Bool) (_ : Nat) (vs : List Value) : Rounded :=
  ⟨if !anyNaN vs && f ((vs.getD 0 .nan).compare (vs.getD 1 .nan)) then 1 else 0, {}⟩

def execFeqS (gd gs1 gs2 : RegNo) (s : State) : Answered :=
  settle 0 (floatOp gd [gs1, gs2] (compareOp fun c => c = 0)) s
def execFltS (gd gs1 gs2 : RegNo) (s : State) : Answered :=
  settle 0 (floatOp gd [gs1, gs2] (compareOp fun c => c < 0)) s
def execFleS (gd gs1 gs2 : RegNo) (s : State) : Answered :=
  settle 0 (floatOp gd [gs1, gs2] (compareOp fun c => c ≤ 0)) s

/-- The format of a code 0-6 or 8-14 (R285 Table 1). -/
def Fmt.ofCode (c : Nat) : Option Fmt :=
  match c with
  | 0 => some .fp32 | 1 => some .fp16 | 2 => some .bf16 | 3 => some .e4m3 | 4 => some .e5m2
  | 5 => some .int8 | 6 => some .int32
  | c => if 8 ≤ c && c ≤ 14 then some (.ni (c - 6)) else none

/-- Whether the fields of `fcvt` are allowed (R360). -/
def fcvtOk (src sat dst : Nat) : Bool :=
  src ≤ 6 && dst ≤ 6 && (src = 0 || dst = 0) && (sat = 0 || dst = 3 || dst = 4)

/-- R360. `fcvt`: an integer result is sign-extended to 64 bits; FP32 to FP32 makes NaNs canonical. -/
def execFcvt (gd gs1 : RegNo) (src : BitVec 4) (sat : BitVec 1) (dst : BitVec 4) (s : State) : Answered :=
  settle 0 (do
    if !fcvtOk src.toNat sat.toNat dst.toNat then illegal
    enter onCores [gs1] [gd]
    let a ← source gs1
    let s ← get
    let from_ := (Fmt.ofCode src.toNat).getD .fp32
    let dest := (Fmt.ofCode dst.toNat).getD .fp32
    let v := from_.value (a.data.toNat % 2 ^ (8 * from_.bytes))
    let r := v.deliver dest s.here.rmode (sat = 1) v.isNaN
    let n := 8 * dest.bytes
    result gd ⟨BitVec.ofNat 128 (if dest.isFloat then r.code else low 64 (signed n r.code)), tagOf [a]⟩
    modify fun s => s.tally (coreOf s.cur) r.tally
    retire 0) s

end Sys2Proof.Machine
end

