-- ==== Sys2Proof/Machine/DeskSteps.lean ====
section
/-! DEFINITION. The steps of a Desk and of its requesters: requests that arrive from elsewhere, answers and wake-ups,
boosts, cancels, the census and its combining tree, resent requests (spec/07_sync_objects.md R112-R138,
spec/05_scheduling.md R85, R86, spec/06_network_and_slices.md R106). -/

namespace Sys2Proof.Machine

open Sys2Proof

/-! ## Waiters as places -/

/-- The slot of a waiter on this device: none where its grid is not placed. -/
def State.slotOf (s : State) (w : Waiter) : Option Nat :=
  match w.kind with
  | 1 => (s.gridCore w.grid w.x w.y).map fun n => slotKey n w.slot
  | 4 => some (bankKey w.x w.slot)
  | 6 => if w.y = 16 then some (slotKey (serviceCore w.x) w.slot) else none
  | _ => none

/-- A change of the saved slot of a strand whose grid is not placed (R133, R283): its record is written again. -/
def State.onSavedSlot (s : State) (w : Waiter) (f : Slot → Slot) : State :=
  (s.onGrid w.grid fun g => { g with saved := g.saved.map fun c =>
    if c.core.gx = w.x && c.core.gy = w.y then
      { c with
        dirty := w.slot :: c.dirty
        slots := (List.range c.slots.length).map fun i =>
          let sl := c.slots.getD i {}
          if i = w.slot then f sl else sl }
    else c }).emit (.saveComplete w.grid)

/-- The grid of a waiter keeps its contexts in its save area. -/
def State.isSaved (s : State) (w : Waiter) : Bool :=
  w.kind = 1 && match s.grid w.grid with
    | some g => g.rects = []
    | none => false

/-! ## Requests (R112-R115, R129) -/

/-- The end that a barrier request fails with: the grid of its strand ends with the cause of R115 (R368). DESIGN CHOICE
(notes/assumptions/75.md): a request that a port makes for another device (R122) names no grid, and ends none. -/
def State.barrierFailed (s : State) (r : DeskReq) (c : Cause) (dstat : Nat) : State :=
  let t : TrapInfo := { cause := c, addr := r.va, dstat := dstat, from_ := r.pc.map (BitVec.ofNat 64) }
  match s.slotOf r.who with
  | some k => s.lateFault k (if r.who.kind = 1 then some r.who.grid else s.gridOf k) t
  | none => if r.who.kind = 5 then s else s.endGrid r.who.grid { status := 1, cause := c.code, taddr := r.va }

/-- The wait of a condition for which a request acts. -/
def State.waitOf (s : State) (c : Nat) (r : DeskReq) : Option Hold :=
  s.holds.find? fun h => h.pa = c && h.op = .vwait && h.who = r.who && h.seq = r.seq

/-- The release or the re-acquire that a condition asked for has been answered (R129). -/
def State.actingAnswered (s : State) (op : DeskOp) (c st : Nat) (r : DeskReq) : State :=
  match s.waitOf c r with
  | none => s
  | some h =>
    let answer (s : State) (st : Nat) : State :=
      (s.dropHold h).sendAnswer true { who := r.who, seq := r.seq, st := st, op := .vwait, pa := c, qos := h.qos, ctx := h.ctx }
    if op = .lrel then
      if st = 0 then s
      else if h.signalled then
        { s with holds := s.holds.map fun x => if x = h then { x with late := st } else x }
      else (answer s st).settleCell c
    else answer s (if st = 0 then h.late else st)

/-- The request of a counted store or copy has failed before its Desk (R368); any other request is answered with the
status that says that its address leads to no cell. -/
def State.requestFailed (s : State) (op : DeskOp) (r : DeskReq) (c : Cause) (st : Nat) : State :=
  if op = .bpendadd || op = .bpendsub then s.barrierFailed r c (if c = .type then 10 else 0)
  else s.sendAnswer false { who := r.who, seq := r.seq, st := st, op := op, pa := r.pa, qos := r.qos, ctx := r.ctx }

/-- An operation finds its cell poisoned: it consumes the poison (spec/01_package.md R26), as the release or the re-acquire that a
condition asked for does. -/
def State.requestPoisoned (s : State) (op : DeskOp) (r : DeskReq) : State :=
  match r.acting with
  | some c =>
    if r.who.dev = thisDevice then s.barrierFailed { r with va := r.pa } .poison 0 else s.actingAnswered op c 9 r
  | none => s.requestFailed op r .poison 9

/-- A request performed at its cell: it waits while a row operation rewrites the row, or an engine owns the sector. -/
def State.performRequest (s : State) (op : DeskOp) (r : DeskReq) (again : Event) : State :=
  if s.cellParked r.pa then s.emit again
  else if (s.granule r.pa).poison then s.requestPoisoned op r
  else match (s.enterSlice r.qos r.pa 32).desk op r with
  | (.park, _) => s.emit again
  | (.held, s) => s
  | (.done st val elem, s) =>
    if op = .bpendadd || op = .bpendsub then
      match deskFault st with
      | some c =>
        if r.who.dev = thisDevice then s.barrierFailed r c st
        else s.sendAnswer false { who := r.who, seq := r.seq, st := st, op := op, pa := r.va, pc := r.pc, qos := r.qos, ctx := r.ctx }
      | none => s
    else match r.acting with
      | some c => s.actingAnswered op c st r
      | none => s.sendAnswer false
          { who := r.who, seq := r.seq, st := st, op := op, val := val, elem := elem, pa := r.pa, qos := r.qos, ctx := r.ctx }

/-- The agent that a requester is, in a context: its addresses translate on its die (R151), a bank unit reaches its own channel
(R194). -/
def State.actorOf (s : State) (w : Waiter) (ctx : Nat) : Agent :=
  { ctx := ctx, bank := if w.kind = 4 then some w.x else none,
    die := match w.kind with
      | 1 => ((s.gridCore w.grid w.x w.y).map dieOfCore).getD 0
      | 2 => w.x / 256
      | 4 => w.x / 96
      | 5 => w.x / 8
      | 6 => w.x % 16 / 4
      | _ => 0 }

/-- A Desk request as a step: its address is translated first where its requester has not done so. -/
def State.deskRequest (s : State) (op : DeskOp) (r : DeskReq) (again : Event) : State :=
  if r.pa < untranslated then s.performRequest op r again
  else
    match regionOfVA r.va with
    | .fabric dev addr =>
      if dev = thisDevice then
        match s.findCell (s.actorOf r.who r.ctx) addr op with
        | (.cell pa, s) => s.performRequest op { r with pa := pa } again
        | (.park, s) => s.emit again
        | (.untyped, s) => s.requestFailed op r .type 10
        | (.fail c, s) => s.requestFailed op r c 9
      else if s.upPorts = [] then s.requestFailed op r .noRoute 9
      else s.sendCell { dst := dev, addr := addr, ctx := r.ctx, qos := r.qos, op := .cell op { r with va := addr } } r.who
        (s.waiterAgent r.who).router
    | _ =>
      match s.findCell (s.actorOf r.who r.ctx) r.va op with
      | (.cell pa, s) => s.performRequest op { r with pa := pa } again
      | (.park, s) => s.emit again
      | (.untyped, s) => s.requestFailed op r .type 10
      | (.fail c, s) => s.requestFailed op r c 9

/-! ## Answers (R133, R385, R118, R119) -/

/-- A continuation's task reaches its target (R118, R119): discarded where the grid of a strand core is not live. -/
def State.continuationArrives (s : State) (w : Waiter) (t : Task) : State :=
  let t := if w.kind = 1 then { t with qos := s.gridQos w.grid } else t
  match w.kind with
  | 1 =>
    match s.gridCore w.grid w.x w.y with
    | some n => s.arriveAt n t
    | none =>
      match s.grid w.grid with
      | none => s
      | some g =>
        match g.saved.find? fun c => c.core.gx = w.x && c.core.gy = w.y with
        | some c => s.arriveAt c.place t
        | none => s
  | 4 => s.arriveBank w.x t
  | 6 => s.arriveAt (serviceCore (w.x % 16)) t
  | _ => s

/-- Reply data longer than 256 bytes goes in fragments (R35). -/
def fragments : Nat → List Byte → List (List Byte)
  | 0, _ => []
  | n + 1, d => if d.length ≤ 256 then [d] else d.take 256 :: fragments n (d.drop 256)

/-- A reply to a host request (R35, R36). -/
def State.hostReply (s : State) (r : HostReq) (status cause : Nat) (data : List Byte := []) : State :=
  let fs := fragments 6 data
  (List.range fs.length).foldl (fun s i => s.toUbgen
    { kind := 8, stream := r.stream, tag := r.tag, frag := i, nfrag := fs.length, status := status, cause := cause,
      data := fs.getD i [] }) s

/-- The data that a host receives with the status of a cell request. -/
def hostCellData (op : DeskOp) (val : Nat) (elem : List Byte) : List Byte :=
  match op with
  | .query | .qpop | .qtrypop => elem
  | .cadd | .cdisarm | .barrive | .bsync | .lacq | .ltry | .vsignal | .vbcast => bytesOf 8 val
  | _ => []

/-- The status of a host reply from that of a Desk (R36 Table 6). DESIGN CHOICE (notes/assumptions/55.md): Desk status TYPE fits both
TYPE_FAULT and CELL_STATUS; a cell request is answered CELL_STATUS, as for every other status but CANCELLED. -/
def hostStatus (st : Nat) : Nat := if st = 0 then 0 else if st = 7 then 6 else 10

/-- The fields of a queue's image: its type, element size, buffer, number of elements and context (R110, R126). -/
def imageType (v : Nat) : Nat := bits v 226 224
def imageElement (v : Nat) : Nat := bits v 146 144
def imageBuffer (v : Nat) : Nat × Nat × Nat := (bits v 63 0, bits v 143 128, bits v 207 192)

/-- Operands of a control message: `n` bytes at an offset, as a number (R66). -/
def HostReq.arg (r : HostReq) (off n : Nat) : Nat := field r.data off n

/-- An event that happens unless it is due already. -/
def State.emitOnce (s : State) (e : Event) : State := if s.agenda.contains e then s else s.emit e

/-- A queue that is being detached has left once its pop has ended and its taken command has started (R66); what stays is kept for
the answers to its commands. -/
def Queue.left (q : Queue) : Bool :=
  q.detaching && q.popping.isNone && (q.stopped || (q.taken.isNone && q.starting.isNone))

/-- A queue is attached to a service core already (R67). -/
def State.attached (s : State) (p : Queue → Bool) : Bool := s.regions.any fun e => e.2.queues.any fun q => !q.2.left && p q.2

/-- A queue is attached where its cell has the type and the element size that R67 asks for. DESIGN CHOICE (notes/assumptions/57.md):
BUSY is the answer for a queue that is attached to this service core too, of which the rule does not speak. -/
def State.finishAttach (s : State) (r : HostReq) (pa v : Nat) : State :=
  let taken := (s.region r.stream).queues.map (·.1)
  if imageType v != 4 || imageElement v != 3 then s.hostReply r 4 0
  else if s.attached fun q => if pa < untranslated then q.pa = pa else q.cell = r.arg 1 8 && q.ctx = r.arg 9 2 then s.hostReply r 5 0
  else match (List.range 16).find? fun i => !taken.contains i with
    | none => s.hostReply r 3 0
    | some i =>
      let q : Queue := { num := s.fresh, cell := r.arg 1 8, pa := pa, ctx := r.arg 9 2, prio := r.arg 11 1,
                         size := imageBuffer v }
      ((s.drawn.onRegion r.stream fun g => { g with queues := put g.queues i q }).hostReply r 0 0).emit
        (.queueAgentPop (16 * r.stream + i))

/-! ## Streams (R38, R39, R65) -/

/-- A request of a stream that has not taken effect, or a relaxed write that is not visible yet, by its tag; true for the
latter. -/
def HStream.awaiting (x : HStream) (tag : Nat) : Option (Bool × HostHeld) :=
  match x.held with
  | some h => if h.seq = tag then some (false, h) else (x.relaxed.find? fun h => h.seq = tag).map fun h => (true, h)
  | none => (x.relaxed.find? fun h => h.seq = tag).map fun h => (true, h)

/-- The same, changed or gone. -/
def HStream.setAwaiting (x : HStream) (late : Bool) (tag : Nat) (h : Option HostHeld) : HStream :=
  if late then { x with relaxed := (x.relaxed.filter fun y => y.seq != tag) ++ h.toList } else { x with held := h }

/-- A relaxed memory write (R65): the flag is honoured while `hstream.relax` is 1. -/
def HStream.relaxes (x : HStream) (r : HostReq) : Bool := r.kind = 1 && bit r.flags 0 && x.hstream.getLsbD 6

/-- The head request of a stream may be issued: the one before has taken effect, or both are relaxed writes. -/
def HStream.ready (x : HStream) : Bool :=
  x.held.isNone && match x.waiting with
    | [] => false
    | r :: _ => x.relaxes r || x.relaxed = []

/-- The stream whose head the port serves next, in round robin after the one served last (R39). -/
def State.nextStream (s : State) : Option Nat :=
  ((List.range 16).map fun d => (s.lastStream + 1 + d) % 16).find? fun n => (s.hostStream n).ready

/-- The port's next service is due, if a head is ready. -/
def State.askPort (s : State) : State :=
  match s.nextStream with
  | some n => s.emitOnce (.streamRequestIssue n)
  | none => s

/-- The answer to the held request of a stream (R38): the reply goes to the host and the stream proceeds. An `ATTACH_QUEUE` has
asked for the image of its cell (R67). -/
def State.hostAnswered (s : State) (n : Nat) (a : Answer) : State :=
  match (s.region n).asking.find? fun h => h.seq = a.seq with
  | some h =>
    let s := s.onRegion n fun g => { g with asking := g.asking.filter fun h => h.seq != a.seq }
    if a.st = 0 then s.finishAttach h.req untranslated (ofBytes a.elem)
    else s.hostReply h.req (if a.st = 10 then 4 else hostStatus a.st) (if hostStatus a.st = 10 && a.st != 10 then a.st else 0)
  | none =>
  match (s.hostStream n).held with
  | some h =>
    if h.seq != a.seq then s
    else
      let s := s.onHostStream n fun x => { x with held := none }
      (s.hostReply h.req (hostStatus a.st) (if hostStatus a.st = 10 then a.st else 0)
          (if a.st = 0 then hostCellData a.op a.val a.elem else [])).askPort
  | none => s

/-! ## Command queues (R68-R71) -/

/-- The queue of an index, and a change of it. -/
def State.queue (s : State) (region i : Nat) : Option Queue :=
  look none ((s.region region).queues.map fun e => (e.1, some e.2)) i
def State.onQueue (s : State) (region i : Nat) (f : Queue → Queue) : State :=
  s.onRegion region fun g => { g with queues := g.queues.map fun e => if e.1 = i then (e.1, f e.2) else e }

/-- The fields of a command (R69 Table 3). -/
def cmdKind (cmd : List Byte) : Nat := field cmd 0 1
def cmdFlags (cmd : List Byte) : Nat := field cmd 1 1
def cmdTag (cmd : List Byte) : Nat := field cmd 4 4

/-- The waiter that a queue agent is (R68). -/
def agentWaiter (region i : Nat) : Waiter := ⟨thisDevice, 6, 0, region, i, 0⟩

/-- A queue's pop is cancelled (R135). -/
def State.cancelPop (s : State) (region i : Nat) : State :=
  match (s.queue region i).bind fun q => q.popping.map fun seq => (q, seq) with
  | none => s
  | some (q, seq) =>
    if q.pa < untranslated then
      s.carry (deskHeader (coreAgent (serviceCore region)) (deskAgent (s.deskOf q.pa)) 0x35 q.prio 0 q.ctx q.pa)
        (.cancel q.pa (agentWaiter region i) seq)
    else if s.upPorts = [] then s
    else s.send
      { dst := bits q.cell 62 50, addr := bits q.cell 49 0, ctx := q.ctx,
        op := .cancel { pa := untranslated, va := bits q.cell 49 0, ctx := q.ctx, who := agentWaiter region i, seq := seq } }
      (clusterOf (serviceCore region))

/-- A queue stops (R71): while it is stopped it is not popped, so a pop under way is cancelled. -/
def State.stopQueue (s : State) (region i : Nat) : State :=
  (s.onQueue region i fun q => { q with stopped := true }).cancelPop region i

/-- A queue that has left is forgotten once no access of a command is under way. -/
def State.dropDetached (s : State) (region i : Nat) : State :=
  match s.queue region i with
  | none => s
  | some q =>
    if q.left && q.pending = [] then
      s.onRegion region fun g => { g with queues := without g.queues i }
    else s

/-- A command completes (R69): with `evdone` it produces a `CMD_DONE` record; `tag` is that of its access, if it made one. -/
def State.commandDone (s : State) (region i : Nat) (cmd : List Byte) (tag : Option Nat := none) : State :=
  match s.queue region i with
  | none => s
  | some q =>
    let s := s.onQueue region i fun q => { q with running := q.running - 1, pending := q.pending.filter fun e => tag != some e.1 }
    let s := if bit (cmdFlags cmd) 1 then s.record (sourceOfService region) none 0x1 q.cell (cmdTag cmd) else s
    (s.dropDetached region i).emitOnce (.queueAgentPop (16 * region + i))

/-- A command that has no effect stops its queue (R71). -/
def State.commandFailed (s : State) (region i cause : Nat) (cmd : List Byte) : State :=
  match s.queue region i with
  | none => s
  | some q =>
    (((s.onQueue region i fun q => { q with starting := none }).stopQueue region i).record (sourceOfService region) none 0x3
      (cause % 65536 + q.cell % 2 ^ 48 * 2 ^ 16) (cmdTag cmd)).dropDetached region i

/-- A command that had started fails (R71). -/
def State.startedFailed (s : State) (region i cause : Nat) (cmd : List Byte) (tag : Nat) : State :=
  (s.onQueue region i fun q => { q with running := q.running - 1, pending := q.pending.filter fun e => e.1 != tag }).commandFailed
    region i cause cmd

/-- The cause of a Desk status at a launch or at a command (R77, R383 Table 3): a freed cell counts as CELL. -/
def statusCause (st : Nat) : Cause := (deskFault st).getD .cell

/-- The initialisation that a `RESET_QUEUE` asked another device for has been answered (R71). -/
def State.resetAnswered (s : State) (region i : Nat) (r : HostReq) (status cause : Nat) : State :=
  let s := s.onQueue region i fun q => { q with resetting := none }
  if status = 0 then
    ((s.onQueue region i fun q => { q with stopped := false, popping := none, taken := none, starting := none }).emitOnce
      (.queueAgentPop (16 * region + i))).hostReply r 0 0
  else s.hostReply r status cause

/-- The answer to a queue agent's pop, to the access of a command or to a reset (R68, R69, R71): a pop that was cancelled leaves
the queue as it is. -/
def State.agentAnswered (s : State) (region y : Nat) (a : Answer) : State :=
  match s.queue region y with
  | none => s
  | some q =>
    if q.popping = some a.seq then
      if a.st = 0 then
        ((s.onQueue region y fun q => { q with popping := none, taken := some a.elem }).dropDetached region y).emitOnce
          (.queueAgentPop (16 * region + y))
      else if a.st = 7 then
        ((s.onQueue region y fun q => { q with popping := none }).dropDetached region y).emitOnce (.queueAgentPop (16 * region + y))
      else (s.onQueue region y fun q => { q with popping := none, stopped := true }).dropDetached region y
    else match q.pending.find? fun e => e.1 = a.seq, q.resetting with
      | some (_, cmd), _ =>
        if a.st = 0 then s.commandDone region y cmd (some a.seq)
        else s.startedFailed region y (statusCause a.st).code cmd a.seq
      | none, some (tag, r) =>
        if tag = a.seq then s.resetAnswered region y r (if a.st = 0 then 0 else 10) a.st else s
      | none, none => s

/-! ## Launches that wait at a Desk (R77, R72) -/

/-- The grid whose launch scheduler awaits the answer of a tag. -/
def State.gridAwaiting (s : State) (tag : Nat) : Option (Nat × Grid) :=
  if tag = 0 then none else s.grids.find? fun e => e.2.waitSeq = tag

/-- The states of a launch before its tasks run. -/
def LaunchState.unrun (st : LaunchState) : Bool :=
  st == .handed || st == .waiting || st == .ready || st == .placing || st == .dealing

/-- A launch ends without having run (R77, R81, R82, R90). -/
def State.endUnrun (s : State) (g status : Nat) (c : Cause) (addr : Nat := 0) : State :=
  if !(s.grid g).any (·.st.unrun) then s
  else (s.onGrid g fun x => { x with
    st := .ending, waitSeq := 0
    ended := if x.ended.isSome || status = 0 then x.ended
             else some { status := status, cause := c.code, taddr := addr } }).emit (.completionRelease g)

/-- R72. An error status record that could not be written. -/
def State.statusLost (s : State) (x : Grid) : State := s.record (sourceOfService x.region) none 0x4 x.errAddr x.tag

/-- What a launch scheduler awaited has come, or a cause in its place: the wait in Waiting is filled or refused; in Ending
the step that asked for it is done, and an error status record that was refused is reported (R72). -/
def State.gridAnswered (s : State) (g : Nat) (x : Grid) (c : Cause) : State :=
  let s := s.onGrid g fun x => { x with waitSeq := 0 }
  if x.st == .waiting then
    if c = .none then (s.onGrid g fun x => { x with st := .ready }).emit (.launchReady g)
    else s.endUnrun g 1 c x.node.pred
  else
    let s := if x.stage = 2 && c != .none then s.statusLost x else s
    s.emitOnce (.completionRelease g)

/-- The grid of a strand is being stopped or saved: its answers are kept with its slots (R278 rank 5). -/
def State.settling (s : State) (w : Waiter) : Bool :=
  w.kind = 1 && match s.grid w.grid with
    | some g => g.st == .stopping || g.st == .saving
    | none => false

/-- An answer reaches its requester (R133, R385): an answer that no longer belongs to a request is discarded. -/
def State.answered (s : State) (a : Answer) : State :=
  match a.task with
  | some t => s.continuationArrives a.who t
  | none =>
    if a.op = .bpendadd || a.op = .bpendsub then
      match deskFault a.st with
      | some c => s.barrierFailed { who := a.who, va := a.pa, pc := a.pc } c a.st
      | none => s
    else
    match a.who.kind with
    | 1 =>
      let keep (sl : Slot) : Slot := match sl.await with
        | some (.cell seq _ _ _ _ _ _ _) => if seq = a.seq then { sl with answered := some a } else sl
        | _ => sl
      if s.isSaved a.who then s.onSavedSlot a.who keep
      else match s.slotOf a.who with
        | none => s
        | some k => if s.settling a.who then s.onSlot k keep else s.cellAnswered k a
    | 3 => s.hostAnswered a.who.x a
    | 4 => s.cellAnswered (bankKey a.who.x a.who.slot) a
    | 6 =>
      match s.gridAwaiting a.seq with
      | some (g, x) => s.gridAnswered g x (if a.st = 0 then .none else statusCause a.st)
      | none => if a.who.y = 16 then s.cellAnswered (slotKey (serviceCore (a.who.x % 16)) a.who.slot) a
                else s.agentAnswered a.who.x a.who.y a
    | _ => s

/-- A refused request is found among those that were sent, and waits to be sent again (R112). -/
def State.refusedByDesk (s : State) (a : Answer) : State :=
  match s.toFabric.find? fun p => match p.op with
      | .cell _ r => r.who = a.who && r.seq = a.seq
      | _ => false with
  | none => s
  | some p =>
    let first := !s.resend.any fun e => e.1 = a.who
    let s : State := { s with resend := s.resend ++ [(a.who, .fabricPacket p)] }
    if first then s.emit (.deskResend a.who) else s

/-! ## Boosts (R85, R134) -/

/-- A boost count changed (R85): a count at 65,535 stays there. -/
def boostCount (up : Bool) (level : Nat) (b : List Nat) : List Nat :=
  (List.range 8).map fun i =>
    let v := b.getD i 0
    if i != level || v = 65535 then v else if up then v + 1 else v - 1

/-- A new effective priority of a held strand goes to the Desk of its hold (R134), from its core, or from the launch scheduler for
a strand whose grid is not placed. -/
def State.tellPriority (s : State) (src : NetAgent) (w : Waiter) (ctx : Nat) (sl : Slot) (before : Nat) : State :=
  match sl.await with
  | some (.cell _ op _ va pa _ _ _) =>
    if !op.canHold || sl.prio = before then s
    else if pa < untranslated then
      s.carry (deskHeader src (deskAgent (s.deskOf pa)) 0x34 sl.prio sl.qos ctx pa) (.prioset pa w sl.prio)
    else match regionOfVA va with
      | .fabric dev addr => if s.upPorts = [] then s
          else s.send { dst := dev, addr := addr, ctx := ctx, qos := sl.qos, op := .prioset addr w sl.prio } src.router
      | _ => s
  | _ => s

/-- The saved slot of a strand whose grid is not placed. -/
def State.savedSlot (s : State) (w : Waiter) : Slot :=
  ((s.grid w.grid).bind fun g => (g.saved.find? fun c => c.core.gx = w.x && c.core.gy = w.y).map fun c =>
    c.slots.getD w.slot {}).getD {}

/-- A boost of a copy engine (R86): its commands that name a barrier take the higher priority, and keep it until they end. -/
def State.boostCopies (s : State) (cluster level : Nat) : State :=
  (List.range 16).foldl (fun s i => s.onCore (clusterCore cluster i) fun c => { c with
    cq := c.cq.map fun q => if q.barrier.isSome then { q with prio := max q.prio level } else q }) s

/-- The priority that the requests of a host stream carry (R64, R86). -/
def State.hostPrio (s : State) (n : Nat) : Nat :=
  max (bits (s.hostStream n).hstream.toNat 2 0) (highestBoost (s.hostStream n).boosts)

/-- A boost or an expiry reaches its target (R85, R86, R133): a slot, the context of a saved strand, or a host
stream. -/
def State.boosted (s : State) (up : Bool) (w : Waiter) (level : Nat) : State :=
  if w.kind = 3 then
    let s := s.onHostStream w.x fun h => { h with boosts := boostCount up level h.boosts }
    match (s.hostStream w.x).held with
    | some h =>
      let prio := s.hostPrio w.x
      let qos := bits (s.hostStream w.x).hstream.toNat 5 3
      if !h.holds || h.parked then s
      else if h.cell < untranslated then
        s.carry (deskHeader (portAgent 32) (deskAgent (s.deskOf h.cell)) 0x34 prio qos h.req.ctx h.cell) (.prioset h.cell w prio)
      else if s.upPorts = [] then s
      else s.send { dst := bits h.req.addr 62 50, addr := bits h.req.addr 49 0, ctx := h.req.ctx, qos := qos,
                    op := .prioset (bits h.req.addr 49 0) w prio } 0
    | none => s
  else if w.kind = 2 then (if up then s.boostCopies w.x level else s)
  else if s.isSaved w then
    let before := (s.savedSlot w).prio
    let s := s.onSavedSlot w fun sl => { sl with boosts := boostCount up level sl.boosts }
    s.tellPriority (s.waiterAgent w) w (((s.grid w.grid).map (·.ctx)).getD 0) (s.savedSlot w) before
  else match s.slotOf w with
    | none => s
    | some k =>
      let before := (s.slot k).prio
      let s := s.onSlot k fun sl => { sl with boosts := boostCount up level sl.boosts }
      s.tellPriority (slotAgent k) (s.waiterOf k) (s.ctxOf k) (s.slot k) before

/-- A hold entry takes a new priority (R134). The wait of a condition that has been signalled is answered by its lock, where its
re-acquire holds (R129): the change goes on there. -/
def State.setPriority (s : State) (cell : Nat) (w : Waiter) (prio : Nat) : State :=
  let s := match s.holds.find? fun h => h.pa = cell && h.who = w && h.op = .vwait && h.signalled with
    | some h => s.carry (deskHeader (deskAgent (s.deskOf cell)) (deskAgent (s.deskOf h.lock)) 0x34 prio h.qos h.ctx h.lock)
        (.prioset h.lock w prio)
    | none => s
  if s.holds.any fun h => h.pa = cell && h.who = w && !h.void then
    ({ s with holds := s.holds.map fun h => if h.pa = cell && h.who = w then { h with prio := prio % 8 } else h } :
      State).settleCell cell
  else s

/-! ## Cancel (R135) -/

/-- The grid of a waiter is gone, or its contexts are discarded. -/
def State.waiterGone (s : State) (w : Waiter) : Bool :=
  w.kind = 1 && w.dev = thisDevice && match s.grid w.grid with
    | none => true
    | some g => g.st == .ending

/-- A cancel voids a hold (R135): a lock entry keeps its ticket, any other leaves; the waiter is answered CANCELLED,
and the boosts that the hold caused expire. -/
def State.cancelHold (s : State) (cell : Nat) (w : Waiter) (seq : Nat) : State :=
  match (s.holdsOn cell).find? fun h => h.who = w && h.seq = seq with
  | none => s
  | some h =>
    let s : State := if h.op = .lacq then
        { s with holds := s.holds.map fun x => if x = h then { x with void := true } else x }
      else s.dropHold h
    let s : State := match h.cond with
      | some c => (s.holds.filter fun x => x.pa = c && x.op = .vwait && x.who = w && x.seq = seq).foldl State.dropHold s
      | none => s
    let s : State := if s.waiterGone w then s
      else s.sendAnswer true { who := w, seq := seq, st := 7, op := if h.cond.isSome then .vwait else h.op,
                               val := if h.op = .bsync then h.key else 0, pa := cell, qos := h.qos, ctx := h.ctx }
    s.settleCell cell

/-! ## Census (R106, R123) -/

/-- The next router of the XY route between two clusters. -/
def nextRouter (from_ to_ : Nat) : Nat :=
  let x := clusterX from_
  let y := clusterY from_
  if x < clusterX to_ then clusterAt (x + 1) y
  else if clusterX to_ < x then clusterAt (x - 1) y
  else if y < clusterY to_ then clusterAt x (y + 1)
  else clusterAt x (y - 1)

/-- The XY route from one cluster to another passes through a router. -/
def routeMeets (from_ to_ r : Nat) : Bool :=
  let between (a b c : Nat) : Bool := (a ≤ c && c ≤ b) || (b ≤ c && c ≤ a)
  (clusterY r = clusterY from_ && between (clusterX from_) (clusterX to_) (clusterX r)) ||
    (clusterX r = clusterX to_ && between (clusterY from_) (clusterY to_) (clusterY r))

/-- The router at which a participant's answer enters the network: its own cluster's, or that of the service core whose
launch scheduler answers for a core that is not placed (R123). -/
def State.censusRouter (s : State) (g core : Nat) : Nat :=
  if core < 16384 then clusterOf core
  else clusterOf (serviceCore ((s.grid g).map (·.region) |>.getD 0))

/-- Saturating addition of counters (R106). -/
def addCounters (a b : List Nat) : List Nat :=
  (List.range 16).map fun i => min (a.getD i 0 + b.getD i 0) 0xFFFFFFFF

/-- The counters of a participant that the mask selects (R106): a core's own, or those saved with its grid. -/
def State.censusCounters (s : State) (g core mask : Nat) : List Nat :=
  let saved := (s.grid g).bind fun x => x.saved.find? fun c => x.rects = [] &&
    (if core < 16384 then c.place = core
     else c.core.gx = (core - 16384) % 65536 && c.core.gy = (core - 16384) / 65536)
  let ev : List (Nat × Nat) := match saved with
    | some c => c.core.ev
    | none =>
      if core < 16384 then (s.core core).ev
      else match s.gridCore g ((core - 16384) % 65536) ((core - 16384) / 65536) with
        | some n => (s.core n).ev
        | none => []
  (List.range 16).map fun i => if bit mask i then look 0 ev i else 0

/-- The grid of a barrier's rectangle, and its participants. -/
def State.censusGrid (s : State) (c : Census) : Nat := bits (s.image c.pa) 223 208
def State.censusCores (s : State) (c : Census) : List Nat := s.participants (s.image c.pa)

/-- A census message goes one router further on its way to the Desk, on channel 2 (R106). -/
def State.passCensus (s : State) (src : NetAgent) (id router desk count : Nat) (sums : List Nat) : State :=
  s.carry { deskHeader src (if router = desk then deskAgent desk else combiner router) 0x37 0 0 0 0 with len := 4 }
    (.census id router count sums)

/-- A census message at a router (R106): added to the Desk's sums at its destination, combined with the entry of the
same census, kept in a free entry, or passed on. An entry that has every answer of its subtree is sent on. -/
def State.censusAt (s : State) (id router count : Nat) (sums : List Nat) : State :=
  match s.censuses.find? fun c => c.id = id with
  | none => { s with combining := s.combining.filter fun e => e.id != id }
  | some c =>
    let desk := s.homeCluster c.pa
    if router = desk then
      let c := { c with count := c.count + count, sums := addCounters c.sums sums }
      let s := { s with censuses := s.censuses.map fun x => if x.id = id then c else x }
      if c.total ≤ c.count then s.closeCensus c else s
    else
      let expected := ((s.censusCores c).filter fun n =>
        routeMeets (s.censusRouter (s.censusGrid c) n) desk router).length
      match s.combining.find? fun e => e.id = id && e.router = router with
      | some e =>
        let e' := { e with count := e.count + count, sums := addCounters e.sums sums }
        if expected ≤ e'.count then
          ({ s with combining := s.combining.erase e } : State).passCensus (combiner router) id (nextRouter router desk) desk
            e'.count e'.sums
        else { s with combining := s.combining.map fun x => if x = e then e' else x }
      | none =>
        if expected ≤ count || 4 ≤ (s.combining.filter fun e => e.router = router).length then
          s.passCensus (combiner router) id (nextRouter router desk) desk count sums
        else
          ({ s with combining := s.combining ++ [⟨id, router, count, sums⟩] } : State).emit
            (.censusEntryTimeout id router)

/-- A combining entry is sent on, 32 ncycles after it was taken (R106). -/
def State.censusTimeout (s : State) (id router : Nat) : State :=
  match s.combining.find? fun e => e.id = id && e.router = router, s.censuses.find? fun c => c.id = id with
  | some e, some c =>
    ({ s with combining := s.combining.erase e } : State).passCensus (combiner router) id (nextRouter router (s.homeCluster c.pa))
      (s.homeCluster c.pa) e.count e.sums
  | some e, none => { s with combining := s.combining.erase e }
  | none, _ => s

/-- A participant answers a census request (R106). -/
def State.censusRequest (s : State) (id core : Nat) : State :=
  match s.censuses.find? fun c => c.id = id with
  | none => s
  | some c =>
    let g := s.censusGrid c
    let router := s.censusRouter g core
    let src := if core < 16384 then coreAgent core else coreAgent (serviceCore (((s.grid g).map (·.region)).getD 0))
    s.passCensus src id router (s.homeCluster c.pa) 1 (s.censusCounters g core c.cmask)

/-! ## The rows -/

/-- A row whose step is the request of a Desk operation. -/
def deskRow (op : DeskOp) (r : DeskReq) (s : State) : Answered := .next (s.deskRequest op r s.input)

def execQuery (s : State) : Answered :=
  match s.input with
  | .query r => deskRow .query r s
  | _ => .next s
def execFree (s : State) : Answered :=
  match s.input with
  | .free r => deskRow .free r s
  | _ => .next s
def execInit (s : State) : Answered :=
  match s.input with
  | .init r => deskRow .init r s
  | _ => .next s
def execCadd (s : State) : Answered :=
  match s.input with
  | .cadd r => deskRow .cadd r s
  | _ => .next s
def execCwait (s : State) : Answered :=
  match s.input with
  | .cwait r => deskRow .cwait r s
  | _ => .next s
def execCarm (s : State) : Answered :=
  match s.input with
  | .carm r => deskRow .carm r s
  | _ => .next s
def execCdisarm (s : State) : Answered :=
  match s.input with
  | .cdisarm r => deskRow .cdisarm r s
  | _ => .next s
def execBarrive (s : State) : Answered :=
  match s.input with
  | .barrive r => deskRow .barrive r s
  | _ => .next s
def execBwait (s : State) : Answered :=
  match s.input with
  | .bwait r => deskRow .bwait r s
  | _ => .next s
def execBsync (s : State) : Answered :=
  match s.input with
  | .bsync r => deskRow .bsync r s
  | _ => .next s
def execBpendadd (s : State) : Answered :=
  match s.input with
  | .bpendadd r => deskRow .bpendadd r s
  | _ => .next s
def execBpendsub (s : State) : Answered :=
  match s.input with
  | .bpendsub r => deskRow .bpendsub r s
  | _ => .next s
def execLacq (s : State) : Answered :=
  match s.input with
  | .lacq r => deskRow .lacq r s
  | _ => .next s
def execLtry (s : State) : Answered :=
  match s.input with
  | .ltry r => deskRow .ltry r s
  | _ => .next s
def execLrel (s : State) : Answered :=
  match s.input with
  | .lrel r => deskRow .lrel r s
  | _ => .next s
def execQpush (s : State) : Answered :=
  match s.input with
  | .qpush r => deskRow .qpush r s
  | _ => .next s
def execQpop (s : State) : Answered :=
  match s.input with
  | .qpop r => deskRow .qpop r s
  | _ => .next s
def execQtrypush (s : State) : Answered :=
  match s.input with
  | .qtrypush r => deskRow .qtrypush r s
  | _ => .next s
def execQtrypop (s : State) : Answered :=
  match s.input with
  | .qtrypop r => deskRow .qtrypop r s
  | _ => .next s
def execVwait (s : State) : Answered :=
  match s.input with
  | .vwait r => deskRow .vwait r s
  | _ => .next s
def execVsignal (s : State) : Answered :=
  match s.input with
  | .vsignal r => deskRow .vsignal r s
  | _ => .next s
def execVbcast (s : State) : Answered :=
  match s.input with
  | .vbcast r => deskRow .vbcast r s
  | _ => .next s
def execResult (s : State) : Answered :=
  match s.input with
  | .result a => .next (if a.st = 11 then s.refusedByDesk a else s.answered a)
  | _ => .next s
def execWake (s : State) : Answered :=
  match s.input with
  | .wake a => .next (s.answered a)
  | _ => .next s
def execBoost (s : State) : Answered :=
  match s.input with
  | .boost w level => .next (s.boosted true w level)
  | _ => .next s
def execExpire (s : State) : Answered :=
  match s.input with
  | .expire w level => .next (s.boosted false w level)
  | _ => .next s
def execPrioset (s : State) : Answered :=
  match s.input with
  | .prioset cell w prio => .next (s.setPriority cell w prio)
  | _ => .next s
def execCancel (s : State) : Answered :=
  match s.input with
  | .cancel cell w seq => .next (s.cancelHold cell w seq)
  | _ => .next s
def execCensusreq (s : State) : Answered :=
  match s.input with
  | .censusreq id core => .next (s.censusRequest id core)
  | _ => .next s
def execCensus (s : State) : Answered :=
  match s.input with
  | .census id router count sums => .next (s.censusAt id router count sums)
  | _ => .next s
def execCensusEntryTimeout (s : State) : Answered :=
  match s.input with
  | .censusEntryTimeout id router => .next (s.censusTimeout id router)
  | _ => .next s

/-- R112. The requests that a full Desk refused are sent again in their original order. -/
def execDeskResend (s : State) : Answered :=
  match s.input with
  | .deskResend w =>
    let again := s.resend.filter fun e => e.1 = w
    let s := { s with resend := s.resend.filter fun e => e.1 != w }
    .next (again.foldl (fun s e => match e.2 with
      | .fabricPacket p => s.send p p.cluster
      | e => s.emit e) s)
  | _ => .next s

end Sys2Proof.Machine
end

