-- ==== Sys2Proof/Machine/Replies.lean ====
section
/-! DEFINITION. Replies and acknowledgements: loads, atomics, calls, posted stores and cell requests of other units,
their deadlines, the first write to an elided page, a register image write (spec/02_links.md R46-R48,
spec/18_isa_memory.md R363, spec/19_isa_sync_tasks_remote.md R386, R402-R404, spec/14_traps_and_preemption.md R276,
R277, R283). -/

namespace Sys2Proof.Machine

open Sys2Proof

/-! ## The scoreboard (R363, R402, R403) -/

/-- What a reply gives to each register of a scoreboard entry (R366, R371, R379, R403). -/
def Board.values (b : Board) (vals : List Reg) : List (Nat × Reg) :=
  let v := vals.getD 0 {}
  match b.kind with
  | .load size sgn capLoad =>
    let t : Tag := match v.tag with
      | .bounded => .bounded
      | .exact => .exact
      | t => if capLoad then t else .exact
    [(b.reg, ⟨extend sgn size v.data.toNat, t⟩)]
  | .atomic width flag =>
    (b.reg, ⟨atomicResult width v.data.toNat, if v.tag = .bounded then .bounded else .exact⟩) ::
      (if flag then [(b.reg + 1, vals.getD 1 {})] else [])
  | .call => (List.range b.count).map fun i => (b.reg + i, vals.getD i {})
  | .element => []

/-- A slot that waited for the reply to its request no longer does (R372, R379). -/
def Slot.released (sl : Slot) (tag : Nat) : Slot :=
  { sl with await := if sl.await == some (.reply tag) then none else sl.await }

/-- A slot with the values, or the marks, of a reply, in a saved context. -/
def Board.applySaved (b : Board) (status : Cause) (m : Mark) (vals : List Reg) (sl : Slot) : Slot :=
  let sl := sl.released b.seq
  if status != .none then
    (List.range b.count).foldl (fun sl i => if b.reg + i = 0 then sl else
      { sl with marks := put sl.marks (b.reg + i) m }) sl
  else
    let sl := (b.values vals).foldl (fun sl e => sl.setReg e.1 e.2) sl
    match b.kind with
    | .element => { sl with popped := some (vals.flatMap fun v => bytesOf 16 v.data.toNat) }
    | _ => sl

/-- A reply, or what takes its place, applied to the entry of a core (R46, R276, R403). -/
def State.boardReplied (s : State) (n : Nat) (b : Board) (status : Cause) (m : Mark) (vals : List Reg) : State :=
  let s := s.onCore n fun c => { c with board := c.board.filter fun x => x.seq != b.seq }
  let s := s.onSlot b.slot fun sl => sl.released b.seq
  match b.kind, status with
  | .element, .none => s.onSlot b.slot fun sl =>
      { sl with popped := some (vals.flatMap fun v => bytesOf 16 v.data.toNat) }
  | .element, _ =>
    { ({ s with cur := b.slot } : State).takeTrap
        { cause := m.cause, addr := m.addr, rcode := m.rcode, dev := m.dev } 0 with cur := s.cur }
  | _, .none => (b.values vals).foldl (fun s e => s.writeReg b.slot e.1 e.2) s
  | _, _ => (List.range b.count).foldl (fun s i => s.mark b.slot (b.reg + i) m) s

/-! ## Where a tag is remembered -/

/-- The scoreboard entry of a request, with its core. -/
def State.boardOf (s : State) (tag : Nat) : Option (Nat × Board) :=
  s.cores.findSome? fun e => (e.2.board.find? fun b => b.seq = tag).map fun b => (e.1, b)

/-- The posted access of a tag, with its core. -/
def State.postedOf (s : State) (tag : Nat) : Option (Nat × Posted) :=
  s.cores.findSome? fun e => (e.2.posted.find? fun p => p.tag = tag).map fun p => (e.1, p)

/-- A slot awaits the answer to a cell request. -/
def Slot.awaitsCell (sl : Slot) (tag : Nat) : Bool :=
  match sl.await with
  | some (.cell seq _ _ _ _ _ _ _) => seq = tag
  | _ => false

/-- The slot that awaits the answer of a remote cell request. -/
def State.cellAwaiting (s : State) (tag : Nat) : Option Nat :=
  (s.slots.find? fun e => e.2.due != 0 && e.2.awaitsCell tag).map (·.1)

/-- A saved core remembers a request. -/
def SavedCore.remembers (c : SavedCore) (tag : Nat) : Bool :=
  c.core.board.any (fun b => b.seq = tag) || c.core.posted.any (fun p => p.tag = tag) ||
    c.slots.any fun sl => sl.awaitsCell tag

/-! ## Posted accesses (R48, R404, R368) -/

/-- A posted access is answered: the bytes that its refusal leaves unwritten are taken off their barrier by the issuing core (the
target does so for those that it has made visible, R122), and its grid ends (R46, R368). -/
def State.postedAnswered (s : State) (n : Nat) (p : Posted) (status rcode : Cause) (dev : Nat) : State :=
  let s := s.onCore n fun c => { c with posted := c.posted.filter fun x => x.tag != p.tag }
  let s := if p.copy.isSome then s.emit (.copyChunk (clusterOf n)) else s
  if status = .none then s
  else
    let s := match p.barrier with
      | some (va, bytes) =>
        let r : DeskReq := { pa := untranslated, va := va, ctx := s.ctxOf p.slot, who := s.waiterOf p.slot, seq := s.fresh,
                             n := bytes, pc := some p.pc }
        s.drawn.carryDesk (slotAgent p.slot) (s.dieOf p.slot) 0x14 r (.bpendsub r)
      | none => s
    s.lateFault p.slot (if p.grid = 0xFFFF then none else some p.grid)
      { cause := status, addr := p.addr, rcode := rcode, dev := dev, from_ := some (BitVec.ofNat 64 p.pc) }

/-- A refused saved cell request: its destination is marked, and the instruction has completed (R386). -/
def refuseSaved (m : Mark) (tag : Nat) (sl : Slot) : Slot :=
  match sl.await with
  | some (.cell seq _ gd va _ _ _ _) =>
    if seq != tag then sl
    else
      let sl := sl.setReg gd {}
      { sl with
        st := .running, await := none, due := 0, pc := sl.pc + 4
        marks := if gd = 0 then sl.marks else put sl.marks gd { m with addr := va } }
  | _ => sl

/-- A store of a saved strand has been refused (R46): its trap registers name the store. -/
def SavedCore.refused (c : SavedCore) (r : Reply) (i : Nat) (sl : Slot) : Slot :=
  match c.core.posted.find? fun p => p.tag = r.entry && p.slot % 4 = i with
  | some p =>
    if r.status = .none || !sl.occupied then sl
    else sl.trapped { cause := r.status, addr := p.addr, rcode := r.rcode, dev := r.dev, from_ := some (BitVec.ofNat 64 p.pc) } 4 false 0
  | none => sl

/-- A reply applied to a saved core (R283). -/
def SavedCore.replied (c : SavedCore) (r : Reply) (m : Mark) : SavedCore :=
  let slots := (List.range c.slots.length).map fun i =>
    let sl := c.slots.getD i {}
    let sl := if r.status = .none then sl else c.refused r i (refuseSaved m r.entry sl)
    match c.core.board.find? fun b => b.seq = r.entry with
    | some b => if b.slot % 4 = i then b.applySaved r.status { m with addr := b.addr } r.vals sl else sl
    | none => sl
  { c with
    slots := slots
    dirty := [0, 1, 2, 3]
    core := { c.core with
      board := c.core.board.filter fun b => b.seq != r.entry
      posted := c.core.posted.filter fun p => p.tag != r.entry } }

/-- A change of every saved core. -/
def State.onSavedCores (s : State) (f : SavedCore → SavedCore) : State :=
  { s with grids := s.grids.map fun e => (e.1, { e.2 with saved := e.2.saved.map f }) }

/-- The core whose copy command has asked for a read under a tag. -/
def State.copyAsking (s : State) (tag : Nat) : Option Nat :=
  (s.cores.find? fun e => e.2.cq.any fun q => q.asked.any fun a => a.1 = tag).map (·.1)

/-- The reply to a read of a copy command: kept until the command takes it. -/
def State.copyFetched (s : State) (n : Nat) (r : Reply) : State :=
  (s.onCore n fun c => { c with cq := c.cq.map fun q =>
    match q.asked with
    | some (tag, va) => if tag = r.entry then { q with asked := none, fetched := (va, r) :: q.fetched } else q
    | none => q }).emits (.copyChunk (clusterOf n) :: (s.core n).cq.filterMap fun q => q.stream.map fun i => .streamElement q.slot i)

/-! ## Accesses of host streams in the fabric window (R34, R45, R46) -/

/-- The acknowledgement of a posted write (R34). -/
def State.hostAck (s : State) (r : HostReq) : State := s.toUbgen { kind := 9, stream := r.stream, tag := r.tag }

/-- The request of a stream has taken effect: its reply has gone and the stream proceeds. -/
def State.hostDone (s : State) (n : Nat) (late : Bool) (tag : Nat) : State :=
  (s.onHostStream n fun h => h.setAwaiting late tag none).askPort

/-- The bytes of the next part of an access of another device: within a granule of 16 bytes for a read, within a sector for
a write. -/
def HostHeld.part (h : HostHeld) : Nat :=
  let grain := if h.req.kind = 0 then 16 else 32
  min (h.req.len - h.pos) (grain - (h.req.addr + h.pos) % grain)

/-- The next part of an access of another device is asked for; `late` for a relaxed write, which its stream does not wait for. -/
def State.hostAsk (s : State) (n : Nat) (late : Bool) (h : HostHeld) : State :=
  let addr := bits h.req.addr 49 0 + h.pos
  let tag := s.fresh
  let s := s.drawn.onHostStream n fun x => x.setAwaiting late h.seq (some { h with seq := tag })
  if s.upPorts = [] then (s.hostReply h.req 7 0).hostDone n late tag
  else s.send
    { dst := bits h.req.addr 62 50, addr := addr, ctx := h.req.ctx, qos := bits (s.hostStream n).hstream.toNat 5 3,
      entry := tag, acq := true,
      op := if h.req.kind = 0 then (if h.part = 16 then .capLoad else .load h.part)
            else .store ((h.req.data.drop h.pos).take h.part) false false false none } 0

/-- The answer to a part, or the refusal of a request (R36): NO_ROUTE, REMOTE_FAULT with the target's cause. -/
def State.hostFetched (s : State) (n : Nat) (late : Bool) (h : HostHeld) (r : Reply) : State :=
  if r.status != .none then
    (s.hostReply h.req (if r.status = .noRoute then 7 else 8) r.rcode.code).hostDone n late h.seq
  else if 2 ≤ h.req.kind then s
  else
    let bs := bytesOf h.part (r.vals.getD 0 {}).data.toNat
    let h' := { h with pos := h.pos + h.part, got := if h.req.kind = 0 then h.got ++ bs else [] }
    if h'.pos < h.req.len then s.hostAsk n late h'
    else if h.req.kind = 0 then (s.hostReply h.req 0 0 h'.got).hostDone n late h.seq
    else (s.hostAck h.req).hostDone n late h.seq

/-- The refusal of the image that an `ATTACH_QUEUE` has asked another device for (R67). -/
def State.attachRefused (s : State) (n : Nat) (h : HostHeld) (r : Reply) : State :=
  if r.status = .none then s
  else (s.onRegion n fun g => { g with asking := g.asking.filter fun x => x.seq != h.seq }).hostReply h.req
    (if r.status = .noRoute then 7 else 8) r.rcode.code

/-! ## Replies to host streams, command queues and launches -/

/-- The queue whose pop, or whose command's or reset's access, has a tag. -/
def State.queueAwaiting (s : State) (tag : Nat) : Option (Nat × Nat × Queue) :=
  s.regions.findSome? fun e => (e.2.queues.find? fun q => q.2.popping = some tag || q.2.pending.any (fun c => c.1 = tag) ||
    (q.2.resetting.map (·.1)) = some tag).map fun q => (e.1, q.1, q.2)

/-- A reply to the pop of a queue agent, or to the access of a command or of a reset. -/
def State.queueReplied (s : State) (region i : Nat) (q : Queue) (r : Reply) : State :=
  if q.popping = some r.entry then
    if r.status = .none then s
    else (s.onQueue region i fun q => { q with popping := none, stopped := true }).dropDetached region i
  else match q.pending.find? fun c => c.1 = r.entry, q.resetting with
    | some (_, cmd), _ =>
      if r.status = .none then s.commandDone region i cmd (some r.entry)
      else s.startedFailed region i r.status.code cmd r.entry
    | none, some (_, req) =>
      if r.status = .none then s else s.resetAnswered region i req (if r.status = .noRoute then 7 else 8) r.rcode.code
    | none, none => s

/-- The grid that has sent a message which its target or the fabric refuses (R395, R193), and the end that the refusal
gives it. -/
def State.messageRefused (s : State) (r : Reply) : Option (Nat × EndCause) :=
  if r.status = .none then none
  else (s.toFabric.find? fun p => p.entry = r.entry && match p.op with
      | .message _ => true
      | _ => false).bind fun p => match p.op with
    | .message t => some (t.grid,
        { status := 1, cause := (if r.status = .remoteFault then r.rcode else r.status).code, taddr := p.addr, tpc := t.pc.toNat })
    | _ => none

/-- A reply that no core awaits: it belongs to a host stream, to a queue agent, to a launch scheduler, to a launch, to a message, or to a saved
core. -/
def State.otherReplied (s : State) (r : Reply) (m : Mark) : State :=
  match s.streams.findSome? fun e => (e.2.awaiting r.entry).map fun h => (e.1, h) with
  | some (n, late, h) => s.hostFetched n late h r
  | none =>
  match s.regions.findSome? fun e => (e.2.asking.find? fun h => h.seq = r.entry).map fun h => (e.1, h) with
  | some (n, h) => s.attachRefused n h r
  | none =>
  if s.far.any fun a => a.tag = r.entry then
    { s with far := s.far.map fun a => if a.tag = r.entry then { a with reply := some r } else a }
  else
    match s.queueAwaiting r.entry with
    | some (region, i, q) => s.queueReplied region i q r
    | none =>
      match s.gridAwaiting r.entry with
      | some (g, x) => s.gridAnswered g x r.status
      | none =>
        match s.messageRefused r with
        | some (g, e) => s.endGrid g e
        | none =>
          let ends := s.grids.findSome? fun e => e.2.saved.findSome? fun c =>
            (c.core.posted.find? fun p => p.tag = r.entry).map fun p => (e.1, c.place, p)
          let holders := s.grids.filter fun e => e.2.saved.any fun c => c.remembers r.entry
          let s := s.onSavedCores fun c => if c.remembers r.entry then c.replied r m else c
          let s := s.emits (holders.map fun e => .saveComplete e.1)
          match ends, r.status with
          | some (_, _, _), .none => s
          | some (g, place, p), _ => s.endGrid g
              { status := 1, cause := r.status.code, taddr := p.addr, tpc := p.pc, x := coreX place, y := coreY place, slot := p.slot % 4 }
          | none, _ => s

/-- A reply or an acknowledgement arrives (R363, R403, R48, R386, R283): one that finds no request is discarded. -/
def State.replyArrived (s : State) (r : Reply) : State :=
  let m : Mark := ⟨r.status, r.rcode, r.dev, 0⟩
  match s.boardOf r.entry with
  | some (n, b) => s.boardReplied n b r.status { m with addr := b.addr } r.vals
  | none =>
    match s.postedOf r.entry with
    | some (n, p) => s.postedAnswered n p r.status r.rcode r.dev
    | none =>
      match s.copyAsking r.entry with
      | some n => s.copyFetched n r
      | none =>
      match s.cellAwaiting r.entry with
      | some k => if r.status = .none then s else s.cellRefused k m
      | none => s.otherReplied r m

/-! ## Deadlines (R47, R48, R277, R386) -/

/-- The deadline of a reply: the destinations are marked as reply-lost, a cell request leaves its slot and its hold is
cancelled. Until then the event stands. -/
def State.deadlinePassed (s : State) (core tag : Nat) : State :=
  match s.boardOf tag with
  | some (n, b) =>
    if s.time < b.due then s.emit (.replyDeadline core tag)
    else s.boardReplied n b .replyLost ⟨.replyLost, .none, 0, b.addr⟩ []
  | none =>
    match s.cellAwaiting tag with
    | none => s
    | some k =>
      if s.time < (s.slot k).due then s.emit (.replyDeadline core tag)
      else
        let who := s.waiterOf k
        let ctx := s.ctxOf k
        match (s.slot k).await with
        | some (.cell seq op _ va _ _ _ _) =>
          let s := s.cellRefused k ⟨.replyLost, .none, 0, va⟩
          if !op.canHold || s.upPorts = [] then s
          else match regionOfVA va with
            | .fabric dev addr => s.send
                { dst := dev, addr := addr, ctx := ctx, qos := (s.slot k).qos,
                  op := .cancel { pa := untranslated, va := addr, ctx := ctx, who := who, seq := seq } } (slotAgent k).router
            | _ => s
        | _ => s

/-- The deadline of a posted access: its grid ends with POSTED_TIMEOUT. -/
def State.postedLapsed (s : State) (core tag : Nat) : State :=
  match s.postedOf tag with
  | none => s
  | some (n, p) =>
    if s.time < p.due then s.emit (.postedTimeout core tag)
    else s.postedAnswered n { p with barrier := none } .postedTimeout .none p.dev

/-! ## The rows -/

def execMemoryReply (s : State) : Answered :=
  match s.input with
  | .memoryReply r => .next (s.replyArrived r)
  | _ => .next s
def execRcallReply (s : State) : Answered :=
  match s.input with
  | .rcallReply r => .next (s.replyArrived r)
  | _ => .next s
def execStoreAck (s : State) : Answered :=
  match s.input with
  | .storeAck r => .next (s.replyArrived r)
  | _ => .next s
def execReplyDeadline (s : State) : Answered :=
  match s.input with
  | .replyDeadline core entry => .next (s.deadlinePassed core entry)
  | _ => .next s
def execPostedTimeout (s : State) : Answered :=
  match s.input with
  | .postedTimeout core entry => .next (s.postedLapsed core entry)
  | _ => .next s

/-- R158. The first write to an elided page: while a drain covers the page, the write waits. -/
def execElMaterialise (s : State) : Answered :=
  match s.input with
  | .elMaterialise ctx va =>
    .next (if s.draining ctx va then s.emit (.elMaterialise ctx va) else s.materialise ctx va)
  | _ => .next s

/-- R144. A register image written through a window. -/
def execRegisterImageWrite (s : State) : Answered :=
  match s.input with
  | .registerImageWrite slot reg v => .next (s.writeImage slot reg v)
  | _ => .next s

end Sys2Proof.Machine
end

