-- ==== Sys2Proof/Machine/Tasks.lean ====
section
/-! DEFINITION. Tasks, messages, remote calls, migration, the annex thread, composition and position: the instructions
of custom-2 rows 000-010 (spec/19_isa_sync_tasks_remote.md R394-R412) and the steps that follow from them
(spec/12_cores_and_strands.md R228-R249). -/

namespace Sys2Proof.Machine

open Sys2Proof

/-! ## Handles and targets (R394-R396) -/

/-- An entry handle: sealed, with X and S. -/
def handleOk (h : Reg) : Bool := h.tag == .sealed && hasPerm h.data permX && hasPerm h.data permS

/-- A handle operand (R395, R396, R402). -/
def handleOperand (r : RegNo) : Act Reg := do
  let h ← exactSource r
  if handleOk h then pure h else trap .capability (capAddr h.data)

/-- What a target word names (R394). -/
inductive Target where
  | core (n : Nat)
  | cores (ns : List Nat)
  | bank (b : Nat)
  | away (dev b : Nat)
  deriving DecidableEq, Repr

/-- The cores of a grid in a rectangle of grid coordinates: a hole is none. -/
def State.coresIn (s : State) (g x0 y0 x1 y1 : Nat) : List Nat :=
  ((s.coresOf g).filter fun e => x0 ≤ e.2.gx && e.2.gx ≤ x1 && y0 ≤ e.2.gy && e.2.gy ≤ y1).map (·.1)

/-- A target word decoded for a grid (R394 Table 5); none where it names nothing. -/
def State.targetOf (s : State) (grid : Option Nat) (w : Nat) : Option Target :=
  let x := bits w 15 0
  let y := bits w 31 16
  let x1 := bits w 47 32
  let y1 := bits w 63 48
  if w / 2 ^ 87 != 0 then none
  else match bits w 72 71 with
    | 0 => if x1 != 0 || y1 != 0 || bit w 86 then none
           else (grid.bind fun g => s.gridCore g x y).map .core
    | 1 =>
      if x1 < x || y1 < y || bit w 86 then none
      else match grid with
        | none => none
        | some g => match s.coresIn g x y x1 y1 with
          | [] => none
          | ns => some (.cores ns)
    | 2 =>
      if y != 0 || x1 != 0 || y1 != 0 || 384 ≤ x then none
      else if bit w 86 && bits w 85 73 != thisDevice then some (.away (bits w 85 73) x)
      else some (.bank x)
    | _ => none

/-- A target word resolved by an instruction (R394, R447): kinds 0 and 1 are illegal at level S. -/
def targetOperand (r : RegNo) : Act (Target × Nat) := do
  let v ← exactSource r
  let w := v.data.toNat
  let s ← get
  if levelOf s.cur = .s && bits w 72 71 ≤ 1 then illegal
  match s.targetOf (s.gridOf s.cur) w with
  | some t => pure (t, w)
  | none => trap .window (bits w 63 0)

/-- The priority of a target word, not above the sender's (R394). -/
def Slot.sentPrio (sl : Slot) (w : Nat) : Nat := min (bits w 70 68) sl.prio

/-! ## Messages (R395) -/

/-- A message given to its target; to another device it goes as a packet. -/
def State.inject (s : State) (t : Target) (m : Task) : State :=
  match t with
  | .core n => s.carry (m.header (slotAgent s.cur) n) (.messageArrival n m)
  | .cores ns => s.carryTo (m.header (slotAgent s.cur) 0) ns (.messageArrival · m)
  | .bank b => s.carry (m.header (slotAgent s.cur) (16384 + b)) (.messageArrival (16384 + b) m)
  | .away dev b =>
    let s := s.count (coreOf s.cur) 11 1
    if s.upPorts = [] then
      match s.gridOf s.cur with
      | some g => s.lateFault s.cur (some g) { cause := .noRoute, addr := b }
      | none => s
    else s.drawn.send
      { dst := dev, addr := b, ctx := m.ctx, qos := m.qos, cls := m.cls, core := coreOf s.cur, entry := s.fresh,
        op := .message m } (clusterOf (coreOf s.cur))

/-- The message of the issuing slot. -/
def State.messageOf (s : State) (kind : Nat) (entry : Reg) (w : Nat) (p : List Reg) : Task :=
  { kind := kind, cls := bits w 67 64, prio := s.here.sentPrio w, qos := s.here.qos,
    grid := (s.gridOf s.cur).getD 0xFFFF, ctx := s.ctxOf s.cur, entry := entry, args := p, sender := s.waiterOf s.cur, pc := s.here.pc }

/-- R395. `send`. -/
def execSend (n : BitVec 4) (gd gs2 : RegNo) (s : State) : Answered :=
  settle 0 (do
    let payload := groupOf gs2 n.toNat
    enter everywhere (gd :: payload) []
    let (t, w) ← targetOperand gd
    let p ← sources payload
    modify fun s => s.inject t (s.messageOf 3 {} w p)
    retire 0) s

/-- R395. `spawn`: a target of kind 1 raises WINDOW. -/
def execSpawn (n : BitVec 4) (gd gs1 gs2 : RegNo) (s : State) : Answered :=
  settle 0 (do
    let payload := groupOf gs2 n.toNat
    enter onCores (gd :: gs1 :: payload) []
    let (t, w) ← targetOperand gd
    let p ← sources payload
    let h ← handleOperand gs1
    match t with
    | .cores _ => trap .window (bits w 63 0)
    | _ => pure ()
    modify fun s => s.inject t (s.messageOf 2 h w p)
    retire 0) s

/-! ## Forks and the end of a task (R396-R400) -/

/-- R396. `fork`: a record on the deque, or an inline call where the deque is full. -/
def execFork (la : Look) (gd gs1 gs2 : RegNo) (s : State) : Answered :=
  settle la.toNat (do
    let args := groupOf gs2 3
    enter inGrids (gs1 :: args) [gd]
    let h ← exactSource gs1
    let a ← sources args
    if !handleOk h then trap .capability (capAddr h.data)
    awaitEarlier false
    let s ← get
    let sl := s.here
    let n := coreOf s.cur
    let t : Task :=
      { kind := 1, cls := sl.oclass, prio := sl.bprio, qos := sl.qos, grid := (s.gridOf s.cur).getD 0xFFFF,
        ctx := s.ctxOf s.cur, age := s.fresh + 1, entry := h, args := a }
    if s.hereCore.deque.length < 32 then do
      set ((s.drawn.onCore n fun c => { c with deque := c.deque ++ [t], stealWait := false }).emit (.taskSelect n))
      result gd (exactData 1)
      retire la
    else do
      if [1, 3, 16, 17, 18].any (s.outstanding s.cur) then waitHere
      result gd (exactData 0)
      result 16 (a.getD 0 {})
      result 17 (a.getD 1 {})
      result 18 (a.getD 2 {})
      result 3 (exactData (t.word (s.cur % 4) + 2 ^ 40))
      result 1 ⟨(sl.pc + 4).setWidth 128, .exact⟩
      jumpTo (lo64 h.data)) s

/-- R397. `join`: the count, then the return or the end; lk is read only where the body was called inline. -/
def execJoin (la : Look) (gs1 : RegNo) (s : State) : Answered :=
  settle la.toNat (do
    enter inGrids [gs1, 3] []
    let inline_ := (s.here.reg 3).data.getLsbD 40
    if inline_ then enter inGrids [1] []
    if gs1 = 0 then leaveForked la.toNat
    else do
      let c ← exactSource gs1
      cellCap c
      alignTo 32 (capAddr c.data)
      performCell la.toNat 0 .cadd c none true fun _ => pure { n := -1 }) s

/-- R398. `exit`: every instruction of the window has completed. -/
def execExit (_la : Look) (s : State) : Answered :=
  settle 0 (do
    enter onCores [] []
    modify fun s => s.retired.exitSlot s.cur) s

/-- R399. `yield`: the slot is not ready for the cycles given; 0 acts as 1. -/
def execYield (la : Look) (gs1 : RegNo) (s : State) : Answered :=
  settle la.toNat (do
    enter onCores [gs1] []
    let v ← exactSource gs1
    retire la
    modify fun s => (s.onHere fun sl => { sl with yielding := s.time + max 1 (bits v.data.toNat 15 0) }).emit
      (.yieldExpiry s.cur)) s

/-- R400. `trigger`: once in a dealt task, after the earlier accesses of the strand. -/
def execTrigger (la : Look) (s : State) : Answered :=
  settle la.toNat (do
    enter inGrids [] []
    let s ← get
    match s.here.task with
    | some t =>
      if t.dealt.isSome && !t.triggered then do
        awaitEarlier true
        modify fun s => (s.onHere fun sl => { sl with task := some { t with triggered := true } }).decTrigger t.grid
      else pure ()
    | none => pure ()
    retire la) s

/-! ## Remote calls (R401-R404) -/

/-- Where a call goes: a target, or an address of another device. -/
inductive Callee where
  | unit (t : Target)
  | far (dev addr : Nat)
  | fails (c : Cause)
  deriving DecidableEq, Repr

/-- The bank unit of the channel that holds a byte of a page (R402). -/
def State.calleeAt (s : State) (a : Agent) (va : Nat) : Option Callee × State :=
  match s.translate (s.cacheFor a va) a.ctx va with
  | (.park, s) => (none, s)
  | (.fail c, s) => (some (.fails c), s)
  | (.leaf l _, s) =>
    let pa := match s.held l va with
      | .mem pa => pa
      | _ => l.frame + (va - l.base)
    (some (.unit (.bank (s.bankOfPA pa))), s)

/-- A call's target resolved (R402), with the address whose earlier stores it waits for (R181). -/
def calleeOperand (t c : Reg) : Act (Callee × Option Nat) := do
  let s ← get
  let ea := capAddr t.data
  if c.data.getLsbD 16 then do
    let w := t.data.toNat
    if levelOf s.cur = .s && bits w 72 71 ≤ 1 then illegal
    match s.targetOf (s.gridOf s.cur) w with
    | some (.cores _) | none => trap .window (bits w 63 0)
    | some u => pure (.unit u, none)
  else do
    if !capOk t ea 1 (withG [permRC] ea) then trap .capability ea
    match regionOfVA ea with
    | .own _ => pure (.unit (.core (coreOf s.cur)), none)
    | .grid x y _ =>
      match s.gridOf s.cur with
      | none => trap .window ea
      | some g => match s.gridCore g x y with
        | some n => pure (.unit (.core n), none)
        | none => trap .window ea
    | .none => trap .noncanonical ea
    | .fabric dev addr =>
      if dev != thisDevice then pure (.far dev addr, some ea)
      else match s.calleeAt (s.agentOf s.cur).outside addr with
        | (some u, s) => do
          set s
          pure (u, some ea)
        | (none, t) => waitOutside s t addr
    | .translated =>
      match s.calleeAt (s.agentOf s.cur) ea with
      | (some u, s) => do
        set s
        pure (u, some ea)
      | (none, t) => waitOutside s t ea

/-- The earlier stores of the strand to the 64 KiB range of a call's target are visible there (R181). -/
def awaitStores (ea : Option Nat) : Act Unit := do
  let s ← get
  match ea with
  | none => pure ()
  | some a =>
    if s.hereCore.posted.any fun p => p.slot = s.cur && !p.call && p.addr / 65536 ≤ a / 65536 &&
        a / 65536 ≤ (p.addr + p.bytes - 1) / 65536 then waitHere

/-- A call slip goes to its unit (R402), or its refusal comes back. -/
def State.sendSlip (s : State) (u : Callee) (t : Task) (tag : Nat) : State :=
  let back (status rcode : Cause) (s : State) : State :=
    let r : Reply := { core := coreOf s.cur, entry := tag, status := status, rcode := rcode, dev := thisDevice }
    s.emit (if t.kind = 6 then .storeAck r else .rcallReply r)
  let packet (dev addr : Nat) (s : State) : State :=
    if s.upPorts = [] then back .noRoute .none s
    else (s.count (coreOf s.cur) 11 1).send
      { dst := dev, addr := addr, ctx := t.ctx, qos := t.qos, cls := t.cls, core := coreOf s.cur, entry := tag,
        op := .call t } (clusterOf (coreOf s.cur))
  match u with
  | .unit (.core n) => s.carry (t.header (slotAgent s.cur) n) (.callSlip n t)
  | .unit (.bank b) => s.carry (t.header (slotAgent s.cur) (16384 + b)) (.callSlip (16384 + b) t)
  | .unit (.away dev b) => packet dev b s
  | .unit (.cores _) => s
  | .far dev addr => packet dev addr s
  | .fails c => back .remoteFault c s

/-- The body of `rcall` and `rpost`: the operands and checks, then the entry that `take` gives and the slip. -/
def callOp (levels : List Level) (kind : Nat) (n : BitVec 4) (gs1 gs2 : RegNo) (dsts : List RegNo)
    (take : Nat → Nat → Act Nat) : Act Unit := do
  let payload := groupOf gs2 (n.toNat + 1)
  enter levels (groupOf gs1 3 ++ payload) dsts
  let t ← exactSource gs1
  let h ← exactSource (gs1 + 1)
  let c ← exactSource (gs1 + 2)
  let p ← sources payload
  if !handleOk h then trap .capability (capAddr h.data)
  let (u, ea) ← calleeOperand t c
  let dev := match u with
    | .far d _ | .unit (.away d _) => d
    | _ => thisDevice
  awaitStores ea
  let tag ← take dev (capAddr t.data)
  modify fun s =>
    let byWord := c.data.getLsbD 16
    s.sendSlip u
      { kind := kind, cls := if byWord then bits t.data.toNat 67 64 else 0, prio := s.here.prio, qos := s.here.qos,
        grid := (s.gridOf s.cur).getD 0xFFFF, ctx := s.ctxOf s.cur, entry := h, args := p, sender := s.waiterOf s.cur,
        target := if byWord then {} else t, seq := bits c.data.toNat 15 0,
        route := some ⟨thisDevice, s.cur, tag, kind = 6, (s.gridOf s.cur).getD 0xFFFF⟩ } tag
  retire 0

/-- R402. `rcall`: r + 1 reply registers from gd. -/
def execRcall (n : BitVec 4) (r : BitVec 2) (gd gs1 gs2 : RegNo) (s : State) : Answered :=
  settle 0 (callOp [.g, .s] 5 n gs1 gs2 (groupOf gd (r.toNat + 1))
    fun _ ea => takeBoard gd (r.toNat + 1) .call ea) s

/-- R404. `rpost`: the operands and checks of `rcall`, and no reply. -/
def execRpost (n : BitVec 4) (gs1 gs2 : RegNo) (s : State) : Answered :=
  settle 0 (callOp onCores 6 n gs1 gs2 [] fun dev ea => takePosted dev ea 1 none true) s

/-- R403. `rreply`: the values go to the caller of the running call, after the earlier accesses of the callee. -/
def execRreply (n : BitVec 4) (gs2 : RegNo) (s : State) : Answered :=
  settle 0 (do
    let values := groupOf gs2 (n.toNat + 1)
    atLevels everywhere
    let s ← get
    match s.here.task with
    | some t =>
      if t.kind = 6 then retire 0
      else if t.kind != 5 || t.replied then illegal
      else do
        enter everywhere values []
        let vs ← sources values
        awaitEarlier true
        modify fun s =>
          let s := s.onHere fun sl => { sl with task := some { t with replied := true } }
          match t.route with
          | some r => s.answerCall (slotAgent s.cur) t r .none .none vs
          | none => s
        retire 0
    | none => illegal) s

/-! ## Migration (R405, R242) -/

/-- The strand leaves its slot for another core, in two messages: its engine commands, accumulators and footprint pins stay. -/
def State.depart (s : State) (k target : Nat) (cls : Nat) : State :=
  let sl := s.slot k
  let old := sl.task.getD {}
  let t : Task := { old with
    kind := 7, cls := cls, prio := sl.bprio, qos := sl.qos, grid := (s.gridOf k).getD 0xFFFF, ctx := s.ctxOf k,
    args := (List.range 16).map fun i => sl.reg i, pc := sl.pc, sstat := sl.sstat, age := 0, inbox := none,
    sender := s.waiterOf k, seq := s.fresh }
  let kept := match old.dealt with
    | some l => if old.kind = 7 then [] else old.pins.map fun p => (l, p.1, p.2)
    | none => []
  let s := s.onCore (coreOf k) fun c => { c with kept := c.kept ++ kept }
  let s := s.onSlot k fun sl => { sl.fresh with st := .free, task := none }
  let h : Header := { t.header (slotAgent k) target with len := 6 }
  let half (i : Nat) : Event := .migrateArrival target { t with cause := i }
  (((s.drawn.carry h (half 1)).carry h (half 2)).emit (.taskSelect (coreOf k)))

/-- R405. `migrate`: every target word that names no core of the grid, and a bound stream, raise MIGRATE; a bound strand hands
its volume back before it waits (R242). -/
def execMigrate (la : Look) (gs1 : RegNo) (s : State) : Answered :=
  settle la.toNat (do
    enter [.g] [gs1] []
    let v ← exactSource gs1
    let w := v.data.toNat
    let s ← get
    match s.targetOf (s.gridOf s.cur) w with
    | some (.core n) =>
      if s.here.streams != [] then trap .migrate (bits w 63 0)
      let k := s.cur
      if s.isBound k then waitAfter fun o => (o.handBack k).onSlot k fun sl => sl.setVsz 0
      if s.hereCore.board.any (fun b => b.slot = k) || s.hereCore.vq.any (fun q => q.slot = k && q.gd != 0) ||
          s.hereCore.xq.any (fun x => x.slot = k && match x.op with
            | .prog gd _ _ _ => gd != 0
            | _ => false) then waitHere
      awaitEarlier true
      modify fun s =>
        let s := (s.flushBarrier k).onSlot k fun sl => { (sl.setVsz 0) with pc := sl.pc + 4 }
        s.retired.depart k n (bits w 67 64)
    | _ => trap .migrate (bits w 63 0)) s

/-! ## Held classes and the catalogue (R406, R407) -/

/-- The body of `hold` and `unhold`: the old mask, and a new selection. -/
def maskOp (la : Look) (gd gs1 : RegNo) (f : BitVec 32 → BitVec 32 → BitVec 32) : Act Unit := do
  enter onCores [gs1] [gd]
  let v ← exactSource gs1
  let s ← get
  let old := s.hereCore.hmask
  set ((s.onHereCore fun c => { c with hmask := f old (v.data.setWidth 32 &&& 0xFFFE) }).emit
    (.taskSelect (coreOf s.cur)))
  result gd (exactData old.toNat)
  retire la

def execHold (la : Look) (gd gs1 : RegNo) (s : State) : Answered :=
  settle la.toNat (maskOp la gd gs1 fun old m => old ||| m) s
def execUnhold (la : Look) (gd gs1 : RegNo) (s : State) : Answered :=
  settle la.toNat (maskOp la gd gs1 fun old m => old &&& ~~~m) s

/-- R407. `catset`: any value but a bounded one is written with its tag. -/
def execCatset (la : Look) (gs2 : RegNo) (sel : BitVec 5) (s : State) : Answered :=
  settle la.toNat (do
    enter onCores [gs2] []
    let v ← exactSource gs2
    modify fun s => (s.onHereCore fun c => { c with cat := put c.cat sel.toNat v }).askAnnex (coreOf s.cur)
    retire la) s

/-! ## The annex thread (R237, R408, R409) -/

/-- The origin field that names a taken message. -/
def originOf (n : Nat) : Nat := xorN (n % 2 ^ 64) (Config.originMask % 2 ^ 64)

/-- The header word of a taken message (R408 Table 7). -/
def Task.takenWord (m : Task) (origin : Nat) : Word128 :=
  BitVec.ofNat 128 (m.kind % 16 + m.cls % 16 * 16 + m.prio % 8 * 256 + m.args.length % 16 * 2 ^ 11 + 2 ^ 15 +
    (if m.isCall then m.seq % 65536 else 0) * 2 ^ 16 + origin * 2 ^ 64)

/-- A message that the annex thread may take. -/
def Task.takeable (m : Task) : Bool := m.kind = 2 || m.kind = 3 || m.kind = 5 || m.kind = 6

/-- R408. `atake`: the oldest inbox message that has not entered Starting. -/
def execAtake (la : Look) (gd : RegNo) (s : State) : Answered :=
  settle la.toNat (do
    enter [.a] [] [gd]
    let s ← get
    let n := coreOf s.cur
    match s.hereCore.inbox.find? Task.takeable with
    | none => result gd (exactData 0)
    | some m => do
      if (List.range 11).any fun i => s.outstanding s.cur (13 + i) then waitHere
      let had := s.hereCore.runq.any fun t => t.inbox = m.inbox
      let num := s.fresh % 2 ^ 64
      let s := { (s.count n 14 1).drawn with taken := (num, m) :: s.taken }
      let s := s.onCore n fun c => { c with runq := c.runq.filter fun t => t.inbox != m.inbox }
      let s := s.leaveInbox n m.inbox
      set (if had then s.entryFreed n else s)
      result gd ⟨m.takenWord (originOf num), .exact⟩
      result 13 m.sender.reg
      result 14 (if m.kind = 2 then m.entry else if m.isCall then m.target else {})
      result 15 (if m.isCall then exactData (m.seq % 65536) else {})
      for i in List.range m.args.length do
        result (16 + BitVec.ofNat 5 i) (m.args.getD i {})
    retire la) s

/-- R409. `lbsend`: a message goes back into the inbox, with a new age, while fewer than hi are there. A call whose
origin was changed names no entry and no caller, and goes nowhere. -/
def execLbsend (n : BitVec 4) (gd gs1 gs2 : RegNo) (s : State) : Answered :=
  settle 0 (do
    let payload := groupOf gs2 n.toNat
    enter [.a] (gs1 :: (gs1 + 1) :: payload) [gd]
    let h ← source gs1
    let g14 ← source (gs1 + 1)
    let p ← sources payload
    let w := h.data.toNat
    let kind := bits w 3 0
    if h.tag != .exact || !bit w 15 || !(kind = 2 || kind = 3 || kind = 5 || kind = 6) then illegal
    refuseBounded g14
    let s ← get
    let c := coreOf s.cur
    let known := (s.taken.find? fun e => originOf e.1 = w / 2 ^ 64).map (·.2)
    let old := known.getD { grid := (s.gridOf s.cur).getD 0xFFFF, ctx := s.ctxOf s.cur }
    let call := kind = 5 || kind = 6
    let m : Task := { old with
      kind := kind, cls := bits w 7 4, prio := bits w 10 8, args := p,
      entry := if kind = 2 then g14 else if call then old.entry else {},
      target := if call then g14 else {}, seq := if call then bits w 31 16 else 0,
      route := if call then old.route else none, age := 0, inbox := none }
    if s.hereCore.inboxUsed < s.hereCore.annexHi then do
      set (if call && known.isNone then s else s.enterInbox c m)
      result gd (exactData 0)
    else result gd (exactData 1)
    retire 0) s

/-! ## Composition and position (R410, R411) -/

/-- The size code of a volume: N = 2^v. -/
def volumeCode (n : Nat) : Option Nat :=
  match n with
  | 2 => some 1
  | 4 => some 2
  | 8 => some 3
  | 16 => some 4
  | _ => none

/-- R410. `bind`: the conditions of R244 in order. -/
def execBind (la : Look) (gd : RegNo) (sel : BitVec 5) (s : State) : Answered :=
  settle la.toNat (do
    enter [.g] [] [gd]
    let s ← get
    match volumeCode sel.toNat with
    | none => result gd (exactData 1)
    | some v =>
      if s.isBound s.cur then result gd (exactData 2)
      else do
        let (st, s) := s.tryBind s.cur v
        set s
        result gd (exactData st)
    retire la) s

/-- R410. `unbind`: the hand-back of R249. -/
def execUnbind (la : Look) (s : State) : Answered :=
  settle la.toNat (do
    enter [.g] [] []
    modify fun s => if s.isBound s.cur then (s.handBack s.cur).onHere fun sl => sl.setVsz 0 else s
    retire la) s

/-- R411. `gpos`. -/
def execGpos (la : Look) (gd : RegNo) (sel : BitVec 5) (s : State) : Answered :=
  settle la.toNat (do
    enter inGrids [] [gd]
    let s ← get
    let c := s.hereCore
    let g := ((s.gridOf s.cur).bind s.grid).getD { num := 0 }
    result gd (exactData (
      if sel = 0 then
        c.gx % 65536 + c.gy % 65536 * 2 ^ 16 + c.bay % 65536 * 2 ^ 32 + g.stageOf c.bay % 16 * 2 ^ 48 +
          s.cur % 4 * 2 ^ 52 + s.here.vsz * 2 ^ 54
      else
        g.gw * g.node.bw % 65536 + g.node.gh * g.node.bh % 65536 * 2 ^ 16 + g.node.bw % 256 * 2 ^ 32 +
          g.node.bh % 256 * 2 ^ 40 + g.node.stages % 32 * 2 ^ 48))
    retire la) s

/-! ## Stealing (R240, R241) -/

/-- A victim answers a steal request: with its top entry, or empty (R240). A thief whose run queue has no room is answered as by
an empty victim. -/
def State.answerSteal (s : State) (thief victim : Nat) : State :=
  let back (t : Option Task) (s : State) : State :=
    s.carry { family := 1, op := 0x20, src := coreAgent victim, dst := coreAgent thief, len := if t.isSome then 4 else 1 }
      (.stealRequest thief victim (some t))
  match (s.core victim).deque with
  | t :: rest =>
    if (s.core victim).grid = (s.core thief).grid && (s.core thief).runq.length < 64 then
      back (some t) (s.onCore victim fun c => { c with deque := rest })
    else back none s
  | [] => back none s

/-- The answer reaches the thief (R240): a stolen task enters its run queue, once an entry is free for it; an empty indication
sends it to the next victim. -/
def State.stolen (s : State) (thief victim : Nat) (answer : Option Task) : State :=
  match answer, (s.core thief).steal with
  | some t, _ =>
    if (s.core thief).grid != some t.grid then s
    else if 64 ≤ (s.core thief).runq.length then s.emit (.stealRequest thief victim (some answer))
    else
      let s := s.drawn.onCore thief fun c => { c with
        steal := none, stealWait := false, runq := c.runq ++ [{ t with age := s.fresh + 1 }] }
      (s.count thief 13 1).emit (.taskSelect thief)
  | none, some i => if (s.victims thief)[i]? = some victim then s.askVictim thief (i + 1) else s
  | none, none => s

/-- A thief that found every victim empty begins again after 1,024 cycles. -/
def State.retrySteal (s : State) (n : Nat) : State :=
  if !(s.core n).stealWait then s
  else if s.time < (s.core n).stealAt + 1024 then s.emit (.stealRetry n)
  else (s.onCore n fun c => { c with stealWait := false }).beginSteal n

/-! ## The rows -/

def execTaskSelect (s : State) : Answered :=
  match s.input with
  | .taskSelect core => .next (if 16384 ≤ core then s.selectBank (core - 16384) else s.select core)
  | _ => .next s
def execTaskStart (s : State) : Answered :=
  match s.input with
  | .taskStart k => .next (s.startTask k)
  | _ => .next s
def execMessageArrival (s : State) : Answered :=
  match s.input with
  | .messageArrival target m => .next (s.arrive_ target m)
  | _ => .next s
def execMessageReady (s : State) : Answered :=
  match s.input with
  | .messageReady core => .next (s.makeReady core)
  | _ => .next s
def execAnnexStart (s : State) : Answered :=
  match s.input with
  | .annexStart core => .next (s.startAnnex core)
  | _ => .next s
def execStealRequest (s : State) : Answered :=
  match s.input with
  | .stealRequest thief victim none => .next (s.answerSteal thief victim)
  | .stealRequest thief victim (some t) => .next (s.stolen thief victim t)
  | _ => .next s
def execStealRetry (s : State) : Answered :=
  match s.input with
  | .stealRetry core => .next (s.retrySteal core)
  | _ => .next s
def execMigrateArrival (s : State) : Answered :=
  match s.input with
  | .migrateArrival core t => .next (s.arriveAt core t)
  | _ => .next s
def execCallSlip (s : State) : Answered :=
  match s.input with
  | .callSlip target t => .next (s.arrive_ target t)
  | _ => .next s

/-- R399. The slot is ready again once its cycles have passed. -/
def execYieldExpiry (s : State) : Answered :=
  match s.input with
  | .yieldExpiry k =>
    .next (if (s.slot k).yielding = 0 then s
      else if s.time < (s.slot k).yielding then s.emit (.yieldExpiry k)
      else s.onSlot k fun sl => { sl with yielding := 0 })
  | _ => .next s

end Sys2Proof.Machine
end

