-- ==== Sys2Proof/Machine/Engines.lean ====
section
/-! DEFINITION. What the engines share: who issues a command, row operands and scratchpad ranges, reservations of
carousels, faults of a command after its issue, the end of a command, doorbells (spec/13_engines.md R256, R257, R263,
spec/20_isa_engines.md R413-R419, R428, R436). -/

namespace Sys2Proof.Machine

open Sys2Proof

/-! ## The issuer of a command (R414, R263) -/

/-- Who issues an engine command: a slot, with what the command latches at its entry, or a doorbell. -/
structure Issuer where
  slot : Nat
  grid : Nat
  ctx : Nat
  prio : Nat
  qos : Nat
  rmode : Nat
  vcfg : Nat
  door : Bool
  pc : Nat
  deriving DecidableEq, Repr

/-- The issuing strand (R414). -/
def strandIssuer : Act Issuer := do
  let s ← get
  let sl := s.here
  pure ⟨s.cur, (s.gridOf s.cur).getD 0xFFFF, s.ctxOf s.cur, sl.prio, sl.qos, sl.rmode, sl.vcfg.toNat, false, sl.pc.toNat⟩

/-- The QoS class of the grid of a core. -/
def State.coreQos (s : State) (c : Nat) : Nat :=
  match (s.core c).grid with
  | some g => match s.grid g with
    | some x => x.node.qos
    | none => 0
  | none => 0

/-- A doorbell of a core (R263): priority 0 and the grid's QoS class. The rounding mode and `vcfg` belong to a slot, and a
doorbell names none: they are free values (notes/assumptions/40.md). -/
def State.doorIssuer (s : State) (c : Nat) : Issuer :=
  let v := Config.choice s.fresh
  ⟨slotKey c 0, (s.core c).grid.getD 0xFFFF, s.ctxOf (slotKey c 0), 0, s.coreQos c, v % 5,
    v / 5 % 7 + v / 35 % 2 * 16 + v / 70 % 256 * 256, true, 0⟩

/-- An image of the shadow of an engine (R263, R416), with the tag of its granule. -/
def State.shadow (s : State) (c block i : Nat) : Reg := s.capAt (windowPA c (0x32000 + 0x100 * block + 16 * i)) true

/-! ## Operands -/

/-- A row operand (R428): the offset of the first row, or in a destination the carousel that receives the rows. -/
def rowOperand (v : Reg) (dst : Bool) : Act (Option Nat × Nat) := do
  let w := v.data.toNat
  if bits w 30 21 != 0 || (bit w 31 && !dst) then illegal
  if bit w 31 then pure (some (bits w 20 18), 0)
  else if bits w 17 0 % 128 != 0 then illegal
  else pure (none, bits w 17 0)

/-- A range lies in a core's scratchpad (R147). -/
def State.inScratch (s : State) (c off n : Nat) : Bool := s.codeEnd c ≤ off && off + n ≤ s.spadEnd c

/-- A range of the issuing core's scratchpad, or WINDOW (R264). -/
def needScratch (off n : Nat) : Act Unit := do
  let s ← get
  if !s.inScratch (coreOf s.cur) off n then trap .window (localVA off)

/-- A range that starts on a multiple of 32 and lies in the scratchpad, or WINDOW (R439, R440, R443). -/
def needGranules (off n : Nat) : Act Unit := do
  if off % 32 != 0 then trap .window (localVA off)
  needScratch off n

/-! ## Carousels (R256, R257, R436) -/

/-- The window offset of a carousel's descriptor. -/
def descriptorOffset (i : Nat) : Nat := 0x31000 + 32 * i

/-- The window offset of slot `j` of a carousel. -/
def Carousel.slotAt (k : Carousel) (j : Nat) : Nat := k.base + (if k.cnt = 0 then 0 else j % k.cnt) * (k.size * 128)

/-- The slots pushed and not popped. -/
def Carousel.full (k : Carousel) : Nat := low 32 ((k.tail : Int) - k.head)

/-- A push (R257): tail advances. -/
def State.pushSlot (s : State) (c i : Nat) : State :=
  s.onCarousel c i fun k => { k with tail := (k.tail + 1) % 2 ^ 32 }

/-- The next slot of a carousel reserved for a command of at least so many bytes (R436): its number and its offset. -/
def reserveSlot (i bytes : Nat) (tooLong : Act Unit) : Act (Nat × Nat) := do
  let s ← get
  let c := coreOf s.cur
  let k := s.carousel c i
  if k.cnt = 0 then trap .carousel (descriptorOffset i)
  if k.size * 128 < bytes then tooLong
  let j := (k.tail + k.claimed) % 2 ^ 32
  set (s.onCarousel c i fun k => { k with claimed := k.claimed + 1 })
  pure (j, k.slotAt j)

/-- A command may write the slot that it has reserved: every earlier push is done and the slot is free (R257, R418,
R436). -/
def State.slotFree (s : State) (c : Nat) (car : Option Nat) (pos : Nat) : Bool :=
  match car with
  | none => true
  | some i => (s.carousel c i).tail = pos && (s.carousel c i).full < (s.carousel c i).cnt

/-- The push of a command that has landed (R257, R436). -/
def State.landSlot (s : State) (c : Nat) (car : Option Nat) : State :=
  match car with
  | none => s
  | some i => (s.onCarousel c i fun k => { k with claimed := k.claimed - 1 }).pushSlot c i

/-! ## Running and ending (R178, R415, R306, R398) -/

/-- A command may touch its ranges of the core's window: no command issued before it has still to write them, nor to
read what it writes (R415). -/
def State.mayTouch (s : State) (c seq : Nat) (reads writes : List (Nat × Nat)) : Bool :=
  (reads ++ writes).all (fun r => !s.writePending seq (windowPA c r.1) r.2) &&
    writes.all fun r => !s.readPending seq c (windowPA c r.1) r.2

/-- The events of a core's engines. -/
def muEvent (c : Nat) : Event := .muStep (clusterOf c) (coreInCluster c / 8)
def copyEvent (c : Nat) : Event := .copyChunk (clusterOf c)

/-- The engines of a core look again at the heads of their queues. -/
def State.wakeEngines (s : State) (c : Nat) : State :=
  let k := s.core c
  let s := if k.muq = [] then s else s.emitOnce (muEvent c)
  let s := if k.vq = [] then s else s.emitOnce (.vectorCommand c)
  if k.cq = [] then s else s.emitOnce (copyEvent c)

/-- A command has ended: what waited for it looks again, and a grid whose work is done ends (R398). -/
def State.engineIdle (s : State) (c : Nat) : State :=
  let s := s.wakeEngines c
  match (s.core c).grid with
  | some g => s.checkGridEnd g
  | none => s

/-- A doorbell command has completed: `done` advances (R263 Table 5). -/
def State.doorDone (s : State) (c block : Nat) : State :=
  let up (w : Word64) : Word64 := BitVec.ofNat 64 (setBits w.toNat 15 0 (bits w.toNat 15 0 + 1))
  s.onCore c fun k => match block with
    | 0 => { k with muStatus := up k.muStatus }
    | 1 => { k with copyStatus := up k.copyStatus }
    | _ => { k with vecStatus := up k.vecStatus }

/-- The status word of an engine with a cause, or with `err` set. -/
def State.doorCause (s : State) (c block cause : Nat) : State :=
  let up (w : Word64) : Word64 := BitVec.ofNat 64 (setBits w.toNat 47 32 cause)
  s.onCore c fun k => match block with
    | 0 => { k with muStatus := up k.muStatus }
    | 1 => { k with copyStatus := up k.copyStatus }
    | _ => { k with vecStatus := up k.vecStatus }

def State.doorErr (s : State) (c block : Nat) : State :=
  s.onCore c fun k => match block with
    | 0 => { k with muStatus := k.muStatus ||| 0x10000 }
    | 1 => { k with copyStatus := k.copyStatus ||| 0x10000 }
    | _ => { k with vecStatus := k.vecStatus ||| 0x10000 }

/-- A doorbell command has faulted (R263): the status word keeps the cause, and the grid ends with ENGINE_CMD. -/
def State.doorFault (s : State) (c block : Nat) (cause : Cause) : State :=
  let s := s.doorCause c block cause.code
  match (s.core c).grid with
  | some g => s.endGrid g (s.slotFault (slotKey c 0) .engineCmd (0x32080 + 0x100 * block) 0)
  | none => s

/-- A command has met a fault after its issue: the fault is that of its instruction, or of its doorbell. -/
def State.engineFault (s : State) (c block slot : Nat) (door : Bool) (cause : Cause) (addr pc : Nat) : State :=
  if door then s.doorFault c block cause
  else s.lateFault slot (s.core c).grid { cause := cause, addr := addr, from_ := some (BitVec.ofNat 64 pc) }

/-- A doorbell rung (R263): the command is issued as a strand would issue it; while its queue is full, it is tried again;
its fault ends the grid. -/
def State.ring_ (s : State) (c block : Nat) (again : Event) (a : Act Unit) : State :=
  let here (s : State) (k : Nat) : State := { s with cur := k }
  match a (here s (slotKey c 0)) with
  | .ok (_, s') => here s' s.cur
  | .error .wait => s.emit again
  | .error (.again f) => (here (f (here s (slotKey c 0))) s.cur).emit again
  | .error (.trap t u) => (here u s.cur).doorFault c block t.cause
  | .error (.done s') => here s' s.cur

/-- The number of a command's issue. -/
def nextSeq : Act Nat := do
  let s ← get
  set s.drawn
  pure s.fresh

end Sys2Proof.Machine
end

