-- ==== Sys2Proof/Machine/Vector.lean ====
section
/-! DEFINITION. The vector engine: `vsetcfg`, the vector instructions, the vector doorbell, a command's rows, `accept` of a
scratchpad range (spec/13_engines.md R264, spec/20_isa_engines.md R427-R431, R443). -/

namespace Sys2Proof.Machine

open Sys2Proof

/-! ## Elements (R429, R430) -/

/-- Bits per element. -/
def Fmt.width (f : Fmt) : Nat := 8 * f.bytes

/-- An FP8 format, whose results take the saturating kind (R296, R430). -/
def Fmt.isFP8 (f : Fmt) : Bool := f == .e4m3 || f == .e5m2

/-- The value of the scalar of a command (R429): FP32 for floating formats, the signed 64 bits for integer formats. -/
def VecCmd.scalarValue (v : VecCmd) : Value :=
  if v.fmt.isFloat then v.scalar.single else Value.ofInt (signed 64 v.scalar.data.toNat)

/-- A result of an exact value in the command's format, rounded once. -/
def VecCmd.round (v : VecCmd) (ins : List Value) (x : Value) : Rounded :=
  x.deliver v.fmt v.rmode (v.sat && v.fmt.isFP8) (anyNaN ins)

/-- The absolute value or the negation of an element (R430): exact, with the canonical NaN for a NaN; integers saturate. -/
def Fmt.signed (f : Fmt) (negate : Bool) (a : Nat) : Rounded :=
  match f.layout with
  | some l =>
    if (f.value a).isNaN then ⟨l.canonical, {}⟩
    else ⟨if negate then xorN a (2 ^ (l.frac + l.exp)) else a % 2 ^ (l.frac + l.exp), {}⟩
  | none =>
    let i := Machine.signed f.width a
    (Value.ofInt (if negate then -i else i.natAbs)).deliver f 0 false false

/-- One result element (R429 Table 6) from the elements of d, a and b in the same position. -/
def VecCmd.element (v : VecCmd) (d a b : Nat) : Rounded :=
  let x := v.fmt.value a
  let y := v.fmt.value b
  let s := v.scalarValue
  let ones := 2 ^ v.fmt.width - 1
  let nan := anyNaN [x]
  let sat := v.sat && v.fmt.isFP8
  match v.op with
  | .add => v.round [x, y] (x.add v.rmode y)
  | .sub => v.round [x, y] (x.sub v.rmode y)
  | .mul => v.round [x, y] (x.mul y)
  | .fma => v.round [x, y, v.fmt.value d] ((x.mul y).add v.rmode (v.fmt.value d))
  | .max => ⟨pickCode v.fmt true a b, {}⟩
  | .min => ⟨pickCode v.fmt false a b, {}⟩
  | .abs => v.fmt.signed false a
  | .neg => v.fmt.signed true a
  | .adds => v.round [x, s] (x.add v.rmode s)
  | .muls => v.round [x, s] (x.mul s)
  | .cvt dest sat => x.deliver dest v.rmode (sat && dest.isFP8) nan
  | .exp => match v.fmt.layout with
    | some l => x.expTo l v.rmode sat nan (Config.expTail (a + 2 ^ 32 * v.rmode + 2 ^ 40 * v.fmt.width))
    | none => ⟨0, {}⟩
  | .rcp => match v.fmt.layout with
    | some l => (Value.ofInt 1).divideTo l v.rmode sat nan x
    | none => ⟨0, {}⟩
  | .rsqrt => match v.fmt.layout with
    | some l => x.rsqrtTo l v.rmode sat nan
    | none => ⟨0, {}⟩
  | .sel => ⟨if d != 0 then a else b, {}⟩
  | .cmplt => ⟨if !anyNaN [x, y] && x.compare y < 0 then ones else 0, {}⟩
  | .and => ⟨Nat.land a b, {}⟩
  | .or => ⟨Nat.lor a b, {}⟩
  | .xor => ⟨xorN a b, {}⟩
  | .fill => v.round [s] s
  | .mov | .sum | .maxr | .argmax | .acceptSp => ⟨a, {}⟩

/-- Whether a result element is bounded (R264, R303): a marked source element that contributes, or a marked scalar. Of the
two sources of `vsel` the one that is chosen contributes. -/
def VecCmd.marks (v : VecCmd) (d : Nat) (md ma mb : Bool) : Bool :=
  let ms := v.scalar.tag == .bounded
  match v.op with
  | .add | .sub | .mul | .max | .min | .cmplt | .and | .or | .xor => ma || mb
  | .fma => ma || mb || md
  | .sel => md || (if d != 0 then ma else mb)
  | .adds | .muls => ma || ms
  | .fill => ms
  | _ => ma

/-! ## Rows -/

/-- Element `e` from an offset of a core's window, and whether its granule is marked. -/
def State.elemAt (s : State) (c off : Nat) (f : Fmt) (e : Nat) : Nat := s.num (windowPA c (off + e * f.bytes)) f.bytes
def State.elemMark (s : State) (c off : Nat) (f : Fmt) (e : Nat) : Bool :=
  (s.granule (windowPA c (off + e * f.bytes))).bnd

/-- The result elements of a command with their marks. -/
def State.vecResults (s : State) (c : Nat) (v : VecCmd) : List (Rounded × Bool) :=
  (List.range (v.rows * v.fmt.perRow)).map fun e =>
    let d := s.elemAt c v.d v.fmt e
    (v.element d (s.elemAt c v.a v.fmt e) (s.elemAt c v.b v.fmt e),
      v.marks d (s.elemMark c v.d v.fmt e) (s.elemMark c v.a v.fmt e) (s.elemMark c v.b v.fmt e))

/-- The format of the result elements. -/
def VecCmd.outFmt (v : VecCmd) : Fmt :=
  match v.op with
  | .cvt dest _ => dest
  | _ => v.fmt

/-- Result elements written granule by granule from a window offset (R303). -/
def State.writeElems (s : State) (c : Nat) (f : Fmt) : Nat → Nat → List (Nat × Bool) → State
  | 0, _, _ => s
  | n + 1, off, es =>
    match es with
    | [] => s
    | _ =>
      let k := 32 / f.bytes
      let g := es.take k
      let s := s.writeMem (windowPA c off) (g.flatMap fun e => bytesOf f.bytes e.1)
        (if g.any (·.2) then .bounded else .plain)
      s.writeElems c f n (off + 32) (es.drop k)

/-! ## Reductions (R431) -/

/-- The exact sum of some values. -/
def sumValues (mode : Nat) (vs : List Value) : Value := vs.foldl (Value.add mode) (.fin (mode = 2) 0 0)

/-- The index and the code of the largest element, NaNs passed over, the first among equals. -/
def largest (f : Fmt) (cs : List Nat) : Option (Nat × Nat) :=
  (List.range cs.length).foldl (fun m i =>
    let x := cs.getD i 0
    if (f.value x).isNaN then m
    else match m with
      | none => some (i, x)
      | some (_, y) => if (f.value y).before (f.value x) then some (i, x) else m) none

/-- The result of a reduction in gd[63:0] (R431). -/
def VecCmd.reduce (v : VecCmd) (cs : List Nat) : Rounded :=
  let vs := cs.map v.fmt.value
  let asSingle (c : Nat) : Nat := ((v.fmt.value c).deliver .fp32 0 false true).code
  match v.op with
  | .sum =>
    let r := (sumValues v.rmode vs).deliver (if v.fmt.isFloat then .fp32 else .int32) v.rmode false (anyNaN vs)
    if v.fmt.isFloat then r else ⟨low 64 (Machine.signed 32 r.code), r.tally⟩
  | .maxr =>
    match largest v.fmt cs with
    | none => ⟨Machine.single.canonical, {}⟩
    | some (_, x) => ⟨if v.fmt.isFloat then asSingle x else low 64 (Machine.signed v.fmt.width x), {}⟩
  | _ =>
    match largest v.fmt cs with
    | none => ⟨0xFFFFFFFF + Machine.single.canonical * 2 ^ 32, {}⟩
    | some (i, x) => ⟨i + (if v.fmt == .int32 then x else asSingle x) * 2 ^ 32, {}⟩

/-! ## A command runs (R264, R306) -/

/-- Every count of a list of results. -/
def totalTally (rs : List Rounded) : Tally := rs.foldl (fun t r => t.add r.tally) {}

/-- The granules of a range that are marked, and the state with every mark of the range cleared (R443). -/
def State.acceptRange (s : State) (c off n : Nat) : Nat × State :=
  let marked := (List.range (n / 32)).filter fun i => (s.granule (windowPA c (off + 32 * i))).bnd
  (marked.length, s.onGranules (windowPA c off) n fun _ g => { g with bnd := false })

/-- Soft errors in the ranges that an engine is about to read are corrected, or poison their sectors (R24). -/
def State.mendReads (s : State) (c : Nat) (rs : List (Nat × Nat)) : State :=
  if s.flips = [] then s else rs.foldl (fun s r => s.mendMemory (windowPA c r.1) r.2) s

/-- A poisoned source granule of a command (R26). -/
def State.poisonedRead (s : State) (c : Nat) (rs : List (Nat × Nat)) : Option Nat :=
  (rs.find? fun r => s.anyGranule (windowPA c r.1) r.2 (·.poison)).map (·.1)

/-- The effect of a vector command. -/
def State.vectorEffect (s : State) (c : Nat) (v : VecCmd) : State :=
  match v.op with
  | .acceptSp =>
    let (n, s) := s.acceptRange c v.d v.len
    s.count c 4 n
  | .sum | .maxr | .argmax =>
    let es := (List.range (v.rows * v.fmt.perRow)).map fun e => s.elemAt c v.a v.fmt e
    let r := v.reduce es
    let t : Tag := if s.anyGranule (windowPA c v.a) (v.rows * 128) (·.bnd) then .bounded else .exact
    let x : Reg := ⟨BitVec.ofNat 128 r.code, t⟩
    let s := s.tally c r.tally
    if v.door then s.storeCap (windowPA c 0x32200) x else s.writeReg v.slot v.gd x
  | _ =>
    let rs := s.vecResults c v
    let s := s.writeElems c v.outFmt (rs.length) v.d (rs.map fun r => (r.1.code, r.2))
    s.tally c (totalTally (rs.map (·.1)))

/-- The head command of a core's vector queue runs once its rows and its carousel slot are free. -/
def State.vectorRun (s : State) (c : Nat) : State :=
  match (s.core c).vq with
  | [] => s
  | v :: rest =>
    if !s.mayTouch c v.seq v.reads v.writes || !s.slotFree c v.car v.carPos then s.emitOnce (.vectorCommand c)
    else
      let s := (s.onCore c fun k => { k with vq := rest }).mendReads c v.reads
      match s.poisonedRead c (if v.op == .acceptSp then [] else v.reads) with
      | some off => (s.engineFault c 2 v.slot v.door .poison (localVA off) v.pc).engineIdle c
      | none =>
        let s := (s.vectorEffect c v).landSlot c v.car
        (if v.door then s.doorDone c 2 else s).engineIdle c

/-- R264. The vector engine of a core processes the rows of the command at the head of its queue. -/
def execVectorCommand (s : State) : Answered :=
  .next (match s.input with
    | .vectorCommand c => s.vectorRun c
    | _ => s)

/-! ## Issue -/

/-- A vector instruction acts on floating formats alone (R429 Table 6). -/
def VecOp.floating : VecOp → Bool
  | .fma | .exp | .rcp | .rsqrt => true
  | _ => false

/-- The destination is also a source (R429). -/
def VecOp.readsDst : VecOp → Bool
  | .fma | .sel => true
  | _ => false

/-- A command enters the vector queue of the issuing core, or the slot is not ready (R414). -/
def enterVector (v : VecCmd) : Act Unit := do
  let s ← get
  if 8 ≤ s.hereCore.vq.length then waitHere
  let q ← nextSeq
  modify fun s => (s.onHereCore fun k => { k with vq := k.vq ++ [{ v with seq := q }] }).emitOnce (.vectorCommand (coreOf s.cur))

/-- The issue of a vector command (R428): row operands d, a and b, the scalar, the register of a reduction. -/
def issueVector (io : Issuer) (op : VecOp) (gd : Nat) (d a b : Option Reg) (scalar : Reg) : Act Unit := do
  let regs := [d, a, b].filterMap id
  if regs.any fun r => r.tag == .bounded then trap .boundedValue
  let fmt := (Fmt.ofCode (io.vcfg % 16)).getD .fp32
  if op.floating && !fmt.isFloat then illegal
  let (car, do_) ← rowOperand (d.getD {}) (!op.readsDst)
  let (_, ao) ← rowOperand (a.getD {}) false
  let (_, bo) ← rowOperand (b.getD {}) false
  let rows := bits io.vcfg 15 8 + 1
  let v : VecCmd :=
    { op := op, d := do_, a := ao, b := bo, scalar := scalar, fmt := fmt, sat := bit io.vcfg 4, rows := rows,
      rmode := io.rmode, slot := io.slot, grid := io.grid, gd := gd, door := io.door, pc := io.pc, prio := io.prio, qos := io.qos }
  if d.isSome && car.isNone then needScratch do_ v.dstBytes
  if d.isSome && op.readsDst then needScratch do_ (rows * 128)
  if a.isSome then needScratch ao (rows * 128)
  if b.isSome then needScratch bo (rows * 128)
  let s ← get
  if 8 ≤ s.hereCore.vq.length then waitHere
  match car with
  | none => enterVector v
  | some i =>
    let (j, off) ← reserveSlot i v.dstBytes (trap .carousel (descriptorOffset i))
    enterVector { v with d := off, car := some i, carPos := j }

/-- A vector instruction with two row sources. -/
def binaryVector (op : VecOp) (la : Look) (gd gs1 gs2 : RegNo) : Act Unit := do
  enter onCores [gd, gs1, gs2] []
  let d ← source gd
  let a ← source gs1
  let b ← source gs2
  let io ← strandIssuer
  issueVector io op 0 (some d) (some a) (some b) {}
  retire la

/-- A vector instruction with one row source. -/
def unaryVector (op : VecOp) (la : Look) (gd gs1 : RegNo) : Act Unit := do
  enter onCores [gd, gs1] []
  let d ← source gd
  let a ← source gs1
  let io ← strandIssuer
  issueVector io op 0 (some d) (some a) none {}
  retire la

/-- A vector instruction with a row source and a scalar. -/
def scalarVector (op : VecOp) (la : Look) (gd gs1 gs2 : RegNo) : Act Unit := do
  enter onCores [gd, gs1, gs2] []
  let d ← source gd
  let a ← source gs1
  let sc ← source gs2
  let io ← strandIssuer
  issueVector io op 0 (some d) (some a) none sc
  retire la

/-- A reduction: its result is scoreboarded until the command writes it (R414, R431). -/
def reductionVector (op : VecOp) (la : Look) (gd gs1 : RegNo) : Act Unit := do
  enter onCores [gs1] [gd]
  let a ← source gs1
  let io ← strandIssuer
  issueVector io op gd.toNat none (some a) none {}
  retire la

def execVadd (la : Look) (gd gs1 gs2 : RegNo) (s : State) : Answered := settle la.toNat (binaryVector .add la gd gs1 gs2) s
def execVsub (la : Look) (gd gs1 gs2 : RegNo) (s : State) : Answered := settle la.toNat (binaryVector .sub la gd gs1 gs2) s
def execVmul (la : Look) (gd gs1 gs2 : RegNo) (s : State) : Answered := settle la.toNat (binaryVector .mul la gd gs1 gs2) s
def execVfma (la : Look) (gd gs1 gs2 : RegNo) (s : State) : Answered := settle la.toNat (binaryVector .fma la gd gs1 gs2) s
def execVmax (la : Look) (gd gs1 gs2 : RegNo) (s : State) : Answered := settle la.toNat (binaryVector .max la gd gs1 gs2) s
def execVmin (la : Look) (gd gs1 gs2 : RegNo) (s : State) : Answered := settle la.toNat (binaryVector .min la gd gs1 gs2) s
def execVsel (la : Look) (gd gs1 gs2 : RegNo) (s : State) : Answered := settle la.toNat (binaryVector .sel la gd gs1 gs2) s
def execVcmplt (la : Look) (gd gs1 gs2 : RegNo) (s : State) : Answered :=
  settle la.toNat (binaryVector .cmplt la gd gs1 gs2) s
def execVand (la : Look) (gd gs1 gs2 : RegNo) (s : State) : Answered := settle la.toNat (binaryVector .and la gd gs1 gs2) s
def execVor (la : Look) (gd gs1 gs2 : RegNo) (s : State) : Answered := settle la.toNat (binaryVector .or la gd gs1 gs2) s
def execVxor (la : Look) (gd gs1 gs2 : RegNo) (s : State) : Answered := settle la.toNat (binaryVector .xor la gd gs1 gs2) s
def execVabs (la : Look) (gd gs1 : RegNo) (s : State) : Answered := settle la.toNat (unaryVector .abs la gd gs1) s
def execVneg (la : Look) (gd gs1 : RegNo) (s : State) : Answered := settle la.toNat (unaryVector .neg la gd gs1) s
def execVexp (la : Look) (gd gs1 : RegNo) (s : State) : Answered := settle la.toNat (unaryVector .exp la gd gs1) s
def execVrcp (la : Look) (gd gs1 : RegNo) (s : State) : Answered := settle la.toNat (unaryVector .rcp la gd gs1) s
def execVrsqrt (la : Look) (gd gs1 : RegNo) (s : State) : Answered := settle la.toNat (unaryVector .rsqrt la gd gs1) s
def execVmov (la : Look) (gd gs1 : RegNo) (s : State) : Answered := settle la.toNat (unaryVector .mov la gd gs1) s
def execVadds (la : Look) (gd gs1 gs2 : RegNo) (s : State) : Answered :=
  settle la.toNat (scalarVector .adds la gd gs1 gs2) s
def execVmuls (la : Look) (gd gs1 gs2 : RegNo) (s : State) : Answered :=
  settle la.toNat (scalarVector .muls la gd gs1 gs2) s
def execVsum (la : Look) (gd gs1 : RegNo) (s : State) : Answered := settle la.toNat (reductionVector .sum la gd gs1) s
def execVmaxr (la : Look) (gd gs1 : RegNo) (s : State) : Answered := settle la.toNat (reductionVector .maxr la gd gs1) s
def execVargmax (la : Look) (gd gs1 : RegNo) (s : State) : Answered :=
  settle la.toNat (reductionVector .argmax la gd gs1) s

/-- R429. `vcvt`: the destination format and the saturating kind are immediates. -/
def execVcvt (la : Look) (gd gs1 : RegNo) (sat : BitVec 1) (fmt : BitVec 4) (s : State) : Answered :=
  settle la.toNat (do
    if 6 < fmt.toNat then illegal
    unaryVector (.cvt ((Fmt.ofCode fmt.toNat).getD .fp32) (sat = 1)) la gd gs1) s

/-- R429. `vfill`: every element is the scalar. -/
def execVfill (la : Look) (gd gs2 : RegNo) (s : State) : Answered :=
  settle la.toNat (do
    enter onCores [gd, gs2] []
    let d ← source gd
    let sc ← source gs2
    let io ← strandIssuer
    issueVector io .fill 0 (some d) none none sc
    retire la) s

/-- The value that a write of `vcfg` leaves (R427 Table 5): none where the format is no code 0-6. -/
def vcfgOf (v : Nat) : Option (BitVec 32) :=
  if bits v 3 0 ≤ 6 then some (BitVec.ofNat 32 (v % 32 + bits v 15 8 * 256)) else none

/-- R427. `vsetcfg`: the old `vcfg` is read, the new one written. -/
def execVsetcfg (la : Look) (gd gs1 : RegNo) (s : State) : Answered :=
  settle la.toNat (do
    enter onCores [gs1] [gd]
    let v ← exactSource gs1
    match vcfgOf v.data.toNat with
    | none => illegal
    | some n => do
      let s ← get
      let old := s.here.vcfg
      set (s.onHere fun sl => { sl with vcfg := n })
      result gd (exactData old.toNat)
      retire la) s

/-! ## `accept` (R443) -/

/-- The issue of `accept.sp`: the length and the offset are multiples of 32. -/
def issueAcceptSp (io : Issuer) (len row : Reg) : Act Unit := do
  refuseBounded len
  refuseBounded row
  let w := row.data.toNat
  if bits w 31 21 != 0 then illegal
  let off := bits w 17 0
  let n := (lo64 len.data).toNat
  if n % 32 != 0 then trap .window (localVA off)
  needGranules off n
  enterVector { op := .acceptSp, d := off, len := n, fmt := .fp32, sat := false, rows := 0, rmode := io.rmode,
                slot := io.slot, grid := io.grid, door := io.door, pc := io.pc, prio := io.prio, qos := io.qos }

/-- R443 mode 0. The register's mark is removed; every bit stays. -/
def execAccept (_la : Look) (gd gs1 : RegNo) (s : State) : Answered :=
  settle 0 (do
    enter onCores [gs1] [gd]
    let v ← source gs1
    result gd (if v.tag = .bounded then { v with tag := .exact } else v)
    if v.tag = .bounded then modify fun s => s.count (coreOf s.cur) 4 1
    retire 0) s

/-- R443 mode 1. -/
def execAcceptSp (la : Look) (gd gs1 : RegNo) (s : State) : Answered :=
  settle la.toNat (do
    enter onCores [gd, gs1] []
    let len ← source gd
    let row ← source gs1
    let io ← strandIssuer
    issueAcceptSp io len row
    retire la) s

/-! ## The vector doorbell (R263, R416) -/

/-- The operation that a sub-opcode names on the vector doorbell, with the form of its operands: 3 row operands, 2 row
operands, 1 a row and a scalar, 0 a destination and a scalar, 4 a reduction, 5 `accept.sp`. -/
def vectorOf (sub imm : Nat) : Option (VecOp × Nat) :=
  match sub with
  | 0x14 => if imm = 1 then some (.acceptSp, 5) else none
  | 0x19 => some (.add, 3) | 0x1A => some (.sub, 3) | 0x1B => some (.mul, 3) | 0x1C => some (.fma, 3)
  | 0x1D => some (.max, 3) | 0x1E => some (.min, 3) | 0x1F => some (.abs, 2) | 0x20 => some (.neg, 2)
  | 0x21 => some (.adds, 1) | 0x22 => some (.muls, 1)
  | 0x23 => (Fmt.ofCode (imm % 16)).bind fun f => if imm % 16 ≤ 6 then some (.cvt f (bit imm 4), 2) else none
  | 0x24 => some (.exp, 2) | 0x25 => some (.rcp, 2) | 0x26 => some (.rsqrt, 2)
  | 0x27 => some (.sum, 4) | 0x28 => some (.maxr, 4) | 0x29 => some (.argmax, 4)
  | 0x2A => some (.sel, 3) | 0x2B => some (.cmplt, 3) | 0x2C => some (.and, 3) | 0x2D => some (.or, 3)
  | 0x2E => some (.xor, 3) | 0x2F => some (.mov, 2) | 0x30 => some (.fill, 0)
  | _ => none

/-- The issue of a vector doorbell: image 0 stands for gd, image 1 for gs1, image 6 for gs2; the result of a reduction goes
to image 0. -/
def State.vectorDoor (s : State) (c : Nat) (again : Event) (v : Word64) : State :=
  let gd := s.shadow c 2 0
  let g1 := s.shadow c 2 1
  let g2 := s.shadow c 2 6
  let io := s.doorIssuer c
  let imm := bits g2.data.toNat 4 0
  match vectorOf (bits v.toNat 5 0) imm with
  | none =>
    if bits v.toNat 5 0 = 0x23 then s.doorFault c 2 .illegalInstruction else s.doorErr c 2
  | some (op, form) => s.drawn.ring_ c 2 again (match form with
    | 3 => issueVector io op 0 (some gd) (some g1) (some g2) {}
    | 2 => issueVector io op 0 (some gd) (some g1) none {}
    | 1 => issueVector io op 0 (some gd) (some g1) none g2
    | 0 => issueVector io op 0 (some gd) none none g2
    | 4 => issueVector io op 0 none (some g1) none {}
    | _ => issueAcceptSp io gd g1)

/-- R263. A write to the vector doorbell. -/
def execVectorDoorbell (s : State) : Answered :=
  .next (match s.input with
    | .vectorDoorbell c v => s.vectorDoor c (.vectorDoorbell c v) v
    | _ => s)

end Sys2Proof.Machine
end

