-- ==== Sys2Proof/Machine/Matrix.lean ====
section
/-! DEFINITION. Carousels, the matrix unit and `ewait`: `cvset`, `cvpush`, `cvquery`, the `mma` forms, the recurrence, drains,
the rotation of a matrix unit, the MU doorbell (spec/13_engines.md R252-R263, spec/15_number_formats.md R298-R302,
spec/20_isa_engines.md R417-R426, R443). -/

namespace Sys2Proof.Machine

open Sys2Proof

/-! ## Carousel instructions (R417-R419) -/

/-- R417. `cvset`: the slot is not ready while the carousel is in use. -/
def execCvset (la : Look) (gs1 : RegNo) (n : BitVec 3) (s : State) : Answered :=
  settle la.toNat (do
    enter onCores [gs1] []
    let v ← exactSource gs1
    let w := v.data.toNat
    if bits w 63 48 != 0 then illegal
    let s ← get
    let c := coreOf s.cur
    if s.carouselInUse c n.toNat then waitHere
    if !s.carouselOk c (bits w 31 0) (bits w 39 32) (bits w 47 40) then trap .carousel (descriptorOffset n.toNat)
    set (s.onCarousel c n.toNat fun _ =>
      { base := bits w 31 0, size := bits w 39 32, cnt := bits w 47 40 : Carousel })
    retire la) s

/-- R418. `cvpush`: it fills the slot that follows every reservation made before it; the slot that it will fill is noted
when it is first tried. -/
def execCvpush (la : Look) (n : BitVec 3) (s : State) : Answered :=
  settle la.toNat (do
    enter onCores [] []
    let s ← get
    let c := coreOf s.cur
    let k := s.carousel c n.toNat
    match s.here.since with
    | none =>
      if k.claimed = 0 && k.full < k.cnt then do
        set ((s.pushSlot c n.toNat).wakeEngines c)
        retire la
      else waitAfter fun o => (o.onCarousel c n.toNat fun k => { k with claimed := k.claimed + 1 }).onHere fun sl =>
        { sl with since := some ((k.tail + k.claimed) % 2 ^ 32) }
    | some j =>
      if !s.slotFree c (some n.toNat) j then waitHere
      set (((s.landSlot c (some n.toNat)).wakeEngines c).onHere fun sl => { sl with since := none })
      retire la) s

/-- R419. `cvquery`. -/
def execCvquery (la : Look) (gd : RegNo) (n : BitVec 3) (s : State) : Answered :=
  settle la.toNat (do
    enter onCores [] [gd]
    let s ← get
    let k := s.carousel (coreOf s.cur) n.toNat
    result gd ⟨BitVec.ofNat 128 (k.full + k.head * 2 ^ 32 + k.tail * 2 ^ 64 + k.rsv * 2 ^ 96), .exact⟩
    retire la) s

/-! ## Operand tiles (R298, R292) -/

/-- The value of element `e` of a tile in a core's window: a nested integer is read from its planes. -/
def State.tileValue (s : State) (c off : Nat) (f : Fmt) (e : Nat) : Value :=
  match f with
  | .ni k =>
    let v := (List.range k).foldl (fun a j =>
      2 * a + (if (s.byte (windowPA c (off + 512 * j + e / 8))).getLsbD (e % 8) then 1 else 0)) 0
    f.value v
  | _ => f.value (s.elemAt c off f e)

/-- The window offset of an accumulator tile (R143). -/
def accOffset (a : Nat) : Nat := 0x40000 + 0x4000 * a

/-- The elements of an accumulator tile, row by row. -/
def State.accElems (s : State) (c a : Nat) : List Nat := (List.range 4096).map fun e => s.num (windowPA c (accOffset a + 4 * e)) 4

/-- An accumulator tile written whole. -/
def State.writeAcc (s : State) (c a : Nat) (es : List Nat) : State :=
  s.storeData (windowPA c (accOffset a)) (es.flatMap (bytesOf 4))

/-- The drain scale of a tile (R299). -/
def State.accScaleOf (s : State) (c a : Nat) : Nat := (look (0x3F800000 : BitVec 32) (s.core c).accScale a).toNat
def State.setScale (s : State) (c a v : Nat) : State :=
  s.onCore c fun k => { k with accScale := put k.accScale a (BitVec.ofNat 32 v) }
def State.setMark (s : State) (c a : Nat) (b : Bool) : State := s.onCore c fun k => { k with accMark := put k.accMark a b }
def State.accMarkOf (s : State) (c a : Nat) : Bool := look false (s.core c).accMark a

/-! ## The sums of an element (R299-R301, R305) -/

/-- An element of an accumulator under way: its code, and what it has met: a rounding that overflowed, or went to zero, a
saturation, a NaN among the inputs. -/
structure Elem where
  code : Nat
  overs : Bool := false
  under : Bool := false
  sat : Bool := false
  nanIn : Bool := false
  deriving DecidableEq, Repr

/-- What an element has met as a number, and back. -/
def Elem.flags (e : Elem) : Nat :=
  (if e.overs then 1 else 0) + (if e.under then 2 else 0) + (if e.sat then 4 else 0) + (if e.nanIn then 8 else 0)
def Elem.of (code flags : Nat) : Elem := ⟨code, bit flags 0, bit flags 1, bit flags 2, bit flags 3⟩

/-- The counts of an element that has been finished (R305): each event at most once. -/
def Elem.tally (e : Elem) (float : Bool) : Tally :=
  { nan := if float && !e.nanIn && (Machine.single.value e.code).isNaN then 1 else 0
    overs := if e.overs then 1 else 0
    under := if e.under then 1 else 0
    sat := if e.sat then 1 else 0 }

/-- An FP32 result taken into an element. -/
def Elem.round (e : Elem) (mode : Nat) (v : Value) : Elem :=
  let r := v.deliver .fp32 mode false true
  { e with code := r.code, overs := e.overs || r.tally.overs != 0, under := e.under || r.tally.under != 0 }

/-- One group of products (R300): summed exactly, added to the element with one rounding. -/
def Elem.group (e : Elem) (mode : Nat) (sa sb : Value) (first : Bool) (ps : List (Value × Value)) : Elem :=
  let acc := Machine.single.value e.code
  let g := sumValues mode (ps.map fun (p : Value × Value) => (p.1.mul sa).mul (p.2.mul sb))
  let e := { e with nanIn := e.nanIn || (first && acc.isNaN) || anyNaN (sa :: sb :: ps.flatMap fun (p : Value × Value) => [p.1, p.2]) }
  e.round mode (acc.add mode g)

/-- The exact integer sum added to an INT32 element, which saturates (R301). -/
def Elem.integer (e : Elem) (ps : List (Value × Value)) : Elem :=
  let total := sumValues 0 (Value.ofInt (signed 32 e.code) :: ps.map fun (p : Value × Value) => p.1.mul p.2)
  let r := total.deliver .int32 0 false false
  { e with code := r.code, sat := e.sat || r.tally.sat != 0 }

/-- The pairs A[i, k], B[k, j] for some k. -/
def State.tilePairs (s : State) (c : Nat) (fa fb : Fmt) (a b i j k0 n : Nat) : List (Value × Value) :=
  (List.range n).map fun d => (s.tileValue c a fa (64 * i + k0 + d), s.tileValue c b fb (64 * (k0 + d) + j))

/-- An element of an `mma` over groups `g0` to `g0 + n - 1`. -/
def State.mmaElem (s : State) (c : Nat) (form : MmaForm) (mode a b : Nat) (scale : Reg) (g0 n : Nat) (at_ : Nat)
    (e : Elem) : Elem :=
  let (fa, fb) := form.fmts
  let i := at_ / 64
  let j := at_ % 64
  let sa := Machine.single.value (bits scale.data.toNat 31 0)
  let sb := Machine.single.value (bits scale.data.toNat 63 32)
  match form with
  | .float _ _ => (List.range n).foldl (fun e q =>
      e.group mode sa sb (g0 + q = 0) (s.tilePairs c fa fb a b i j (16 * (g0 + q)) 16)) e
  | _ => e.integer (s.tilePairs c fa fb a b i j 0 64)

/-! ## The recurrence (R258, R259) -/

/-- The operations of a recurrence buffer: none where a reserved code stands before the end, or where there is none. -/
def recProgram (w : BitVec 32) : Option (List (Nat × Nat × Nat)) :=
  let ops := ((List.range 4).map fun j =>
    (bits w.toNat (8 * j + 3) (8 * j), bits w.toNat (8 * j + 5) (8 * j + 4), bits w.toNat (8 * j + 7) (8 * j + 6))).takeWhile
      fun o => o.1 != 0
  if ops = [] || ops.any fun o => 6 < o.1 then none else some ops

/-- One operation on FP32 codes: the element under way holds the result. -/
def Elem.apply (e : Elem) (mode op x y : Nat) : Elem :=
  let a := Machine.single.value x
  let b := Machine.single.value y
  match op with
  | 1 => e.round mode (a.add mode b)
  | 2 => e.round mode (a.sub mode b)
  | 3 => e.round mode (a.mul b)
  | 4 => { e with code := pickCode .fp32 true x y }
  | 5 => { e with code := pickCode .fp32 false x y }
  | _ => { e with code := (Fmt.fp32.signed false x).code }

/-- The body of the recurrence for one k: s is the element's code. -/
def Elem.recur (e : Elem) (mode : Nat) (ops : List (Nat × Nat × Nat)) (a b : Nat) : Elem :=
  let s := e.code
  let sel (t i : Nat) : Nat := match i with
    | 0 => s
    | 1 => a
    | 2 => b
    | _ => t
  ops.foldl (fun e o => e.apply mode o.1 (sel e.code o.2.1) (sel e.code o.2.2)) { e with code := 0 }

/-- An element of an `mrec` for k from `k0` to `k1 - 1`. -/
def State.mrecElem (s : State) (c : Nat) (f : Fmt) (mode : Nat) (ops : List (Nat × Nat × Nat)) (a b k0 k1 at_ : Nat)
    (e : Elem) : Elem :=
  let i := at_ / 64
  let j := at_ % 64
  let code (v : Value) : Nat := (v.deliver .fp32 0 false true).code
  let e := { e with nanIn := e.nanIn || (k0 = 0 && (Machine.single.value e.code).isNaN) }
  (List.range (k1 - k0)).foldl (fun e d =>
    let x := s.tileValue c a f (64 * i + k0 + d)
    let y := s.tileValue c b f (64 * (k0 + d) + j)
    { e with nanIn := e.nanIn || anyNaN [x, y] }.recur mode ops (code x) (code y)) e

/-! ## Lengths (R254 Table 1) -/

/-- The cycles of an `mma` or `mrec` at full duty, and its steps when it does not read all before it writes. -/
def MuOp.length : MuOp → Nat × Nat
  | .mma form .. => match form with
    | .float .fp32 _ => (1024, 4)
    | .float .fp16 _ | .float .bf16 _ => (256, 1)
    | .float _ _ | .int8 => (64, 1)
    | .ni k => (8 * k, 1)
  | .mrec _ prog .. =>
    let n := ((recProgram prog).getD []).length
    (256 * n, n)
  | .drain _ => (64, 1)
  | .zero | .accept => (16, 1)

/-- The steps of a command (R254, R260). -/
def MuOp.steps (op : MuOp) (whole : Bool) : Nat :=
  let (cycles, n) := op.length
  if whole then ceilDiv (4 * cycles) 256 else n

/-! ## Issue (R414, R421-R425) -/

/-- A command enters the MU queue of the issuing core, or the slot is not ready (R254). -/
def enterMu (io : Issuer) (op : MuOp) (acc : Nat) (whole : Bool) : Act Unit := do
  let s ← get
  if 8 ≤ s.hereCore.muq.length then waitHere
  let q ← nextSeq
  let m : MuCmd :=
    { op := op, acc := acc, rmode := io.rmode, prio := io.prio, qos := io.qos, grid := io.grid, slot := io.slot,
      steps := op.steps whole, whole := whole, door := io.door, seq := q, pc := io.pc }
  modify fun s => (s.onHereCore fun k => { k with muq := k.muq ++ [m] }).emitOnce (muEvent (coreOf s.cur))

/-- A carousel holds slots that are large enough for a tile (R257, R421). -/
def needTile (i bytes : Nat) : Act Unit := do
  let s ← get
  let k := s.carousel (coreOf s.cur) i
  if k.cnt = 0 || k.size * 128 < bytes then trap .carousel (descriptorOffset i)

/-- The next slot of a carousel taken for an operand (R257): its offset and its bytes. -/
def takeSlot (i : Nat) : Act (Nat × Nat) := do
  let s ← get
  let c := coreOf s.cur
  let k := s.carousel c i
  set (s.onCarousel c i fun k => { k with rsv := k.rsv + 1 })
  pure (k.slotAt ((k.head + k.rsv) % 2 ^ 32), k.size * 128)

/-- An operand slot overlaps the destination accumulator, or the local destination of a queued drain (R260). -/
def State.overlapsQueue (s : State) (c acc off n : Nat) : Bool :=
  meets off n (accOffset acc) 0x4000 ||
  (s.core c).muq.any fun m => match m.op with
    | .drain d => (match (s.core c).grid with
      | some g => s.gridCore g d.x d.y == some c
      | none => false) && meets off n d.off d.bytes
    | _ => false

/-- The issue of an `mma` or an `mrec`: two slots are taken, A first. -/
def issueTiles (io : Issuer) (fa fb : Fmt) (acc ca cb : Nat) (op : Nat → Nat → MuOp) : Act Unit := do
  needTile ca fa.tileBytes
  needTile cb fb.tileBytes
  let s ← get
  if 8 ≤ s.hereCore.muq.length then waitHere
  let (a, na) ← takeSlot ca
  let (b, nb) ← takeSlot cb
  let s ← get
  let c := coreOf s.cur
  enterMu io (op a b) acc (s.overlapsQueue c acc a na || s.overlapsQueue c acc b nb)

/-- What a scale register of g0 stands for (R299): sa = sb = 1.0, wd = 0. -/
def unitScale : Reg := ⟨0x3F8000003F800000, .exact⟩

/-- R421. An `mma` form. -/
def mmaOp (form : MmaForm) (acc : BitVec 1) (ca cb : BitVec 3) (gs3 : RegNo) : Act Unit := do
  enter onCores [gs3] []
  let scale ← source gs3
  let io ← strandIssuer
  issueTiles io form.fmts.1 form.fmts.2 acc.toNat ca.toNat cb.toNat fun a b => .mma form ca.toNat cb.toNat a b
    (if gs3 = 0 then unitScale else scale)
  retire 0

def execMmaE4e4 (acc : BitVec 1) (ca cb : BitVec 3) (gs3 : RegNo) (s : State) : Answered :=
  settle 0 (mmaOp (.float .e4m3 .e4m3) acc ca cb gs3) s
def execMmaE4e5 (acc : BitVec 1) (ca cb : BitVec 3) (gs3 : RegNo) (s : State) : Answered :=
  settle 0 (mmaOp (.float .e4m3 .e5m2) acc ca cb gs3) s
def execMmaE5e4 (acc : BitVec 1) (ca cb : BitVec 3) (gs3 : RegNo) (s : State) : Answered :=
  settle 0 (mmaOp (.float .e5m2 .e4m3) acc ca cb gs3) s
def execMmaE5e5 (acc : BitVec 1) (ca cb : BitVec 3) (gs3 : RegNo) (s : State) : Answered :=
  settle 0 (mmaOp (.float .e5m2 .e5m2) acc ca cb gs3) s
def execMmaH (acc : BitVec 1) (ca cb : BitVec 3) (gs3 : RegNo) (s : State) : Answered :=
  settle 0 (mmaOp (.float .fp16 .fp16) acc ca cb gs3) s
def execMmaB (acc : BitVec 1) (ca cb : BitVec 3) (gs3 : RegNo) (s : State) : Answered :=
  settle 0 (mmaOp (.float .bf16 .bf16) acc ca cb gs3) s
def execMmaS (acc : BitVec 1) (ca cb : BitVec 3) (gs3 : RegNo) (s : State) : Answered :=
  settle 0 (mmaOp (.float .fp32 .fp32) acc ca cb gs3) s
def execMmaI8 (acc : BitVec 1) (ca cb : BitVec 3) (gs3 : RegNo) (s : State) : Answered :=
  settle 0 (mmaOp .int8 acc ca cb gs3) s

/-- R420. `mma.ni`: the field holds k - 1, 1-7. -/
def execMmaNi (acc : BitVec 1) (km1 ca cb : BitVec 3) (gs3 : RegNo) (s : State) : Answered :=
  settle 0 (do
    if km1 = 0 then illegal
    mmaOp (.ni (km1.toNat + 1)) acc ca cb gs3) s

/-- The issue of an `mrec` (R422): the buffer is latched and checked first. -/
def issueMrec (io : Issuer) (acc fmt ca cb : Nat) : Act Unit := do
  if 5 < fmt then illegal
  let f := (Fmt.ofCode fmt).getD .fp32
  let s ← get
  let w := s.hereCore.recbuf
  if (recProgram w).isNone then trap .recurrence w.toNat
  issueTiles io f f acc ca cb fun a b => .mrec f w ca cb a b

def execMrec (la : Look) (acc : BitVec 1) (fmt : BitVec 4) (ca cb : BitVec 3) (s : State) : Answered :=
  settle la.toNat (do
    enter onCores [] []
    let io ← strandIssuer
    issueMrec io acc.toNat fmt.toNat ca.toNat cb.toNat
    retire la) s

/-- R422. `mrload` writes the recurrence buffer at issue. -/
def execMrload (la : Look) (gs1 : RegNo) (s : State) : Answered :=
  settle la.toNat (do
    enter onCores [gs1] []
    let v ← exactSource gs1
    modify fun s => s.onHereCore fun k => { k with recbuf := v.data.setWidth 32 }
    retire la) s

/-- R423. -/
def execMzero (la : Look) (n : BitVec 1) (s : State) : Answered :=
  settle la.toNat (do
    enter onCores [] []
    let io ← strandIssuer
    enterMu io .zero n.toNat false
    retire la) s

/-- R443 modes 2 and 3. -/
def execAcceptAcc (la : Look) (n : BitVec 1) (s : State) : Answered :=
  settle la.toNat (do
    enter onCores [] []
    let io ← strandIssuer
    enterMu io .accept n.toNat false
    retire la) s

/-- The address of an offset in the window of a core of the grid (R145). -/
def gridVA (x y off : Nat) : Nat := 0x7FFE * 2 ^ 48 + y * 2 ^ 34 + x * 2 ^ 20 + off

/-- A drain word (R424 Table 4): none where the table forbids it. -/
def drainOf (w : Nat) (tag : Word128) (clear : Bool) : Option Drain :=
  let off := bits w 49 32
  let sat := bit w 59
  match Fmt.ofCode (bits w 53 50) with
  | none => none
  | some f =>
    if w / 2 ^ 60 != 0 || off % 32 != 0 || (sat && !f.isFP8) then none
    else some ⟨bits w 15 0, bits w 31 16, off, f, bits w 57 54, bit w 58, sat, tag, clear⟩

/-- The issue of a drain (R425): coordinates outside the grid raise WINDOW. -/
def issueDrain (io : Issuer) (acc : Nat) (clear : Bool) (w tag : Reg) : Act Unit := do
  refuseBounded w
  refuseBounded tag
  match drainOf w.data.toNat tag.data clear with
  | none => illegal
  | some d => do
    let s ← get
    if (s.gridCore io.grid d.x d.y).isNone then trap .window (gridVA d.x d.y d.off)
    enterMu io (.drain d) acc false

def execMdrain (la : Look) (acc clr : BitVec 1) (gs1 gs2 : RegNo) (s : State) : Answered :=
  settle la.toNat (do
    enter inGrids [gs1, gs2] []
    let w ← source gs1
    let tag ← source gs2
    let io ← strandIssuer
    issueDrain io acc.toNat (clr = 1) w tag
    retire la) s

/-! ## A drain runs (R261, R262, R302) -/

/-- The results of converting a tile (R302). -/
def State.drainElems (s : State) (c a mode : Nat) (d : Drain) : List Rounded :=
  let scale := Machine.single.value (s.accScaleOf c a)
  (s.accElems c a).map fun e =>
    let v := if d.int then Value.ofInt (signed 32 e) else Machine.single.value e
    (v.mul scale).deliver d.fmt mode d.sat (anyNaN [v, scale])

/-- The bytes of a converted tile: nested integers go in planes (R292, R293). -/
def drainBytes (f : Fmt) (codes : List Nat) : List Byte :=
  match f with
  | .ni k => (List.range k).flatMap fun j => (List.range 512).map fun b =>
      BitVec.ofNat 8 ((List.range 8).foldl (fun v i => v + (if bit (codes.getD (8 * b + i) 0) (7 - j) then 2 ^ i else 0)) 0)
  | f => codes.flatMap (bytesOf f.bytes)

/-- Sectors of a drain written at a target core, where `ok` lets them. -/
def State.drainWrites (s : State) (t off : Nat) (kind : StoreKind) (ok : Nat → Bool) : Nat → List Byte → State
  | 0, _ => s
  | n + 1, bs =>
    let s := if ok off && s.inScratch t off 32 then s.writeMem (windowPA t off) (bs.take 32) kind else s
    s.drainWrites t (off + 32) kind ok n (bs.drop 32)

/-- The step of a drain: the tile is read and converted, the tile cleared where the drain clears it, and the writes go to
the target. A range outside the target's scratchpad ends the grid; how many of the writes have landed by then is a free
value (R262). -/
def State.drainStep (s : State) (c : Nat) (m : MuCmd) (d : Drain) : State :=
  let rs := s.drainElems c m.acc m.rmode d
  let kind : StoreKind := if s.accMarkOf c m.acc then .bounded else .plain
  let s := if d.clear then
      ((s.writeAcc c m.acc (List.replicate 4096 0)).setMark c m.acc false).setScale c m.acc 0x3F800000
    else s
  let bs := drainBytes d.fmt (rs.map (·.code))
  match s.gridCore m.grid d.x d.y with
  | none => s.engineFault c 0 m.slot m.door .window (gridVA d.x d.y d.off) m.pc
  | some t =>
    if s.inScratch t d.off d.bytes then
      ((s.drainWrites t d.off kind (fun _ => true) (d.bytes / 32) bs).tally c (totalTally rs)).emit (.drainClose c)
    else
      let landed := Config.choice s.fresh % (d.bytes / 32)
      (s.drawn.drainWrites t d.off kind (fun o => (o - d.off) / 32 < landed) (d.bytes / 32) bs).engineFault c 0 m.slot
        m.door .window (gridVA d.x d.y d.off) m.pc

/-! ## The rotation of a matrix unit (R252, R255) -/

/-- The core of a cluster whose queue has an index in one of its matrix units. -/
def muCore (cluster unit i : Nat) : Nat := clusterCore cluster (8 * unit + i)

/-- The carousels of a command. -/
def MuCmd.carousels (m : MuCmd) : List Nat :=
  match m.op with
  | .mma _ ca cb _ _ _ | .mrec _ _ ca cb _ _ => [ca, cb]
  | _ => []

/-- The head command of a core's queue is ready (R255): its slots hold pushed tiles, earlier drains are closed (R260), and
no earlier command of another queue has still to write what it reads (R415). -/
def State.muReady (s : State) (c : Nat) : Bool :=
  match (s.core c).muq with
  | [] => false
  | m :: _ =>
    !m.closing && m.carousels.all (fun i => m.carousels.count i ≤ (s.carousel c i).full) &&
      m.reads.all fun r => !s.writePending m.seq (windowPA c r.1) r.2

/-- The weight of a queue (R255 Table 2). -/
def Core.muWeight (k : Core) : Nat := if k.mqwt = 0 then 1 else min k.mqwt 8

/-- The queue that receives the next step, and the steps left to it after that. -/
def State.muTurn (s : State) (cluster unit : Nat) (turn : Nat × Nat) : Option (Nat × Nat) :=
  let ready (i : Nat) : Bool := s.muReady (muCore cluster unit i)
  if turn.2 != 0 && ready turn.1 then some (turn.1, turn.2 - 1)
  else (((List.range 8).map fun d => (turn.1 + 1 + d) % 8).find? ready).map fun i =>
    (i, (s.core (muCore cluster unit i)).muWeight - 1)

/-- The slots of a command popped (R257). -/
def State.popSlots (s : State) (c : Nat) (m : MuCmd) : State :=
  m.carousels.foldl (fun s i =>
    s.onCarousel c i fun k => { k with head := (k.head + 1) % 2 ^ 32, rsv := k.rsv - 1 }) s

/-- The head command of a core's queue has ended. -/
def State.muRetire (s : State) (c : Nat) (m : MuCmd) : State :=
  let s := (s.onCore c fun k => { k with muq := k.muq.drop 1 }).popSlots c m
  (if m.door then s.doorDone c 0 else s).engineIdle c

/-- The head command of a core's queue with its progress. -/
def State.muHead (s : State) (c : Nat) (f : MuCmd → MuCmd) : State :=
  s.onCore c fun k => match k.muq with
    | [] => k
    | m :: rest => { k with muq := f m :: rest }

/-- The steps of the elements of an accumulator: a step covers its share of the work, or, where the command reads all
before it writes, the last step does all of it. -/
def State.accStep (s : State) (c : Nat) (m : MuCmd) (float : Bool) (f : Nat → Elem → Elem) : State :=
  let es := (List.range 4096).map fun i =>
    f i (Elem.of (s.num (windowPA c (accOffset m.acc + 4 * i)) 4) (m.seen.getD i 0))
  let s := s.writeAcc c m.acc (es.map (·.code))
  if m.done + 1 = m.steps then
    let t := es.foldl (fun t e => t.add (e.tally float)) ({} : Tally)
    s.tally c t
  else s.muHead c fun m => { m with seen := es.map Elem.flags }

/-- The marks that the operands of a command set (R253). -/
def State.markAcc (s : State) (c : Nat) (m : MuCmd) (scale : Tag) : State :=
  if scale == .bounded || m.reads.any fun r => s.bndAt (windowPA c r.1) r.2 then s.setMark c m.acc true else s

/-- What a step of a command does. -/
def State.muWork (s : State) (c : Nat) (m : MuCmd) : State :=
  match m.op with
  | .zero => ((s.writeAcc c m.acc (List.replicate 4096 0)).setMark c m.acc false).setScale c m.acc 0x3F800000
  | .accept => if s.accMarkOf c m.acc then (s.setMark c m.acc false).count c 4 1 else s
  | .drain d => s.drainStep c m d
  | .mma form _ _ a b scale =>
    let s := if m.done = 0 && bit scale.data.toNat 96 then s.setScale c m.acc (bits scale.data.toNat 95 64) else s
    if m.whole && m.done + 1 < m.steps then s
    else
      let float := match form with
        | .float _ _ => true
        | _ => false
      let (g0, n) : Nat × Nat := if m.steps = 4 && !m.whole then (m.done, 1) else (0, 4)
      (s.accStep c m float (s.mmaElem c form m.rmode a b scale g0 n)).markAcc c m scale.tag
  | .mrec f prog _ _ a b =>
    let ops := (recProgram prog).getD []
    if m.whole && m.done + 1 < m.steps then s
    else
      let (k0, k1) : Nat × Nat :=
        if m.whole then (0, 64) else (64 * m.done / m.steps, 64 * (m.done + 1) / m.steps)
      (s.accStep c m true (s.mrecElem c f m.rmode ops a b k0 k1)).markAcc c m .exact

/-- The ranges whose poison a command consumes (R26): its operand tiles and its accumulator. -/
def MuCmd.consumed (m : MuCmd) : List (Nat × Nat) :=
  match m.op with
  | .zero | .accept => []
  | _ => (accOffset m.acc, 0x4000) :: m.reads

/-- One step of the head command of a core's queue. -/
def State.muStepOf (s : State) (c : Nat) : State :=
  match (s.core c).muq with
  | [] => s
  | m :: rest =>
    let s := (s.count c 9 1).mendReads c m.consumed
    match s.poisonedRead c m.consumed with
    | some off =>
      ((s.onCore c fun k => { k with muq := rest }).engineFault c 0 m.slot m.door .poison (localVA off) m.pc).engineIdle c
    | none =>
      let s := (s.muWork c m).muHead c fun m => { m with done := m.done + 1 }
      if m.done + 1 < m.steps then s
      else match m.op with
        | .drain _ =>
          let closes := s.agenda.contains (.drainClose c)
          if closes then s.muHead c fun m => { m with closing := true } else s.muRetire c m
        | _ => s.muRetire c m

/-- The turn of a matrix unit, and whether the step that it has granted runs. -/
def State.setTurn (s : State) (cluster unit : Nat) (turn : Nat × Nat) (run : Bool) : State :=
  s.onCluster cluster fun k =>
    if unit = 0 then { k with muTurn0 := turn, muRun0 := run } else { k with muTurn1 := turn, muRun1 := run }

/-- A matrix unit that runs no step grants one, which then runs; the step that runs ends with its effect. -/
def State.muGrant (s : State) (cluster unit : Nat) : State :=
  let k := s.cluster cluster
  let (turn, run) : (Nat × Nat) × Bool := if unit = 0 then (k.muTurn0, k.muRun0) else (k.muTurn1, k.muRun1)
  let s :=
    if run then (s.setTurn cluster unit turn false).muStepOf (muCore cluster unit turn.1)
    else match s.muTurn cluster unit turn with
      | some turn => s.setTurn cluster unit turn true
      | none => s
  if (List.range 8).any fun i => (s.core (muCore cluster unit i)).muq != [] then s.emitOnce (.muStep cluster unit) else s

/-- R255. A matrix unit grants a step to a queue. -/
def execMuStep (s : State) : Answered :=
  .next (match s.input with
    | .muStep cluster unit => s.muGrant cluster unit
    | _ => s)

/-- Every write of a drain has been acknowledged: the closing message goes, if the drain names a class (R261, R425). -/
def State.closeDrain (s : State) (c : Nat) : State :=
  match (s.core c).muq with
  | [] => s
  | m :: _ =>
    match m.op, m.closing with
    | .drain d, true =>
      let s := match d.cls, s.gridCore m.grid d.x d.y with
        | 0, _ | _, none => s
        | cls, some t =>
          let msg : Task :=
            { kind := 3, cls := cls, prio := m.prio, qos := m.qos, grid := m.grid, ctx := s.ctxOf m.slot,
              args := [⟨d.tag, .exact⟩], sender := ⟨thisDevice, 1, m.grid, (s.core c).gx, (s.core c).gy, m.slot % 4⟩ }
          s.carry (msg.header (coreAgent c) t) (.messageArrival t msg)
      s.muRetire c m
    | _, _ => s

/-- R261. A drain closes. -/
def execDrainClose (s : State) : Answered :=
  .next (match s.input with
    | .drainClose c => s.closeDrain c
    | _ => s)

/-! ## `ewait` (R426) -/

/-- A command of a queue that entered before a number has not completed. -/
def Core.queueBusy (k : Core) (q before : Nat) : Bool :=
  match q with
  | 0 => k.muq.any fun m => m.seq < before
  | 1 => k.vq.any fun v => v.seq < before
  | _ => k.cq.any fun c => c.seq < before && !c.stopped && c.foot.isNone

/-- R426. The commands that entered before `ewait` was first tried are awaited. -/
def execEwait (la : Look) (gd : RegNo) (sel : BitVec 3) (s : State) : Answered :=
  settle la.toNat (do
    enter onCores [] [gd]
    let s ← get
    let mask := if sel = 0 then 7 else sel.toNat
    let before := s.here.since.getD s.fresh
    let busy := (List.range 3).any fun q => bit mask q && s.hereCore.queueBusy q before
    if busy then
      if s.here.since.isSome then waitHere
      else waitAfter fun o => o.onHere fun sl => { sl with since := some o.fresh }
    let stopped := bit mask 2 && s.hereCore.cq.any fun c => c.stopped && c.seq < before
    set (s.onHere fun sl => { sl with since := none })
    result gd (exactData (if stopped then 1 else 0))
    retire la) s

/-! ## The MU doorbell and the descriptors (R263, R256) -/

/-- The issue of an MU doorbell: image 0 stands for gd, image 1 for gs1, image 6 for gs2. -/
def State.muDoor (s : State) (c : Nat) (again : Event) (v : Word64) : State :=
  let g (i : Nat) : Reg := s.shadow c 0 i
  let imm (i : Nat) : Nat := bits (g i).data.toNat 4 0
  let io := s.doorIssuer c
  match bits v.toNat 5 0 with
  | 0x03 => s.drawn.ring_ c 0 again (do
      if 7 < imm 1 || 7 < imm 6 then illegal
      issueMrec io (imm 0 % 2) (imm 0 / 2) (imm 1) (imm 6))
  | 0x05 => s.drawn.ring_ c 0 again (do
      if 3 < imm 0 then illegal
      issueDrain io (imm 0 % 2) (2 ≤ imm 0) (g 1) (g 6))
  | 0x06 => s.drawn.ring_ c 0 again (do
      if 1 < imm 0 then illegal
      enterMu io .zero (imm 0) false)
  | 0x14 =>
    if imm 6 = 2 || imm 6 = 3 then s.drawn.ring_ c 0 again (enterMu io .accept (imm 6 - 2) false) else s.doorErr c 0
  | _ => s.doorErr c 0

/-- R263. A write to the MU doorbell. -/
def execMuDoorbell (s : State) : Answered :=
  .next (match s.input with
    | .muDoorbell c v => s.muDoor c (.muDoorbell c v) v
    | _ => s)

/-- R256. A window write of a carousel descriptor: ignored where it is not allowed. -/
def execCarouselDescriptorWrite (s : State) : Answered :=
  .next (match s.input with
    | .carouselDescriptorWrite c i v => s.writeDescriptor c i v
    | _ => s)

end Sys2Proof.Machine
end

