-- ==== Sys2Proof/Machine/Copy.lean ====
section
/-! DEFINITION. The copy engine: the copy instructions and their doorbell, chunks, completion records, page faults, barriers,
carousels as destinations, stream registers (spec/13_engines.md R265-R268, spec/20_isa_engines.md R432-R437,
spec/09_consistency.md R178-R180). -/

namespace Sys2Proof.Machine

open Sys2Proof

/-! ## Reading and writing as an engine -/

/-- What an engine finds at an address: a spot, a place on another device, or why it cannot go on. -/
inductive Reach where
  | spot (sp : Spot)
  | away (dev addr : Nat)
  | park
  | page (va : Nat)
  | fail (c : Cause) (va : Nat)

/-- The agent that an engine of a core is for a command (R147: engine accesses are not strand accesses; R141: no unit registers). -/
def State.engineAgent (s : State) (c ctx : Nat) : Agent :=
  { core := some c, grid := (s.core c).grid, ctx := ctx, die := dieOfCore c }

/-- The page at an address is atomic: an engine does not touch it (R434). -/
def State.onAtomicPage (s : State) (ctx va : Nat) : Bool :=
  match regionOfVA va, s.walk ctx va with
  | .translated, .leaf l _ => l.at_
  | _, _ => false

/-- An engine reaches a part of an access within one sector (R434, R46): an atomic page for a footprint's source alone (R75). -/
def State.reach (s : State) (c ctx va n : Nat) (u : Use) (foot : Bool := false) : Reach × State :=
  let found (r : Resolved × State) (addr : Nat) (remote : Bool) : Reach × State :=
    match r with
    | (.spot sp, s) =>
      if s.onAtomicPage ctx addr && !(foot && u == .read) then (.fail .placement va, s)
      else if s.spotParked sp n then (.park, s) else (.spot sp, s)
    | (.park, s) => (.park, s)
    | (.materialise, s) => (.park, s.askPage ctx addr)
    | (.fabric d a, s) => (.away d a, s)
    | (.fail cause, s) =>
      if remote then (.fail .remoteFault va, s)
      else if cause = .pageFault then (.page va, s) else (.fail cause va, s)
  match regionOfVA va with
  | .fabric dev addr =>
    if dev = thisDevice then found (s.resolve (s.engineAgent c ctx).outside addr n u true) addr true else (.away dev addr, s)
  | _ => found (s.resolve (s.engineAgent c ctx) va n u true) va false

/-- The bytes of a spot with their metadata. -/
def State.cellsAt (s : State) (sp : Spot) (n : Nat) : List Carried :=
  match sp with
  | .mem pa | .atm pa => (List.range n).map fun i =>
      let g := s.granule (pa + i)
      ⟨s.byte (pa + i), s.bndAt (pa + i) 1, g.poison, s.tagAt (pa + i), g.ctype⟩
  | _ =>
    let g := s.readSpot sp n
    g.bytes.map fun b => ⟨b, g.bnd, g.poison, g.tag, 0⟩

/-- The parts of an engine's access of at most 64 bytes: within sectors. -/
def engineParts (va n : Nat) : List (Nat × Nat) := sectors 3 va n

/-- The start of the sector of an address. -/
def sectorOf (va : Nat) : Nat := va / 32 * 32

/-- A command of a core's copy queue changed, by the number of its issue. -/
def State.onCopy (s : State) (c seq : Nat) (f : CopyCmd → CopyCmd) : State :=
  s.onCore c fun k => { k with cq := k.cq.map fun q => if q.seq = seq then f q else q }

/-- A source sector that a command has read (R179). -/
def State.sectorRead (s : State) (c seq va : Nat) : Option Reply :=
  ((s.core c).cq.find? fun q => q.seq = seq).bind fun q => (q.fetched.find? fun e => e.1 = sectorOf va).map (·.2)

/-- Why the reading or the writing of a unit stops. -/
inductive Halt where
  | park (va : Nat)
  | ask (va dev addr : Nat)
  | page (va : Nat)
  | fail (c : Cause) (va : Nat)
  | typed (va : Nat)
  deriving DecidableEq, Repr

/-- A part of the source of a unit read for the first time: the whole of its sector where it lies in memory, which the command
keeps (R179); an elided page, or a register, gives the part alone. -/
def State.firstRead (s : State) (c : Nat) (q : CopyCmd) (va n : Nat) (sp : Spot) : List Carried × State :=
  let whole (pa : Nat) (again : Nat → Spot) : List Carried × State :=
    let sp := again (sectorOf pa)
    let s := s.beforeRead q.qos sp 32
    let cs := s.cellsAt sp 32
    ((cs.drop (pa % 32)).take n, s.onCopy c q.seq fun q => { q with fetched := (sectorOf va, { cells := cs }) :: q.fetched })
  match sp with
  | .mem pa => whole pa .mem
  | .atm pa => whole pa .atm
  | sp =>
    let s := s.beforeRead q.qos sp n
    (s.cellsAt sp n, s)

/-- The source bytes of a unit (R179): commands issued earlier that have still to write them are awaited. -/
def State.unitRead (s : State) (c : Nat) (q : CopyCmd) (u : Use) : List (Nat × Nat) → Except Halt (List Carried) × State
  | [] => (.ok [], s)
  | (va, n) :: rest =>
    let more (cs : List Carried) (s : State) : Except Halt (List Carried) × State :=
      match s.unitRead c q u rest with
      | (.ok l, s) => (.ok (cs ++ l), s)
      | e => e
    match s.sectorRead c q.seq va with
    | some r =>
      if r.status != .none then (.error (.fail r.status va), s) else more ((r.cells.drop (va % 32)).take n) s
    | none =>
      match s.reach c q.ctx va n u q.foot.isSome with
      | (.spot sp, s) =>
        if ((s.placeOf q.ctx va sp).map fun p => s.writePending q.seq p n) = some true then (.error (.park va), s)
        else
          let (cs, s) := s.firstRead c q va n sp
          more cs s
      | (.away dev addr, s) => (.error (.ask va dev (sectorOf addr)), s)
      | (.park, s) => (.error (.park va), s)
      | (.page va, s) => (.error (.page va), s)
      | (.fail cause va, s) => (.error (.fail cause va), s)

/-- A destination part with the bytes that go there. -/
structure Landing where
  va : Nat
  into : Spot ⊕ (Nat × Nat)
  cells : List Carried
  aligned : Bool

/-- The destinations of a unit (R415): earlier commands that have still to write or to read there are awaited; a typed cell
ends the command (R265). A cell type goes with a whole sector that comes from one (R160). -/
def State.unitTargets (s : State) (c : Nat) (q : CopyCmd) (src : Option Nat) :
    List (Nat × Nat) → List Carried → Except Halt (List Landing) × State
  | [], _ => (.ok [], s)
  | (va, n) :: rest, cells =>
    let alike (m : Nat) : Bool := match src with
      | some a => a % m = va % m
      | none => false
    let mine := (cells.take n).map fun x => if n = 32 && alike 32 then x else { x with ctype := 0 }
    let more (t : Spot ⊕ (Nat × Nat)) (s : State) : Except Halt (List Landing) × State :=
      match s.unitTargets c q (src.map (· + n)) rest (cells.drop n) with
      | (.ok l, s) => (.ok (⟨va, t, mine, alike 16⟩ :: l), s)
      | e => e
    match s.reach c q.ctx va n .write with
    | (.spot sp, s) =>
      if ((s.placeOf q.ctx va sp).map fun p => s.writePending q.seq p n || s.readPending q.seq c p n) = some true then
        (.error (.park va), s)
      else if s.typedAt sp n then (.error (.typed va), s) else more (.inl sp) s
    | (.away dev addr, s) => more (.inr (dev, addr)) s
    | (.park, s) => (.error (.park va), s)
    | (.page va, s) => (.error (.page va), s)
    | (.fail cause va, s) => (.error (.fail cause va), s)

/-! ## Units of a command (R433) -/

/-- A unit of work: its source and destination addresses, its bytes, how far it takes the command; `fill` gives the bytes of
a pattern. -/
structure Unit_ where
  src : Option Nat
  dst : Nat
  n : Nat
  step : Nat
  fill : List Byte := []

/-- Room up to the end of a 32-byte granule. -/
def roomAt (va : Nat) : Nat := 32 - va % 32

/-- The end of the chunk that begins at a position: 4 KiB, or 256 elements. -/
def CopyCmd.chunkEnd (q : CopyCmd) (pos : Nat) : Nat :=
  match q.op with
  | .gather | .scatter => min q.total (pos + 256)
  | _ => min q.total ((pos / 4096 + 1) * 4096)

/-- An element of a gather or a scatter lies in its capability (R434). -/
def elemOk (cap : Reg) (va n : Nat) : Bool := inBounds cap.data va n

/-- The next unit of a command at a position (R433): index words are read as the command reads them. -/
def State.unitAt (s : State) (c : Nat) (q : CopyCmd) (pos : Nat) : Except Halt Unit_ × State :=
  let d := q.dstAt
  let a := capAddr q.src.data
  let w := 2 ^ q.es
  let index (s : State) : Except Halt Nat × State :=
    match s.unitRead c q .read (engineParts (capAddr q.idx.data + 4 * pos) 4) with
    | (.ok cs, s) => (.ok (ofBytes (cs.map (·.byte))), s)
    | (.error h, s) => (.error h, s)
  match q.op with
  | .copy =>
    let n := min (q.chunkEnd pos - pos) (roomAt (d + pos))
    (.ok { src := some (a + pos), dst := d + pos, n := n, step := n }, s)
  | .fill =>
    let n := min (q.chunkEnd pos - pos) (roomAt (d + pos))
    let pat := bytesOf 16 q.src.data.toNat
    (.ok { src := none, dst := d + pos, n := n, step := n, fill := (List.range n).map fun j => pat.getD ((pos + j) % 16) 0 }, s)
  | .copy2d =>
    let row := if q.rb = 0 then 0 else pos / q.rb
    let col := if q.rb = 0 then 0 else pos % q.rb
    let dest := d + row * q.ds + col
    let n := min (min (q.rb - col) (q.chunkEnd pos - pos)) (roomAt dest)
    (.ok { src := some (a + row * q.ss + col), dst := dest, n := n, step := n }, s)
  | .gather =>
    match index s with
    | (.ok i, s) =>
      let va := a + i * w
      if elemOk q.src va w then (.ok { src := some va, dst := d + pos * w, n := w, step := 1 }, s)
      else (.error (.fail .capability va), s)
    | (.error h, s) => (.error h, s)
  | .scatter =>
    match index s with
    | (.ok i, s) =>
      let va := d + i * w
      if elemOk q.dst va w then (.ok { src := some (a + pos * w), dst := va, n := w, step := 1 }, s)
      else (.error (.fail .capability va), s)
    | (.error h, s) => (.error h, s)

/-- A destination lies in a code region: its source needs `ex` (R161). -/
def State.toCode (s : State) (c : Nat) (va : Nat) : Bool :=
  match regionOfVA va with
  | .own off => off < s.codeEnd c
  | .grid x y off => match (s.core c).grid.bind fun g => s.gridCore g x y with
    | some t => off < s.codeEnd t
    | none => false
  | _ => false

/-- The number that a copy of a code image has in place of a task's (R469). -/
def codeFoot : Nat := 2 ^ 40

/-- A unit read and its destinations found: nothing is written yet. -/
def State.gatherUnit (s : State) (c : Nat) (q : CopyCmd) (pos : Nat) : Except Halt (Nat × List Landing) × State :=
  match s.unitAt c q pos with
  | (.error h, s) => (.error h, s)
  | (.ok u, s) =>
    let u' : Use := if q.foot == some codeFoot || s.toCode c u.dst then .code else .read
    let read : Except Halt (List Carried) × State := match u.src with
      | none => (.ok (u.fill.map fun b => { byte := b, bnd := q.src.tag == .bounded }), s)
      | some va => s.unitRead c q u' (engineParts va u.n)
    match read with
    | (.error h, s) => (.error h, s)
    | (.ok cells, s) =>
      match s.unitTargets c q u.src (engineParts u.dst u.n) cells with
      | (.error h, s) => (.error h, s)
      | (.ok ls, s) => (.ok (u.step, ls), s)

/-- The units of a chunk in order, up to its end or to the first that stops (R265, R433: a chunk reads its source before it
writes its destination). -/
def State.gatherChunk (s : State) (c : Nat) (q : CopyCmd) (last : Nat) :
    Nat → Nat → List Landing → (Nat × List Landing × Option Halt) × State
  | 0, pos, acc => ((pos, acc, none), s)
  | k + 1, pos, acc =>
    if last ≤ pos then ((pos, acc, none), s)
    else match s.gatherUnit c q pos with
      | (.ok (n, ls), s) => if n = 0 then ((pos, acc, none), s) else s.gatherChunk c q last k (pos + n) (acc ++ ls)
      | (.error h, s) => ((pos, acc, some h), s)

/-! ## Writing a chunk (R433) -/

/-- A posted store of a command to another device (R180): data and metadata go together (R265). -/
def State.postCopy (s : State) (c : Nat) (q : CopyCmd) (dev addr va : Nat) (cells : List Carried) (aligned : Bool) : State :=
  let tag := s.fresh
  let counted := if q.commandCount then none else q.barrier
  let p : Posted :=
    { id := 0, slot := q.slot, grid := q.grid, addr := va, pc := q.pc, dev := dev, tag := tag,
      barrier := counted.map fun b => (b, cells.length), late := true,
      due := s.time + 4 * (s.slot q.slot).deadline, copy := some q.seq, bytes := cells.length }
  let s := (s.drawn.onCore c fun k => { k with posted := p :: k.posted }).emit (.postedTimeout c tag)
  if s.upPorts = [] then s.emit (.storeAck { core := c, entry := tag, status := .noRoute, dev := dev })
  else s.send
    { dst := dev, addr := addr, entry := tag, ctx := q.ctx, qos := q.qos, core := c, acq := true,
      op := .place cells aligned (counted.map homeOfCell) } (clusterOf c)

/-- Bytes of a copy written with their metadata (R433, R160): a capability tag kept where a whole 16-byte granule comes from an
aligned one, a cell type with a whole sector; a mark or poison where a byte brings it, and neither where `whole` says that the
sector is written whole without one. -/
def State.placeCells (s : State) (pa : Nat) (cells : List Carried) (aligned whole marked bad : Bool) : State :=
  let n := cells.length
  let tag16 (lo : Nat) : Bool := aligned && pa ≤ lo && lo + 16 ≤ pa + n && (cells.getD (lo - pa) { byte := 0 }).tag
  let old := s.granule pa
  let g0 := sectorOf pa
  let s := (s.storeData pa (cells.map (·.byte)) old.bnd).onGranule pa fun g => { g with
    tag0 := g.tag0 || tag16 g0
    tag1 := g.tag1 || tag16 (g0 + 16)
    ctype := if n = 32 then (cells.getD 0 { byte := 0 }).ctype else g.ctype
    bnd := marked || (g.bnd && !whole)
    poison := bad || (g.poison && !whole) }
  match tileOfPA pa with
  | some (t, a) => if marked then s.onCore t fun k => { k with accMark := put k.accMark a true } else s
  | none => s

/-- What a copy brings to a spot that is no memory. -/
def Carried.kind (cells : List Carried) (aligned : Bool) : StoreKind :=
  if cells.any (·.bnd) then .bounded
  else if aligned && cells.length = 16 && cells.any (·.tag) then
    .cap (if bit (ofBytes (cells.map (·.byte))) 121 then .sealed else .cap)
  else .plain

/-- One part of a chunk lands. -/
def State.landPart (s : State) (c : Nat) (q : CopyCmd) (all : List Landing) (l : Landing) : State :=
  match l.into with
  | .inr (dev, addr) => s.postCopy c q dev addr l.va l.cells l.aligned
  | .inl (.mem pa) =>
    let here := all.filter fun l => match l.into with
      | .inl (.mem p) => p / 32 = pa / 32
      | _ => false
    (s.placeCells pa l.cells l.aligned (32 ≤ (here.map (·.cells.length)).sum) (here.any fun l => l.cells.any (·.bnd))
      (here.any fun l => l.cells.any (·.poison))).afterWrite q.qos none (.mem pa) l.cells.length
  | .inl sp => s.writeSpot .other sp (l.cells.map (·.byte)) (Carried.kind l.cells l.aligned)

/-- Neighbouring parts of one sector of another device go together. -/
def gathered : List Landing → List Landing
  | [] => []
  | l :: rest =>
    match l.into, gathered rest with
    | .inr (d, a), m :: ms => match m.into with
      | .inr (e, b) =>
        if d = e && b = a + l.cells.length && sectorOf a = sectorOf b then
          { l with cells := l.cells ++ m.cells, aligned := l.aligned && m.aligned } :: ms
        else l :: m :: ms
      | _ => l :: m :: ms
    | _, ms => l :: ms

/-! ## Barriers (R435) -/

/-- A request to the barrier of a command, from the core or from an engine, or from the unit that holds the bytes (R435, R122). -/
def State.copyPend (s : State) (q : CopyCmd) (src : NetAgent) (who : Waiter) (op : DeskOp) (n : Nat) : State :=
  match q.barrier with
  | none => s
  | some va =>
    if n = 0 then s
    else
      let r : DeskReq :=
        { pa := untranslated, va := va, ctx := q.ctx, who := who, seq := s.fresh, prio := q.prio, qos := q.qos, n := n,
          pc := some q.pc }
      s.drawn.carryDesk src (s.dieOf q.slot) (if op = .bpendadd then 0x13 else 0x14) r
        (if op = .bpendadd then .bpendadd r else .bpendsub r)

/-- The waiter that a copy engine is (R111 Table 3), with the grid of its command beside it, and its place in the mesh. -/
def copyWaiter (c : Nat) (q : CopyCmd) : Waiter := ⟨thisDevice, 2, q.grid, clusterOf c, 0, 0⟩
def copyAgent (c : Nat) : NetAgent := ⟨6, clusterOf c⟩

/-- What an engine takes off the barrier itself (R435). -/
def State.engineSub (s : State) (c : Nat) (q : CopyCmd) (n : Nat) : State :=
  s.copyPend q (copyAgent c) (copyWaiter c q) .bpendsub n

/-- The bytes of a chunk that have become visible on this device come off the barrier (R435: byte counting): each unit that holds
some of them says so. -/
def State.landedSub (s : State) (q : CopyCmd) (ls : List Landing) : State :=
  let sites := ls.filterMap fun l => match l.into with
    | .inl sp => some (s.siteOf q.slot sp, l.cells.length)
    | .inr _ => none
  (sites.map (·.1)).eraseDups.foldl (fun s a =>
    s.copyPend q a (s.waiterOf q.slot) .bpendsub ((sites.filter (·.1 = a)).map (·.2)).sum) s

/-! ## Reports and records (R162, R267) -/

/-- The report of a page fault that an engine has met (R162, R462): the form of a parked slot's report, with the fault's own
cause, address and instruction. -/
def State.reportEngine (s : State) (c : Nat) (slot va pc : Nat) : State :=
  let n := serviceCore (regionOf c)
  let m : Task :=
    { kind := 3, cls := 15, sender := s.waiterOf slot,
      args := [exactData (s.slotWord slot), exactData (Cause.pageFault.code + 2 * 2 ^ 16), exactData va, exactData pc] }
  s.carry (m.header (copyAgent c) n) (.messageArrival n m)

/-- A command of a core's copy queue removed. -/
def State.dropCopy (s : State) (c seq : Nat) : State :=
  s.onCore c fun k => { k with cq := k.cq.filter fun q => q.seq != seq }

/-- The completion record (R266 Table 6). -/
def State.copyRecord (s : State) (q : CopyCmd) (status cause va : Nat) : List Byte :=
  bytesOf 1 status ++ bytesOf 1 0 ++ bytesOf 2 cause ++ bytesOf 4 0 ++ bytesOf 8 q.pos ++ bytesOf 8 va ++ bytesOf 8 s.time

/-- The record written with release: done, to be tried again, or a fault. -/
inductive Recorded where
  | done
  | again
  | fail (c : Cause)
  deriving DecidableEq, Repr

def State.writeRecord (s : State) (c : Nat) (q : CopyCmd) (status cause va : Nat) : Recorded × State :=
  if q.record = 0 then (.done, s)
  else
    let bs := s.copyRecord q status cause va
    match s.reach c q.ctx q.record 32 .write with
    | (.spot sp, s) =>
      if s.typedAt sp 32 then (.fail .type, s)
      else (.done, s.writeParts q.qos .other none .plain [(sp, 32)] bs)
    | (.away dev addr, s) =>
      (.done, s.postCopy c { q with barrier := none } dev addr q.record (bs.map fun b => { byte := b }) true)
    | (.park, s) => (.again, s)
    | (.page va, s) =>
      (.again, if q.reported then s else (s.onCopy c q.seq fun q => { q with reported := true }).reportEngine c q.slot va q.pc)
    | (.fail e _, s) => (.fail e, s)

/-- The cause with a code that an engine's ending carries. -/
def causeOfEnding (code : Nat) : Cause :=
  ([.capability, .placement, .type, .protection, .context, .pteFormat, .noncanonical, .window, .remoteFault, .replyLost,
    .noRoute, .atomicAccess, .poison, .codeAccess, .cellPlacement, .bankOff, .channel] : List Cause).find? (fun c => c.code = code) |>.getD .remoteFault

/-- A slot reserved at a position and given up without a push (R257): the reservations made after it follow one slot sooner. -/
def State.giveSlot (s : State) (c : Nat) (car : Option Nat) (pos : Nat) : State :=
  match car with
  | none => s
  | some i =>
    let s := s.onCarousel c i fun k => { k with claimed := k.claimed - 1 }
    let k := s.carousel c i
    let earlier (p : Nat) : Nat := (p + 2 ^ 32 - 1) % 2 ^ 32
    let later (p : Nat) : Bool := (p + 2 ^ 32 - pos) % 2 ^ 32 < 2 ^ 31 && p != pos
    let s := s.onCore c fun core => { core with
      cq := core.cq.map fun q => if q.car = some i && later q.carPos then
        { q with carPos := earlier q.carPos, carOff := k.slotAt (earlier q.carPos) } else q
      vq := core.vq.map fun v => if v.car = some i && later v.carPos then
        { v with carPos := earlier v.carPos, d := k.slotAt (earlier v.carPos) } else v }
    (List.range 4).foldl (fun s h => s.onSlot (slotKey c h) fun sl =>
      match sl.since, decodeWord (s.wordAt (slotKey c h) sl.pc) with
      | some p, .ok (.cvpush _ n) => if n.toNat = i && later p then { sl with since := some (earlier p) } else sl
      | _, _ => sl) s

/-- Posted stores of a command await their acknowledgement (R180). -/
def State.copyPosted (s : State) (c seq : Nat) : Bool := (s.core c).posted.any fun p => p.copy == some seq

/-- A command ends as its ending says (R266, R267, R434, R435), once its posted stores have been acknowledged (R180): its record is
written first; what its barrier still counts comes off; a stopped command stays, with its claims, until it is resumed or
abandoned. -/
def State.endCopy (s : State) (c : Nat) (q : CopyCmd) (e : Nat × Nat × Nat) : State :=
  let (status, code, va) := e
  if s.copyPosted c q.seq then s
  else match s.writeRecord c q status code va with
  | (.again, s) => s
  | (r, s) =>
    let s := s.engineSub c q q.counted
    let fault : Option (Cause × Nat) := match r, status with
      | .fail x, _ => some (x, q.record)
      | _, 2 => some (causeOfEnding code, va)
      | _, _ => none
    match fault with
    | some (x, va) => ((s.dropCopy c q.seq).engineFault c 1 q.slot q.door x va q.pc).engineIdle c
    | none =>
      if status = 1 then
        (s.onCopy c q.seq fun q => { q with stopped := true, ending := none, counted := 0, reported := false }).engineIdle c
      else
        let s := s.dropCopy c q.seq
        let s := if status = 0 then s.landSlot c q.car else s.giveSlot c q.car q.carPos
        let s := if q.door then s.doorDone c 1 else s
        let s := match q.stream with
          | some n => s.emitOnce (.streamElement q.slot n)
          | none => s
        match q.foot with
        | some l => (s.emit (.footprintCopy q.grid c l)).engineIdle c
        | none => s.engineIdle c

/-! ## A chunk (R265) -/

/-- A read of a sector of another device asked for (R45): the command goes on when the answer has come. -/
def State.askAway (s : State) (c : Nat) (q : CopyCmd) (va dev addr : Nat) : State :=
  let tag := s.fresh
  let s := s.drawn.onCopy c q.seq fun q => { q with asked := some (tag, sectorOf va) }
  if s.upPorts = [] then s.emit (.memoryReply { core := c, entry := tag, status := .noRoute, dev := dev })
  else s.send
    { dst := dev, addr := addr, entry := tag, ctx := q.ctx, qos := q.qos, core := c, acq := true, op := .sector } (clusterOf c)

/-- A footprint copy or a copy of a code image cannot go on: its grid ends (R80, R469). -/
def State.footFailed (s : State) (c : Nat) (q : CopyCmd) (l va : Nat) : State :=
  let s := s.dropCopy c q.seq
  if l = codeFoot then s.endUnrun q.grid 1 .setup va
  else s.endGrid q.grid { status := 1, cause := Cause.footprint.code, taddr := va }

/-- What stops a unit, for a command: it is tried again, asks, stops, or ends (R434, R437, R80). -/
def State.haltCopy (s : State) (c : Nat) (q : CopyCmd) (h : Halt) : State :=
  match h with
  | .park va =>
    let p : Parked := { die := dieOfCore c, slot := q.slot, ctx := q.ctx, va := va, engine := true }
    if s.parks q.ctx va && !s.parked.contains p then { s with parked := s.parked ++ [p] } else s
  | .ask va dev addr => s.askAway c q va dev addr
  | .page va =>
    if q.foot.isSome || q.stream.isSome then
      if q.reported then s
      else (s.onCopy c q.seq fun q => { q with reported := true }).reportEngine c q.slot va q.pc
    else (s.onCopy c q.seq fun q => { q with ending := some (1, Cause.pageFault.code, va) }).reportEngine c q.slot va q.pc
  | .fail x va =>
    match q.foot with
    | some l => s.footFailed c q l va
    | none => s.onCopy c q.seq fun q => { q with ending := some (2, x.code, va) }
  | .typed va =>
    match q.foot with
    | some l => s.footFailed c q l va
    | none => s.onCopy c q.seq fun q => { q with ending := some (2, Cause.type.code, va) }

/-- The source sectors that a command at a position may still need: those that a contiguous source has passed are dropped. -/
def CopyCmd.keeps (q : CopyCmd) (pos : Nat) : List (Nat × Reply) :=
  match q.op with
  | .copy => q.fetched.filter fun e => capAddr q.src.data + pos < e.1 + 32
  | _ => q.fetched

/-- A chunk of a command: its units are read, then written; a destination that touches a typed cell ends the command before
the chunk is written. -/
def State.chunkOf (s : State) (c : Nat) (q : CopyCmd) : State :=
  let s : State := { s with parked := s.parked.filter fun p => !(p.engine && p.slot = q.slot) }
  if q.total ≤ q.pos then s.onCopy c q.seq fun q => { q with ending := some (0, 0, 0) }
  else
    let ((pos, ls, halt), s) := s.gatherChunk c q (q.chunkEnd q.pos) 4096 q.pos []
    match halt with
    | some (.typed va) => s.haltCopy c q (.typed va)
    | _ =>
      let ls := gathered ls
      let s := ls.foldl (fun s l => s.landPart c q ls l) s
      let s := if q.commandCount then s else s.landedSub q ls
      let moved : Nat := (ls.map (·.cells.length)).sum
      let s := s.onCopy c q.seq fun q => { q with
        pos := pos
        counted := if q.commandCount then q.counted else q.counted - moved
        fetched := q.keeps pos
        reported := q.reported && pos = q.pos }
      match halt with
      | some h => s.haltCopy c { q with pos := pos } h
      | none => s

/-- The command of a core's copy queue that the engine may serve: the first that has not stopped; stream copies go element by
element beside it (R268). -/
def Core.copyHead (k : Core) : Option CopyCmd := k.cq.find? fun q => !q.stopped && q.stream.isNone

/-- The engine may serve a core: its head command neither ends, nor waits for an answer or for its carousel slot. -/
def State.copyReady (s : State) (c : Nat) : Option CopyCmd :=
  match (s.core c).copyHead with
  | some q => if q.ending.isNone && q.asked.isNone && s.slotFree c q.car q.carPos then some q else none
  | none => none

/-- The copy queues of a cluster have work that is not stopped. -/
def State.copyBusy (s : State) (cluster : Nat) : Bool :=
  (List.range 16).any fun i => (s.core (clusterCore cluster i)).cq.any fun q =>
    q.ending.isSome || (!q.stopped && q.stream.isNone)

/-- A command that ends, of some core of a cluster. -/
def State.copyEnding (s : State) (cluster : Nat) : Option (Nat × CopyCmd × (Nat × Nat × Nat)) :=
  (List.range 16).findSome? fun i =>
    let c := clusterCore cluster i
    (s.core c).cq.findSome? fun q => q.ending.map fun e => (c, q, e)

/-- The copy engine of a cluster grants one chunk, round robin over its cores, after an ending that is due. -/
def State.copyGrant (s : State) (cluster : Nat) : State :=
  let s := match s.copyEnding cluster with
    | some (c, q, e) => s.endCopy c q e
    | none => s
  let turn := (s.cluster cluster).copyTurn
  let next := ((List.range 16).map fun d => (turn + 1 + d) % 16).findSome? fun i =>
    (s.copyReady (clusterCore cluster i)).map fun q => (i, q)
  let s := match next with
    | some (i, q) => (s.onCluster cluster fun k => { k with copyTurn := i }).chunkOf (clusterCore cluster i) q
    | none => s
  if s.copyBusy cluster then s.emitOnce (.copyChunk cluster) else s

/-- R265. The copy engine of a cluster grants and moves one chunk. -/
def execCopyChunk (s : State) : Answered :=
  .next (match s.input with
    | .copyChunk cluster => s.copyGrant cluster
    | _ => s)

/-! ## Issue (R432-R436) -/

/-- The operands of a copy instruction. -/
structure CopyArgs where
  op : CopyOp
  dst : Reg
  src : Reg
  control : Reg
  record : Reg
  extra : Reg
  barrier : Reg

/-- The control word (R432 Table 8). -/
def CopyArgs.n (a : CopyArgs) : Nat := bits a.control.data.toNat 39 0
def CopyArgs.rs (a : CopyArgs) : Nat := bits a.control.data.toNat 79 40
def CopyArgs.dk (a : CopyArgs) : Nat := bits a.control.data.toNat 81 80
def CopyArgs.di (a : CopyArgs) : Nat := bits a.control.data.toNat 84 82
def CopyArgs.es (a : CopyArgs) : Nat := bits a.control.data.toNat 87 85

/-- The geometry word (R432 Table 9). -/
def CopyArgs.rb (a : CopyArgs) : Nat := bits a.extra.data.toNat 23 0
def CopyArgs.nr (a : CopyArgs) : Nat := bits a.extra.data.toNat 47 24
def CopyArgs.ss (a : CopyArgs) : Nat := bits a.extra.data.toNat 87 48
def CopyArgs.ds (a : CopyArgs) : Nat := bits a.extra.data.toNat 127 88

/-- The total in bytes or elements (R433). -/
def CopyArgs.total (a : CopyArgs) : Nat :=
  match a.op with
  | .copy2d => a.rb * a.nr
  | _ => a.n

/-- The words of a copy are allowed (R432 Tables 8 and 9, R435, R437). -/
def CopyArgs.wordsOk (a : CopyArgs) : Bool :=
  let elems := a.op == .gather || a.op == .scatter
  bits a.control.data.toNat 127 88 = 0 && a.dk != 3 && (a.dk = 0 || a.op == .copy) && (a.dk != 2 || a.di ≤ 3) &&
    (!(elems || a.dk = 2) || a.es ≤ 4) &&
    (a.op != .copy2d || (a.n = 0 && a.rb != 0 && a.nr != 0)) &&
    a.rs ≤ a.total && (a.dk = 0 || (a.barrier.data = 0 && a.barrier.tag == .exact)) &&
    (a.dk != 2 || a.n % 2 ^ a.es = 0)

/-- The bytes from the first to the last byte of the last row at a stride. -/
def CopyArgs.span (a : CopyArgs) (stride : Nat) : Nat := (a.nr - 1) * stride + a.rb

/-- A capability that a copy names (R434): a range of 0 bytes asks for its tag and permissions alone. -/
def copyCap (r : Reg) (n : Nat) (range : Bool) (perms : List Nat) : Act Unit := do
  let ea := capAddr r.data
  let ps := withG perms ea
  if !(if range then capOk r ea n ps else r.tag == .cap && ps.all (hasPerm r.data)) then trap .capability ea

/-- A record register holds 0 with tag 00: no record (R434). -/
def noRecord (r : Reg) : Bool := r.data = 0 && r.tag == .exact

/-- The checks of a copy at issue, in their order (R434, R273). -/
def checkCopy (a : CopyArgs) : Act Unit := do
  let elems := a.op == .gather || a.op == .scatter
  let regs := (if a.dk = 0 then [a.dst] else []) ++ (if a.op == .fill then [] else [a.src]) ++ [a.control, a.record] ++
    (if elems || a.op == .copy2d then [a.extra] else []) ++ [a.barrier]
  if regs.any fun r => r.tag == .bounded then trap .boundedValue
  let w := 2 ^ a.es
  if a.dk = 0 then
    match a.op with
    | .copy | .fill => copyCap a.dst a.n true [permW]
    | .copy2d => copyCap a.dst (a.span a.ds) true [permW]
    | .gather => copyCap a.dst (a.n * w) true [permW]
    | .scatter => copyCap a.dst 0 false [permW]
  match a.op with
  | .copy => copyCap a.src a.n true [permR]
  | .copy2d => copyCap a.src (a.span a.ss) true [permR]
  | .gather => copyCap a.src 0 false [permR]
  | .scatter => copyCap a.src (a.n * w) true [permR]
  | .fill => pure ()
  if elems then copyCap a.extra (4 * a.n) true [permR]
  if !noRecord a.record then copyCap a.record 32 true [permW]
  if !noRecord a.barrier then copyCap a.barrier 32 true [permOBJ]
  if !noRecord a.record && capAddr a.record.data % 32 != 0 then trap .alignment (capAddr a.record.data)
  if !noRecord a.barrier && capAddr a.barrier.data % 32 != 0 then trap .alignment (capAddr a.barrier.data)
  if !a.wordsOk then illegal

/-- The bytes that a copy will write from its restart offset (R435). -/
def CopyArgs.bytesLeft (a : CopyArgs) : Nat :=
  (a.total - a.rs) * (if a.op == .gather || a.op == .scatter then 2 ^ a.es else 1)

/-- The stopped command that a copy resumes (R434, R266): the same instruction with the restart offset of the record. -/
def Core.resumes (k : Core) (io : Issuer) (a : CopyArgs) : Option CopyCmd :=
  k.cq.find? fun q => q.stopped && q.slot = io.slot && q.op = a.op && q.pos = a.rs && q.dst = a.dst && q.src = a.src &&
    q.total = a.total && q.record = capAddr a.record.data

/-- The issue of a copy: the commands of the queue that have not stopped hold its four entries. -/
def issueCopy (io : Issuer) (a : CopyArgs) : Act Unit := do
  checkCopy a
  let s ← get
  let c := coreOf s.cur
  let k := s.core c
  if a.dk = 2 && (io.door || (s.here.stream (24 + a.di)).isNone) then illegal
  if 4 ≤ (k.cq.filter fun q => !q.stopped).length then waitHere
  let old := k.resumes io a
  let (car, pos, off) : Option Nat × Nat × Nat ←
    if a.dk = 1 then
      match old with
      | some q => pure (q.car, q.carPos, q.carOff)
      | none => do
        let (j, off) ← reserveSlot a.di a.n illegal
        pure (some a.di, j, off)
    else pure (none, 0, 0)
  let seq ← nextSeq
  let left := a.bytesLeft
  let whole := 2 ^ 30 < left
  let counted := if noRecord a.barrier then 0 else if whole then 1 else left
  let q : CopyCmd :=
    { op := a.op, dst := a.dst, src := a.src, total := a.total, pos := a.rs, es := a.es, idx := a.extra,
      record := if noRecord a.record then 0 else capAddr a.record.data, rb := a.rb, nr := a.nr, ss := a.ss, ds := a.ds,
      car := car, carOff := off, carPos := pos, stream := if a.dk = 2 then some a.di else none,
      barrier := if noRecord a.barrier then none else some (capAddr a.barrier.data), counted := counted,
      commandCount := whole && !noRecord a.barrier, slot := io.slot, grid := io.grid, ctx := io.ctx, prio := io.prio, qos := io.qos,
      door := io.door, seq := seq, pc := io.pc }
  modify fun s =>
    let s := match old with
      | some o => s.dropCopy c o.seq
      | none => s
    let s := (s.onCore c fun k => { k with cq := k.cq ++ [q] }).copyPend q (coreAgent c) (s.waiterOf io.slot) .bpendadd counted
    if a.dk = 2 then s.emit (.streamElement io.slot a.di) else s.emitOnce (copyEvent c)

/-- The control word of a group before the group is read: what a stream would give next, or the register. -/
def Slot.peek (sl : Slot) (r : Nat) : Nat :=
  match sl.stream r with
  | some q => (q.buffer.head?.map (·.1.toNat)).getD 0
  | none => (sl.reg r).data.toNat

/-- A copy instruction (R432): the destination register is read for a destination in memory alone (R436). -/
def copyInstr (op : CopyOp) (n : Nat) (la : Look) (gs1 gs2 : RegNo) : Act Unit := do
  let s ← get
  let g := groupOf gs1 n
  let reads := bits (s.here.peek (gs1 + 2).toNat) 81 80 = 0 || op != .copy
  enter onCores ((if reads then g else g.drop 1) ++ [gs2]) []
  let dst ← if reads then source gs1 else pure {}
  let rest ← sources (g.drop 1)
  let barrier ← source gs2
  let io ← strandIssuer
  issueCopy io ⟨op, dst, rest.getD 0 {}, rest.getD 1 {}, rest.getD 2 {}, rest.getD 3 {}, barrier⟩
  retire la

def execCopy (la : Look) (gs1 gs2 : RegNo) (s : State) : Answered := settle la.toNat (copyInstr .copy 4 la gs1 gs2) s
def execCopy2d (la : Look) (gs1 gs2 : RegNo) (s : State) : Answered := settle la.toNat (copyInstr .copy2d 5 la gs1 gs2) s
def execGather (la : Look) (gs1 gs2 : RegNo) (s : State) : Answered := settle la.toNat (copyInstr .gather 5 la gs1 gs2) s
def execScatter (la : Look) (gs1 gs2 : RegNo) (s : State) : Answered := settle la.toNat (copyInstr .scatter 5 la gs1 gs2) s
def execFill (la : Look) (gs1 gs2 : RegNo) (s : State) : Answered := settle la.toNat (copyInstr .fill 4 la gs1 gs2) s

/-- The issue of a copy doorbell (R263, R416): images 1-5 stand for the group, image 6 for gs2. -/
def State.copyDoor (s : State) (c : Nat) (again : Event) (v : Word64) : State :=
  let g (i : Nat) : Reg := s.shadow c 1 i
  let op : Option CopyOp := match bits v.toNat 5 0 with
    | 0x08 => some .copy | 0x09 => some .copy2d | 0x0A => some .gather | 0x0B => some .scatter | 0x0C => some .fill
    | _ => none
  match op with
  | none => s.doorErr c 1
  | some op => s.drawn.ring_ c 1 again (issueCopy (s.doorIssuer c) ⟨op, g 1, g 2, g 3, g 4, g 5, g 6⟩)

/-- R263. A write to the copy doorbell. -/
def execCopyDoorbell (s : State) : Answered :=
  .next (match s.input with
    | .copyDoorbell c v => s.copyDoor c (.copyDoorbell c v) v
    | _ => s)

/-! ## Stream registers (R268, R437) -/

/-- R437. `sbind`: an empty buffer; a stream that is bound stays as it is. -/
def execSbind (la : Look) (n : BitVec 2) (s : State) : Answered :=
  settle la.toNat (do
    enter onCores [] []
    let s ← get
    if (s.here.stream (24 + n.toNat)).isSome then retire la
    else do
      if s.outstanding s.cur (24 + n.toNat) then waitHere
      set (s.onHere fun sl => { sl with streams := put sl.streams n.toNat {} })
      retire la) s

/-- R437. `sunbind`: attached copies are abandoned with status 3, the register is left at 0. -/
def execSunbind (la : Look) (n : BitVec 2) (s : State) : Answered :=
  settle la.toNat (do
    enter onCores [] []
    let s ← get
    let k := s.cur
    let mine (q : CopyCmd) : Bool := q.slot = k && q.stream == some n.toNat
    let s := s.onHereCore fun c => { c with cq := c.cq.map fun q => if mine q then { q with ending := some (3, 0, 0) } else q }
    let s := if s.hereCore.cq.any mine then s.emitOnce (copyEvent (coreOf k)) else s
    let s := s.onHere fun sl => { sl with streams := without sl.streams n.toNat }
    set (s.writeReg k (24 + n.toNat) {})
    retire la) s

/-- An element for a stream (R268): the first attached copy delivers its next element while the 256-byte buffer has room. -/
def State.deliverElement (s : State) (k n : Nat) : State :=
  let c := coreOf k
  match (s.slot k).stream (24 + n), (s.core c).cq.find? fun q => q.slot = k && q.stream == some n && q.ending.isNone with
  | some st, some q =>
    let w := 2 ^ q.es
    if q.total ≤ q.pos then
      (s.onCopy c q.seq fun q => { q with ending := some (0, 0, 0) }).emitOnce (copyEvent c)
    else if q.asked.isSome || 256 < (st.buffer.length + 1) * w then s
    else
      match s.unitRead c q .read (engineParts (capAddr q.src.data + q.pos) w) with
      | (.ok cells, s) =>
        if cells.any (·.poison) then
          (s.onCopy c q.seq fun q => { q with ending := some (2, Cause.poison.code, capAddr q.src.data + q.pos) }).emitOnce
            (copyEvent c)
        else
          let e : Word128 × Bool := (BitVec.ofNat 128 (ofBytes (cells.map (·.byte))), cells.any (·.bnd))
          let s := s.onSlot k fun sl => { sl with
            streams := change {} sl.streams n fun st => { st with buffer := st.buffer ++ [e] } }
          (s.onCopy c q.seq fun q => { q with pos := q.pos + w, fetched := q.keeps (q.pos + w), reported := false }).emitOnce
            (.streamElement k n)
      | (.error h, s) =>
        let s := s.haltCopy c q h
        match h with
        | .park _ | .page _ => s.emitOnce (.streamElement k n)
        | .ask .. => s
        | _ => s.emitOnce (copyEvent c)
  | _, _ => s

/-- R268. A copy delivers an element into a stream buffer. -/
def execStreamElement (s : State) : Answered :=
  .next (match s.input with
    | .streamElement k n => s.deliverElement k n
    | _ => s)

end Sys2Proof.Machine
end

