-- ==== Sys2Proof/Machine/Crossbar.lean ====
section
/-! DEFINITION. The resistive crossbar arrays: `xprog`, `xcal`, `xmvm`, `xwait`, products with their error bound, calibration,
drift (spec/11_crossbar_arrays.md R206-R222, spec/20_isa_engines.md R438-R442). -/

namespace Sys2Proof.Machine

open Sys2Proof

/-! ## Calibration (R213) -/

/-- A number of bytes of an array's calibration. -/
def XArray.calNum (x : XArray) (off n : Nat) : Nat := ofBytes ((List.range n).map fun i => look 0 x.cal (off + i))
def XArray.setCal (x : XArray) (off n v : Nat) : XArray :=
  { x with cal := (List.range n).foldl (fun m i => put m (off + i) (BitVec.ofNat 8 (v / 256 ^ i))) x.cal }
def XArray.valid (x : XArray) : Bool := bit (x.calNum 1 1) 0
def XArray.drift (x : XArray) : Bool := bit (x.calNum 1 1) 1
def XArray.setFlags (x : XArray) (valid drift : Bool) : XArray :=
  x.setCal 1 1 ((if valid then 1 else 0) + (if drift then 2 else 0))

/-- The temperature stamp in 1/16 of a degree. -/
def XArray.stamp (x : XArray) : Int := signed 16 (x.calNum 2 2)

/-- The calibration image (R213 Table 2). -/
def XArray.image (x : XArray) : List Byte :=
  [0x10, BitVec.ofNat 8 (x.calNum 1 1)] ++ bytesOf 2 (x.calNum 2 2) ++ bytesOf 4 0 ++ bytesOf 8 (x.calNum 8 8) ++
    bytesOf 8 (Config.serial % 2 ^ 64) ++ List.replicate 40 0 ++
    ((List.range 64).map fun i => BitVec.ofNat 8
      ((List.range 8).foldl (fun v b => v + (if x.failed.contains (8 * i + b) then 2 ^ b else 0)) 0)) ++
    (List.range 2080).map fun i => look 0 x.cal (128 + i)

/-- A loaded image is valid (R213). -/
def XArray.accepts (_ : XArray) (bs : List Byte) : Bool :=
  field bs 0 1 = 0x10 && field bs 16 8 = Config.serial % 2 ^ 64 && field bs 4 4 = 0 && field bs 24 40 = 0

/-- A loaded image replaces the calibration where it is valid; otherwise it clears valid (R213, R439). -/
def XArray.loadImage (x : XArray) (bs : List Byte) : XArray :=
  if !x.accepts bs then x.setFlags false x.drift
  else
    let x := ((x.setCal 1 1 (field bs 1 1 % 4)).setCal 2 2 (field bs 2 2)).setCal 8 8 (field bs 8 8)
    { x with
      cal := (List.range 2080).foldl (fun m i => put m (128 + i) (bs.getD (128 + i) 0)) x.cal
      failed := (List.range 512).filter fun r => (bs.getD (64 + r / 8) 0).getLsbD (r % 8) }

/-- The words of an array's calibration that a soft error has struck among those of a range of bytes. -/
def Store.isCalibration (at_ : Store) (cluster array off n : Nat) : Bool :=
  match at_ with
  | .calibration c a w => c = cluster && a = array && 8 * w < off + n && off < 8 * w + 8
  | _ => false

/-- A range of an array's calibration written anew: what had struck it is gone. -/
def State.calWritten (s : State) (cluster array off n : Nat) : State :=
  { s with flips := s.flips.filter fun f => !f.at_.isCalibration cluster array off n }

/-- A soft error in a word of the calibration state is corrected; one that cannot be makes the calibration not valid, so that the
next product raises the recalibration trap (R24, R216). -/
def State.mendArray (s : State) (cluster array : Nat) : State :=
  let struck := s.flips.filter fun f => f.at_.isCalibration cluster array 0 2208
  struck.foldl (fun s f =>
    if f.bits ≤ 1 then (s.countError 7 (4 * cluster + array)).corrected (regionOf (clusterCore cluster 0)) 7 (4 * cluster + array)
    else s.onArray cluster array fun x => x.setFlags false x.drift) (s.calWritten cluster array 0 2208)

/-- The gain and the offset of pair `p`; the reference pairs follow the 512 (R213). -/
def XArray.gain (x : XArray) (p : Nat) : Nat := x.calNum (128 + 4 * p) 2
def XArray.offset (x : XArray) (p : Nat) : Int := signed 16 (x.calNum (130 + 4 * p) 2)

/-- `xstat` (R221 Table 5): the sensor reading is a free value. -/
def State.xstat (s : State) (cluster array : Nat) : Nat :=
  let x := s.array cluster array
  (if x.valid then 1 else 0) + (if x.drift then 2 else 0) + (if x.run then 4 else 0) + x.failed.length % 1024 * 8 +
    (Config.temperature s.fresh).toNat * 2 ^ 16 +
    min (2 ^ 20 - 1) (x.writes.foldl (fun m e => max m e.2) 0) * 2 ^ 32

/-! ## Products (R208-R215) -/

/-- The levels of a weight byte: high nibble and low nibble (R207). -/
def levelHigh (b : Byte) : Int := signed 4 (b.toNat / 16)
def levelLow (b : Byte) : Int := signed 4 (b.toNat % 16)
def weightOf (b : Byte) : Int := 16 * levelHigh b + levelLow b

/-- A weight byte that no level of 15 can hold (R207). -/
def badWeight (b : Byte) : Bool := b.toNat % 16 = 8 || b.toNat / 16 = 8

/-- Element `i` of an input vector read from `k` planes (R208, R292). -/
def State.inputValue (s : State) (c src k i : Nat) : Int :=
  signed k ((List.range k).foldl (fun v j =>
    2 * v + (if (s.byte (windowPA c (src + 64 * j + i / 8))).getLsbD (i % 8) then 1 else 0)) 0)

/-- The bound of R212. -/
def productBound (n k : Nat) : Nat := ceilDiv (n * (2 ^ k - 1) * 127) 1024 + 2

/-- Division by 2^16 rounded half to even. -/
def roundHalfEven16 (v : Int) : Int :=
  let q := v / 65536
  let r := v % 65536
  if 32768 < r || (r = 32768 && q % 2 = 1) then q + 1 else q

/-- The estimate of a pair for a plane (R209): the ADC code, one of 4,096, is a free value. -/
def XArray.estimate (x : XArray) (fresh p j : Nat) : Int :=
  let code := (Config.adcCode fresh p j + 2048) % 4096 - 2048
  roundHalfEven16 ((code - x.offset p) * x.gain p * 7)

/-- The planes of a pair, or of a column, combined (R209). -/
def planesSum (k : Nat) (f : Nat → Int) : Int :=
  (List.range k).foldl (fun a j => if j = 0 then a - f j * 2 ^ (k - 1) else a + f j * 2 ^ (k - 1 - j)) 0

/-- The level of reference pair `r` (R215). -/
def referenceLevel (r : Nat) : Int := ([7, -7, 4, -4, 2, -2, 1, -1] : List Int).getD r 0

/-- The reference pair with the largest deviation, and that deviation (R215). -/
def XArray.deviation (x : XArray) (fresh k : Nat) (inputs : Int) : Nat × Nat :=
  (List.range 8).foldl (fun m r =>
    let ref := planesSum k fun j => x.estimate fresh (512 + r) j
    let dev := (ref - referenceLevel r * inputs).natAbs
    if m.2 < dev then (r, dev) else m) (0, 0)

/-- The raw sum of a column (R209) kept within the bound that every delivered product satisfies (R212). -/
def XArray.column (x : XArray) (fresh row0 k c : Nat) (xs : List Int) : Int :=
  let exact := (List.range xs.length).foldl (fun a i =>
    a + xs.getD i 0 * weightOf (look 0 x.weights (256 * (row0 + i) + c))) (0 : Int)
  let raw := planesSum k fun j => 16 * x.estimate fresh (2 * c) j + x.estimate fresh (2 * c + 1) j
  let b : Int := productBound xs.length k
  max (exact - b) (min (exact + b) raw)

/-- How a product goes (R212, R215, R218). -/
inductive ProductEnd where
  | refused (why row : Nat)
  | drifted (ref dev : Nat)
  | sums (out : List Int)
  deriving DecidableEq, Repr

/-- A product evaluated. -/
def State.product (s : State) (c array row0 n k src : Nat) : ProductEnd :=
  let x := s.array (clusterOf c) array
  let temp := signed 16 (Config.temperature s.fresh).toNat
  let rows := x.failed.filter fun r => row0 ≤ r && r < row0 + n
  if !x.valid then .refused 1 0
  else if 80 < (temp - x.stamp).natAbs || temp < 320 || 1520 < temp then .refused 2 0
  else if rows != [] then .refused 3 (rows.foldl min 511)
  else if x.inject then .drifted 0 (productBound n k / 2 + 1)
  else
    let xs := (List.range n).map fun i => s.inputValue c src k i
    let (ref, dev) := x.deviation s.fresh k (xs.foldl (· + ·) 0)
    if productBound n k / 2 < dev then .drifted ref dev
    else .sums ((List.range 256).map fun col => x.column s.fresh row0 k col xs)

/-! ## Serving an array (R222) -/

/-- The event that performs the next step of a command. -/
def XuCmd.event (x : XuCmd) (cluster : Nat) : Event :=
  match x.op with
  | .prog .. => .xprogRow cluster x.array
  | .product .. => .xuProduct cluster x.array
  | _ => .xcalStep cluster x.array

/-- The command of a core that its array may serve: the first for the array, once its ranges are free (R415). -/
def State.xuHead (s : State) (c array : Nat) : Option XuCmd :=
  ((s.core c).xq.find? (·.array = array)).filter fun x => s.mayTouch c x.seq x.reads x.writes

/-- The core that an array serves next, round robin, with its command. -/
def State.xuNext (s : State) (cluster array : Nat) : Option (Nat × XuCmd) :=
  let turn := (s.array cluster array).turn
  ((List.range 16).map fun d => (turn + 1 + d) % 16).findSome? fun i =>
    (s.xuHead (clusterCore cluster i) array).map fun x => (clusterCore cluster i, x)

/-- The next step of an array asked for. -/
def State.askArray (s : State) (cluster array : Nat) : State :=
  match s.xuNext cluster array with
  | some (_, x) => s.emitOnce (x.event cluster)
  | none =>
    match (List.range 16).findSome? fun i => (s.core (clusterCore cluster i)).xq.find? (·.array = array) with
    | some x => s.emitOnce (x.event cluster)
    | none => s

/-- A command leaves its queue. -/
def State.xuEnd (s : State) (c : Nat) (x : XuCmd) : State :=
  (s.onCore c fun k => { k with xq := k.xq.filter fun y => y.seq != x.seq }).engineIdle c

/-- A command's progress. -/
def State.xuStepped (s : State) (c : Nat) (x : XuCmd) (f : XuCmd → XuCmd) : State :=
  s.onCore c fun k => { k with xq := k.xq.map fun y => if y.seq = x.seq then f y else y }

/-- A step of an array by its event: an array in which no step is in progress begins one for the next core, if that core's command
is of the event's kind; a step in progress ends with its effect. -/
def State.serveArray (s : State) (cluster array : Nat) (e : Event) (f : State → Nat → XuCmd → State) : State :=
  let a := s.array cluster array
  if a.run then
    let c := clusterCore cluster a.turn
    let s := s.onArray cluster array fun a => { a with run := false }
    match (s.core c).xq.find? fun x => x.array = array && x.event cluster = e with
    | some x => (f s c x).askArray cluster array
    | none => s.askArray cluster array
  else match s.xuNext cluster array with
    | none => s.askArray cluster array
    | some (c, x) =>
      if x.event cluster = e then
        (s.onArray cluster array fun a => { a with turn := coreInCluster c, run := true }).emitOnce e
      else s.askArray cluster array

/-! ## `xprog` (R217, R219, R438) -/

/-- A level that a pair may hold: the reserved code is none. -/
def levelByte (b : Byte) : Byte :=
  let fix (v : Nat) : Nat := if v = 8 then 0 else v
  BitVec.ofNat 8 (16 * fix (b.toNat / 16) + fix (b.toNat % 16))

/-- One row pulsed and verified (R217): whether every pair verifies, and the levels that a failed row has reached, are free
values. A row at its rated writes is refused and marked failed (R219). -/
def XArray.programRow (x : XArray) (fresh row : Nat) (bs : List Byte) : XArray × Bool :=
  let n := look 0 x.writes row
  if 1000000 ≤ n then ({ x with failed := if x.failed.contains row then x.failed else row :: x.failed }, false)
  else
    let ok := Config.verifies fresh
    let level (c : Nat) : Byte := if ok then bs.getD c 0 else levelByte (Config.reached fresh c)
    ({ x with
       weights := (List.range 256).foldl (fun m c => put m (256 * row + c) (level c)) x.weights
       writes := put x.writes row (n + 1)
       failed := if ok then x.failed.filter (· != row)
                 else if x.failed.contains row then x.failed else row :: x.failed }, ok)

def State.programStep (s : State) (c : Nat) (x : XuCmd) : State :=
  match x.op with
  | .prog gd row0 n off =>
    let at_ := off + 256 * x.step
    let s := s.mendReads c [(at_, 256)]
    let bs := s.bytes (windowPA c at_) 256
    let fault (cause : Cause) (addr : Nat) : State :=
      (s.xuEnd c x).lateFault x.slot (s.core c).grid { cause := cause, addr := addr, from_ := some (BitVec.ofNat 64 x.pc) }
    if (s.poisonedRead c [(at_, 256)]).isSome then fault .poison (localVA at_)
    else if bs.any badWeight then fault .xuFormat at_
    else
      let (a, ok) := (s.array (clusterOf c) x.array).programRow s.fresh (row0 + x.step) bs
      let s := s.drawn.onArray (clusterOf c) x.array fun _ => a
      let fails := if ok then x.fails else x.fails + 1
      if x.step + 1 < n then s.xuStepped c x fun y => { y with step := y.step + 1, fails := fails }
      else (if gd = 0 then s else s.writeReg x.slot gd (exactData fails)).xuEnd c x
  | _ => s

/-- R217. One row step of `xprog`. -/
def execXprogRow (s : State) : Answered :=
  .next (match s.input with
    | .xprogRow cluster array => s.serveArray cluster array (.xprogRow cluster array) State.programStep
    | _ => s)

/-! ## `xcal` (R214, R439) -/

/-- One group of pairs calibrated: gains and offsets are free values. -/
def XArray.calibrate (x : XArray) (fresh p n : Nat) : XArray :=
  (List.range n).foldl (fun x i =>
    (x.setCal (128 + 4 * (p + i)) 2 (Config.gain fresh (p + i)).toNat).setCal (130 + 4 * (p + i)) 2
      (Config.offset fresh (p + i)).toNat) x

def State.calibrateStep (s : State) (c : Nat) (x : XuCmd) : State :=
  let cl := clusterOf c
  match x.op with
  | .cal =>
    if x.step < 16 then
      ((s.drawn.calWritten cl x.array (128 + 128 * x.step) 128).onArray cl x.array fun a =>
        a.calibrate s.fresh (32 * x.step) 32).xuStepped c x fun y => { y with step := y.step + 1 }
    else
      (((s.drawn.calWritten cl x.array 2176 32).calWritten cl x.array 0 16).onArray cl x.array fun a =>
        (((a.calibrate s.fresh 512 8).setCal 2 2 (Config.temperature s.fresh).toNat).setCal 8 8 s.time).setFlags
          true false).xuEnd c x
  | .save off =>
    let s := s.mendArray cl x.array
    (s.storeData (windowPA c off) (s.array cl x.array).image).xuEnd c x
  | .load off =>
    let s := s.mendReads c [(off, 2208)]
    if (s.poisonedRead c [(off, 2208)]).isSome then
      (s.xuEnd c x).lateFault x.slot (s.core c).grid
        { cause := .poison, addr := localVA off, from_ := some (BitVec.ofNat 64 x.pc) }
    else
      let image := s.bytes (windowPA c off) 2208
      let s := if (s.array cl x.array).accepts image then s.calWritten cl x.array 0 2208 else s
      (s.onArray cl x.array fun a => a.loadImage image).xuEnd c x
  | _ => s

/-- R214. One step of `xcal`. -/
def execXcalStep (s : State) : Answered :=
  .next (match s.input with
    | .xcalStep cluster array => s.serveArray cluster array (.xcalStep cluster array) State.calibrateStep
    | _ => s)

/-! ## `xmvm` (R441) -/

/-- The lookahead field of the product that a slot awaits. -/
def Slot.productLook (sl : Slot) : Option Nat :=
  match sl.await with
  | some (.product _ la) => some la
  | _ => none

/-- An awaited product has been evaluated: its instruction completes, or traps. -/
def State.productDone (s : State) (k : Nat) (t : Option TrapInfo) : State :=
  match (s.slot k).productLook with
  | none => s
  | some la =>
    let s' : State := { s.onSlot k (fun sl => { sl with await := none }) with cur := k }
    let done : State := match t with
      | none => s'.retire la
      | some t => s'.takeTrap t la
    { done with cur := s.cur }

/-- The value of `taddr` on the recalibration trap (R216 Table 3). -/
def recalibrateAddr (array why ref row dev : Nat) : Nat :=
  array % 4 + why % 4 * 4 + ref % 8 * 16 + row % 512 * 128 + dev % 2 ^ 32 * 65536

/-- A product evaluated for its core (R210, R211, R215). -/
def State.productStep (s : State) (c : Nat) (x : XuCmd) : State :=
  let cl := clusterOf c
  match x.op with
  | .product row0 n k src dst =>
    let s := (s.mendReads c [(src, 64 * k)]).mendArray cl x.array
    if (s.poisonedRead c [(src, 64 * k)]).isSome then
      (s.xuEnd c x).productDone x.slot (some { cause := .poison, addr := localVA src })
    else
      let trap (why ref row dev : Nat) : TrapInfo :=
        { cause := .recalibrate, addr := recalibrateAddr x.array why ref row dev }
      let e := s.product c x.array row0 n k src
      let s := s.drawn.xuEnd c x
      match e with
      | .refused why row => s.productDone x.slot (some (trap why 0 row 0))
      | .drifted ref dev =>
        ((s.onArray cl x.array fun a => { a.setFlags a.valid true with inject := false }).count c 5 1).productDone x.slot
          (some (trap 0 ref 0 dev))
      | .sums out =>
        let s := (List.range 32).foldl (fun s g =>
          s.writeMem (windowPA c (dst + 32 * g)) ((out.drop (8 * g)).take 8 |>.flatMap fun v => bytesOf 4 (low 32 v))
            .bounded) s
        (s.count c 10 1).productDone x.slot none
  | _ => s

/-- R210. A product is evaluated. -/
def execXuProduct (s : State) : Answered :=
  .next (match s.input with
    | .xuProduct cluster array => s.serveArray cluster array (.xuProduct cluster array) State.productStep
    | _ => s)

/-! ## Issue (R438-R442) -/

/-- The fields of a crossbar control word (R438 Table 10). -/
structure XuWord where
  arr : Nat
  row0 : Nat
  n : Nat
  k : Nat
  op : Nat
  nm1 : Nat

def xuWord (w : Nat) : Option XuWord :=
  let row0 := bits w 10 2
  let n := bits w 19 11 + 1
  if w / 2 ^ 26 != 0 || 512 < row0 + n then none
  else some ⟨bits w 1 0, row0, n, bits w 23 20, bits w 25 24, bits w 19 11⟩

/-- The owner check of an array (R220, R442). -/
def State.ownsArray (s : State) (k array : Nat) : Bool :=
  let x := (s.array (clusterOf (coreOf k)) array).xctl.toNat
  bit x 16 && bits x 15 0 = s.ctxOf k

def needOwner (array : Nat) : Act Unit := do
  let s ← get
  if !s.ownsArray s.cur array then trap .xuOwner array

/-- The offset of a crossbar row operand: bits [31:21] are 0. -/
def xuOffset (v : Reg) : Act Nat := do
  if bits v.data.toNat 31 21 != 0 then illegal
  pure (bits v.data.toNat 17 0)

/-- A command enters the crossbar queue of its array: two for each (R442). -/
def enterArray (array : Nat) (op : XuOp) : Act Unit := do
  let s ← get
  let c := coreOf s.cur
  if 2 ≤ (s.hereCore.xq.filter (·.array = array)).length then waitHere
  let seq ← nextSeq
  let x : XuCmd :=
    { array := array, op := op, slot := s.cur, grid := (s.gridOf s.cur).getD 0xFFFF, seq := seq, pc := s.here.pc.toNat,
      prio := s.here.prio, qos := s.here.qos }
  modify fun s => (s.onCore c fun k => { k with xq := k.xq ++ [x], crossbar := true }).askArray (clusterOf c) array

/-- R438. `xprog`: the number of failed rows goes to gd when the command ends. -/
def execXprog (la : Look) (gd gs1 gs2 : RegNo) (s : State) : Answered :=
  settle la.toNat (do
    enter inGrids [gs1, gs2] [gd]
    let w ← exactSource gs1
    let r ← exactSource gs2
    match xuWord w.data.toNat with
    | none => illegal
    | some x => do
      if x.k != 0 || x.op != 0 then illegal
      let off ← xuOffset r
      if off % 128 != 0 then illegal
      needScratch off (256 * x.n)
      needOwner x.arr
      enterArray x.arr (.prog gd.toNat x.row0 x.n off)
      retire la) s

/-- R439. `xcal`: calibrate, save or load. -/
def execXcal (la : Look) (gs1 gs2 : RegNo) (s : State) : Answered :=
  settle la.toNat (do
    enter inGrids [gs1, gs2] []
    let w ← exactSource gs1
    let r ← exactSource gs2
    match xuWord w.data.toNat with
    | none => illegal
    | some x => do
      if x.k != 0 || x.op = 3 || x.row0 != 0 || x.nm1 != 0 || (x.op = 0 && gs2 != 0) then illegal
      let off ← xuOffset r
      if x.op != 0 then needGranules off 2208
      needOwner x.arr
      enterArray x.arr (match x.op with
        | 0 => .cal
        | 1 => .save off
        | _ => .load off)
      retire la) s

/-- R440, R441. `xmvm`: the slot awaits the evaluation of its product. -/
def execXmvm (la : Look) (gd gs1 gs2 : RegNo) (s : State) : Answered :=
  settle la.toNat (do
    enter inGrids [gd, gs1, gs2] []
    let d ← exactSource gd
    let w ← exactSource gs1
    let r ← exactSource gs2
    match xuWord w.data.toNat with
    | none => illegal
    | some x => do
      if x.op != 0 || x.k = 0 || 8 < x.k then illegal
      let src ← xuOffset r
      let dst ← xuOffset d
      needGranules src (64 * x.k)
      needGranules dst 1024
      needOwner x.arr
      enterArray x.arr (.product x.row0 x.n x.k src dst)
      modify fun s => s.onHere fun sl => { sl with await := some (.product x.arr la.toNat) }) s

/-- R442. `xwait`: the commands that issued before it was first tried are awaited; gd receives the `xstat` of the lowest
array of the mask. -/
def execXwait (la : Look) (gd : RegNo) (sel : BitVec 4) (s : State) : Answered :=
  settle la.toNat (do
    enter inGrids [] [gd]
    let s ← get
    let arrays := (List.range 4).filter fun a => sel = 0 || bit sel.toNat a
    match arrays.find? fun a => !s.ownsArray s.cur a with
    | some a => trap .xuOwner a
    | none => do
      let before := s.here.since.getD s.fresh
      if s.hereCore.xq.any fun x => arrays.contains x.array && x.seq < before then
        if s.here.since.isSome then waitHere
        else waitAfter fun o => o.onHere fun sl => { sl with since := some o.fresh }
      set (s.drawn.onHere fun sl => { sl with since := none })
      result gd (exactData (s.xstat (clusterOf (coreOf s.cur)) (arrays.headD 0)))
      retire la) s

end Sys2Proof.Machine
end

