-- ==== Sys2Proof/Machine/System.lean ====
section
/-! DEFINITION. System instructions and control registers: `crrd`, `crwr`, `crset`, `crclr`, `ecall`, `ebreak`, `tret`,
pre-emption requests, slot contexts, translation drains, event counters, fault injection, writes to unit registers, an
illegal word, the overlay trap (spec/21_isa_system.md R445-R467). -/

namespace Sys2Proof.Machine

open Sys2Proof

/-! ## Control registers (R448-R452) -/

/-- The control registers that hold 128 bits and a tag (R449). -/
def wideCR (cr : Nat) : Bool := cr = 6 || cr = 8 || cr = 18 || cr = 19

/-- `prio` (R451 Table 4). -/
def Slot.prioView (sl : Slot) : Nat :=
  sl.bprio + sl.prio * 8 +
    (List.range 8).foldl (fun v i => if sl.boosts.getD i 0 != 0 then v + 2 ^ (8 + i) else v) 0

/-- `pcoord` (R451 Table 6). -/
def pcoordOf (k : Nat) : Nat := coreX (coreOf k) + coreY (coreOf k) * 2 ^ 7 + k % 4 * 2 ^ 14

/-- `annexctl` as it reads: act is 1 while the annex thread runs (R236 Table 9). -/
def State.annexctl (s : State) (n : Nat) : Nat :=
  setBits (s.core n).annexctl.toNat 16 16 (match (s.slot (slotKey n 3)).st with
    | .free | .lent => 0
    | _ => 1)

/-- `xstat` of an array reads 0 for a strand whose context does not own the array (R450, R220). -/
def State.xstatOf (s : State) (k a : Nat) : Nat :=
  if s.ownsArray k a then s.xstat (clusterOf (coreOf k)) a else 0

/-- A control register read (R450 Table 3). -/
def State.readCR (s : State) (k cr : Nat) : Reg :=
  let sl := s.slot k
  let n := coreOf k
  let c := s.core n
  match cr with
  | 0 => exactData sl.sstat.toNat
  | 1 => exactData sl.tcause.toNat
  | 2 => exactData sl.taddr.toNat
  | 3 => exactData sl.tpc.toNat
  | 4 => exactData sl.trcause.toNat
  | 5 => exactData sl.tla.toNat
  | 6 => sl.tscratch
  | 7 => exactData sl.rdeadline.toNat
  | 8 => sl.stbar
  | 9 => exactData sl.vcfg.toNat
  | 10 => exactData sl.prioView
  | 11 => exactData sl.qos
  | 12 => exactData c.xbound.toNat
  | 13 => exactData c.lsplit.toNat
  | 14 => exactData c.vpool.toNat
  | 15 => exactData c.stkctl.toNat
  | 16 => exactData c.hmask.toNat
  | 17 => exactData (s.annexctl n)
  | 18 => c.ovlh
  | 19 => c.thnd
  | 20 => exactData c.evctl.toNat
  | 21 => exactData (s.mqctl n)
  | 22 => exactData (pcoordOf k)
  | 23 => exactData s.time
  | cr => exactData (s.xstatOf k (cr - 24))

/-- Bytes and metadata from an address upwards become 0 (R148, R468). -/
def State.wipe (s : State) (pa n : Nat) : State :=
  { s with
    mem := s.mem.filter fun c => c.1 < pa || pa + n ≤ c.1
    granules := s.granules.filter fun g => 32 * g.1 + 32 ≤ pa || pa + n ≤ 32 * g.1
    flips := s.flips.filter fun f => match f.at_ with
      | .memory q => q < pa || pa + n ≤ q
      | _ => true }

/-- `lsplit` written (R148): ignored where it would reach the code region or a pinned footprint; the bytes that change
sides become 0, and no line stays in the portion. -/
def State.writeLsplit (s : State) (n v : Nat) : State :=
  let old := s.spadEnd n
  let new := 0x30000 - 0x4000 * v
  let takes : Bool := new < old && (s.pinned n 65536).any fun p => pinMeets p (new, old - new)
  if 8 < v || new < s.codeEnd n || takes then s
  else
    let kept (ls : List Nat) : List Nat := if new = old then ls else []
    (s.onCore n fun c => { c with lsplit := BitVec.ofNat 32 v, lines := kept c.lines, pooled := kept c.pooled }).wipe
    (windowPA n (min old new)) (max old new - min old new)

/-- A per-core control register written as `crwr` writes it (R450, R452). -/
def State.writeCoreCR (s : State) (n cr : Nat) (v : Reg) : State :=
  let w : BitVec 32 := v.data.setWidth 32
  match cr with
  | 12 =>
    let x := w &&& 0x3FC00
    if s.spadEnd n < x.toNat then s else s.onCore n fun c => { c with xbound := x }
  | 13 => s.writeLsplit n (bits w.toNat 3 0)
  | 14 => s.onCore n fun c => { c with vpool := w &&& 0x1FFFF, pooled := [] }
  | 15 => s.onCore n fun c => { c with stkctl := w &&& 0xFFFF }
  | 16 => (s.onCore n fun c => { c with hmask := w &&& 0xFFFE }).emit (.taskSelect n)
  | 17 => s.onCore n fun c => { c with annexctl := w &&& 0xFF3F }
  | 18 => s.onCore n fun c => { c with ovlh := v }
  | 19 => s.onCore n fun c => { c with thnd := v }
  | 20 => s.onCore n fun c => { c with evctl := w &&& 0xFFFF }
  | _ => s

/-- The tag that `stbar` keeps (R368). -/
def stbarValue (v : Reg) : Reg :=
  ⟨v.data, if v.tag == .cap && hasPerm v.data permOBJ && capAddr v.data % 32 = 0 && inBounds v.data (capAddr v.data) 32
    then .cap else .exact⟩

/-- A control register written by its slot (R450 Table 3): every register that is not named here ignores the write. -/
def State.writeCR (s : State) (k cr : Nat) (v : Reg) : State :=
  let w : BitVec 32 := v.data.setWidth 32
  match cr with
  | 0 => s.onSlot k fun sl => { sl with
      sstat := BitVec.ofNat 32 (setBits sl.sstat.toNat 8 6 (bits w.toNat 8 6)) }
  | 3 => s.onSlot k fun sl => { sl with tpc := lo64 v.data }
  | 5 => s.onSlot k fun sl => { sl with tla := w &&& 0xFFFFF }
  | 6 => s.onSlot k fun sl => { sl with tscratch := v }
  | 7 => s.onSlot k fun sl => { sl with rdeadline := w &&& 0xFFFFFF }
  | 8 => (s.flushBarrier k).onSlot k fun sl => { sl with stbar := stbarValue v, unsent := 0 }
  | 9 => match vcfgOf w.toNat with
    | some x => s.onSlot k fun sl => { sl with vcfg := x }
    | none => s
  | cr => if 12 ≤ cr && cr ≤ 20 then s.writeCoreCR (coreOf k) cr v else s

/-- The instructions of R449: `new` gives the new value from the old one and the source, and nothing where nothing is
written. -/
def crOp (gd : RegNo) (src : Option RegNo) (cr : Nat) (bitwise : Bool) (new : Reg → Reg → Reg) : Act Unit := do
  atLevels onCores
  if 27 < cr || (bitwise && wideCR cr) then illegal
  enter onCores src.toList [gd]
  let s ← get
  let old := s.readCR s.cur cr
  match src with
  | none => set s.drawn
  | some r => do
    let v ← exactSource r
    let x := new old v
    if cr = 9 && (vcfgOf (x.data.toNat % 2 ^ 32)).isNone then illegal
    modify fun s => s.drawn.writeCR s.cur cr x
  result gd old
  retire 0

/-- R449. `crrd`. -/
def execCrrd (_la : Look) (gd : RegNo) (sel : BitVec 5) (s : State) : Answered :=
  settle 0 (crOp gd none sel.toNat false fun old _ => old) s

/-- R449. `crwr`: a wide register keeps the source's tag. -/
def execCrwr (_la : Look) (gd gs1 : RegNo) (sel : BitVec 5) (s : State) : Answered :=
  settle 0 (crOp gd (some gs1) sel.toNat false fun _ v => v) s

/-- R449. `crset`. -/
def execCrset (_la : Look) (gd gs1 : RegNo) (sel : BitVec 5) (s : State) : Answered :=
  settle 0 (crOp gd (some gs1) sel.toNat true fun old v => ⟨old.data ||| (lo64 v.data).setWidth 128, .exact⟩) s

/-- R449. `crclr`. -/
def execCrclr (_la : Look) (gd gs1 : RegNo) (sel : BitVec 5) (s : State) : Answered :=
  settle 0 (crOp gd (some gs1) sel.toNat true fun old v => ⟨old.data &&& ~~~v.data, .exact⟩) s

/-! ## Traps and return (R453-R455, R330, R250) -/

/-- R453. `ecall`: `tpc` names the following instruction. -/
def execEcall (s : State) : Answered :=
  settle 0 (do
    enter [.g, .s] [] []
    raise { cause := .ecall, after := true }) s

/-- R454. `ebreak`. -/
def execEbreak (s : State) : Answered :=
  settle 0 (do
    enter onCores [] []
    trap .ebreak) s

/-- R455. `tret`: the Resume of R275, while the in-slot handler runs. -/
def execTret (_la : Look) (s : State) : Answered :=
  settle 0 (do
    enter onCores [] []
    let s ← get
    if !s.here.inh then illegal
    modify fun s => s.retired.resume s.cur) s

/-- R330. A word that decodes as no instruction. -/
def execIllegalInstruction (s : State) : Answered :=
  match s.input with
  | .illegalInstruction w => settle 0 (trap .illegalInstruction w.toNat) s
  | _ => .next s

/-- R250. A fetch at or above `xbound`. -/
def execOverlayTrap (s : State) : Answered :=
  match s.input with
  | .overlayTrap => settle 0 (trap .overlay s.here.pc.toNat) s
  | _ => .next s

/-! ## Pre-emption requests (R456-R460) -/

/-- A grid word (R456 Table 7): its grid and cause. -/
def gridWord (r : RegNo) (causeAllowed : Bool) : Act (Nat × Nat) := do
  let v ← exactSource r
  let w := v.data.toNat
  if w / 2 ^ 32 != 0 || (!causeAllowed && bits w 31 16 != 0) then illegal
  pure (bits w 15 0, bits w 31 16)

/-- The numbers by which a grid remembers its pre-emption: in progress, saved, ended meanwhile, not saved (R458). -/
def preemptNone : Nat := 0
def preemptSaved : Nat := 1
def preemptEnded : Nat := 2
def preemptFailed : Nat := 3
def preemptBusy : Nat := 4

/-- A request to pre-empt a grid (R456, R457, R460): the status, and the grid on its way to Stopping. -/
def State.preempt (s : State) (g : Nat) : Nat × State :=
  match s.grid g with
  | none => (1, s)
  | some x =>
    match x.st with
    | .running =>
      (0, (s.onGrid g fun x => { x with st := .stopping, outcome := preemptBusy }).emit (.preemptBoundary g))
    | .placing | .dealing => (3, s)
    | .stopping | .saving =>
      if x.outcome = preemptBusy then (2, s) else (0, s.onGrid g fun x => { x with outcome := preemptBusy })
    | _ => (1, s)

/-- The first Parked slot of a grid whose trap has a cause (R462). -/
def State.parkedWith (s : State) (g cause : Nat) : Option Nat :=
  (s.slots.find? fun e => !isBankSlot e.1 && e.2.st == .parked && (s.core (coreOf e.1)).grid == some g &&
    bits e.2.tcause.toNat 15 0 = cause).map (·.1)

/-- How the error status record describes an end by request (R456, R462). -/
def State.requestedEnd (s : State) (g cause : Nat) : EndCause :=
  if cause = 0 then { status := 2, cause := Cause.cancelled.code }
  else match s.parkedWith g cause with
    | none => { status := 1, cause := cause }
    | some k =>
      let sl := s.slot k
      let e := s.slotFault k .none sl.taddr.toNat sl.tpc.toNat
      { e with cause := cause }

/-- A request to end a grid (R456, R457): the first end of a grid stands. -/
def State.endByRequest (s : State) (g cause : Nat) : Nat × State :=
  match s.grid g with
  | none => (1, s)
  | some x =>
    match x.st with
    | .placing | .dealing => (3, s)
    | .ending | .done => (0, s)
    | _ => (0, s.endGrid g (s.requestedEnd g cause))

/-- R456. `gpreempt` mode 0. -/
def execGpreempt (la : Look) (gd gs1 : RegNo) (s : State) : Answered :=
  settle la.toNat (do
    enter [.s] [gs1] [gd]
    let (g, _) ← gridWord gs1 true
    let s ← get
    let (st, s) := s.preempt g
    set s
    result gd (exactData st)
    retire la) s

/-- R456. `gpreempt` mode 1. -/
def execGpreemptEnd (la : Look) (gd gs1 : RegNo) (s : State) : Answered :=
  settle la.toNat (do
    enter [.s] [gs1] [gd]
    let (g, cause) ← gridWord gs1 true
    let s ← get
    let (st, s) := s.endByRequest g cause
    set s
    result gd (exactData st)
    retire la) s

/-- R459. `gresume`: a Saved grid goes to Placing. -/
def execGresume (la : Look) (gd gs1 : RegNo) (s : State) : Answered :=
  settle la.toNat (do
    enter [.s] [gs1] [gd]
    let (g, _) ← gridWord gs1 false
    let s ← get
    match s.grid g with
    | none => result gd (exactData 1)
    | some x =>
      if x.st != .saved then result gd (exactData 4)
      else do
        set ((s.onGrid g fun x => { x with st := .placing, resuming := true, order := s.fresh, outcome := preemptNone }).emit (.placeGrid g))
        result gd (exactData 0)
    retire la) s

/-- R458. `preack`: the slot is not ready until the grid has left Stopping and Saving. -/
def execPreack (la : Look) (gd gs1 : RegNo) (s : State) : Answered :=
  settle la.toNat (do
    enter [.s] [gs1] [gd]
    let (g, _) ← gridWord gs1 false
    let s ← get
    match s.grid g with
    | none => result gd (exactData (look 0 s.outcomes g))
    | some x =>
      if x.st == .stopping || x.st == .saving then waitHere
      result gd (exactData x.outcome)
    retire la) s

/-! ## Slot contexts (R461, R281 Table 12) -/

/-- The code of a slot's state (Table 12). -/
def SlotState.code : SlotState → Nat
  | .free => 0 | .starting => 1 | .running => 2 | .held => 3 | .parked => 4 | .lent => 5

/-- A slot block of 128 bytes. -/
def Slot.block (sl : Slot) : List Byte :=
  let pins := match sl.task with
    | some t => t.pins
    | none => []
  bytesOf 1 sl.st.code ++ bytesOf 1 sl.tscratch.tag.code ++ bytesOf 2 0 ++ bytesOf 4 sl.sstat.toNat ++
    bytesOf 8 sl.pc.toNat ++ bytesOf 8 sl.tcause.toNat ++ bytesOf 8 sl.taddr.toNat ++ bytesOf 8 sl.tpc.toNat ++
    bytesOf 8 sl.trcause.toNat ++ bytesOf 4 sl.tla.toNat ++ bytesOf 4 sl.rdeadline.toNat ++
    ((List.range 8).flatMap fun i => bytesOf 2 (sl.boosts.getD i 0)) ++ bytesOf 16 sl.tscratch.data.toNat ++
    ((List.range 4).flatMap fun i => bytesOf 4 (pins.getD i (0, 0)).1 ++ bytesOf 4 (pins.getD i (0, 0)).2) ++
    bytesOf 8 0

/-- The trap and control registers of a slot taken from a block (R461): nothing else of it is loaded. -/
def Slot.fromBlock (sl : Slot) (b : List Byte) (lc : Bool) : Slot :=
  { sl with
    sstat := BitVec.ofNat 32 (setBits sl.sstat.toNat 8 6 (bits (field b 4 4) 8 6))
    tcause := BitVec.ofNat 64 (field b 16 8) &&& 0x3FFFFFF
    taddr := BitVec.ofNat 64 (field b 24 8)
    tpc := BitVec.ofNat 64 (field b 32 8)
    trcause := BitVec.ofNat 64 (field b 40 8) &&& 0x00001FFF000FFFFF
    tla := BitVec.ofNat 32 (field b 48 4) &&& 0xFFFFF
    rdeadline := BitVec.ofNat 32 (field b 52 4) &&& 0xFFFFFF
    tscratch := ⟨BitVec.ofNat 128 (field b 72 16), match field b 1 1 % 4 with
      | 1 => .bounded
      | 2 => if lc then .cap else .exact
      | 3 => if lc then .sealed else .exact
      | _ => .exact⟩ }

/-- A slot word (R461 Table 11): the slot, `res`, the grid. -/
def slotWordOperand (r : RegNo) : Act (Nat × Bool × Nat) := do
  let v ← exactSource r
  let w := v.data.toNat
  if bits w 31 17 != 0 || w / 2 ^ 48 != 0 then illegal
  pure (slotKey (coreAt (bits w 6 0) (bits w 13 7)) (bits w 15 14), bit w 16, bits w 47 32)

/-- The status of a request that names a slot for a grid (R461, R514): 0xFFFF names a stopped slot of a service core, and
only the start core may name it. -/
def State.slotStatus (s : State) (k g : Nat) : Nat :=
  if g = 0xFFFF then
    if coreOf s.cur != serviceCore 0 then 2
    else if (s.slot k).st != .parked then 1
    else if isService (coreOf k) && (s.slot k).stopped then 0 else 2
  else if (s.slot k).st != .parked then 1
  else if isService (coreOf k) || (s.core (coreOf k)).grid != some g then 2 else 0

/-- The parts of a slot context: 36 whole sectors (R461). -/
def contextParts (va : Nat) : List (Nat × Nat) := sectors 36 va 1152

/-- One part of a slot context written: a register image keeps the register's tag (R143), the block is data. -/
def State.savePart (s : State) (w : Writer) (sl : Slot) (i : Nat) (sp : Spot) : State :=
  let bs := if i < 32 then imageBytes (sl.reg i) else ((sl.block).drop (32 * (i - 32))).take 32
  let kind : StoreKind := if i < 32 then .cap (sl.reg i).tag else .plain
  (s.writeSpot w sp bs kind).afterWrite s.here.qos (some (coreOf s.cur)) sp 32

/-- The register that an image holds: a capability comes with its tag where the area carries LC (R461, R371). -/
def imageReg (g : Got) (lc : Bool) : Reg :=
  let d : Word128 := BitVec.ofNat 128 (ofBytes (g.bytes.take 16))
  ⟨d, if g.bnd || (g.bytes.getD 16 0).toNat % 4 = 1 then .bounded
      else if g.tag && lc then (if d.getLsbD 121 then .sealed else .cap) else .exact⟩

/-- R461. `ctxsave`. -/
def execCtxsave (la : Look) (gd gs1 gs2 : RegNo) (s : State) : Answered :=
  settle la.toNat (do
    enter [.s] [gs1, gs2] [gd]
    let (k, _, g) ← slotWordOperand gs1
    let a ← exactSource gs2
    let va := capAddr a.data
    checkBase a va 1152 32 [permW, permSC]
    let parts ← findParts .write (acqOf a) (contextParts va)
    let s ← get
    if parts.any fun p => s.typedAt p.1 p.2 then trap .type va
    let st := s.slotStatus k g
    if st = 0 then
      set ((List.range parts.length).foldl (fun s' i =>
        s'.savePart (s.agentOf s.cur).writer (s.slot k) i (parts.getD i (.zero, 0)).1) s)
    result gd (exactData st)
    retire la) s

/-- R461. `ctxload`: with `res` the slot resumes; with g0 as its area nothing is loaded. -/
def execCtxload (la : Look) (gd gs1 gs2 : RegNo) (s : State) : Answered :=
  settle la.toNat (do
    enter [.s] [gs1, gs2] [gd]
    let (k, res, g) ← slotWordOperand gs1
    let a ← exactSource gs2
    let va := capAddr a.data
    let only : Bool := res && gs2 = 0
    if !only then checkBase a va 1152 32 [permR]
    let parts ← if only then pure [] else findParts .read (acqOf a) (contextParts va)
    let s ← get
    let st := s.slotStatus k g
    if st = 0 then do
      let s := parts.foldl (fun s p => s.beforeRead s.here.qos p.1 p.2) s
      set s
      let gots := parts.map fun p => s.readSpot p.1 p.2
      if gots.any (·.poison) then trap .poison va
      let lc := hasPerm a.data permLC
      let s := if only then s else
        let s := (List.range 31).foldl (fun s i => s.writeReg k (i + 1) (imageReg (gots.getD (i + 1) {}) lc)) s
        s.onSlot k fun sl => sl.fromBlock ((gots.drop 32).flatMap (·.bytes)) lc
      set (if res then s.resume k else s)
    result gd (exactData st)
    retire la) s

/-! ## Translation drains (R463, R464, R163-R165) -/

/-- R463. `tdrain`. -/
def execTdrain (la : Look) (gd gs1 gs2 : RegNo) (s : State) : Answered :=
  settle la.toNat (do
    enter [.s] [gs1, gs2] [gd]
    let b ← exactSource gs1
    let w ← exactSource gs2
    let base := capAddr b.data
    let v := w.data.toNat
    if v / 2 ^ 30 != 0 then illegal
    let ctx := bits v 15 0
    let len := (bits v 29 16 + 1) * 65536
    let s ← get
    let meets_ (d : DrainRange) : Bool := d.ctx = ctx && meets d.base d.len base len
    if base % 65536 != 0 || 2 ^ 56 < base + len then result gd (exactData 2)
    else match freeId (s.drains.map (·.id)) 4 0 with
      | none => result gd (exactData 1)
      | some id =>
        if s.drains.any meets_ then result gd (exactData 1)
        else do
          set ({ s with drains := s.drains ++ [{ id := id, ctx := ctx, base := base, len := len }] } : State)
          result gd (exactData (id * 16))
    retire la) s

/-- A physical address lies in a frame that the entries of a drain's range map. -/
def State.drains_ (s : State) (d : DrainRange) (pa : Nat) : Bool :=
  (List.range (d.len / 65536)).any fun i => s.physOf d.ctx (d.base + 65536 * i) = some (pa / 65536 * 65536)

/-- A write under the old mapping of a drain's range is still to be performed (R165): that of a row operation, of a release or a
re-acquire for which a condition acts, or of a census record. -/
def State.writesLeft (s : State) (d : DrainRange) : Bool :=
  (s.banks.any fun e => match e.2.rowop with
    | some r => r.d.any (s.drains_ d)
    | none => false) ||
  (s.coming.any fun e => match e with
    | .lacq r | .lrel r => r.pa < untranslated && s.drains_ d r.pa
    | _ => false) ||
  s.censuses.any fun c => s.drains_ d c.pa

/-- The entries of the translation caches that a drain has marked are discarded (R165). -/
def State.discardMarked (s : State) (d : DrainRange) : State :=
  { s with tlb := s.tlb.filter fun t => !(t.ctx = d.ctx && meets d.base d.len t.page t.size) }

/-- R464. `tconfirm`: it waits for the writes under the old mapping; without the keep flag the range is unregistered and the parked
accesses replay. -/
def execTconfirm (la : Look) (gd gs1 : RegNo) (s : State) : Answered :=
  settle la.toNat (do
    enter [.s] [gs1] [gd]
    let v ← exactSource gs1
    let w := v.data.toNat
    if w / 8 != 0 then illegal
    let s ← get
    match s.drains.find? fun d => d.id = bits w 1 0 with
    | none => result gd (exactData 3)
    | some d => do
      if s.writesLeft d then waitHere
      let s := s.discardMarked d
      set (if bit w 2 then s else { s with
        drains := s.drains.filter fun x => x.id != d.id
        parked := s.parked.filter fun p => !(p.ctx = d.ctx && meets d.base d.len p.va 1) })
      result gd (exactData 0)
    retire la) s

/-! ## Event counters (R465) -/

/-- R465. `evrd`. -/
def execEvrd (_la : Look) (gd : RegNo) (sel : BitVec 5) (s : State) : Answered :=
  settle 0 (do
    atLevels onCores
    if 15 < sel.toNat then illegal
    enter onCores [] [gd]
    let s ← get
    result gd (exactData (look 0 s.hereCore.ev sel.toNat))
    retire 0) s

/-- R465. `evclr`. -/
def execEvclr (_la : Look) (gs1 : RegNo) (s : State) : Answered :=
  settle 0 (do
    enter onCores [gs1] []
    let v ← exactSource gs1
    modify fun s => s.onHereCore fun c => { c with ev := c.ev.filter fun e => !bit (v.data.toNat % 65536) e.1 }
    retire 0) s

/-! ## Fault injection (R466) and soft errors (R24) -/

/-- Where a bit of the granule of an address is stored (R466, R24), with its place in the protected word there: the home slice's copy
of a sector of HBM if there is one, a word of a core's SRAM or accumulators, of a register image; none outside HBM and the windows. -/
def State.strikePlace (s : State) (pa b : Nat) : Option (Store × Nat) :=
  let o := (pa - windowBase) % 0x100000
  let core := (pa - windowBase) / 0x100000
  if pa < hbmEnd then
    let held := (look ({} : Line) s.lines (lineOf pa)).valid.getLsbD (pa / 32 % 4)
    some (if held then .slice (pa / 32 * 32) else .memory (pa / 32 * 32), b)
  else if windowBase ≤ pa && pa < windowEnd then
    if o < 0x30000 || (0x40000 ≤ o && o < 0x48000) then some (.memory (pa / 32 * 32 + b / 64 * 8), b % 64)
    else if 0x30000 ≤ o && o < 0x31000 then some (.register (slotKey core ((o - 0x30000) / 1024)) (o % 1024 / 32) (b / 32), b % 32)
    else none
  else none

/-- Bits of a storage structure are flipped: flips of one place before its next read add up, and a bit that is flipped
twice is right again. -/
def State.strike (s : State) (at_ : Store) (places : List Nat) : State :=
  let old := s.flips.find? fun f => f.at_ = at_
  let now := match old with
    | some f => (f.places.filter fun p => !places.contains p) ++ places.filter fun p => !f.places.contains p
    | none => places
  let rest := s.flips.filter fun f => f.at_ != at_
  let more := match old with
    | some f => f.bits - f.places.length
    | none => 0
  if now.length + more = 0 then { s with flips := rest }
  else { s with flips := ⟨at_, now.length + more, now⟩ :: rest }

/-- A soft error strikes a number of bits. -/
def State.strikeMore (s : State) (at_ : Store) (n : Nat) : State :=
  if n = 0 then s
  else
    let old := (s.flips.find? fun f => f.at_ = at_).getD ⟨at_, 0, []⟩
    { s with flips := { old with bits := old.bits + n } :: s.flips.filter fun f => f.at_ != at_ }

/-- An injection of kinds 0 to 2: its status, and the fault injected. Kind 1 strikes the word of bit b beyond correction, wherever
bit c lies (R466). -/
def State.injectFault (s : State) (kind pa b c : Nat) : Nat × State :=
  match s.strikePlace pa b with
  | none => (2, s)
  | some (at_, p) =>
    let wide := match at_ with
      | .register _ _ _ => 128
      | _ => 256
    let uses := if kind = 0 then [b] else if kind = 1 then [b, c] else []
    if uses.any (fun x => wide ≤ x) || (kind = 1 && b = c) then (2, s)
    else
      let s := match at_ with
        | .memory q => if q < hbmEnd then s.invalidate pa none else s
        | _ => s
      match kind, at_ with
      | 2, .memory _ | 2, .slice _ => (0, s.poison (pa / 32 * 32))
      | 0, _ => (0, s.strike at_ [p])
      | _, _ => (0, s.strikeMore at_ 2)

/-- R466. `finject`. -/
def execFinject (la : Look) (gd gs1 : RegNo) (sel : BitVec 2) (s : State) : Answered :=
  settle la.toNat (do
    atLevels (if sel = 3 then onCores else [.s])
    enter onCores [gs1] [gd]
    let v ← exactSource gs1
    let w := v.data.toNat
    if sel = 3 then do
      if w / 4 != 0 then illegal
      needOwner (w % 4)
      let s ← get
      let cl := clusterOf (coreOf s.cur)
      if (s.array cl (w % 4)).inject then result gd (exactData 1)
      else do
        set (s.onArray cl (w % 4) fun x => { x with inject := true })
        result gd (exactData 0)
    else do
      if w / 2 ^ 63 != 0 then illegal
      let s ← get
      let (st, s) := s.injectFault sel.toNat (bits w 46 0) (bits w 54 47) (bits w 62 55)
      set s
      result gd (exactData st)
    retire la) s

/-! ## Writes to unit registers (R8, R20, R49, R51, R87, R96, R140, R152, R158, R220, R255) -/

def execNrctlWrite (s : State) : Answered :=
  match s.input with
  | .nrctlWrite src region v => .next (s.writeNrctl src region v)
  | _ => .next s
def execFpctlEn (s : State) : Answered :=
  match s.input with
  | .fpctlEn src port en => .next (s.writeFpctlEn src port en)
  | _ => .next s
def execFpctlDown (s : State) : Answered :=
  match s.input with
  | .fpctlDown src port => .next (s.writeFpctlDown src port)
  | _ => .next s
def execFshareWrite (s : State) : Answered :=
  match s.input with
  | .fshareWrite src port v => .next (s.writeFshare src port v)
  | _ => .next s
def execHshareWrite (s : State) : Answered :=
  match s.input with
  | .hshareWrite src stack v => .next (s.writeHshare src stack v)
  | _ => .next s
def execSshareWrite (s : State) : Answered :=
  match s.input with
  | .sshareWrite src die v => .next (s.writeSshare src die v)
  | _ => .next s
def execHlinWrite (s : State) : Answered :=
  match s.input with
  | .hlinWrite src stack v => .next (s.writeHlin src stack v)
  | _ => .next s
def execCtxbaseWrite (s : State) : Answered :=
  match s.input with
  | .ctxbaseWrite src v => .next (s.writeCtxbase src v)
  | _ => .next s
def execEltabWrite (s : State) : Answered :=
  match s.input with
  | .eltabWrite src v => .next (s.writeEltab src v)
  | _ => .next s
def execRtabWrite (s : State) : Answered :=
  match s.input with
  | .rtabWrite src v => .next (s.writeRtab src v)
  | _ => .next s
def execXctlWrite (s : State) : Answered :=
  match s.input with
  | .xctlWrite src cluster array v => .next (s.writeXctl src cluster array v)
  | _ => .next s
def execMqctlWrite (s : State) : Answered :=
  match s.input with
  | .mqctlWrite src core v => .next (s.writeMqctl src core v)
  | _ => .next s

/-- R8, R141. A write to any register of the unit-register region, at its offset and of its width. -/
def State.writeRegister (s : State) (src : Writer) (off width : Nat) (v : Word128) : State :=
  match unitRegister off with
  | (.code b x, _, _) => s.writeBankCode src b x (bytesOf (min width 16) v.toNat)
  | (.catalogue b i, start, w) => if start = off && w = width then s.writeBankEntry src b i ⟨v, .exact⟩ else s
  | (u, start, w) => if start = off && w = width then s.writeUnit src u v.toNat else s

def execRegisterWrite (s : State) : Answered :=
  match s.input with
  | .registerWrite src off width v => .next (s.writeRegister src off width v)
  | _ => .next s

end Sys2Proof.Machine
end

