-- ==== Sys2Proof/Machine/Package.lean ====
section
/-! DEFINITION. The package: governors of the network regions, the power limiter, thermal limits, scrubs, soft errors, a
failed crossing, loss of power, the enforcement window (spec/01_package.md R17-R28, spec/05_scheduling.md R87, R88,
spec/06_network_and_slices.md R94). -/

namespace Sys2Proof.Machine

open Sys2Proof

/-! ## Levels of a network region (R19, R20) -/

/-- The fields of `nrctl`: values 9-15 of a level act as 8. -/
def Region.cur (g : Region) : Nat := bits g.nrctl.toNat 19 16
def Region.ceiling (g : Region) : Nat := min (min 8 (bits g.nrctl.toNat 7 4)) g.limit
def Region.floor_ (g : Region) : Nat := min (min 8 (bits g.nrctl.toNat 3 0)) g.ceiling
def Region.pinned (g : Region) : Bool := g.nrctl.getLsbD 20
def Region.withCur (g : Region) (level : Nat) : Region :=
  { g with nrctl := BitVec.ofNat 32 (setBits g.nrctl.toNat 19 16 level) }

/-- A region begins a step of one level towards another level, unless a step is under way: during it the region runs at the
lower of the two levels. -/
def State.steer (s : State) (r want : Nat) : State :=
  let g := s.region r
  if g.target.isSome || want = g.cur then s
  else
    let to_ := if g.cur < want then g.cur + 1 else g.cur - 1
    (s.onRegion r fun g => { (g.withCur (min g.cur to_)) with target := some to_ }).emit (.levelStepDone r)

/-- The end of a governor's window: one window above the high threshold raises the level, four in succession below the low
one lower it; a pinned region goes to its ceiling. -/
def State.governor (s : State) (r occupied capacity : Nat) : State :=
  let g := s.region r
  let hi := bits g.nrctl.toNat 11 8
  let lo := bits g.nrctl.toNat 15 12
  let above := hi * capacity < 8 * occupied
  let below := lo < hi && 8 * occupied < lo * capacity
  let low := if below then g.low + 1 else 0
  let level := g.cur
  let want := if above then level + 1 else if 4 ≤ low then level - 1 else level
  let want := if g.pinned then g.ceiling else max g.floor_ (min g.ceiling want)
  (s.onRegion r fun g => { g with low := if 4 ≤ low then 0 else low }).steer r want

def execGovernorWindow (s : State) : Answered :=
  match s.input with
  | .governorWindow region occupied capacity => .next (s.governor region occupied capacity)
  | _ => .next s

/-- R19. The region runs at its new level. -/
def execLevelStepDone (s : State) : Answered :=
  match s.input with
  | .levelStepDone r => .next (match (s.region r).target with
    | some to_ => s.onRegion r fun g => { (g.withCur to_) with target := none }
    | none => s)
  | _ => .next s

/-! ## The power limiter (R21, R22) and the thermal limits (R23) -/

/-- The records of stages entered or left, from the service core of quadrant 0 of C-die 0: each holds the stage, whether it was
entered, and the cause (0 module power, 1 its average, 2 its burst, 3 temperature). -/
def State.limiterRecords (s : State) (stages : List Nat) (entered : Bool) (cause : Nat) : State :=
  stages.foldl (fun s st => s.openRecord (sourceOfService 0) none 0x30 [st, if entered then 1 else 0, cause]) s

/-- Every region's effective ceiling follows the limiter, and a region above it steps down. -/
def State.limitRegions (s : State) (f : Region → Nat) : State :=
  (List.range 16).foldl (fun s r =>
    let s := s.onRegion r fun g => { g with limit := f g }
    s.steer r (min (s.region r).cur (s.region r).ceiling)) s

/-- One level off every region's effective ceiling (R22 stage 2), or every ceiling as `nrctl` has it. -/
def State.lowerCeilings (s : State) : State := s.limitRegions fun g => g.ceiling - 1
def State.freeCeilings (s : State) : State := s.limitRegions fun _ => 8

/-- Every region runs at most at level 0. -/
def State.atFloor (s : State) : Bool := (List.range 16).all fun r => (s.region r).ceiling = 0

/-- A sample of the limiter: the module power, the average over 1 s, and the microseconds for which power has stood above
2,300 W. A stage is entered when the limits would be exceeded, the third once every ceiling has reached level 0; the highest
stage is left when they would not. -/
def State.limiterStep (s : State) (watts average burst : Nat) : State :=
  let above := 2600 < watts || 2300 < average || (2300 < watts && 10000 < burst)
  let st := s.limiter.stage
  let set_ (s : State) (n : Nat) : State := { s with limiter := { s.limiter with stage := n } }
  let s :=
    if above then
      if st = 0 || st = 1 then set_ s (st + 1)
      else if st = 2 && s.atFloor then set_ s 3 else s
    else if st = 0 then s else set_ s (st - 1)
  let new := s.limiter.stage
  let cause := if 2600 < watts then 0 else if 2300 < average then 1 else 2
  let s := if s.limiter.thermal || new = st then s else s.limiterRecords [max new st] (st < new) cause
  if (2 ≤ new && above) || s.limiter.thermal then s.lowerCeilings
  else if new < 2 then s.freeCeilings else s

def execLimiterSample (s : State) : Answered :=
  match s.input with
  | .limiterSample watts average burst => .next (s.limiterStep watts average burst)
  | _ => .next s

/-- R23. The hottest sensor at 95 °C or more: the stages that the power limiter has not entered are entered. -/
def execThermalLimit (s : State) : Answered :=
  match s.input with
  | .thermalLimit _ temp =>
    .next (if temp < 95 || s.limiter.thermal then s
      else (({ s with limiter := { s.limiter with thermal := true } } : State).limiterRecords
        ((List.range' (s.limiter.stage + 1) (3 - s.limiter.stage))) true 3).lowerCeilings)
  | _ => .next s

/-- R23. The hottest sensor below 92 °C: the stages applied for temperature are left. -/
def execThermalLimitExit (s : State) : Answered :=
  match s.input with
  | .thermalLimitExit _ temp =>
    .next (if 92 ≤ temp || !s.limiter.thermal then s
      else
        let s := ({ s with limiter := { s.limiter with thermal := false } } : State).limiterRecords
          (List.range' (s.limiter.stage + 1) (3 - s.limiter.stage)).reverse false 3
        if s.limiter.stage < 2 then s.freeCeilings else s)
  | _ => .next s

/-- A running grid is pre-empted by the thermal limit. -/
def State.thermalStop (s : State) (g : Nat) : State :=
  match s.grid g with
  | some x => if x.st == .running then (s.preempt g).2.onGrid g fun x => { x with thermal := true } else s
  | none => s

/-- The critical record of the thermal limit, on entry and on exit (R23): the sensor's cluster and its temperature. DESIGN CHOICE
(notes/assumptions/31.md): R23 names no service core that produces it; the model takes that of region 0. -/
def State.thermalRecord (s : State) (cluster : Nat) (temp : Int) : State :=
  s.openRecord (sourceOfService 0) (some 3) 0x31 [cluster, (temp % 65536).toNat]

/-- R23. The hottest sensor at 105 °C or more: every running grid is pre-empted, and no grid is placed or resumed. -/
def execThermalPreempt (s : State) : Answered :=
  match s.input with
  | .thermalPreempt cluster temp =>
    .next (if temp < 105 || s.limiter.preempted then s
      else
        let s := ({ s with limiter := { s.limiter with preempted := true } } : State).thermalRecord cluster temp
        (s.grids.map (·.1)).foldl State.thermalStop s)
  | _ => .next s

/-- A grid that the thermal limit saved goes to Placing again (R23). -/
def State.thermalResume (s : State) (g : Nat) : State :=
  (s.onGrid g fun x => { x with
    st := .placing, resuming := true, order := s.fresh, thermal := false, outcome := preemptNone }).emit
    (.placeGrid g)

/-- R23. Every sensor reads below 95 °C: waiting launches and the grids that the limit saved proceed. Which sensor the record of the
exit names, and its reading, are free values. -/
def execThermalClear (s : State) : Answered :=
  match s.input with
  | .thermalClear =>
    .next (if !s.limiter.preempted then s
      else
        let s := ({ s.drawn with limiter := { s.limiter with preempted := false } } : State).thermalRecord
          (Config.choice s.fresh % 1024) (Config.choice s.fresh / 1024 % 95)
        s.grids.foldl (fun s e =>
          if e.2.st == .placing then s.emit (.placeGrid e.1)
          else if e.2.st == .saved && e.2.thermal then s.thermalResume e.1 else s) s)
  | _ => .next s

/-! ## Scrubs and soft errors (R24, R25) -/

/-- The soft errors whose place satisfies a test are found by a scrub. -/
def State.scrub (s : State) (p : Store → Bool) : State :=
  s.flips.foldl (fun t f => if p f.at_ then t.mendWord f.at_ f.bits else t) s

/-- R25. A slice scrubs a set: the lines that it homes whose address bits [16:7] name the set. -/
def execSliceScrub (s : State) : Answered :=
  match s.input with
  | .sliceScrub cluster set_ =>
    .next (s.scrub fun at_ => match at_ with
      | .slice q => s.homeCluster q = cluster && setOf q = set_
      | _ => false)
  | _ => .next s

/-- R25. A bank unit scrubs a row of its channel. -/
def execHbmRowScrub (s : State) : Answered :=
  match s.input with
  | .hbmRowScrub bank row =>
    .next (s.scrub fun at_ => match at_ with
      | .memory q => q < hbmEnd && s.bankOfPA q = bank && (s.channel q).2 / 1024 = row
      | _ => false)
  | _ => .next s

/-- The device stops (R24, R94): nothing issues until the next start. -/
def State.stopDevice (s : State) : State := { s with phase := .stopped }

/-- R24. A soft error: an instruction buffer is fetched again, a flit that cannot be corrected is sent again (R93), an error in the state of a service core is corrected or stops
the device, any other waits for the next read or scrub. -/
def execSoftError (s : State) : Answered :=
  match s.input with
  | .softError at_ bits =>
    .next (match at_ with
      | .instructionBuffer _ => s
      | .serviceCore region =>
        if bits = 0 then s else if bits = 1 then (s.countError 11 region).corrected region 11 region else s.stopDevice
      | .flit r => if bits = 1 then (s.countError 9 r).corrected (regionOf (clusterCore r 0)) 9 r else s
      | .memory pa => s.strikeMore (.memory (wordOf pa)) bits
      | .slice pa => s.strikeMore (.slice (pa / 32 * 32)) bits
      | at_ => s.strikeMore at_ bits)
  | _ => .next s

/-! ## A failed crossing (R94) -/

/-- The crossings that the XY route from one cluster to another passes: 0 and 1 between x = 15 and x = 16, in the row of the source,
below and above y = 16; 2 and 3 between y = 15 and y = 16, in the column of the destination (R13). -/
def crossingsOf (a b : Nat) : List Nat :=
  (if decide (clusterX a < 16) != decide (clusterX b < 16) then [if clusterY a < 16 then 0 else 1] else []) ++
    (if decide (clusterY a < 16) != decide (clusterY b < 16) then [if clusterX b < 16 then 2 else 3] else [])

/-- A message from one cluster to another cannot cross. -/
def State.cutOff (s : State) (a b : Nat) : Bool :=
  match s.crossingDown with
  | none => false
  | some c => (crossingsOf a b).contains c

/-- A crossing that has failed stops the device: every live grid ends with CROSSING_DOWN, and the start core produces a critical event
record, whose kind and payload the specification does not give. -/
def State.crossingLost (s : State) (crossing : Nat) : State :=
  let s : State := { s with crossingDown := some crossing }
  let s := (s.grids.map (·.1)).foldl (fun s g => s.endGrid g { status := 1, cause := Cause.crossingDown.code }) s
  (s.drawn.openRecord (sourceOfService 0) (some 3) (Config.choice s.fresh % 65536) [crossing]).stopDevice

/-- R94. A crossing loses a lane, or a retraining of it fails: the third failure within 1 s, and a lost lane, stop the device. -/
def execCrossingFail (s : State) : Answered :=
  match s.input with
  | .crossingFail crossing laneLost =>
    let fails := s.time :: (look [] s.crossingFails crossing).filter fun t => s.time < t + 1200000000
    let s : State := { s with crossingFails := put s.crossingFails crossing fails }
    .next (if laneLost || 3 ≤ fails.length then s.crossingLost (crossing % 4) else s)
  | _ => .next s

/-! ## Windows of the bandwidth shares (R88) -/

/-- R88. Every regulator begins a new window, at a multiple of 4,096 cycles: the charges of earlier windows are gone. -/
def execEnforcementWindow (s : State) : Answered :=
  match s.input with
  | .enforcementWindow => .next { s with charges := s.charges.filter fun c => c.window = s.time / 4096 }
  | _ => .next s

end Sys2Proof.Machine
end

