-- ==== Sys2Proof/Machine/Shake.lean ====
section
/-! DEFINITION. SHAKE256 with an output of 64 bytes, the digest of the firmware image, the root key and the attestation report
(spec/03_start.md R60, R62). PRESUMED (notes/assumptions/15.md): the specification names SHAKE256; the function itself is that of
FIPS 202. -/

namespace Sys2Proof.Machine

open Sys2Proof

/-- A lane of 64 bits rotated left. -/
def lane (v n : Nat) : Nat := v * 2 ^ n % 2 ^ 64 + v / 2 ^ (64 - n)

/-- The lane of the state in column `x` and row `y`. -/
def laneAt (a : List Nat) (x y : Nat) : Nat := a.getD (x % 5 + 5 * (y % 5)) 0

/-- The state of 25 lanes from its lanes by column and row. -/
def lanes (f : Nat → Nat → Nat) : List Nat := (List.range 25).map fun i => f (i % 5) (i / 5)

/-- The rotations of the lanes, by column plus five times the row. -/
def laneTurns : List Nat :=
  [0, 1, 62, 28, 27, 36, 44, 6, 55, 20, 3, 10, 43, 25, 39, 41, 45, 15, 21, 8, 18, 2, 61, 56, 14]

/-- The constants of the 24 rounds. -/
def roundConstants : List Nat :=
  [0x0000000000000001, 0x0000000000008082, 0x800000000000808A, 0x8000000080008000, 0x000000000000808B, 0x0000000080000001,
   0x8000000080008081, 0x8000000000008009, 0x000000000000008A, 0x0000000000000088, 0x0000000080008009, 0x000000008000000A] ++
  [0x000000008000808B, 0x800000000000008B, 0x8000000000008089, 0x8000000000008003, 0x8000000000008002, 0x8000000000000080,
   0x000000000000800A, 0x800000008000000A, 0x8000000080008081, 0x8000000000008080, 0x0000000080000001, 0x8000000080008008]

/-- One round: theta, rho with pi, chi, iota. -/
def keccakRound (a : List Nat) (rc : Nat) : List Nat :=
  let c := (List.range 5).map fun x =>
    laneAt a x 0 ^^^ laneAt a x 1 ^^^ laneAt a x 2 ^^^ laneAt a x 3 ^^^ laneAt a x 4
  let d := (List.range 5).map fun x => c.getD ((x + 4) % 5) 0 ^^^ lane (c.getD ((x + 1) % 5) 0) 1
  let t := lanes fun x y => laneAt a x y ^^^ d.getD x 0
  let b := lanes fun x y => lane (laneAt t (x + 3 * y) x) (laneTurns.getD ((x + 3 * y) % 5 + 5 * x) 0)
  let e := lanes fun x y => laneAt b x y ^^^ ((2 ^ 64 - 1 - laneAt b (x + 1) y) &&& laneAt b (x + 2) y)
  match e with
  | l :: ls => (l ^^^ rc) :: ls
  | [] => []

def keccak (a : List Nat) : List Nat := roundConstants.foldl keccakRound a

/-- A message padded to whole blocks of 136 bytes, with the domain bits of SHAKE. -/
def shakePadded (m : List Byte) : List Byte :=
  let room := 136 - m.length % 136
  if room = 1 then m ++ [0x9F] else m ++ [0x1F] ++ List.replicate (room - 2) 0 ++ [0x80]

/-- A block absorbed into the state. -/
def absorb (a : List Nat) (block : List Byte) : List Nat :=
  keccak (lanes fun x y => laneAt a x y ^^^ ofBytes ((block.drop (8 * (x + 5 * y))).take 8))

/-- The 64 bytes of the SHAKE256 digest of a message. -/
def shake256 (m : List Byte) : List Byte :=
  let p := shakePadded m
  let a := (List.range (p.length / 136)).foldl (fun a i => absorb a ((p.drop (136 * i)).take 136)) (List.replicate 25 0)
  (a.take 8).flatMap fun l => bytesOf 8 l

end Sys2Proof.Machine
end

