-- ==== Sys2Proof/Machine/Start.lean ====
section
/-! DEFINITION. The start of the device: the start record in flash, the sixteen start steps, the watchdog, loss of power, the
capability record, CRC-32C (spec/03_start.md R53-R63). -/

namespace Sys2Proof.Machine

open Sys2Proof

/-! ## CRC-32C (R29, R53) -/

/-- One bit of the reflected form of the polynomial 0x1EDC6F41. -/
def crcBit (c : Nat) : Nat := if c % 2 = 1 then xorN (c / 2) 0x82F63B78 else c / 2

def crcByte (c : Nat) (b : Byte) : Nat :=
  crcBit (crcBit (crcBit (crcBit (crcBit (crcBit (crcBit (crcBit (xorN c b.toNat))))))))

def crc32c (bs : List Byte) : Nat := xorN (bs.foldl crcByte 0xFFFFFFFF) 0xFFFFFFFF

/-! ## The start record (R53) -/

/-- A step entry (Table 2). -/
def startEntry (begun done : Bool) (method fails cause : Nat) : BitVec 32 :=
  BitVec.ofNat 32 ((if begun then 1 else 0) + (if done then 2 else 0) + method % 4 * 4 + fails % 4 * 16 +
    cause % 65536 * 65536)

def entryBegun (e : BitVec 32) : Bool := e.getLsbD 0
def entryDone (e : BitVec 32) : Bool := e.getLsbD 1
def entryMethod (e : BitVec 32) : Nat := bits e.toNat 3 2
def entryFails (e : BitVec 32) : Nat := bits e.toNat 5 4
def entryCause (e : BitVec 32) : Nat := bits e.toNat 31 16

/-- A step that has not begun: every field at its reset value. -/
def notBegun : BitVec 32 := startEntry false false 0 0 0

/-- The copy of the record that is read: the valid one with the higher sequence number; without a valid one every step is
taken as not begun. -/
def State.startRec (s : State) : StartRec :=
  match s.flashA.valid, s.flashB.valid with
  | true, true => if s.flashA.seq < s.flashB.seq then s.flashB else s.flashA
  | true, false => s.flashA
  | false, true => s.flashB
  | false, false => { slot := s.bootSlot }

def StartRec.entry (r : StartRec) (n : Nat) : BitVec 32 := look notBegun r.steps n

/-- The record written goes to copy A: it is the invalid copy, or the one with the older sequence number. -/
def State.writesA (s : State) : Bool :=
  match s.flashA.valid, s.flashB.valid with
  | true, true => s.flashA.seq ≤ s.flashB.seq
  | true, false => false
  | false, _ => true

/-- The record written, with the next sequence number. -/
def State.writeRec (s : State) (f : StartRec → StartRec) : State :=
  let r := s.startRec
  let new := { f r with seq := (r.seq + 1) % 2 ^ 32, valid := true }
  if s.writesA then { s with flashA := new } else { s with flashB := new }

def State.writeEntry (s : State) (n : Nat) (e : BitVec 32) : State := s.writeRec fun r => { r with steps := put r.steps n e }

/-- The 96 bytes of a copy (Table 1). -/
def StartRec.image (r : StartRec) : List Byte :=
  let head := bytesOf 4 r.seq ++ [0x10, BitVec.ofNat 8 r.slot, 0, 0] ++
    ((List.range 16).flatMap fun i => bytesOf 4 (r.entry (i + 1)).toNat) ++ List.replicate 20 0
  head ++ bytesOf 4 (crc32c head)

/-! ## The steps (R54, R55, R57 Table 3) -/

def stepOptional (n : Nat) : Bool := n = 8 || n = 9 || n = 11 || n = 13
def stepHasAlternate (n : Nat) : Bool := [1, 3, 4, 6, 7, 8, 11, 12, 13].contains n

/-- The firmware slot that a method of step 1 verifies. -/
def State.slotTried (s : State) (alt : Bool) : Nat := if alt then 1 - s.bootSlot % 2 else s.bootSlot % 2

/-- The image that a slot of the flash holds (R60). -/
def State.imageIn (s : State) (slot : Nat) : Image := look (Config.flashImage slot) s.images slot

/-- The 16-bit security version of an image. -/
def Image.security (i : Image) : Nat := Config.securityVersion i.header % 65536

/-- The image of a slot is accepted (R60): its digest is that of header and body, the root key matches the digest in the boot
ROM, the signature verifies, and its security version is no lower than the count of blown fuses. -/
def State.imageAccepted (s : State) (slot : Nat) : Bool :=
  let i := s.imageIn slot
  shake256 (i.header ++ i.body) = i.digest && shake256 Config.rootKey = Config.rootDigest &&
    Config.falconVerify Config.rootKey i.digest i.signature && s.fuses ≤ i.security

/-! ## Versions of the links (R31) -/

/-- The link versions that this device supports (R31 Table 1). -/
def portLowest : Nat := 0x10
def portHighest (p : Nat) : Nat := if p = 32 then 0x12 else 0x11

/-- The highest version in both ranges (R31). -/
def commonVersion (lo hi lowest highest : Nat) : Option Nat :=
  if max lo lowest ≤ min hi highest then some (min hi highest) else none

/-- The range that the other side of a port announces. A start environment that names none for the Ubgen port stands for a host
that supports what this device does. -/
def StartEnv.range (env : StartEnv) (p : Nat) : Option (Nat × Nat) :=
  match env.ranges.find? fun e => e.1 = p with
  | some e => some e.2
  | none => if p = 32 then some (portLowest, portHighest 32) else none

/-- The range that this device announces on the Ubgen link: version 1.0 alone by the alternate method of step 12 and in held
start (R56, R57). -/
def ubgenRange (alone : Bool) : Nat × Nat := (portLowest, if alone then 0x10 else portHighest 32)

/-- What a method of a step gives: as the parts report it, and as far as the device itself decides it; the cause code of
such a failure is a free value. -/
def State.stepResult (s : State) (env : StartEnv) (n : Nat) (alt : Bool) : StepResult :=
  let said := (if alt then env.alternate else env.primary).getD (n - 1) .pass
  let fails : Bool := match n with
    | 1 => !s.imageAccepted (s.slotTried alt)
    | 2 => env.quadsOut.contains 0
    | 12 => match env.range 32 with
      | some (lo, hi) => (commonVersion lo hi (ubgenRange alt).1 (ubgenRange alt).2).isNone
      | none => true
    | _ => false
  match said with
  | .pass => if fails then .fail (Config.choice s.fresh % 65536) else .pass
  | r => r

/-- The clusters of a network region. -/
def clustersOfRegion (r : Nat) : List Nat :=
  (List.range 1024).filter fun c => regionOf (clusterCore c 0) = r

def State.leaveOut (s : State) (cs : List Nat) : State :=
  { s with leftOut := s.leftOut ++ cs.filter fun c => c < 1024 && !s.leftOut.contains c }

/-- The stacks of some banks stay off; the bank units of the others are on. -/
def State.setBanks (s : State) (off : List Nat) : State :=
  (List.range 384).foldl (fun s b => s.onBank b fun x => { x with
    bstat := BitVec.ofNat 64 (setBits x.bstat.toNat 24 24 (if off.contains (b / 32) then 0 else 1)) })
    { s with banksOff := (List.range 12).filter off.contains }

/-- The calibration of arrays, by their index 4c + a, is not valid (R58). -/
def State.uncalibrate (s : State) (arrays : List Nat) : State :=
  arrays.foldl (fun s i => s.onArray (i / 4) (i % 4) fun x => x.setFlags false x.drift) s

/-- A port comes up at a version (R31, R51). -/
def State.portUp (s : State) (p version : Nat) : State :=
  let s := s.onPort p fun q => { q with
    fpctl := BitVec.ofNat 32 (version % 256 * 16 + bits q.fpctl.toNat 1 0), rxSeq := 0, acked := 0, txSeq := 0, run := 0,
    replay := [] }
  let s := (s.setPortState p 2).fillGroups p replayGroups
  if p = 32 then { s with ubgen := version } else s

/-- A port trains (R31): it comes up at the highest version in both ranges; without one it stays down and reports the ranges, the
other side's first. -/
def State.trainPort (s : State) (p : Nat) (theirs ours : Nat × Nat) : State :=
  match commonVersion theirs.1 theirs.2 ours.1 ours.2 with
  | some v => s.portUp p v
  | none => s.openRecord (sourceOfPort p) none 0x21 [theirs.1, theirs.2, ours.1, ours.2]

/-- The Ubgen link trains with the host, at version 1.0 alone or at any. -/
def State.trainUbgen (s : State) (env : StartEnv) (alone : Bool) : State :=
  match env.range 32 with
  | some theirs => s.trainPort 32 theirs (ubgenRange alone)
  | none => s

/-- The clusters that are present, and the cores that grids may use (R58, R59). -/
def State.present (s : State) : List Nat := (List.range 1024).filter fun c => !s.leftOut.contains c
def State.gridCores (s : State) : Nat :=
  16 * s.present.length - ((List.range 16).filter fun r => !s.leftOut.contains (clusterOf (serviceCore r))).length

/-- The steps of the present start that a method ran: 1 the alternate one, 2 none. -/
def State.methodBits (s : State) (m : Nat) : Nat :=
  (List.range 14).foldl (fun v n => if entryMethod (s.startRec.entry n) = m then v + 2 ^ n else v) 0

/-- The capability record built (R59 Table 4). -/
def State.buildCap (s : State) : State :=
  let bad := s.present.foldl (fun n c => n + ((List.range 4).filter fun a => !(s.array c a).valid).length) 0
  { s with capRec := { s.capRec with
      built := true
      clusters := s.present.length
      cores := s.gridCores
      banksOff := s.banksOff.foldl (fun v m => v + 2 ^ m) 0
      skipped := s.methodBits 2
      alternates := s.methodBits 1
      ports := s.upPorts.foldl (fun v p => v + 2 ^ p) 0
      uncalibrated := bad
      out := s.leftOut } }

/-- The lowest versions of the interfaces (R63 Table 6), in the order of the table: command records, handler catalogue, event
records, capability record, attestation report. -/
def lowestVersions : List Nat := [0x10, 0x10, 0x10, 0x10, 0x10]

/-- The versions that this device supports (R63 Table 6). -/
def supported : List (Nat × Nat) := [(0x10, 0x11), (0x10, 0x10), (0x10, 0x12), (0x10, 0x11), (0x10, 0x10)]

/-- The interfaces without a common version are reported, each with its number and the two ranges, the host's first (R63). -/
def State.reportClosed (s : State) : State :=
  (List.range 5).foldl (fun s i =>
    let theirs := s.announced.getD i (0, 0)
    let ours := supported.getD i (0, 0)
    if s.negotiated.getD i 0 = 0 then
      s.openRecord (sourceOfService 0) none 0x60 [i, theirs.1, theirs.2, ours.1, ours.2]
    else s) s

/-- The records that wait are sent (R73). -/
def State.sendWaiting (s : State) : State :=
  s.emits (s.sources.flatMap fun e => e.2.buffer.map fun _ => .eventRecordSend e.1)

/-- Step 16 opens each interface at its negotiated version, or at the lowest one (R63); an interface without a common version
stays closed with a record. The records that wait are sent (R73), and the fuses follow the image that has come up (R60). -/
def State.openDevice (s : State) : State :=
  let versions := if s.negotiated = [] then lowestVersions else s.negotiated
  let s := ({ s with negotiated := versions } : State).reportClosed
  ({ s with phase := .up, fuses := max s.fuses (min 64 (s.imageIn s.startRec.slot).security) } : State).sendWaiting

/-- The work of a step by one of its methods. -/
def State.stepEffect (s : State) (env : StartEnv) (n : Nat) (alt : Bool) : State :=
  match n with
  | 1 => s.writeRec fun r => { r with slot := s.slotTried alt }
  | 2 => s.leaveOut ((env.quadsOut.filter (· < 16)).flatMap clustersOfRegion)
  | 3 =>
    let s := { s with time := 0, sources := [] }
    if alt then (List.range 16).foldl (fun s r => s.onRegion r fun g => { g with
      nrctl := BitVec.ofNat 32 (setBits (setBits g.nrctl.toNat 7 0 0) 20 16 16) }) s else s
  | 4 => { s with capRec := { s.capRec with crossing := if alt then 1 else 0 } }
  | 5 => s.leaveOut env.routersOut
  | 6 => s.leaveOut env.clustersOut
  | 7 => { s with capRec := { s.capRec with
      conservative := if alt then (env.conservative.filter (· < 12)).eraseDups.foldl (fun v m => v + 2 ^ m) 0 else 0 } }
  | 9 =>
    let s := s.setBanks env.banksOff
    env.bankCode.foldl (fun s e =>
      match unitRegister (e.1 - unitBase) with
      | (.code b o, _, _) => if unitBase ≤ e.1 then s.store (bankPA b o) [e.2] else s
      | _ => s) s
  | 10 =>
    let s := env.hlin.foldl (fun s e => s.writeHlin (.control 0) e.1 (BitVec.ofNat 32 e.2)) s
    (s.writeCtxbase (.control 0) (BitVec.ofNat 64 env.ctxbase)).writeEltab (.control 0) (BitVec.ofNat 64 env.eltab)
  | 11 => s.uncalibrate (if alt then List.range 4096 else env.uncalibrated.filter (· < 4096))
  | 12 => s.trainUbgen env alt
  | 13 => (List.range 32).foldl (fun s p => match env.range p with
      | some theirs => s.trainPort p theirs (portLowest, portHighest p)
      | none => s) s
  | 14 => s.buildCap
  | 15 => { s with identity := some (Config.deriveKeys Config.fusedSecret) }
  | 16 => s.openDevice
  | _ => s

/-- What a skipped step leaves (R55, R58). -/
def State.stepSkipped (s : State) (n : Nat) : State :=
  match n with
  | 9 => s.setBanks (List.range 12)
  | 11 => s.uncalibrate (List.range 4096)
  | _ => s

/-- A required step has failed (R56): a held start, with the Ubgen link at version 1.0 alone; without steps 1 and 2 the device
does not come up. -/
def State.holdStart (s : State) (env : StartEnv) (n : Nat) : State :=
  if n ≤ 2 then { s with phase := .dead } else { s.trainUbgen env true with phase := .held }

/-- The next step of the start is due. -/
def State.nextStep (s : State) (env : StartEnv) (n : Nat) : State :=
  if 16 ≤ n then s else ({ s with phase := .stepping (n + 1) } : State).emit (.powerOn env (n + 1))

/-- A step ends without a method that passes: an optional step is skipped; a required one stays begun and not done with fails 2,
so that the start is held at every later start too. -/
def State.giveUp (s : State) (env : StartEnv) (n : Nat) (begun : Bool) (cause : Nat) : State :=
  if stepOptional n then
    ((s.writeEntry n (startEntry begun begun 2 2 cause)).stepSkipped n).nextStep env n
  else (s.writeEntry n (startEntry true false (entryMethod (s.startRec.entry n)) 2 cause)).holdStart env n

/-- A method of a step runs: a hang leaves the step begun and not done, for the watchdog. -/
def State.tryMethod (s : State) (env : StartEnv) (n fails cause : Nat) (alt : Bool) : StepResult × State :=
  let m := if alt then 1 else 0
  let r := s.stepResult env n alt
  let s := s.drawn.writeEntry n (startEntry true false m fails cause)
  match r with
  | .pass => (.pass, (s.writeEntry n (startEntry true true m fails cause)).stepEffect env n alt)
  | r => (r, s)

/-- How often in succession starts have found a step begun and not done, as the start core finds it in the entry (R54). -/
def failsIn (e : BitVec 32) : Nat :=
  if entryBegun e && !entryDone e then min 2 (entryFails e + 1) else if entryMethod e = 2 then entryFails e else 0

/-- A step of which no method is left to run. -/
def noMethodLeft (n fails : Nat) : Bool := 2 ≤ fails || (fails = 1 && !stepHasAlternate n)

/-- Start step `n` (R54, R55). -/
def State.runStep (s : State) (env : StartEnv) (n : Nat) : State :=
  let e := s.startRec.entry n
  let fails := failsIn e
  let cause := entryCause e
  if noMethodLeft n fails then s.giveUp env n false cause
  else
    match s.tryMethod env n fails cause (fails = 1) with
    | (.pass, s) => s.nextStep env n
    | (.hang, s) => s
    | (.fail c, s) =>
      if fails = 1 || !stepHasAlternate n then s.giveUp env n true c
      else match s.tryMethod env n fails c true with
        | (.pass, s) => s.nextStep env n
        | (.hang, s) => s
        | (.fail c, s) => s.giveUp env n true c

/-! ## The beginning of a start (R53, R57) -/

/-- What an array keeps: its cells, how often they have been written, its failed rows and its calibration (R57 step 11). -/
def Cluster.kept (k : Cluster) : Cluster :=
  { arrays := k.arrays.map fun e => (e.1, { e.2 with xctl := 0, inject := false, turn := 0, run := false }) }

/-- Everything that is not kept without power takes its reset value: what is kept is the flash, the fuses and the arrays. The
outside world has received what was sent. -/
def State.afresh (s : State) : State :=
  { State.reset with
    fresh := s.fresh, agenda := s.agenda.filter Event.outside, flashA := s.flashA, flashB := s.flashB,
    bootSlot := s.bootSlot, fuses := s.fuses, images := s.images, clusters := s.clusters.map fun e => (e.1, e.2.kept),
    toHost := s.toHost, toFabric := s.toFabric }

/-- The host has written an image to the slot not in use (R60): it takes effect at this start, and the steps that were skipped are
begun again (R54). -/
def State.install (s : State) (image : Image) : State :=
  let slot := 1 - s.startRec.slot % 2
  ({ s with images := put s.images slot image, bootSlot := slot } : State).writeRec fun r =>
    { r with steps := r.steps.map fun e => (e.1, if entryMethod e.2 = 2 then notBegun else e.2) }

/-- A start begins with step 1. -/
def State.beginStart (s : State) (env : StartEnv) : State :=
  let s := match env.newImage with
    | some image => s.install image
    | none => s
  ({ s.afresh with phase := .stepping 1 } : State).emit (.powerOn env 1)

/-- R57. Power-on, and the start steps that follow it. -/
def execPowerOn (s : State) : Answered :=
  match s.input with
  | .powerOn env n =>
    .next (if n = 0 then s.beginStart env
      else if s.phase = .stepping n then s.runStep env n else s)
  | _ => .next s

/-- R57. A reset from the carrier. -/
def execCarrierReset (s : State) : Answered :=
  match s.input with
  | .carrierReset env => .next (s.beginStart env)
  | _ => .next s

/-- A start step is due and has not been begun. -/
def State.stepDue (s : State) (n : Nat) : Bool :=
  s.agenda.any fun x => match x with
    | .powerOn _ m => m = n
    | _ => false

/-- The watchdog of a step that exceeds its limit: the step is left begun and not done, by the method that it runs; a step for
which no method is left does not run, and has no watchdog. -/
def State.overran (s : State) (env : StartEnv) (n : Nat) : State :=
  let e := s.startRec.entry n
  if !s.stepDue n then s.beginStart env
  else if noMethodLeft n (failsIn e) then s
  else (s.writeEntry n (startEntry true false (failsIn e) (failsIn e) (entryCause e))).beginStart env

/-- R55. The watchdog of a start step: the device is reset, and a start begins. -/
def execStartWatchdog (s : State) : Answered :=
  match s.input with
  | .startWatchdog n env => .next (if s.phase = .stepping n then s.overran env n else s)
  | _ => .next s

/-! ## Loss of power (R23, R53) -/

/-- Power is lost; during a write of the start record the copy that was being written is not valid. -/
def State.powerDown (s : State) (writing : Bool) : State :=
  let s := if !writing then s
    else if s.writesA then { s with flashA := { s.flashA with valid := false } }
    else { s with flashB := { s.flashB with valid := false } }
  { s.afresh with powered := false }

def execPowerLoss (s : State) : Answered :=
  match s.input with
  | .powerLoss writing => .next (s.powerDown writing)
  | _ => .next s

/-- R23. At 115 °C power is removed. -/
def execThermalShutdown (s : State) : Answered :=
  match s.input with
  | .thermalShutdown => .next (s.powerDown false)
  | _ => .next s

/-! ## The capability record (R59) -/

/-- The 256 bytes of format 1.1, or the 128 bytes of format 1.0. DESIGN CHOICE (notes/assumptions/74.md): R59 does not say
whether byte 0 of the record returned in format 1.0 still names format 1.1; the model writes the version returned there. -/
def State.capImage (s : State) (version : Nat) : List Byte :=
  let c := s.capRec
  let head := bytesOf 1 version ++ bytesOf 1 c.crossing ++ bytesOf 2 c.clusters ++ bytesOf 2 c.cores ++
    bytesOf 2 c.conservative ++ bytesOf 2 c.banksOff ++ bytesOf 2 c.skipped ++ bytesOf 2 c.alternates ++ bytesOf 2 0 ++
    bytesOf 4 c.ports ++ bytesOf 4 c.uncalibrated ++ List.replicate 104 0
  let map := (List.range 128).map fun i => BitVec.ofNat 8 ((List.range 8).foldl (fun v b =>
    if c.out.contains (clusterAt ((8 * i + b) % 32) ((8 * i + b) / 32)) then v + 2 ^ b else v) 0)
  if version = 0x10 then head else head ++ map

end Sys2Proof.Machine
end

