-- ==== Sys2Proof/Machine/Links.lean ====
section
/-! DEFINITION. The link layer of Ubgen and of the Jorust ports, and what a packet from another device does here
(spec/02_links.md R29-R31, R40-R48, spec/07_sync_objects.md R138). -/

namespace Sys2Proof.Machine

open Sys2Proof

/-! ## Groups and retraining (R29-R31) -/

/-- The state of a port (R51 Table 4): 0 down, 1 training, 2 up, 3 failed. -/
def Port.state (q : Port) : Nat := bits q.fpctl.toNat 3 2

/-- A field of `fpctl` counted up to its largest value. -/
def Port.counted (q : Port) (hi lo : Nat) : Port :=
  { q with fpctl := BitVec.ofNat 32 (setBits q.fpctl.toNat hi lo (min (2 ^ (hi + 1 - lo) - 1) (bits q.fpctl.toNat hi lo + 1))) }

/-- A port begins to retrain (R30): its flits stay in the replay buffer. -/
def State.retrain (s : State) (p : Nat) : State :=
  (s.onPort p fun q => { q.counted 15 12 with run := 0, replay := q.replay.map fun g => { g with fails := 0 } }).setPortState p 1

/-- A port that finishes goes down once it has nothing left to send (R51). -/
def State.finish (s : State) (p : Nat) : State :=
  let q := s.port p
  if q.finishing && q.replay = [] && q.queue = [] && q.hostQueue = [] then s.portDown p 0 else s

/-- The other side has acknowledged the groups before `ack` (R29): they leave the replay buffer, and what waits fills it again. -/
def State.acknowledge (s : State) (p ack : Nat) : State :=
  let q := s.port p
  let rest := if ack = q.txSeq then [] else q.replay.dropWhile fun g => g.num != ack
  if ack != q.txSeq && rest = [] then s
  else (s.onPort p fun q => { q with replay := rest }).fillGroups p replayGroups

/-- The other side has discarded the first group that it has not acknowledged: the groups from that one onward are sent again, and
the port retrains once that group has failed eight times in succession (R29, R30). -/
def State.replayed (s : State) (p : Nat) : State :=
  match (s.port p).replay with
  | [] => s
  | g :: rest =>
    let s := s.onPort p fun q => { q with replay := { g with fails := g.fails + 1 } :: rest }
    if 8 ≤ g.fails + 1 then s.retrain p else s

/-- A group arrives (R29): a bad CRC is counted, and the eighth in succession of the group that is due makes the port retrain; a group
out of order is discarded; a group in order is accepted. A group whose CRC is good brings `ack`, the number of the group that the
other side is due to receive, and `again` where it has discarded that group (notes/assumptions/22.md). -/
def State.groupArrives (s : State) (p seq : Nat) (data : List Byte) (crc ack : Nat) (again : Bool) : State :=
  let q := s.port p
  let due := seq = q.rxSeq
  if q.state != 2 then s
  else if data.length != 256 || crc32c data != crc then
    let run := if due then q.run + 1 else q.run
    let s := s.onPort p fun q => { q.counted 31 24 with run := run }
    if due && 8 ≤ run then s.retrain p else s
  else
    let s := if due then s.onPort p fun q => { q with
        rxSeq := (seq + 1) % 4096, acked := seq, run := 0, received := q.received + 1 } else s
    let s := s.acknowledge p ack
    if again then s.replayed p else s.finish p

/-- R29. -/
def execGroupReceive (s : State) : Answered :=
  match s.input with
  | .groupReceive port seq data crc ack again => .next (s.groupArrives port seq.toNat data crc.toNat ack.toNat again)
  | _ => .next s

/-- R30, R28. A lane loses lock and the port retrains; a lane that has failed takes it down. -/
def execLaneLockLoss (s : State) : Answered :=
  match s.input with
  | .laneLockLoss p failed =>
    let st := (s.port p).state
    .next (if st = 0 || st = 3 then s else if failed then s.portDown p 0 else s.retrain p)
  | _ => .next s

/-- A port comes up again after a retraining: the counts since it came up stand, and the groups in the replay buffer follow. -/
def State.portBack (s : State) (p version : Nat) : State :=
  let s := s.onPort p fun q => { q with run := 0, fpctl := BitVec.ofNat 32 (setBits q.fpctl.toNat 11 4 version) }
  let s := (s.setPortState p 2).fillGroups p replayGroups
  if p = 32 then { s with ubgen := version } else s

/-- A retraining ends (R30, R31): with a version, without a common one, or failed; the third failure within 1 s of
1,200,000,000 cycles takes the port down. -/
def State.trained (s : State) (p : Nat) (ok : Bool) (lowest highest : Nat) : State :=
  let q := s.port p
  if q.state != 1 then s
  else if ok then
    match commonVersion lowest highest portLowest (portHighest p) with
    | some v =>
      let s := s.onPort p fun q => { q with cold := false }
      let s := if q.cold then s.portUp p v else s.portBack p v
      if p = 32 && s.phase = .up then s.sendWaiting else s
    | none => (s.portDown p 0).openRecord (sourceOfPort p) none 0x21 [lowest, highest, portLowest, portHighest p]
  else
    let fails := s.time :: q.failTimes.filter fun t => s.time < t + 1200000000
    let s := s.onPort p fun q => { q with failTimes := fails }
    if 3 ≤ fails.length then s.portDown p 3 else s.retrain p

/-- R30. -/
def execRetrainEnd (s : State) : Answered :=
  match s.input with
  | .retrainEnd port ok lowest highest => .next (s.trained port ok lowest highest)
  | _ => .next s

/-! ## Packets from other devices (R42-R48) -/

/-- The event that is the request of a Desk operation. -/
def DeskOp.event (op : DeskOp) (r : DeskReq) : Event :=
  match op with
  | .query => .query r
  | .free => .free r
  | .init => .init r
  | .cadd => .cadd r
  | .cwait => .cwait r
  | .carm => .carm r
  | .cdisarm => .cdisarm r
  | .barrive => .barrive r
  | .bwait => .bwait r
  | .bsync => .bsync r
  | .bpendadd => .bpendadd r
  | .bpendsub => .bpendsub r
  | .lacq => .lacq r
  | .ltry => .ltry r
  | .lrel => .lrel r
  | .qpush => .qpush r
  | .qpop => .qpop r
  | .qtrypush => .qtrypush r
  | .qtrypop => .qtrypop r
  | .vwait => .vwait r
  | .vsignal => .vsignal r
  | .vbcast => .vbcast r

/-- The port at which a packet has arrived, and the agent as which its access is made: by the slices of that port's die (R45). -/
def Packet.from_ (p : Packet) : NetAgent := portAgent (p.port % 64)
def Packet.agent (p : Packet) : Agent := { ctx := p.ctx, die := p.port % 64 / 8 }

/-- An answer to a packet, to the entry that it names, on its classes (R42, R49). -/
def State.sendBack (s : State) (p : Packet) (op : FabricOp) : State :=
  s.send { dst := p.src, ctx := p.ctx, qos := p.qos, cls := p.cls, core := p.core, entry := p.entry, op := op } p.from_.router

/-- What a packet does: done, or waiting because a page that it names is drained or an engine owns its bytes. -/
abbrev Landed := Bool × State

/-- An access of a packet whose parts have been found. -/
def State.landParts (s : State) (p : Packet) (u : Use) (parts : List (Nat × Nat)) (f : List (Spot × Nat) → State → State) : Landed :=
  match s.ownFabricParts p.agent u p.acq parts with
  | (.error c, s) => (true, s.sendBack p (.refusal c))
  | (.ok none, s) => (false, s)
  | (.ok (some parts), s) => (true, f parts s)

def State.landLoad (s : State) (p : Packet) (n : Nat) (cap : Bool) : Landed :=
  s.landParts p .read (partsOf p.addr n) fun parts s =>
    let (g, s) := s.readParts p.qos parts
    let v := ofBytes g.bytes
    if g.poison then s.sendBack p (.refusal .poison)
    else s.sendBack p (.loadReply v
      (if g.bnd then .bounded else if cap && g.tag then (if bit v 121 then .sealed else .cap) else .exact) 0)

/-- A sector read for a copy engine of another device: its bytes with what its granule holds, poison among it (R26, R265). -/
def State.landSector (s : State) (p : Packet) : Landed :=
  s.landParts p .read [(p.addr, 32)] fun parts s =>
    let (cells, s) := parts.foldl (fun (acc : List Carried × State) (x : Spot × Nat) =>
      let s := acc.2.beforeRead p.qos x.1 x.2
      (acc.1 ++ s.cellsAt x.1 x.2, s)) ([], s)
    s.sendBack p (.cells cells)

/-- Bytes that another device counts for a barrier have become visible here (R122): the unit that holds them takes them off the
barrier, as the port by which they came (R137). -/
def State.landed (s : State) (p : Packet) (parts : List (Spot × Nat)) (barrier : Option (Nat × Nat)) (n : Nat) : State :=
  match barrier with
  | none => s
  | some (dev, addr) =>
    let r : DeskReq :=
      { pa := untranslated, va := if dev = thisDevice then addr else 2 ^ 63 + dev * 2 ^ 50 + addr, ctx := p.ctx,
        who := ⟨thisDevice, 5, 0, p.port % 64, 0, 0⟩, seq := s.fresh, qos := p.qos, n := n }
    s.drawn.carryDesk (s.siteOf 0 (parts.head?.elim .zero (·.1))) p.agent.die 0x14 r (.bpendsub r)

def State.landStore (s : State) (p : Packet) (bs : List Byte) (kind : StoreKind) (poisoned : Bool)
    (barrier : Option (Nat × Nat)) : Landed :=
  s.landParts p .write (partsOf p.addr bs.length) fun parts s =>
    if parts.any fun x => s.typedAt x.1 x.2 then s.sendBack p (.refusal .type)
    else
      let s := s.writeParts p.qos .other none kind parts bs
      let s := if !poisoned then s else parts.foldl (fun s x => match x.1 with
        | .mem pa | .atm pa => s.poison pa
        | _ => s) s
      (s.landed p parts barrier bs.length).sendBack p .storeAck

/-- The bytes of a copy engine of another device placed (R160, R265). -/
def State.placeParts (s : State) (p : Packet) (aligned : Bool) : List (Spot × Nat) → List Carried → State
  | [], _ => s
  | (sp, n) :: rest, cs =>
    let cells := cs.take n
    let s := match sp with
      | .mem pa | .atm pa =>
        (s.placeCells pa cells aligned (n = 32) (cells.any (·.bnd)) (cells.any (·.poison))).afterWrite p.qos none sp n
      | sp => s.writeSpot .other sp (cells.map fun (x : Carried) => x.byte) (Carried.kind cells aligned)
    s.placeParts p aligned rest (cs.drop n)

def State.landPlace (s : State) (p : Packet) (cells : List Carried) (aligned : Bool) (barrier : Option (Nat × Nat)) : Landed :=
  s.landParts p .write (sectors 3 p.addr cells.length) fun parts s =>
    if parts.any fun x => s.typedAt x.1 x.2 then s.sendBack p (.refusal .type)
    else ((s.placeParts p aligned parts cells).landed p parts barrier cells.length).sendBack p .storeAck

def State.landAtomic (s : State) (p : Packet) (op : AtomicOp) (n : Nat) (sgn : Bool) (a b : Nat) : Landed :=
  s.landParts p .atomic [(p.addr, n)] fun parts s =>
    match parts with
    | [(.mem pa, _)] =>
      if s.typedAt (.mem pa) n then s.sendBack p (.refusal .type)
      else
        let (g, ok, t) := s.atomicAt p.qos op pa n sgn a b
        if g.poison then s.sendBack p (.refusal .poison)
        else t.sendBack p (.loadReply (ofBytes g.bytes) g.dataTag (if ok then 1 else 0))
    | _ => s

/-- Bit 7 of a byte of a node record set or cleared indivisibly (spec/05_scheduling.md R81): `pfault`. -/
def State.rewriteFlags (s : State) (a : Agent) (va : Nat) (set_ : Bool) : Except Cause (Option Unit) × State :=
  match s.ownFabricParts a .read true [(va, 1)] with
  | (.error c, s) => (.error c, s)
  | (.ok none, s) => (.ok none, s)
  | (.ok (some ps), s) =>
    let (g, s) := s.readParts 0 ps
    if g.poison then (.error .poison, s)
    else match s.ownFabricParts a .write true [(va, 1)] with
      | (.error c, s) => (.error c, s)
      | (.ok none, s) => (.ok none, s)
      | (.ok (some ps), s) =>
        if ps.any fun p => s.typedAt p.1 p.2 then (.error .type, s)
        else (.ok (some ()), s.writeParts 0 .other none .plain ps
          [BitVec.ofNat 8 (setBits (ofBytes g.bytes) 7 7 (if set_ then 1 else 0))])

/-- The lock of a condition wait, found like its cell (R129, R393). -/
def State.landLock (s : State) (a : Agent) (op : DeskOp) (r : DeskReq) : Except (Option Cause) Nat × State :=
  if op != .vwait then (.ok r.lock, s)
  else match s.findCell a r.lock .lrel with
    | (.cell pa, s) => (if (s.granule pa).poison then .error (some .poison) else .ok pa, s)
    | (.untyped, s) => (.error (some .type), s)
    | (.park, s) => (.error none, s)
    | (.fail c, s) => (.error (some c), s)

/-- A cell request of another device (R138, R46): performed as a request of this device is. -/
def State.landCell (s : State) (p : Packet) (op : DeskOp) (r : DeskReq) : Landed :=
  match s.findCell p.agent p.addr op with
  | (.fail c, s) => (true, s.sendBack p (.refusal c))
  | (.untyped, s) => (true, s.sendAnswer false { who := r.who, seq := r.seq, st := 10, op := op, qos := p.qos, ctx := p.ctx })
  | (.park, s) => (false, s)
  | (.cell pa, s) =>
    if (s.granule pa).poison then (true, s.sendBack p (.refusal .poison))
    else match s.landLock p.agent op r with
      | (.error none, s) => (false, s)
      | (.error (some c), s) => (true, s.sendBack p (.refusal c))
      | (.ok lock, s) =>
        let r := { r with pa := pa, va := p.addr, ctx := p.ctx, lock := lock, qos := p.qos }
        (true, s.performRequest op r (op.event r))

/-- A cell that a cancel or a change of priority names. -/
def State.landAt (s : State) (p : Packet) (f : State → Nat → State) : Landed :=
  match s.findCell p.agent p.addr .cwait with
  | (.cell pa, s) => (true, f s pa)
  | (.park, s) => (false, s)
  | (_, s) => (true, s)

/-- A call of another device (R402): by bank unit, or by address on the die where it arrives; the slip goes to the unit. -/
def State.landCall (s : State) (p : Packet) (t : Task) : Landed :=
  let route : Route := ⟨p.src, 4 * p.core, p.entry, t.kind = 6, t.grid⟩
  let t := { t with route := some route }
  let slip (s : State) (b : Nat) : State := s.carry (t.header p.from_ (16384 + b)) (.callSlip (16384 + b) t)
  if t.target = {} then (true, slip s p.addr)
  else match s.calleeAt p.agent p.addr with
    | (none, s) => (false, s)
    | (some (.unit (.bank b)), s) => (true, slip s b)
    | (some (.fails c), s) => (true, s.answerCall p.from_ t route .remoteFault c [])
    | (_, s) => (true, s)

/-- The answer that a packet brings (R46-R48). -/
def Packet.reply (p : Packet) (status rcode : Cause) (vals : List Reg) (cells : List Carried := []) : Reply :=
  ⟨p.core, p.entry, status, rcode, p.src, vals, cells⟩

/-- A packet performed (R45, R46). -/
def State.land (s : State) (p : Packet) : Landed :=
  match p.op with
  | .load n => s.landLoad p n false
  | .capLoad => s.landLoad p 16 true
  | .sector => s.landSector p
  | .store bs cap bnd poisoned barrier =>
    s.landStore p bs (if cap then .cap (if bit (ofBytes bs) 121 then .sealed else .cap) else if bnd then .bounded else .plain)
      poisoned barrier
  | .place cells aligned barrier => s.landPlace p cells aligned barrier
  | .atomic op n sgn a b => s.landAtomic p (AtomicOp.ofCode op) n sgn a b
  | .cell op r => s.landCell p op r
  | .cancel r => s.landAt p fun s pa => s.cancelHold pa r.who r.seq
  | .prioset _ w prio => s.landAt p fun s pa => s.setPriority pa w prio
  | .boost w level => (true, s.boosted true w level)
  | .expire w level => (true, s.boosted false w level)
  | .flush =>
    match s.ownFabricParts p.agent .read true [(p.addr, 1)] with
    | (.ok (some [(.mem pa, _)]), s) =>
      (true, { s with lines := change {} s.lines (lineOf pa) fun l => { l with dirty := 0 } })
    | (.ok none, s) => (false, s)
    | (_, s) => (true, s)
  | .flags set_ =>
    match s.rewriteFlags p.agent p.addr set_ with
    | (.error c, s) => (true, s.sendBack p (.refusal c))
    | (.ok none, s) => (false, s)
    | (.ok (some _), s) => (true, s.sendBack p .storeAck)
  | .call t => s.landCall p t
  | .message t =>
    let t := { t with route := some ⟨p.src, 4 * p.core, p.entry, true, t.grid⟩ }
    (true, s.carry (t.header p.from_ (16384 + p.addr)) (.messageArrival (16384 + p.addr) t))
  | .loadReply data tag ok => (true, s.replyArrived (p.reply .none .none [⟨BitVec.ofNat 128 data, tag⟩, exactData ok]))
  | .cells cs => (true, s.replyArrived (p.reply .none .none [] cs))
  | .storeAck => (true, s.replyArrived (p.reply .none .none []))
  | .refusal c => (true, s.replyArrived (p.reply .remoteFault c []))
  | .noRoute => (true, s.replyArrived (p.reply .noRoute .none []))
  | .answer a => (true, if a.st = 11 then s.refusedByDesk a else s.answered a)
  | .reply vals => (true, s.replyArrived (p.reply .none .none vals))

/-- A packet that has been accepted carries the number of its port, 64 above. -/
def Packet.kept (p : Packet) : Packet := if p.port < 64 then { p with port := p.port + 64 } else p

/-- The packets accepted, the newest first: the last 2^23 of each source (R44). -/
def State.accept (s : State) (p : Packet) : State :=
  let of_ := (s.fabricSeen.filter fun e => e.1 = p.src).take (2 ^ 23 - 1)
  { s with fabricSeen := (p.src, p.num) :: of_ ++ s.fabricSeen.filter fun e => e.1 != p.src }

/-- The unit to which a packet goes from its port: the slice that translates its address (R45, R151), the bank unit of a message,
the agent of a waiter, the core of a reply. -/
def State.packetUnit (s : State) (p : Packet) : NetAgent :=
  match p.op with
  | .message _ => bankAgent p.addr
  | .boost w _ | .expire w _ => s.waiterAgent w
  | .answer a => s.waiterAgent a.who
  | .call t => if t.target = {} then bankAgent p.addr else sliceAgent (s.translatingCluster p.agent.die p.addr)
  | .loadReply .. | .cells _ | .storeAck | .refusal _ | .noRoute | .reply _ => coreAgent p.core
  | _ => sliceAgent (s.translatingCluster p.agent.die p.addr)

/-- The header of the mesh message that a packet carries (R42, R92): the family by what it does. -/
def State.packetHeader (s : State) (p : Packet) : Header :=
  let family := match p.op with
    | .loadReply .. | .cells _ | .storeAck | .refusal _ | .noRoute => 1
    | .message _ | .call _ | .reply _ => 3
    | .cell .. | .cancel _ | .prioset .. | .boost .. | .expire .. | .answer _ => 2
    | _ => 0
  { family := family, cls := p.cls, qos := p.qos, ctx := p.ctx, src := p.from_, dst := s.packetUnit p, tag := p.entry, addr := p.addr,
    len := p.bytes / 32 - 1 }

/-- A packet arrives (R44): for this device, over a port that is up, and not accepted before. It goes on in the mesh as the message
that it carries, and is performed where that arrives; a device that has stopped injects replies alone (R94). -/
def State.packetArrives (s : State) (p : Packet) : State :=
  if s.phase = .off || s.phase = .dead || (s.phase = .stopped && p.port < 64 && !p.op.isReply) then s
  else if 64 ≤ p.port then
    match s.land p with
    | (true, s) => s
    | (false, s) => s.emit (.fabricPacket p)
  else if p.dst != thisDevice || (s.port p.port).state != 2 || s.fabricSeen.contains (p.src, p.num) then s
  else
    let s := (s.accept p).charge (portRegulator p.port) p.qos p.bytes
    s.carry (s.packetHeader p.kept) (.fabricPacket p.kept)

/-- R44. -/
def execFabricPacket (s : State) : Answered :=
  match s.input with
  | .fabricPacket p => .next (s.packetArrives p)
  | _ => .next s

end Sys2Proof.Machine
end

