-- ==== Sys2Proof/Machine/HostLink.lean ====
section
/-! DEFINITION. The Ubgen port: requests of the host on their streams, control messages, event records sent to the host
(spec/02_links.md R33-R39, spec/03_start.md R56, R58-R63, spec/04_host_interface.md R64-R67, R73, R74,
spec/21_isa_system.md R469, R470). -/

namespace Sys2Proof.Machine

open Sys2Proof

/-! ## Which requests are served, and which are well formed (R34, R35, R37, R56, R58, R94) -/

/-- The operation code of a control message (R66). -/
def HostReq.control (r : HostReq) : Nat := r.arg 0 1

/-- The bytes of a control message with its operands (R66 Table 2). -/
def controlLength : Nat → Option Nat
  | 0x01 => some 12 | 0x02 => some 9 | 0x03 => some 9 | 0x04 => some 6 | 0x05 => some 11
  | 0x06 => some 1 | 0x07 => some 1 | 0x08 => some 1 | 0x09 => some 2 | 0x0A => some 33
  | 0x0B => some 15 | 0x0C => some 11
  | _ => none

/-- A request is served in the present phase of the device. -/
def State.serves (s : State) (r : HostReq) : Bool :=
  let always := r.kind = 4 && (r.control = 7 || r.control = 8 || r.control = 9)
  match s.phase with
  | .up => true
  | .stepping n => always || (r.kind = 4 && ((13 ≤ n && r.control = 5) || (15 ≤ n && r.control = 6)))
  | .held | .stopped => always
  | .off | .dead => false

/-- The Desk operation that a code names (R113 Table 4). -/
def deskOpOf : Nat → Option DeskOp
  | 0x00 => some .query | 0x01 => some .free | 0x02 => some .init
  | 0x08 => some .cadd | 0x09 => some .cwait | 0x0A => some .carm | 0x0B => some .cdisarm
  | 0x10 => some .barrive | 0x11 => some .bwait | 0x12 => some .bsync | 0x13 => some .bpendadd | 0x14 => some .bpendsub
  | 0x18 => some .lacq | 0x19 => some .ltry | 0x1A => some .lrel
  | 0x20 => some .qpush | 0x21 => some .qpop | 0x22 => some .qtrypush | 0x23 => some .qtrypop
  | 0x28 => some .vwait | 0x29 => some .vsignal | 0x2A => some .vbcast
  | _ => none

/-- A request matches its kind and the version of the link (R35, R37). The relaxed flag belongs to memory writes; the
messages of the Desk family that are no requests (0x30-0x37) are no operation of a host. -/
def HostReq.ok (r : HostReq) (ubgen : Nat) : Bool :=
  !r.bad && r.stream < 16 && (r.flags = 0 || (r.flags = 1 && r.kind = 1 && 0x11 ≤ ubgen)) &&
  match r.kind with
  | 0 => 1 ≤ r.len && r.len ≤ 256 && r.data = [] && r.op = 0
  | 1 => 1 ≤ r.len && r.len ≤ 256 && r.data.length = r.len && r.op = 0
  | 2 => r.len ≤ 128 && r.data.length = r.len && !(0x30 ≤ r.op && r.op ≤ 0x37)
  | 3 => 0x11 ≤ ubgen && r.len = 0 && r.data = [] && r.ctx = 0 && r.addr = 0 && r.op = 0
  | 4 => r.ctx = 0 && r.addr = 0 && r.op = 0 && r.data.length = r.len && controlLength r.control = some r.len &&
         (r.control < 0x0B || 0x12 ≤ ubgen)
  | _ => false

/-! ## Memory requests (R34, R46) -/

/-- A request that cannot be served yet, because a page is drained or a bank unit rewrites a row, answers false. -/
abbrev Served := Bool × State

/-- The refusal of an access: FAULT, or REMOTE_FAULT where its address lies in the fabric window (R36). -/
def State.hostFault (s : State) (r : HostReq) (c : Cause) : State :=
  s.hostReply r (if isFabric r.addr then 8 else 9) c.code

/-- The address that a request names on this device (R45). -/
def HostReq.here (r : HostReq) : Nat := if isFabric r.addr then bits r.addr 49 0 else r.addr

/-- The address lies on another device. -/
def HostReq.away (r : HostReq) : Bool := isFabric r.addr && bits r.addr 62 50 != thisDevice

/-- The QoS class of a stream's requests, and the agent as which they are made, by the slices of C-die 0 (R32, R64). -/
def State.hostQos (s : State) (n : Nat) : Nat := bits (s.hostStream n).hstream.toNat 5 3
def HostReq.agent (r : HostReq) : Agent := { ctx := r.ctx }

/-- An access of a request whose parts have been found. -/
def State.serveParts (s : State) (r : HostReq) (u : Use) (f : List (Spot × Nat) → State → State) : Served :=
  match s.ownFabricParts r.agent u true (sectors 9 r.here r.len) with
  | (.error c, s) => (true, s.hostFault r c)
  | (.ok none, s) => (false, s)
  | (.ok (some parts), s) => (true, f parts s)

def State.serveRead (s : State) (r : HostReq) : Served :=
  if r.away then (true, s.hostAsk r.stream false { req := r, seq := 0 })
  else s.serveParts r .read fun parts s =>
    let (g, s) := s.readParts (s.hostQos r.stream) parts
    if g.poison then s.hostFault r .poison else s.hostReply r 0 0 g.bytes

/-- A memory write; `late` for a relaxed one, which its stream does not wait for (R65). -/
def State.serveWrite (s : State) (r : HostReq) (late : Bool) : Served :=
  if r.away then (true, s.hostAsk r.stream late { req := r, seq := s.fresh })
  else s.serveParts r .write fun parts s =>
    if parts.any fun p => s.typedAt p.1 p.2 then s.hostFault r .type
    else (s.writeParts (s.hostQos r.stream) .other none .plain parts r.data).hostAck r

/-! ## Cell requests (R38) -/

/-- The waiter that a stream is (R111). -/
def streamWaiter (n : Nat) : Waiter := ⟨thisDevice, 3, 0, n, 0, 0⟩

/-- The operands of a cell request in its payload (notes/assumptions/23.md). -/
def HostReq.desk (r : HostReq) (op : DeskOp) : DeskReq :=
  let base : DeskReq := { ctx := r.ctx, va := r.here, who := streamWaiter r.stream }
  match op with
  | .cadd | .bpendadd | .bpendsub => { base with n := signed 64 (r.arg 0 8) }
  | .carm => { base with cont := r.arg 0 8, cls := r.arg 8 1, cprio := r.arg 9 1 % 8, target := Waiter.ofWord (r.arg 16 8) 0 }
  | .bwait => { base with phase := r.arg 0 2 }
  | .qpush | .qtrypush => { base with elem := r.data }
  | .qpop | .qtrypop => { base with elen := 128 }
  | .vwait => { base with lock := r.arg 0 8 }
  | .init =>
    { base with ctype := r.arg 0 1, esz := r.arg 1 1, cap := r.arg 2 2, cmask := r.arg 2 2, total := r.arg 4 4,
                buf := r.arg 8 8, n := signed 64 (r.arg 8 8) }
  | _ => base

/-- The status of a Desk goes to the host (R36). -/
def State.hostStatusReply (s : State) (r : HostReq) (op : DeskOp) (st val : Nat) (elem : List Byte) : State :=
  s.hostReply r (hostStatus st) (if hostStatus st = 10 then st else 0) (if st = 0 then hostCellData op val elem else [])

/-- The packet of a cell request of a stream to an address of another device (R138), under a tag. -/
def State.streamPacket (s : State) (n tag va : Nat) (op : DeskOp) (q : DeskReq) : Packet :=
  let addr := bits va 49 0
  { dst := bits va 62 50, addr := addr, ctx := q.ctx, qos := s.hostQos n, entry := tag,
    op := .cell op { q with va := addr, pa := untranslated, seq := tag, prio := s.hostPrio n, qos := s.hostQos n } }

/-- A cell request for another device (R138). -/
def State.askFar (s : State) (r : HostReq) (op : DeskOp) (q : DeskReq) : State :=
  if s.upPorts = [] then s.hostReply r 7 0
  else
    let tag := s.fresh
    let s := s.drawn.onHostStream r.stream fun h => { h with
      held := some { req := r, seq := tag, cell := untranslated, holds := op.canHold } }
    s.send (s.streamPacket r.stream tag r.addr op q) 0

/-- A cell request whose lock has been found. -/
def State.askHere (s : State) (r : HostReq) (op : DeskOp) (q : DeskReq) : Served :=
  let q := { q with seq := s.fresh, prio := s.hostPrio r.stream, qos := s.hostQos r.stream }
  match (s.drawn.enterSlice q.qos q.pa 32).desk op q with
  | (.park, _) => (false, s)
  | (.held, t) => (true, t.onHostStream r.stream fun h => { h with
      held := some { req := r, seq := q.seq, cell := q.pa, holds := true } })
  | (.done st val elem, t) => (true, t.hostStatusReply r op st val elem)

def State.serveCell (s : State) (r : HostReq) : Served :=
  match deskOpOf r.op with
  | none =>
    if r.away then (true, s.hostStatusReply r .query 15 0 [])
    else match s.findCell r.agent r.here .cadd with
      | (.fail c, s) => (true, s.hostFault r c)
      | (.park, s) => (false, s)
      | (_, s) => (true, s.hostStatusReply r .query 15 0 [])
  | some op =>
    let q := r.desk op
    if r.away then
      if op = .vwait then
        (true, if bits q.lock 63 50 = bits r.addr 63 50 then s.askFar r op { q with lock := bits q.lock 49 0 }
               else s.hostReply r 9 Cause.cellPlacement.code)
      else (true, s.askFar r op q)
    else match s.findCell r.agent r.here op with
      | (.fail c, s) => (true, s.hostFault r c)
      | (.untyped, s) => (true, s.hostStatusReply r op 10 0 [])
      | (.park, s) => (false, s)
      | (.cell pa, s) =>
        if (s.granule pa).poison then (true, s.hostFault r .poison)
        else match s.landLock r.agent op q with
          | (.error none, s) => (false, s)
          | (.error (some c), s) => (true, s.hostReply r 9 c.code)
          | (.ok lock, s) => s.askHere r op { q with pa := pa, lock := lock }

/-- R34, R38. A Cancel ends the hold of its stream. -/
def State.cancelStream (s : State) (n : Nat) : State :=
  match (s.hostStream n).held with
  | some h =>
    if !h.holds || h.parked then s
    else if untranslated ≤ h.cell then
      if s.upPorts = [] then s
      else s.send
        { dst := bits h.req.addr 62 50, addr := h.req.here, ctx := h.req.ctx, qos := s.hostQos n,
          op := .cancel { pa := untranslated, va := h.req.here, ctx := h.req.ctx, who := streamWaiter n, seq := h.seq } } 0
    else s.cancelHold h.cell (streamWaiter n) h.seq
  | none => s

/-! ## Control messages (R66, R67) -/

/-- The negotiated version of an interface: 0 while it is closed (R63). -/
def State.version (s : State) (i : Nat) : Nat := if s.negotiated = [] then 0x10 else s.negotiated.getD i 0

/-- The agent as which the control program of a stream's service core makes an access in a context. -/
def controlAgent (region ctx : Nat) : Agent := { ctx := ctx, die := region / 4 }

/-- The image of a queue's cell on another device is asked for (R67, R138): the attach goes on when it comes. -/
def State.askImage (s : State) (r : HostReq) (ctx va : Nat) : State :=
  if s.upPorts = [] then s.hostReply r 7 0
  else
    let tag := s.fresh
    let s := s.drawn.onRegion r.stream fun g => { g with asking := g.asking ++ [{ req := r, seq := tag }] }
    s.send (s.streamPacket r.stream tag va .query { ctx := ctx, who := streamWaiter r.stream }) (clusterOf (serviceCore r.stream))

/-- R67. `ATTACH_QUEUE`. -/
def State.serveAttach (s : State) (r : HostReq) : Served :=
  let va := r.arg 1 8
  let ctx := r.arg 9 2
  let s : State := { s with attachSeen := true }
  if s.version 0 = 0 || 7 < r.arg 11 1 then (true, s.hostReply r 1 0)
  else if 16 ≤ ((s.region r.stream).queues.filter fun e => !e.2.left).length then (true, s.hostReply r 3 0)
  else if isFabric va && bits va 62 50 != thisDevice then (true, s.askImage r ctx va)
  else match s.findCell (controlAgent r.stream ctx) (if isFabric va then bits va 49 0 else va) .query with
    | (.fail c, s) => (true, s.hostReply r (if isFabric va then 8 else 9) c.code)
    | (.untyped, s) => (true, s.hostReply r 4 0)
    | (.park, s) => (false, s)
    | (.cell pa, s) =>
      if (s.granule pa).poison then (true, s.hostReply r 9 Cause.poison.code)
      else (true, s.finishAttach r pa (setBits (s.image pa) 226 224 (s.cellType pa)))

/-- The queue of a region by the address of its cell. -/
def State.queueAt (s : State) (region va : Nat) : Option (Nat × Queue) :=
  (s.region region).queues.find? fun e => e.2.cell = va && !e.2.left

/-- R66. `DETACH_QUEUE`: its pop is cancelled, and it leaves when the command that it has taken has started; a queue that is not
attached here stays as it is. -/
def State.serveDetach (s : State) (r : HostReq) : State :=
  let s := match s.queueAt r.stream (r.arg 1 8) with
    | none => s
    | some (i, _) =>
      ((s.onQueue r.stream i fun q => { q with detaching := true }).cancelPop r.stream i).dropDetached r.stream i
  s.hostReply r 0 0

/-- The address of a queue's cell as its device knows it. -/
def Queue.address (q : Queue) : Nat := if isFabric q.cell then bits q.cell 49 0 else q.cell

/-- The image that empties a queue (R71, R136). -/
def Queue.initReq (q : Queue) (w : Waiter) : DeskReq :=
  { pa := q.pa, va := q.address, ctx := q.ctx, who := w, ctype := 4, buf := q.size.1, cap := q.size.2.1, esz := 3 }

/-- R71. `RESET_QUEUE`: the cell is initialised again, so that its held pushes are filled with FREED, and the queue restarts empty. -/
def State.serveReset (s : State) (r : HostReq) : Served :=
  match s.queueAt r.stream (r.arg 1 8) with
  | none => (true, s.hostReply r 0 0)
  | some (i, q) =>
    let req := q.initReq (agentWaiter r.stream i)
    if q.pa < untranslated then
      match s.findCell (controlAgent r.stream q.ctx) q.address .init with
      | (.cell pa, s) =>
        match s.desk .init { req with pa := pa } with
        | (.done 0 _ _, s) => (true, s.resetAnswered r.stream i r 0 0)
        | (.done st _ _, s) => (true, s.hostReply r 10 st)
        | (_, _) => (false, s)
      | (.untyped, s) => (true, s.hostReply r 4 0)
      | (.park, s) => (false, s)
      | (.fail c, s) => (true, s.hostReply r 9 c.code)
    else if s.upPorts = [] then (true, s.hostReply r 7 0)
    else
      let tag := s.fresh
      let s := s.drawn.onQueue r.stream i fun q => { q with resetting := some (tag, r) }
      (true, s.send
        { dst := bits q.cell 62 50, addr := q.address, ctx := q.ctx, entry := tag,
          op := .cell .init { req with pa := untranslated, seq := tag } } (clusterOf (serviceCore r.stream)))

/-- R64. `SET_STREAM`. -/
def State.serveSetStream (s : State) (r : HostReq) : State :=
  if 15 < r.arg 1 1 then s.hostReply r 1 0
  else (s.writeHstream (r.arg 1 1) (BitVec.ofNat 32 (r.arg 2 4))).hostReply r 0 0

/-- R63. `NEGOTIATE`: where the device is up, the interfaces without a common version are reported, and the records that wait are
sent (R73). -/
def State.serveNegotiate (s : State) (r : HostReq) : State :=
  if s.attachSeen then s.hostReply r 5 0
  else
    let vs := (List.range 5).map fun i =>
      let (lo, hi) := supported.getD i (0, 0)
      (commonVersion (r.arg (1 + 2 * i) 1) (r.arg (2 + 2 * i) 1) lo hi).getD 0
    let s : State := { s with
      negotiated := vs, announced := (List.range 5).map fun i => (r.arg (1 + 2 * i) 1, r.arg (2 + 2 * i) 1) }
    let s := if s.phase = .up then s.reportClosed.sendWaiting else s
    s.hostReply r 0 0 (vs.map (BitVec.ofNat 8 ·))

/-- R59. `READ_CAP`: format 1.0 before any negotiation. -/
def State.serveReadCap (s : State) (r : HostReq) : State :=
  if s.version 3 = 0 then s.hostReply r 1 0 else s.hostReply r 0 0 (s.capImage (s.version 3))

/-- R66. `READ_START`. -/
def State.serveReadStart (s : State) (r : HostReq) : State := s.hostReply r 0 0 s.startRec.image

/-- R66. `CLEAR_START`. -/
def State.serveClearStart (s : State) (r : HostReq) : State := (s.writeRec fun x => { x with steps := [] }).hostReply r 0 0

/-- R66. `SELECT_SLOT`. -/
def State.serveSelectSlot (s : State) (r : HostReq) : State :=
  if 1 < r.arg 1 1 then s.hostReply r 1 0 else ({ s with bootSlot := r.arg 1 1 } : State).hostReply r 0 0

/-- Bytes of a fixed number. -/
def padded (n : Nat) (bs : List Byte) : List Byte := (bs ++ List.replicate n 0).take n

/-- The body of the attestation report (R62 Table 5), of the firmware image in use and of the 256-byte capability record (R59). -/
def State.report (s : State) (nonce : List Byte) : List Byte :=
  let image := s.imageIn s.startRec.slot
  bytesOf 1 0x10 ++ List.replicate 7 0 ++ bytesOf 8 Config.serial ++ padded 32 nonce ++
    bytesOf 2 image.security ++ bytesOf 2 s.fuses ++ bytesOf 4 (Config.firmwareVersion image.header) ++
    padded 64 image.digest ++ shake256 (s.capImage 0x11) ++ shake256 s.startRec.image ++ List.replicate 8 0

/-- R62. `ATTEST`: the report and its signature with the identity key (R61). -/
def State.serveAttest (s : State) (r : HostReq) : State :=
  if s.version 4 = 0 then s.hostReply r 1 0
  else
    let body := s.report (r.data.drop 1)
    s.hostReply r 0 0 (body ++ (Config.sign (s.identity.getD ([], [])).2 (shake256 body)).take 1280)

/-! ## Relocations (R470) -/

/-- The root capability of a control program: every permission over the translated space. -/
def rootCap : Reg := ⟨makeCap 0 0 (2 ^ 56) 0x1FF, .cap⟩

/-- The capability of a relocation entry: `csetaddr`, `csetbnd`, `csetaddr`, `candperm`, and `cseal` for a handle. -/
def relocated (addr base len perms kind : Nat) : Reg :=
  let v := moved (narrowed (moved rootCap base) len) addr
  let v := capResult v (v.data &&& BitVec.ofNat 128 (perms % 65536 * 2 ^ 112 + (2 ^ 112 - 1))) true
  if kind = 1 then sealedHandle v else v

/-- Bytes of a context's memory read by its control program: none while a page is drained. -/
def State.controlRead (s : State) (a : Agent) (va n : Nat) : Except Cause (Option (List Byte)) × State :=
  if 2 ^ 56 < va + n then (.error .capability, s)
  else match s.ownFabricParts a .read true (sectors 9 va n) with
    | (.error c, s) => (.error c, s)
    | (.ok none, s) => (.ok none, s)
    | (.ok (some parts), s) =>
      let (g, s) := s.readParts 0 parts
      (if g.poison then .error .poison else .ok (some g.bytes), s)

/-- One entry of a relocation table performed. -/
def State.relocateOne (s : State) (a : Agent) (va : Nat) : Except Cause Bool × State :=
  match s.controlRead a va 48 with
  | (.error c, s) => (.error c, s)
  | (.ok none, s) => (.ok false, s)
  | (.ok (some e), s) =>
    let slot := field e 0 8
    let len := field e 24 8
    let kind := field e 34 1
    if 1 < kind || field e 35 13 != 0 || 2 ^ 63 < len || 2 ^ 56 < slot + 16 then (.error .capability, s)
    else if slot % 16 != 0 then (.error .alignment, s)
    else match s.ownFabricParts a .write true [(slot, 16)] with
      | (.error c, s) => (.error c, s)
      | (.ok none, s) => (.ok false, s)
      | (.ok (some parts), s) =>
        if parts.any fun p => s.typedAt p.1 p.2 then (.error .type, s)
        else
          let v := relocated (field e 8 8) (field e 16 8) len (field e 32 2) kind
          (.ok true, s.writeParts 0 .other none (.cap v.tag) parts (bytesOf 16 v.data.toNat))

/-- The entries of a relocation table in order, up to the first that fails. -/
def State.relocateAll (s : State) (r : HostReq) (ctx table : Nat) : Nat → Nat → Served
  | 0, i => (true, s.hostReply r 0 0 (bytesOf 4 i))
  | n + 1, i =>
    match s.relocateOne (controlAgent r.stream ctx) (table + 48 * i) with
    | (.error c, s) => (true, s.hostReply r 9 c.code (bytesOf 4 i))
    | (.ok false, s) => (false, s)
    | (.ok true, s) => s.relocateAll r ctx table n (i + 1)

/-- R470. `RELOCATE`. -/
def State.serveRelocate (s : State) (r : HostReq) : Served :=
  let n := r.arg 11 4
  if n = 0 || 65536 < n then (true, s.hostReply r 1 0) else s.relocateAll r (r.arg 1 2) (r.arg 3 8) n 0

/-- R469. `SET_SETUP`. -/
def State.serveSetSetup (s : State) (r : HostReq) : State :=
  ({ s with setups := put s.setups (r.arg 1 2) (r.arg 3 8) } : State).hostReply r 0 0

/-! ## Control messages as tasks (R34, R66) -/

/-- A control message performed by its service core. -/
def State.serveControl (s : State) (r : HostReq) : Served :=
  match r.control with
  | 0x01 => s.serveAttach r
  | 0x02 => (true, s.serveDetach r)
  | 0x03 => s.serveReset r
  | 0x04 => (true, s.serveSetStream r)
  | 0x05 => (true, s.serveNegotiate r)
  | 0x06 => (true, s.serveReadCap r)
  | 0x07 => (true, s.serveReadStart r)
  | 0x08 => (true, s.serveClearStart r)
  | 0x09 => (true, s.serveSelectSlot r)
  | 0x0A => (true, s.serveAttest r)
  | 0x0B => s.serveRelocate r
  | 0x0C => (true, s.serveSetSetup r)
  | _ => (true, s)

/-- The step that performs a control message: its stream is 16 higher. -/
def HostReq.taskEvent (r : HostReq) : Option Event :=
  let r := { r with stream := r.stream + 16 }
  match r.control with
  | 0x01 => some (.attachQueue r)
  | 0x02 => some (.detachQueue r)
  | 0x03 => some (.resetQueue r)
  | 0x04 => some (.setStream r)
  | 0x05 => some (.negotiate r)
  | 0x06 => some (.readCap r)
  | 0x07 => some (.readStart r)
  | 0x08 => some (.clearStart r)
  | 0x09 => some (.selectSlot r)
  | 0x0A => some (.attest r)
  | 0x0B => some (.relocate r)
  | 0x0C => some (.setSetup r)
  | _ => none

/-- The first task of a service core is due. -/
def State.askTask (s : State) (region : Nat) : State :=
  match (s.region region).tasks with
  | r :: _ => match r.taskEvent with
    | some e => s.emitOnce e
    | none => s
  | [] => s

/-- A control message becomes a task of its service core (R66): tasks are performed in the order in which they came. -/
def State.enqueueTask (s : State) (r : HostReq) : State :=
  (s.onRegion r.stream fun g => { g with tasks := g.tasks ++ [r] }).askTask r.stream

/-- The first task of a service core is performed; one that has to wait stays the first. -/
def State.performTask (s : State) (region : Nat) : State :=
  match (s.region region).tasks with
  | [] => s
  | r :: rest =>
    match s.serveControl r with
    | (true, s) => (s.onRegion region fun g => { g with tasks := rest }).askTask region
    | (false, s) => s.askTask region

/-! ## Streams (R33, R38, R39, R65) -/

/-- A request of a stream issued; `late` for a relaxed write. -/
def State.serve (s : State) (late : Bool) (r : HostReq) : Served :=
  match r.kind with
  | 0 => s.serveRead r
  | 1 => s.serveWrite r late
  | 2 => s.serveCell r
  | _ => (true, s.enqueueTask r)

/-- A cell request that can hold. -/
def HostReq.canHold (r : HostReq) : Bool := r.kind = 2 && (deskOpOf r.op).any (·.canHold)

/-- A request of a stream is issued; one that has to wait, behind a drain or an engine, is the stream's until it has taken effect,
or one of its relaxed writes. -/
def State.tryRequest (s : State) (n : Nat) (late : Bool) (r : HostReq) : State :=
  let seq := s.fresh
  match s.drawn.serve late r with
  | (true, s) => s
  | (false, s) => s.onHostStream n fun h => h.setAwaiting late seq (some { req := r, seq := seq, holds := r.canHold, parked := true })

/-- The requests of a stream that wait in this way, true for the relaxed writes. -/
def HStream.parkedOnes (x : HStream) : List (Bool × HostHeld) :=
  (x.held.toList.filter (·.parked)).map (fun h => (false, h)) ++ (x.relaxed.filter (·.parked)).map fun h => (true, h)

/-- They are tried again. -/
def State.retryParked (s : State) (n : Nat) : State :=
  (s.hostStream n).parkedOnes.foldl (fun s e =>
    (s.onHostStream n fun h => h.setAwaiting e.1 e.2.seq none).tryRequest n e.1 e.2.req) s

/-- The head request of a stream is issued when its turn has come (R39, R65). -/
def State.issueRequest (s : State) (n : Nat) : State :=
  let s := s.retryParked n
  let s := match s.nextStream, (s.hostStream n).waiting with
    | some m, r :: rest =>
      if m = n then
        (({ s with lastStream := n } : State).onHostStream n fun h => { h with waiting := rest }).tryRequest n
          ((s.hostStream n).relaxes r) r
      else s
    | _, _ => s
  (if (s.hostStream n).parkedOnes = [] then s else s.emitOnce (.streamRequestIssue n)).askPort

/-- R39, R65. A waiting request of a stream is issued. -/
def execStreamRequestIssue (s : State) : Answered :=
  match s.input with
  | .streamRequestIssue stream => .next (s.issueRequest stream)
  | _ => .next s

/-- A request arrives at the port (R33-R38): it is refused, acted on at once, or takes its place in its stream. -/
def State.requestArrives (s : State) (r : HostReq) : State :=
  if (s.port 32).state != 2 then s
  else if !s.serves r then s.hostReply r 2 0
  else if !r.ok s.ubgen then s.hostReply r 1 0
  else if r.kind = 3 then s.cancelStream r.stream
  else (s.onHostStream r.stream fun h => { h with waiting := h.waiting ++ [r] }).askPort

/-- A row whose step is the arrival of a request of its own kind. -/
def hostRow (mine : Bool) (r : HostReq) (s : State) : Answered := .next (if mine then s.requestArrives r else s)

/-- A control message of an operation. -/
def HostReq.isControl (r : HostReq) (op : Nat) : Bool := r.kind = 4 && r.control = op

/-- The row of a control message: its arrival, or the task that it has become. -/
def controlRow (op : Nat) (r : HostReq) (s : State) : Answered :=
  .next (if !r.isControl op then s
    else if r.stream < 16 then s.requestArrives r
    else match (s.region (r.stream - 16)).tasks with
      | q :: _ => if q = { r with stream := r.stream - 16 } then s.performTask (r.stream - 16) else s
      | [] => s)

def execMemoryRead (s : State) : Answered :=
  match s.input with
  | .memoryRead r => hostRow (r.kind = 0) r s
  | _ => .next s
def execMemoryWrite (s : State) : Answered :=
  match s.input with
  | .memoryWrite r => hostRow (r.kind = 1) r s
  | _ => .next s
def execCellRequest (s : State) : Answered :=
  match s.input with
  | .cellRequest r => hostRow (r.kind = 2) r s
  | _ => .next s
def execHostCancel (s : State) : Answered :=
  match s.input with
  | .hostCancel r => hostRow (r.kind = 3) r s
  | _ => .next s

/-- R34. A request that is of no kind, or malformed, is answered UNSUPPORTED. -/
def execUnsupportedRequest (s : State) : Answered :=
  match s.input with
  | .unsupportedRequest r => hostRow (!r.ok s.ubgen) r s
  | _ => .next s
def execAttachQueue (s : State) : Answered :=
  match s.input with
  | .attachQueue r => controlRow 0x01 r s
  | _ => .next s
def execDetachQueue (s : State) : Answered :=
  match s.input with
  | .detachQueue r => controlRow 0x02 r s
  | _ => .next s
def execResetQueue (s : State) : Answered :=
  match s.input with
  | .resetQueue r => controlRow 0x03 r s
  | _ => .next s
def execSetStream (s : State) : Answered :=
  match s.input with
  | .setStream r => controlRow 0x04 r s
  | _ => .next s
def execNegotiate (s : State) : Answered :=
  match s.input with
  | .negotiate r => controlRow 0x05 r s
  | _ => .next s
def execReadCap (s : State) : Answered :=
  match s.input with
  | .readCap r => controlRow 0x06 r s
  | _ => .next s
def execReadStart (s : State) : Answered :=
  match s.input with
  | .readStart r => controlRow 0x07 r s
  | _ => .next s
def execClearStart (s : State) : Answered :=
  match s.input with
  | .clearStart r => controlRow 0x08 r s
  | _ => .next s
def execSelectSlot (s : State) : Answered :=
  match s.input with
  | .selectSlot r => controlRow 0x09 r s
  | _ => .next s
def execAttest (s : State) : Answered :=
  match s.input with
  | .attest r => controlRow 0x0A r s
  | _ => .next s
def execRelocate (s : State) : Answered :=
  match s.input with
  | .relocate r => controlRow 0x0B r s
  | _ => .next s
def execSetSetup (s : State) : Answered :=
  match s.input with
  | .setSetup r => controlRow 0x0C r s
  | _ => .next s

/-! ## Event records (R73, R74) -/

/-- A record in a format version (Table 6). -/
def EvRec.image (e : EvRec) (version lost : Nat) : List Byte :=
  bytesOf 1 version ++ bytesOf 1 (if 0x12 ≤ version then e.sev % 4 * 64 else 0) ++ bytesOf 2 e.kind ++ bytesOf 2 e.source ++
    bytesOf 2 e.seq ++ bytesOf 8 e.time ++ bytesOf 4 e.tag ++ bytesOf 4 (if 0x11 ≤ version then lost else 0) ++
    bytesOf 8 e.payload

/-- The next record of a source sent, where the device is up, the link is up and the interface is open. -/
def State.sendRecord (s : State) (source : Nat) : State :=
  let src := look ({} : Source) s.sources source
  match src.buffer with
  | [] => s
  | e :: rest =>
    if s.phase != .up || (s.port 32).state != 2 || s.version 2 = 0 then s
    else
      let v := if e.early then 0x10 else s.version 2
      ({ s with sources := put s.sources source { src with buffer := rest, lost := if 0x11 ≤ v then 0 else src.lost } } :
        State).toUbgen { kind := 0xA, data := e.image v src.lost }

def execEventRecordSend (s : State) : Answered :=
  match s.input with
  | .eventRecordSend source => .next (s.sendRecord source)
  | _ => .next s

end Sys2Proof.Machine
end

