-- ==== Sys2Proof/Machine/Preempt.lean ====
section
/-! DEFINITION. Pre-emption and the end of a grid that has cores: the instruction boundary, the save area, the Saved state
and the restoration of the core records (spec/14_traps_and_preemption.md R278-R284, spec/05_scheduling.md R90,
spec/21_isa_system.md R457, R461, spec/18_isa_memory.md R368, spec/20_isa_engines.md R427). -/

namespace Sys2Proof.Machine

open Sys2Proof

/-! ## The contexts discarded (R90, R135) -/

/-- The slots of a grid, by core. -/
def State.gridSlots (s : State) (g : Nat) : List Nat :=
  (s.coresOf g).flatMap fun e => (List.range 4).map fun h => slotKey e.1 h

/-- The strands that the stop of a grid finds. -/
def State.strandCount (s : State) (g : Nat) : Nat :=
  ((s.gridSlots g).filter fun k => match (s.slot k).st with
    | .running | .held | .parked => true
    | _ => false).length

/-- A hold of a slot at the Desk of another device is cancelled (R135). -/
def State.cancelFar (s : State) (k : Nat) : State :=
  let sl := s.slot k
  match sl.await with
  | some (.cell seq op _ va _ _ _ _) =>
    match regionOfVA va with
    | .fabric dev addr =>
      if dev = thisDevice || !op.canHold || sl.due = 0 || s.upPorts = [] then s
      else s.send
        { dst := dev, addr := addr, ctx := s.ctxOf k, qos := sl.qos,
          op := .cancel { pa := untranslated, va := addr, ctx := s.ctxOf k, who := s.waiterOf k, seq := seq } } (clusterOf (coreOf k))
    | _ => s
  | _ => s

/-- The core keeps its place in the grid, and the posted accesses that are to be acknowledged. -/
def Core.bare (c : Core) : Core := { grid := c.grid, gx := c.gx, gy := c.gy, bay := c.bay, posted := c.posted }

/-- The contexts of a grid are discarded: its slots are free, its queues empty, its pins released. -/
def State.discardContexts (s : State) (g : Nat) : State :=
  let ks := s.gridSlots g
  let s := ks.foldl State.cancelFar s
  let s : State := { s with
    slots := s.slots.map fun e => if ks.contains e.1 then (e.1, {}) else e
    cores := s.cores.map fun e => if e.2.grid == some g then (e.1, e.2.bare) else e
    parked := s.parked.filter fun p => !ks.contains p.slot }
  s.onGrid g fun x => { x with undealt := [] }

/-- A grid whose strands have stopped goes to Ending. -/
def State.toEnding (s : State) (g : Nat) (saved : Bool) : State :=
  let n := s.strandCount g
  let s := (s.discardContexts g).onGrid g fun x => { x with
    st := .ending, ended := x.ended.map fun e => { e with saved := saved, stopped := n } }
  s.emit (.completionRelease g)

/-- A save that cannot be made (R280, R23): a grid that ends already keeps its cause. -/
def State.saveFailed (s : State) (g : Nat) : State :=
  (s.onGrid g fun x => { x with
    outcome := if x.ended.isSome then x.outcome else preemptFailed
    ended := match x.ended with
      | some e => some e
      | none => some (if x.thermal then { status := 3, cause := Cause.thermal.code }
                      else { status := 1, cause := Cause.saveFault.code }) }).toEnding g false

/-! ## The boundary (R279) -/

/-- Something that a strand of a grid has begun in the device is not at its boundary: a write to a register image or to a
doorbell of its cores on its way, a stolen task on its way, a row operation, or a step of a matrix unit or of an array. -/
def State.unsettled (s : State) (g : Nat) : Bool :=
  let mine (n : Nat) : Bool := (s.core n).grid == some g
  s.coming.any (fun e => match e with
    | .muDoorbell c _ | .copyDoorbell c _ | .vectorDoorbell c _ => mine c
    | .registerImageWrite k _ _ => !isBankSlot k && mine (coreOf k)
    | .stealRequest _ _ (some (some t)) => t.grid = g
    | _ => false) ||
  s.banks.any (fun b => b.2.rowop.any fun r => !isBankSlot r.slot && mine (coreOf r.slot)) ||
  s.clusters.any fun e =>
    (e.2.muRun0 && mine (clusterCore e.1 e.2.muTurn0.1)) || (e.2.muRun1 && mine (clusterCore e.1 (8 + e.2.muTurn1.1))) ||
      e.2.arrays.any fun a => a.2.run && mine (clusterCore e.1 a.2.turn)

/-- R279. Every core of the grid is at a boundary: volumes are handed back (R249), and the save begins where there is a
save area. -/
def State.boundary (s : State) (g : Nat) : State :=
  match s.grid g with
  | none => s
  | some x =>
    if x.st != .stopping then s
    else if s.unsettled g then s.emit (.preemptBoundary g)
    else
      let s := (s.gridSlots g).foldl State.handBack s
      if x.node.save = 0 then s.saveFailed g
      else (s.onGrid g fun x => { x with st := .saving }).emit (.saveComplete g)

def execPreemptBoundary (s : State) : Answered :=
  match s.input with
  | .preemptBoundary g => .next (s.boundary g)
  | _ => .next s

/-! ## The contents of the save area (R281) -/

/-- What a granule of the save area holds. -/
abbrev Packed := List Byte × Granule

/-- Bytes without metadata, in whole granules. -/
def packed (n : Nat) (bs : List Byte) : List Packed :=
  (List.range n).map fun i => ((bs.drop (32 * i) ++ List.replicate 32 0).take 32, {})

/-- Bytes that the specification lays out no further: free values (notes/assumptions/16.md). -/
def openBytes (fresh n : Nat) : List Byte := (List.range n).map fun i => Config.openByte (fresh + i)
def openPacked (fresh n : Nat) : List Packed := packed n (openBytes fresh (32 * n))

def Reg.isCap (r : Reg) : Bool := r.tag == .cap || r.tag == .sealed

/-- Two registers of 16 bytes with their tags. -/
def packPair (a b : Reg) : Packed :=
  (bytesOf 16 a.data.toNat ++ bytesOf 16 b.data.toNat,
   { tag0 := a.isCap, tag1 := b.isCap, bnd := a.tag == .bounded || b.tag == .bounded })

/-- A register image (R143). -/
def packImage (r : Reg) : Packed := (imageBytes r, { tag0 := r.isCap, bnd := r.tag == .bounded })

/-- Bytes of a core's window with their metadata. -/
def State.packWindow (s : State) (n off count : Nat) (mark : Option Bool) : List Packed :=
  (List.range count).map fun i =>
    let pa := windowPA n (off + 32 * i)
    (s.bytes pa 32, { s.granule pa with ctype := 0, bnd := mark.getD (s.granule pa).bnd })

/-- The image of `stbar`; the place of the unsent count beside it is not given. -/
def packStbar (fresh : Nat) (sl : Slot) : Packed :=
  (bytesOf 16 sl.stbar.data.toNat ++ openBytes fresh 16, { tag0 := sl.stbar.isCap })

/-- The parts of a core record that the specification lays out for one slot: its register images and its block. -/
def packRegs (sl : Slot) : List Packed := (List.range 32).map fun r => packImage (sl.reg r)
def packBlock (sl : Slot) : List Packed := packed 4 sl.block

/-- The control registers of a core record. -/
def Core.packControl (c : Core) : List Packed :=
  packed 1 (bytesOf 4 c.xbound.toNat ++ bytesOf 4 c.lsplit.toNat ++ bytesOf 4 c.vpool.toNat ++ bytesOf 4 c.stkctl.toNat ++
    bytesOf 4 c.hmask.toNat ++ bytesOf 4 c.annexctl.toNat ++ bytesOf 4 c.selCount) ++
    [packPair c.ovlh c.thnd] ++ packed 2 []

/-- The core record of a core (Table 11), granule by granule: the offsets beside the parts. -/
def State.coreRecord (s : State) (n : Nat) : List Packed :=
  let c := s.core n
  let sl (h : Nat) : Slot := s.slot (slotKey n h)
  let f := s.fresh
  let spad := s.spadEnd n / 32
  -- 0x00000
  s.packWindow n 0 spad none ++ packed (6144 - spad) [] ++
  -- 0x30000, 0x31000, 0x31100
  (List.range 4).flatMap (fun h => packRegs (sl h)) ++
  (List.range 8).map (fun i => ((s.carousel n i).image, ({} : Granule))) ++
  (List.range 4).flatMap (fun h => packBlock (sl h)) ++
  -- 0x31300, 0x31700, 0x31780, 0x317C0
  openPacked f 32 ++ c.packControl ++
  packed 2 ((List.range 16).flatMap fun i => bytesOf 4 (look 0 c.ev i)) ++ openPacked (f + 1024) 2 ++
  -- 0x31800
  (List.range 8).map (fun i => packPair (s.entryOf n (2 * i)) (s.entryOf n (2 * i + 1))) ++
  [packPair (s.entryOf n 16) {}] ++ openPacked (f + 1088) 7 ++
  -- 0x31A00, 0x31F00, 0x31F60, 0x31F80
  openPacked (f + 1312) 40 ++ (List.range 3).map (fun h => packStbar (f + 2592 + 16 * h) (sl h)) ++
  packed 1 ((List.range 3).flatMap fun h => bytesOf 4 (sl h).vcfg.toNat) ++ openPacked (f + 2640) 4 ++
  -- 0x32000
  openPacked (f + 2768) 1792 ++
  -- 0x40000
  s.packWindow n 0x40000 512 (some (look false c.accMark 0)) ++ s.packWindow n 0x44000 512 (some (look false c.accMark 1))

/-- The posted accesses of a grid that await acknowledgement. -/
def State.postedCount (s : State) (g : Nat) : Nat := ((s.coresOf g).map fun e => e.2.posted.length).sum

/-- The header (Table 10). -/
def State.saveHeader (s : State) (g : Nat) (x : Grid) (state : Nat) : List Byte :=
  bytesOf 1 0x10 ++ bytesOf 1 state ++ bytesOf 2 g ++ bytesOf 2 x.ctx ++ bytesOf 2 x.gw ++ bytesOf 2 x.node.gh ++
    bytesOf 1 x.node.bw ++ bytesOf 1 x.node.bh ++ bytesOf 1 x.node.stages ++ bytesOf 3 0 ++ bytesOf 4 x.trig ++
    bytesOf 4 (s.postedCount g) ++ bytesOf 8 x.addr ++ bytesOf 8 s.time ++ bytesOf 4 (s.coresOf g).length

/-- A bay whose cores have issued a crossbar command since the launch (R284). -/
def State.affineBays (s : State) (g : Nat) : List Nat :=
  (((s.coresOf g).filter fun e => e.2.crossbar).map fun e => e.2.bay).eraseDups

/-- An entry of the bay table. -/
def State.bayEntry (s : State) (g : Nat) (x : Grid) (b : Nat) : List Byte :=
  let (px, py) := x.rects.getD b (0, 0)
  bytesOf 2 px ++ bytesOf 2 py ++ bytesOf 1 (if (s.affineBays g).contains b then 1 else 0) ++ bytesOf 1 (x.stageOf b) ++
    bytesOf 10 0

/-- The offset of the core records, and of one of them by its index. -/
def Grid.recordsAt (x : Grid) : Nat := 0x10000 * ceilDiv (256 + 16 * x.rects.length) 0x10000
def recordSize : Nat := 0x48000

/-- The index of the record of a core: y × gw × bw + x. -/
def Grid.recordIndex (x : Grid) (gx gy : Nat) : Nat := gy * (x.gw * x.node.bw) + gx

/-! ## Reading and writing the save area (R280) -/

/-- The agent as which the launch scheduler of a grid makes its accesses in the grid's context. -/
def Grid.agent (x : Grid) : Agent := { ctx := x.ctx, die := x.region / 4 }

/-- The places of whole granules of the save area: none while a page is drained. The copy engines touch no atomic page. -/
def State.savePlaces (s : State) (a : Agent) (va count : Nat) (u : Use) : Except Cause (Option (List (Spot × Nat))) × State :=
  s.ownFabricParts a u false (sectors count va (32 * count))

/-- Granules written with their metadata. -/
def State.writePacked (s : State) : List (Spot × Nat) → List Packed → State
  | (.mem pa, _) :: ps, (bs, g) :: rest =>
    (((s.storeData pa bs).onGranule pa fun _ => g).touch pa true |>.invalidate pa none).writePacked ps rest
  | _, _ => s

/-- The areas of a save: where each begins, and what it holds. -/
def State.saveAreas (s : State) (g : Nat) (x : Grid) (state : Nat) : List (Nat × List Packed) :=
  let head := packed 8 (s.saveHeader g x state)
  let bays := (List.range x.rects.length).flatMap (s.bayEntry g x)
  (x.node.save, head) :: (x.node.save + 256, packed (ceilDiv bays.length 32) bays) ::
    (s.coresOf g).map fun e =>
      (x.node.save + x.recordsAt + x.recordIndex e.2.gx e.2.gy * recordSize, s.coreRecord e.1)

/-- Every place of a save found before anything is written. -/
def State.findAreas (s : State) (a : Agent) (u : Use) :
    List (Nat × List Packed) → Except Cause (Option (List (List (Spot × Nat)))) × State
  | [] => (.ok (some []), s)
  | (va, ps) :: rest =>
    match s.savePlaces a va ps.length u with
    | (.error c, s) => (.error c, s)
    | (.ok none, s) => (.ok none, s)
    | (.ok (some l), s) =>
      match s.findAreas a u rest with
      | (.ok (some ls), s) => (.ok (some (l :: ls)), s)
      | r => r

/-! ## The Saved state (R281-R283) -/

/-- Deadlines are kept as the cycles that remain. -/
def remaining (now due : Nat) : Nat := due - now

def Slot.suspend (sl : Slot) (now : Nat) : Slot :=
  { sl with
    due := if sl.due = 0 then 0 else max 1 (remaining now sl.due)
    yielding := if sl.yielding = 0 then 0 else max 1 (remaining now sl.yielding) }

def Core.suspend (c : Core) (now : Nat) : Core :=
  { c with
    steal := none, stealWait := false,
    board := c.board.map fun b => { b with due := remaining now b.due }
    posted := c.posted.map fun p => { p with due := remaining now p.due }
    cq := c.cq.map fun q => { q with asked := none } }

/-- The record of a core in the Saved state. -/
def State.savedCore (s : State) (x : Grid) (e : Nat × Core) : SavedCore :=
  { index := x.recordIndex e.2.gx e.2.gy, place := e.1, core := e.2.suspend s.time,
    slots := (List.range 4).map fun h => (s.slot (slotKey e.1 h)).suspend s.time }

/-- The launches in Placing look again. -/
def State.placeAll (s : State) : State :=
  s.emits ((s.grids.filter fun e => e.2.st == .placing).map fun e => .placeGrid e.1)

/-- A pre-empted grid is Saved: its cores are free. -/
def State.becomeSaved (s : State) (g : Nat) (x : Grid) : State :=
  let cores := s.coresOf g
  let ks := s.gridSlots g
  let affine := s.affineBays g
  let saved := cores.map (s.savedCore x)
  let s := s.onGrid g fun x => { x with
    st := .saved, outcome := preemptSaved, saved := saved, affine := affine, last := x.rects, rects := [] }
  let s : State := { s with
    slots := s.slots.map fun e => if ks.contains e.1 then (e.1, {}) else e
    cores := s.cores.map fun e => if e.2.grid == some g then (e.1, {}) else e
    parked := s.parked.filter fun p => !ks.contains p.slot }
  let s := s.placeAll
  if x.thermal && !s.limiter.preempted then s.thermalResume g else s

/-- R280. The save area has been written, or cannot be. -/
def State.finishSave (s : State) (g : Nat) (x : Grid) : State :=
  if x.node.save % 0x10000 != 0 then s.saveFailed g
  else
    let areas := s.saveAreas g x (if x.ended.isSome then 2 else 1)
    match s.findAreas x.agent .write areas with
    | (.error _, s) => s.saveFailed g
    | (.ok none, s) => s.emit (.saveComplete g)
    | (.ok (some places), s) =>
      if places.any fun l => l.any fun p => s.typedAt p.1 p.2 then s.saveFailed g
      else
        let s := (List.range areas.length).foldl (fun s i =>
          s.writePacked (places.getD i []) (areas.getD i (0, [])).2) s.drawn
        if x.ended.isSome then s.toEnding g true else s.becomeSaved g x

/-- The slots of saved cores whose records are to be written again (R283). -/
def Grid.dirtyAreas (x : Grid) : List (Nat × List Packed) :=
  x.saved.flatMap fun c => c.dirty.eraseDups.flatMap fun h =>
    let at_ := x.node.save + 0x10000 * ceilDiv (256 + 16 * x.last.length) 0x10000 + c.index * recordSize
    let sl := c.slots.getD h {}
    [(at_ + 0x30000 + 1024 * h, packRegs sl), (at_ + 0x31100 + 128 * h, packBlock sl)]

/-- The records of a Saved grid brought up to date: an area that can no longer be written stays as it is. -/
def State.updateSaved (s : State) (g : Nat) (x : Grid) : State :=
  let areas := x.dirtyAreas
  if areas = [] then s
  else
    let clean (s : State) : State := s.onGrid g fun x => { x with saved := x.saved.map fun c => { c with dirty := [] } }
    match s.findAreas x.agent .write areas with
    | (.error _, s) => clean s
    | (.ok none, s) => s.emitOnce (.saveComplete g)
    | (.ok (some places), s) =>
      clean ((List.range areas.length).foldl (fun s i =>
        s.writePacked (places.getD i []) (areas.getD i (0, [])).2) s)

def execSaveComplete (s : State) : Answered :=
  match s.input with
  | .saveComplete g =>
    .next (match s.grid g with
      | none => s
      | some x =>
        if x.st == .saving then s.finishSave g x
        else if x.rects = [] then s.updateSaved g x else s)
  | _ => .next s

/-! ## The core records restored (R282) -/

/-- What is read of a record: granules with their metadata. -/
def State.packedAt (s : State) (ps : List (Spot × Nat)) : List (Got × Granule) :=
  ps.map fun p => (s.readSpot p.1 p.2, match p.1 with
    | .mem pa => s.granule pa
    | _ => {})

/-- Granules restored into a window. -/
def State.unpackWindow (s : State) (n : Nat) : Nat → List (Got × Granule) → State
  | _, [] => s
  | off, (g, m) :: rest =>
    let pa := windowPA n off
    let s := (s.store pa g.bytes).onGranule pa fun _ => { m with ctype := 0, bnd := m.bnd && off < 0x40000 }
    s.unpackWindow n (off + 32) rest

/-- The register of 16 bytes at half `i` of the granules read. -/
def unpackReg (l : List (Got × Granule)) (i : Nat) : Reg :=
  let (g, m) := l.getD (i / 2) ({}, {})
  let d : Word128 := BitVec.ofNat 128 (field g.bytes (16 * (i % 2)) 16)
  let cap := if i % 2 = 0 then m.tag0 else m.tag1
  ⟨d, if m.bnd then .bounded else if cap then (if d.getLsbD 121 then .sealed else .cap) else .exact⟩

/-- The state that a code of a slot block names. -/
def slotStateOf (code : Nat) (old : SlotState) : SlotState :=
  match code with
  | 0 => .free | 1 => .starting | 2 => .running | 3 => .held | 4 => .parked | 5 => .lent
  | _ => old

/-- A slot restored from its register images and its block. -/
def Slot.restore (sl : Slot) (regs : List (Got × Granule)) (b : List Byte) : Slot :=
  { sl.fromBlock b true with
    st := slotStateOf (field b 0 1) sl.st
    regs := (List.range 31).map fun i => (i + 1, imageReg (regs.getD (i + 1) ({}, {})).1 true)
    sstat := BitVec.ofNat 32 (field b 4 4) &&& 0xFFFF
    pc := BitVec.ofNat 64 (field b 8 8)
    boosts := (List.range 8).map fun i => field b (56 + 2 * i) 2
    task := sl.task.map fun t => { t with
      pins := (List.range t.pins.length).map fun i => (field b (88 + 8 * i) 4, field b (92 + 8 * i) 4) } }

/-- The parts of a record that the specification lays out, by offset and granules. -/
def recordParts : List (Nat × Nat) :=
  [(0, 6144), (0x30000, 128), (0x31000, 8), (0x31100, 16), (0x31700, 4), (0x31780, 2), (0x31800, 9), (0x31F00, 3), (0x31F60, 1),
   (0x40000, 1024)]

/-- A time put back on the clock. -/
def Slot.revive (sl : Slot) (now : Nat) : Slot :=
  { sl with due := if sl.due = 0 then 0 else now + sl.due, yielding := if sl.yielding = 0 then 0 else now + sl.yielding }

/-- The slots of a core's queues and entries renumbered for its new place. -/
def Core.moveTo (c : Core) (n now : Nat) : Core :=
  let m (k : Nat) : Nat := if isBankSlot k then k else slotKey n (k % 4)
  { c with
    board := c.board.map fun b => { b with slot := m b.slot, due := now + b.due }
    posted := c.posted.map fun p => { p with slot := m p.slot, due := now + p.due }
    muq := c.muq.map fun q => { q with slot := m q.slot }
    vq := c.vq.map fun q => { q with slot := m q.slot }
    cq := c.cq.map fun q => { q with slot := m q.slot }
    xq := c.xq.map fun q => { q with slot := m q.slot } }

/-- A core restored from what was read of its record and from what the Saved state keeps. -/
def State.restoreCore (s : State) (sc : SavedCore) (n bay : Nat) (parts : List (List (Got × Granule))) : State :=
  let p (i : Nat) : List (Got × Granule) := parts.getD i []
  let bs (i : Nat) : List Byte := (p i).flatMap fun g => g.1.bytes
  let w (i off : Nat) : BitVec 32 := BitVec.ofNat 32 (field (bs i) off 4)
  let cars := (List.range 8).map fun i =>
    let b := (p 2).getD i ({}, {})
    let old := look ({} : Carousel) sc.core.cars i
    (i, ({ old with
      base := field b.1.bytes 0 4, size := field b.1.bytes 4 1, cnt := field b.1.bytes 5 1, head := field b.1.bytes 8 4,
      tail := field b.1.bytes 12 4, rsv := field b.1.bytes 16 4 } : Carousel))
  let core : Core := { sc.core with
    bay := bay
    xbound := w 4 0 &&& 0x3FC00, lsplit := w 4 4 &&& 0xF, vpool := w 4 8 &&& 0x1FFFF, stkctl := w 4 12 &&& 0xFFFF,
    hmask := w 4 16 &&& 0xFFFE, annexctl := w 4 20 &&& 0xFF3F, selCount := field (bs 4) 24 4 % 16,
    ovlh := unpackReg (p 4) 2, thnd := unpackReg (p 4) 3,
    ev := (List.range 16).map fun i => (i, field (bs 5) (4 * i) 4),
    cat := (List.range 17).map fun i => (i, unpackReg (p 6) i),
    cars := cars,
    accMark := [(0, ((p 9).take 512).any fun g => g.2.bnd), (1, ((p 9).drop 512).any fun g => g.2.bnd)],
    lines := [], pooled := [] }
  let s := s.onCore n fun _ => core.moveTo n s.time
  let s := (s.unpackWindow n 0 (p 0)).unpackWindow n 0x40000 (p 9)
  (List.range 4).foldl (fun s h =>
    let old := sc.slots.getD h {}
    let sl := old.restore ((p 1).drop (32 * h) |>.take 32) ((bs 3).drop (128 * h) |>.take 128)
    let stb := ((p 7).getD h ({}, {}))
    let sl := if h < 3 then { sl with
        stbar := ⟨BitVec.ofNat 128 (field stb.1.bytes 0 16), if stb.2.tag0 then .cap else .exact⟩
        vcfg := (vcfgOf (w 8 (4 * h)).toNat).getD 0 } else sl
    s.setSlot (slotKey n h) (sl.revive s.time)) s

/-- An event for a core of a grid that has moved goes to the core's new place. -/
def retarget (g : Nat) (moves : List (Nat × Nat)) (census : Nat → Bool) (e : Event) : Event :=
  let to_ (n : Nat) : Nat := look n moves n
  match e with
  | .messageArrival n m => if m.grid = g then .messageArrival (to_ n) m else e
  | .callSlip n m => if m.grid = g then .callSlip (to_ n) m else e
  | .migrateArrival n m => if m.grid = g then .migrateArrival (to_ n) m else e
  | .censusreq id n => if census id then .censusreq id (to_ n) else e
  | e => e

/-- The same for everything that is to come, in the mesh too. -/
def State.retargetAll (s : State) (g : Nat) (moves : List (Nat × Nat)) (census : Nat → Bool) : State :=
  let f := retarget g moves census
  { s with
    agenda := s.agenda.map f
    net := { s.net with
      flights := s.net.flights.map fun x => { x with act := f x.act, copies := x.copies.map fun c => (c.1, f c.2) }
      ingress := s.net.ingress.map fun x => { x with act := f x.act } } }

/-- What a restored slot asks for: its start, its deadlines, an answer that came while it was saved (R133), its volume
(R249); a slot that is Parked or in its handler binds again when it resumes. -/
def State.wakeSlot (s : State) (k : Nat) : State :=
  let sl := s.slot k
  let s := match sl.answered with
    | some a => (s.onSlot k fun sl => { sl with answered := none }).emit (.wake a)
    | none => s
  let s := if sl.st == .starting then s.emit (.taskStart k) else s
  let s := if sl.yielding != 0 then s.emit (.yieldExpiry k) else s
  let s := match sl.await with
    | some (.cell seq _ _ _ _ _ _ _) => if sl.due = 0 then s else s.emit (.replyDeadline (coreOf k) seq)
    | _ => s
  if sl.vsz = 0 || sl.st == .free || sl.st == .lent || sl.st == .parked || sl.inh then s
  else match s.tryBind k sl.vsz with
    | (0, s) => s
    | (_, s) => s.onSlot k fun sl => sl.setVsz 0

/-- What a restored core asks for. -/
def State.wakeCore (s : State) (n : Nat) : State :=
  let c := s.core n
  let s := s.emits ((c.board.map fun b => .replyDeadline n b.seq) ++ (c.posted.map fun p => .postedTimeout n p.tag) ++
    (c.cq.filterMap fun q => q.stream.map fun i => .streamElement q.slot i))
  let s := s.wakeEngines n
  let s := c.xq.foldl (fun s x => s.askArray (clusterOf n) x.array) s
  let s := (List.range 4).foldl (fun s h => s.wakeSlot (slotKey n h)) s
  ((s.admitWaiting n 32).recheckFeet n).emits [.messageReady n, .taskSelect n, .annexStart n]

/-- The records of a grid read: one list of parts for each saved core. -/
def State.readRecords (s : State) (x : Grid) : List SavedCore → Except Cause (Option (List (List (List (Got × Granule))))) × State
  | [] => (.ok (some []), s)
  | sc :: rest =>
    let at_ := x.node.save + x.recordsAt + sc.index * recordSize
    match s.findAreas x.agent .read (recordParts.map fun p => (at_ + p.1, List.replicate p.2 ([], {}))) with
    | (.error c, s) => (.error c, s)
    | (.ok none, s) => (.ok none, s)
    | (.ok (some places), s) =>
      match s.readRecords x rest with
      | (.ok (some l), s) => (.ok (some (places.map s.packedAt :: l)), s)
      | r => r

/-- The bay that holds grid coordinates. -/
def Grid.bayOf (x : Grid) (gx gy : Nat) : Nat := gx / x.node.bw + x.gw * (gy / x.node.bh)

/-- R282. A grid that has been placed again is restored: none while a page of its save area is drained; a record that cannot
be read ends the grid. Poison is carried with the bytes of local memory. -/
def State.restoreGrid (s : State) (g : Nat) : Option State :=
  match s.grid g with
  | none => some s
  | some x =>
    match s.readRecords x x.saved with
    | (.error _, s) => some (s.endUnrun g 1 .saveFault x.node.save)
    | (.ok none, _) => none
    | (.ok (some records), s) =>
      let placed := x.saved.map fun sc => (sc, (s.gridCore g sc.core.gx sc.core.gy).getD sc.place)
      let moves := placed.map fun e => (e.1.place, e.2)
      let ours (id : Nat) : Bool := s.censuses.any fun c => c.id = id && bits (s.image c.pa) 223 208 = g
      let s := s.retargetAll g moves ours
      let s := (List.range placed.length).foldl (fun s i =>
        let (sc, n) := placed.getD i ({ index := 0, place := 0, core := {}, slots := [] }, 0)
        s.restoreCore sc n (x.bayOf sc.core.gx sc.core.gy) (records.getD i [])) s
      let s := s.onGrid g fun x => { x with st := .running, resuming := false, saved := [], affine := [] }
      let s := placed.foldl (fun s e => s.wakeCore e.2) s
      some (s.checkGridEnd g)

end Sys2Proof.Machine
end

