-- ==== Sys2Proof/Machine/Queues.lean ====
section
/-! DEFINITION. Command queues: the queue agents, the order in which a service core takes commands, and the commands but
for `LAUNCH` (spec/04_host_interface.md R68-R71). -/

namespace Sys2Proof.Machine

open Sys2Proof

/-! ## Queue agents (R68) -/

/-- A Desk request of a queue agent of a service core to a cell of another device (R138). -/
def State.agentAsk (s : State) (region tag va : Nat) (op : DeskOp) (r : DeskReq) : State :=
  let addr := bits va 49 0
  s.send
    { dst := bits va 62 50, addr := addr, ctx := r.ctx, entry := tag,
      op := .cell op { r with va := addr, pa := untranslated, seq := tag } } (clusterOf (serviceCore region))

/-- An address of the fabric window that names another device. -/
def farAway (va : Nat) : Bool := isFabric va && bits va 62 50 != thisDevice

/-- The agent of a queue pops it, with an ordinary QPOP: the cell is found by its address each time. DESIGN CHOICE
(notes/assumptions/60.md): the pop, and the cell requests of the queue's commands, carry the priority of the queue, which R68 does not
say. -/
def State.agentPop (s : State) (region i : Nat) (q : Queue) : State :=
  let tag := s.fresh
  let r : DeskReq := { va := q.cell, ctx := q.ctx, who := agentWaiter region i, seq := tag, prio := q.prio, elen := 64 }
  let popping (s : State) : State := s.onQueue region i fun q => { q with popping := some tag }
  if q.pa < untranslated then
    match s.drawn.findCell (controlAgent region q.ctx) q.address .qpop with
    | (.park, s) => s.emit (.queueAgentPop (16 * region + i))
    | (.fail _, s) | (.untyped, s) => s.stopQueue region i
    | (.cell pa, s) =>
      if (s.granule pa).poison then s.stopQueue region i
      else match (s.onQueue region i fun q => { q with pa := pa }).desk .qpop { r with pa := pa } with
        | (.park, _) => s.emit (.queueAgentPop (16 * region + i))
        | (.held, s) => popping s
        | (.done 0 _ cmd, s) => s.onQueue region i fun q => { q with taken := some cmd }
        | (.done _ _ _, s) => s.stopQueue region i
  else if s.upPorts = [] then s.stopQueue region i
  else popping (s.drawn.agentAsk region tag q.cell .qpop r)

/-! ## Taking commands (R68, R70) -/

/-- The head command of a queue can start: the one before has started, a `WAIT` has completed, and for a serial command or
an `EVENT` every earlier one has. -/
def Queue.startable (q : Queue) : Bool :=
  !q.stopped && q.starting.isNone && q.resetting.isNone && !(q.pending.any fun e => cmdKind e.2 = 2) && match q.taken with
    | none => false
    | some cmd => (!bit (cmdFlags cmd) 0 && cmdKind cmd != 5) || q.running = 0

/-- The queue from which a service core takes: the highest priority, and round robin among equals. -/
def Region.nextQueue (g : Region) : Option (Nat × Queue) :=
  let ready := g.queues.filter fun e => e.2.startable
  let top := ready.foldl (fun m e => max m e.2.prio) 0
  ((List.range 16).map fun d => (g.lastQueue + 1 + d) % 16).findSome? fun i =>
    ready.find? fun e => e.1 = i && e.2.prio = top

/-- The step that a command is (R69 Table 4). -/
def commandEvent (q : Nat) (cmd : List Byte) : Option Event :=
  match cmdKind cmd with
  | 0 => some (.nop q cmd)
  | 1 => some (.launch q cmd)
  | 2 => some (.wait q cmd)
  | 3 => some (.signal q cmd)
  | 4 => some (.write q cmd)
  | 5 => some (.event q cmd)
  | _ => none

/-- A cause that the specification does not give: a free value (notes/assumptions/24.md). -/
def State.freeCause (s : State) : Nat := Config.choice s.fresh % 65536

/-- The service core of a region takes a command. -/
def State.takeCommand (s : State) (region : Nat) : State :=
  match (s.region region).nextQueue with
  | none => s
  | some (i, q) =>
    let cmd := q.taken.getD []
    let s := (s.onRegion region fun g => { g with lastQueue := i }).onQueue region i fun q =>
      { q with taken := none, starting := some cmd }
    let s := match commandEvent (16 * region + i) cmd with
      | some e => s.emit e
      | none => s.drawn.commandFailed region i s.freeCause cmd
    let s := s.emitOnce (.queueAgentPop (16 * region + i))
    match (s.region region).nextQueue with
    | some (j, _) => s.emitOnce (.queueAgentPop (16 * region + j))
    | none => s

/-- R68. The agent of a queue pops it where it may, and the service core takes the command that is next. -/
def execQueueAgentPop (s : State) : Answered :=
  match s.input with
  | .queueAgentPop n =>
    let region := n / 16
    let i := n % 16
    .next (match s.queue region i with
      | none => s
      | some q =>
        let s := if q.stopped || q.popping.isSome || q.taken.isSome || q.detaching || q.resetting.isSome then s else s.agentPop region i q
        s.takeCommand region)
  | _ => .next s

/-! ## The start of a command (R69, R71) -/

/-- A number of zero bytes at an offset of a command. -/
def zeroAt (cmd : List Byte) (off n : Nat) : Bool := field cmd off n = 0

/-- The header of a command in the negotiated format: its reserved fields are 0. -/
def State.headerOk (s : State) (cmd : List Byte) : Bool :=
  cmd.length = 64 && cmdFlags cmd / 8 = 0 && (0x11 ≤ s.version 0 || !bit (cmdFlags cmd) 2) && zeroAt cmd 2 2

/-- The queue whose taken command is the one given. -/
def State.startingAt (s : State) (n : Nat) (cmd : List Byte) : Option Queue :=
  match s.queue (n / 16) (n % 16) with
  | some q => if q.starting == some cmd && !q.stopped then some q else none
  | none => none

/-- A command has started: `waits` is the tag of the access whose answer completes it. The next command of its queue may be taken,
and a queue that is being detached leaves. -/
def State.begins (s : State) (n : Nat) (cmd : List Byte) (waits : Option Nat := none) : State :=
  ((s.onQueue (n / 16) (n % 16) fun q => { q with
    starting := none, running := q.running + 1, pending := (waits.map fun t => (t, cmd)).toList ++ q.pending }).dropDetached
      (n / 16) (n % 16)).emitOnce (.queueAgentPop n)

/-- A command starts and completes. -/
def State.beginsAndEnds (s : State) (n : Nat) (cmd : List Byte) : State :=
  ((s.onQueue (n / 16) (n % 16) fun q => { q with starting := none, running := q.running + 1 }).commandDone (n / 16) (n % 16)
    cmd).emitOnce (.queueAgentPop n)

/-- A command starts, and the answer under a tag completes it. -/
def State.beginsWaiting (s : State) (n : Nat) (cmd : List Byte) (tag : Nat) : State := s.begins n cmd (some tag)

def State.refuse (s : State) (n : Nat) (c : Cause) (cmd : List Byte) : State := s.commandFailed (n / 16) (n % 16) c.code cmd

/-- A command whose format fails stops its queue with a cause that the specification does not give. -/
def State.malformed (s : State) (n : Nat) (cmd : List Byte) : State :=
  s.drawn.commandFailed (n / 16) (n % 16) s.freeCause cmd

/-- A command performed as it is due: `ok` says that its body is well formed; any other event of the row does nothing. -/
def State.command (s : State) (n kind : Nat) (cmd : List Byte) (ok : Bool) (act : State → Queue → State) : State :=
  match s.startingAt n cmd with
  | none => s
  | some q =>
    if cmdKind cmd != kind then s
    else if !(s.headerOk cmd && ok) then s.malformed n cmd
    else act s q

/-- The cell operation of a `WAIT` or a `SIGNAL` (R69, R71), in the context of the queue. -/
def State.commandCell (s : State) (n : Nat) (cmd : List Byte) (q : Queue) (op : DeskOp) (amount : Int) (again : Event) : State :=
  let va := field cmd 8 8
  let tag := s.fresh
  let r : DeskReq := { va := va, ctx := q.ctx, who := agentWaiter (n / 16) (n % 16), seq := tag, prio := q.prio, n := amount }
  if farAway va then
    if s.upPorts = [] then s.refuse n .noRoute cmd
    else (s.drawn.agentAsk (n / 16) tag va op r).beginsWaiting n cmd tag
  else match s.findCell (controlAgent (n / 16) q.ctx) (if isFabric va then bits va 49 0 else va) op with
    | (.fail c, s) => s.refuse n c cmd
    | (.untyped, s) => s.refuse n .type cmd
    | (.park, s) => s.emit again
    | (.cell pa, s) =>
      if (s.granule pa).poison then s.refuse n .poison cmd
      else match s.drawn.desk op { r with pa := pa } with
        | (.park, _) => s.emit again
        | (.held, s) => s.beginsWaiting n cmd tag
        | (.done st _ _, s) =>
          match deskFault st with
          | some c => s.refuse n c cmd
          | none => s.beginsAndEnds n cmd

/-- R69. `WAIT`. -/
def execWait (s : State) : Answered :=
  match s.input with
  | .wait n cmd => .next (s.command n 2 cmd (zeroAt cmd 16 48) fun s q => s.commandCell n cmd q .cwait 0 (.wait n cmd))
  | _ => .next s

/-- R69. `SIGNAL`. -/
def execSignal (s : State) : Answered :=
  match s.input with
  | .signal n cmd =>
    .next (s.command n 3 cmd (zeroAt cmd 20 44) fun s q =>
      s.commandCell n cmd q .cadd (signed 32 (field cmd 16 4)) (.signal n cmd))
  | _ => .next s

/-- The bytes of a `WRITE` stored (R69, R71). -/
def State.commandWrite (s : State) (n : Nat) (cmd : List Byte) (q : Queue) : State :=
  let va := field cmd 8 8
  let len := field cmd 16 1
  let data := (cmd.drop 32).take len
  if farAway va then
    if s.upPorts = [] then s.refuse n .noRoute cmd
    else
      let tag := s.fresh
      (s.drawn.send
        { dst := bits va 62 50, addr := bits va 49 0, ctx := q.ctx, entry := tag, acq := true, op := .store data false false false none }
        (clusterOf (serviceCore (n / 16)))).beginsWaiting n cmd tag
  else match s.ownFabricParts (controlAgent (n / 16) q.ctx) .write true (partsOf (if isFabric va then bits va 49 0 else va) len) with
    | (.error c, s) => s.refuse n c cmd
    | (.ok none, s) => s.emit (.write n cmd)
    | (.ok (some parts), s) =>
      if parts.any fun p => s.typedAt p.1 p.2 then s.refuse n .type cmd
      else (s.writeParts 0 .other none .plain parts data).beginsAndEnds n cmd

/-- R69. `WRITE`. -/
def execWrite (s : State) : Answered :=
  match s.input with
  | .write n cmd =>
    let len := field cmd 16 1
    .next (s.command n 4 cmd (zeroAt cmd 17 15 && 1 ≤ len && len ≤ 32) fun s q => s.commandWrite n cmd q)
  | _ => .next s

/-- R69, R70. `EVENT`: its record goes to the host; no kind of Table 7 but `CMD_DONE` is a command's. -/
def execEvent (s : State) : Answered :=
  match s.input with
  | .event n cmd =>
    .next (s.command n 5 cmd (zeroAt cmd 8 56) fun s q =>
      (s.record (sourceOfService (n / 16)) none 0x1 q.cell (cmdTag cmd)).beginsAndEnds n cmd)
  | _ => .next s

/-- R69. `NOP`. -/
def execNop (s : State) : Answered :=
  match s.input with
  | .nop n cmd => .next (s.command n 0 cmd (zeroAt cmd 8 56) fun s _ => s.beginsAndEnds n cmd)
  | _ => .next s

end Sys2Proof.Machine
end

