-- ==== Sys2Proof/Machine/Launch.lean ====
section
/-! DEFINITION. The launch schedulers: hand-off, the wait for predecessors, placement, core set-up, dealing, footprint copies,
the steps of Ending and the release of successors (spec/05_scheduling.md R75-R83, spec/04_host_interface.md R72,
spec/21_isa_system.md R468, R469). -/

namespace Sys2Proof.Machine

open Sys2Proof

/-! ## Accesses of a launch scheduler (R75) -/

/-- An address on this device, whether or not it is named through the fabric window (R45). -/
def atHome (va : Nat) : Nat := if isFabric va && bits va 62 50 = thisDevice then bits va 49 0 else va

/-- The waiter id of a launch scheduler: its service core (R111). -/
def schedWaiter (region : Nat) : Waiter := ⟨thisDevice, 6, 0, region, 16, 0⟩

/-- The agent of a launch scheduler in a context. -/
def schedAgent (region ctx : Nat) : Agent := { ctx := ctx, die := region / 4 }

/-- An access of a launch scheduler to another device is asked for. -/
def State.farAsk (s : State) (region ctx : Nat) (ask : Nat × FabricOp) : State :=
  let tag := s.fresh
  ({ s.drawn with far := s.far ++ [⟨tag, ctx, ask.1, ask.2, none⟩] } : State).send
    { dst := bits ask.1 62 50, addr := bits ask.1 49 0, ctx := ctx, entry := tag, acq := true, op := ask.2 }
    (clusterOf (serviceCore region))

/-- The answers to accesses of another device: none until all have come. -/
def State.farAll (s : State) (region ctx : Nat) (asks : List (Nat × FabricOp)) : Except Cause (Option (List Reply)) × State :=
  let is (a : Nat × FabricOp) (e : FarAccess) : Bool := e.ctx = ctx && e.addr = a.1 && e.op = a.2
  let missing := asks.filter fun a => !s.far.any (is a)
  if missing != [] then
    if s.upPorts = [] then (.error .noRoute, s) else (.ok none, missing.foldl (fun s a => s.farAsk region ctx a) s)
  else
    let rs := asks.map fun a => (s.far.find? (is a)).bind (·.reply)
    if rs.any (·.isNone) then (.ok none, s)
    else
      let s : State := { s with far := s.far.filter fun e => !asks.any fun a => is a e }
      let rs := rs.filterMap id
      (match rs.find? fun r => r.status != .none with
        | some r => .error r.status
        | none => .ok (some rs), s)

/-- What a reply to a read of `n` bytes holds. -/
def Reply.got (r : Reply) (n : Nat) : Got :=
  let v := r.vals.getD 0 {}
  { bytes := bytesOf n v.data.toNat, bnd := v.tag == .bounded, tag := v.tag == .cap || v.tag == .sealed }

/-- Parts read one by one, each with its metadata; poison is a failure; none while the read has to wait. -/
def State.schedRead (s : State) (region ctx : Nat) (parts : List (Nat × Nat)) : Except Cause (Option (List Got)) × State :=
  if parts.any fun p => farAway p.1 then
    match s.farAll region ctx (parts.map fun p => (p.1, if p.2 = 16 then FabricOp.capLoad else .load p.2)) with
    | (.error c, s) => (.error c, s)
    | (.ok none, s) => (.ok none, s)
    | (.ok (some rs), s) => (.ok (some ((List.zip rs parts).map fun e => e.1.got e.2.2)), s)
  else match s.ownFabricParts (schedAgent region ctx) .read true parts with
    | (.error c, s) => (.error c, s)
    | (.ok none, s) => (.ok none, s)
    | (.ok (some ps), s) =>
      let (gs, s) := ps.foldl (fun (r : List Got × State) p =>
        let (g, s) := r.2.readParts 0 [p]
        (r.1 ++ [g], s)) ([], s)
      (if gs.any (·.poison) then .error .poison else .ok (some gs), s)

/-- A little-endian number of `n` bytes. -/
def State.schedNum (s : State) (region ctx va n : Nat) : Except Cause (Option Nat) × State :=
  match s.schedRead region ctx (sectors 2 (atHome va) n) with
  | (.error c, s) => (.error c, s)
  | (.ok none, s) => (.ok none, s)
  | (.ok (some gs), s) => (.ok (some (ofBytes (gs.flatMap (·.bytes)))), s)

/-- Granules of 16 bytes from an address. -/
def State.schedGranules (s : State) (region ctx va count : Nat) : Except Cause (Option (List Got)) × State :=
  s.schedRead region ctx ((List.range count).map fun i => (atHome va + 16 * i, 16))

/-- The register that a granule of a record holds, with its tag (R75, R469). -/
def Got.reg (g : Got) : Reg :=
  let d : Word128 := BitVec.ofNat 128 (ofBytes g.bytes)
  ⟨d, if g.bnd then .bounded else if g.tag then (if d.getLsbD 121 then .sealed else .cap) else .exact⟩

/-! ## The node record (R75, R76) -/

def footOf (gs : List Got) (i : Nat) : Foot :=
  let b := (gs.getD (9 + 2 * i) {}).bytes
  { handle := (gs.getD (8 + 2 * i) {}).reg, len := field b 0 4, dst := field b 4 4, stride := field b 8 4 }

/-- A node record from its 16 granules (Table 1). -/
def nodeOf (gs : List Got) : Node :=
  let b := gs.flatMap (·.bytes)
  { flags := field b 1 1, qos := field b 2 1, prio := field b 3 1, bw := field b 4 1, bh := field b 5 1, gw := field b 6 2,
    gh := field b 8 2, stages := field b 10 1, cls := field b 11 1, tasks := field b 12 1, succ := field b 14 2,
    entry := (gs.getD 1 {}).reg, arg0 := (gs.getD 2 {}).reg, arg1 := (gs.getD 3 {}).reg,
    pred := field b 64 8, slist := field b 72 8, icount := field b 80 8, save := field b 88 8, setup := field b 96 8,
    foots := (List.range (field b 13 1)).map (footOf gs) }

def Node.indirect (n : Node) : Bool := bit n.flags 0
def Node.noholes (n : Node) : Bool := bit n.flags 1
def Node.runafter (n : Node) : Bool := bit n.flags 2

/-- A number in a range. -/
def within (lo v hi : Nat) : Bool := decide (lo ≤ v) && decide (v ≤ hi)

/-- A footprint entry in use is well formed (R76, Table 2). -/
def Foot.ok (f : Foot) : Bool :=
  let ea := capAddr f.handle.data
  within 32 f.len 0x20000 && f.len % 32 = 0 && f.dst % 32 = 0 && f.stride % 32 = 0 && decide (f.dst + f.len ≤ 0x30000) &&
    f.handle.tag == .cap && (withG [permR] ea).all (hasPerm f.handle.data) && (decodeBounds f.handle.data).isSome

/-- The checks of R76 on a record's bytes and on the node read from them. DESIGN CHOICE (notes/assumptions/76.md): the reserved bytes
28-31 are checked in the footprint entries in use alone, as the rule's own checks of an entry are. -/
def nodeOk (gs : List Got) : Bool :=
  let b := gs.flatMap (·.bytes)
  let n := nodeOf gs
  let reservedFoot (i : Nat) : Bool := field b (128 + 32 * i + 28) 4 = 0
  field b 0 1 = 0x10 && bits n.flags 6 3 = 0 && n.qos / 8 = 0 && n.prio / 8 = 0 && within 1 n.bw 64 && within 1 n.bh 64 &&
    (n.indirect || (within 1 n.gw 16368 && n.stages != 0 && n.gw % n.stages = 0)) && within 1 n.gh 16368 &&
    within 1 n.stages 16 && within 1 n.cls 15 && within 1 n.tasks 64 && decide (field b 13 1 ≤ 4) &&
    decide (n.succ ≤ 1024) && field b 104 24 = 0 && handlerOpen n.entry && (!n.indirect || n.icount % 4 = 0) &&
    n.setup % 64 = 0 && n.foots.all Foot.ok && (List.range n.foots.length).all reservedFoot

/-- The next grid number (R111): the lowest that is not live from the last one on. -/
def State.newGridNumber (s : State) : Nat :=
  let used := s.grids.map (·.1)
  ((freeId used (65535 - s.nextGrid) s.nextGrid).orElse fun _ => freeId used s.nextGrid 0).getD 0

/-! ## Waiting (R77) -/

/-- The cause of a failed access to a cell: REMOTE_FAULT through the fabric window, as `cnt.wait` would take it; a cell that is no
counter gives TYPE wherever it lies (R77). -/
def cellCause (va : Nat) (c : Cause) : Cause := if isFabric va && c != .type then .remoteFault else c

/-- The wait on the predecessor counter. -/
def State.waitPred (s : State) (g : Nat) (x : Grid) : State :=
  let va := x.node.pred
  let tag := s.fresh
  let r : DeskReq := { va := va, ctx := x.ctx, who := schedWaiter x.region, seq := tag, prio := x.node.prio }
  let waits (s : State) : State := s.onGrid g fun x => { x with st := .waiting, waitSeq := tag }
  if farAway va then
    if s.upPorts = [] then s.endUnrun g 1 .noRoute va else waits (s.drawn.agentAsk x.region tag va .cwait r)
  else match s.findCell x.agent (atHome va) .cwait with
    | (.fail c, s) => s.endUnrun g 1 (cellCause va c) va
    | (.untyped, s) => s.endUnrun g 1 (cellCause va .type) va
    | (.park, s) => s.emit (.launchReady g)
    | (.cell pa, s) =>
      if (s.granule pa).poison then s.endUnrun g 1 (cellCause va .poison) va
      else match s.drawn.desk .cwait { r with pa := pa } with
        | (.park, _) => s.emit (.launchReady g)
        | (.held, s) => waits s
        | (.done 0 _ _, s) => (s.onGrid g fun x => { x with st := .ready }).emit (.launchReady g)
        | (.done st _ _, s) => s.endUnrun g 1 (statusCause st) va

/-! ## Hand-off (R70, R75-R77) -/

/-- A launch that has been handed to its scheduler. -/
def State.handOff (s : State) (n : Nat) (cmd : List Byte) (q : Queue) (node : Node) : State :=
  let g := s.newGridNumber
  let x : Grid :=
    { num := g, node := node, addr := field cmd 8 8, counter := field cmd 16 8, errAddr := field cmd 24 8,
      ctx := field cmd 32 2, tag := cmdTag cmd, flags := cmdFlags cmd, queue := n, region := n / 16, gw := node.gw,
      attach := q.num, cell := q.cell }
  let s := s.begins n cmd
  let s := { s with
    grids := put s.grids g x, nextGrid := (g + 1) % 65535, outcomes := without s.outcomes g }
  if node.pred = 0 then (s.onGrid g fun x => { x with st := .ready }).emit (.launchReady g)
  else s.waitPred g x

/-- R75, R76. A `LAUNCH` starts: its record is read and checked. DESIGN CHOICE (notes/assumptions/76.md): two launches name the same
record where their contexts and the record's addresses are equal. -/
def State.launch (s : State) (n : Nat) (cmd : List Byte) (q : Queue) : State :=
  let va := field cmd 8 8
  let ctx := field cmd 32 2
  if va % 64 != 0 then s.refuse n .nodeFormat cmd
  else if s.grids.any fun e => e.2.ctx = ctx && e.2.addr = va then s.refuse n .nodeBusy cmd
  else match s.schedGranules (n / 16) ctx va 16 with
    | (.error c, s) => s.refuse n c cmd
    | (.ok none, s) => s.emit (.launch n cmd)
    | (.ok (some gs), s) => if nodeOk gs then s.handOff n cmd q (nodeOf gs) else s.refuse n .nodeFormat cmd

/-- R76. Command that hands a node record to the launch scheduler. -/
def execLaunch (s : State) : Answered :=
  match s.input with
  | .launch n cmd => .next (s.command n 1 cmd (zeroAt cmd 34 30) fun s q => s.launch n cmd q)
  | _ => .next s

/-! ## Ready (R81, R82) -/

/-- A launch enters Placing. -/
def State.enterPlacing (s : State) (g : Nat) (gw : Nat) : State :=
  (s.drawn.onGrid g fun x => { x with st := .placing, gw := gw, order := s.fresh }).emit (.placeGrid g)

/-- The indirect count read and taken as the grid's width (R82). -/
def State.readCount (s : State) (g : Nat) (x : Grid) : State :=
  match s.schedNum x.region x.ctx x.node.icount 4 with
  | (.error c, s) => s.endUnrun g 1 c x.node.icount
  | (.ok none, s) => s.emit (.launchReady g)
  | (.ok (some 0), s) => s.endUnrun g 0 .none
  | (.ok (some w), s) =>
    if w % x.node.stages != 0 || 16368 < w * x.node.gh then s.endUnrun g 1 .launchShape else s.enterPlacing g w

/-- R81, R82. Ready: `pfault`, then the indirect count. -/
def State.readyStep (s : State) (g : Nat) (x : Grid) : State :=
  match s.schedNum x.region x.ctx (x.addr + 1) 1 with
  | (.error c, s) => s.endUnrun g 1 c (x.addr + 1)
  | (.ok none, s) => s.emit (.launchReady g)
  | (.ok (some f), s) =>
    if bit f 7 && !x.node.runafter then s.endUnrun g 1 .predFault
    else if x.node.indirect then s.readCount g x
    else s.enterPlacing g x.node.gw

def execLaunchReady (s : State) : Answered :=
  match s.input with
  | .launchReady g => .next (match s.grid g with
    | none => s
    | some x =>
      if x.st == .handed then s.waitPred g x else if x.st == .ready then s.readyStep g x else s)
  | _ => .next s

/-! ## Placement (R78, R284) -/

/-- The cores of a rectangle in row-major order. -/
def rectCores (bw bh px py : Nat) : List Nat := (List.range (bw * bh)).map fun q => coreAt (px + q % bw) (py + q / bw)

/-- Two rectangles of one size share a core. -/
def rectsMeet (bw bh : Nat) (a b : Nat × Nat) : Bool :=
  decide (a.1 < b.1 + bw) && decide (b.1 < a.1 + bw) && decide (a.2 < b.2 + bh) && decide (b.2 < a.2 + bh)

/-- A bay of a grid can lie at a rectangle beside those that the earlier bays have: on one die, on cores that are not holes,
and, unless the device is taken as idle, free. A bay restored keeps its cores off the holes, and one that has used a crossbar
array keeps its rectangle. -/
def State.bayFits (s : State) (x : Grid) (idle whole : Bool) (b : Nat) (r : Nat × Nat) (taken : List (Nat × Nat)) : Bool :=
  let bw := x.node.bw
  let bh := x.node.bh
  let (px, py) := r
  decide (px + bw ≤ 128) && decide (py + bh ≤ 128) && px / 64 = (px + bw - 1) / 64 && py / 64 = (py + bh - 1) / 64 &&
    !taken.any (rectsMeet bw bh r) && (!x.resuming || !x.affine.contains b || x.last[b]? == some r) &&
    (let solid := (rectCores bw bh px py).filter fun n => !s.isHole n
     solid != [] && (!whole || solid.length = bw * bh) && (idle || solid.all fun n => (s.core n).grid.isNone) &&
     (!x.resuming || x.saved.all fun c =>
       x.bayOf c.core.gx c.core.gy != b || !s.isHole (coreAt (px + c.core.gx % bw) (py + c.core.gy % bh))))

/-- The first place, from a number on, for which a search answers. -/
def firstPlace {α : Type} (f : Nat → Option α) : Nat → Nat → Option α
  | 0, _ => none
  | n + 1, p => (f p).orElse fun _ => firstPlace f n (p + 1)

/-- Rectangles for the bays in order, or none where no choice of them fits. -/
def packBays (fits : Nat → Nat × Nat → List (Nat × Nat) → Bool) : List Nat → List (Nat × Nat) → Option (List (Nat × Nat))
  | [], acc => some acc
  | b :: bs, acc => firstPlace (fun p =>
      let r := (p % 128, p / 128)
      if fits b r acc then packBays fits bs (acc ++ [r]) else none) 16384 0

/-- Where a grid can be placed: on rectangles without holes where there are such, else on any that `noholes` allows. -/
def State.findPlace (s : State) (x : Grid) (idle : Bool) : Option (List (Nat × Nat)) :=
  let cores := x.gw * x.node.gh * x.node.bw * x.node.bh
  let pack (whole : Bool) := packBays (s.bayFits x idle whole) (List.range (x.gw * x.node.gh)) []
  if 16384 < cores then none else (pack true).orElse fun _ => if x.node.noholes then none else pack false

/-- R468. A core is returned to a clean state, for a grid or for none. -/
def State.cleanCore (s : State) (n : Nat) (c : Core) : State :=
  let s := s.wipe (windowPA n 0) 0x100000
  { s with
    cores := put s.cores n c
    slots := s.slots.map fun e => if coreOf e.1 = n && !isBankSlot e.1 then (e.1, {}) else e
    flips := s.flips.filter fun f => match f.at_ with
      | .register k _ _ => !(coreOf k = n && !isBankSlot k)
      | .memory pa => !(windowPA n 0 ≤ pa && pa < windowPA (n + 1) 0)
      | _ => true }

/-- The cores of a grid reserved at its rectangles. -/
def State.reserve (s : State) (g : Nat) (x : Grid) (rs : List (Nat × Nat)) : State :=
  let bw := x.node.bw
  let s := s.onGrid g fun x => { x with rects := rs }
  (List.range rs.length).foldl (fun s b =>
    let (px, py) := rs.getD b (0, 0)
    (List.range (bw * x.node.bh)).foldl (fun s q =>
      let n := coreAt (px + q % bw) (py + q / bw)
      if s.isHole n then s
      else s.cleanCore n
        { grid := some g, gx := b % x.gw * bw + q % bw, gy := b / x.gw * x.node.bh + q / bw, bay := b }) s) s

/-- A grid in Placing is the next to be placed by its scheduler: higher priority first, then the order of entry. -/
def State.nextToPlace (s : State) (g : Nat) (x : Grid) : Bool :=
  s.grids.all fun e => e.1 = g || e.2.st != .placing || e.2.region != x.region || e.2.node.prio < x.node.prio ||
    (e.2.node.prio = x.node.prio && x.order ≤ e.2.order)

/-- A launch in Placing: its bays are reserved where there is room; a grid that no idle device could hold ends; any other
waits. -/
def State.place (s : State) (g : Nat) (x : Grid) : State :=
  if s.limiter.preempted || !s.nextToPlace g x then s
  else match s.findPlace x false with
    | some rs =>
      let t := s.reserve g x rs
      if x.resuming then
        match t.restoreGrid g with
        | some t => t.placeAll
        | none => s.emit (.placeGrid g)
      else ((t.onGrid g fun x => { x with st := .dealing, setUp := none }).emit (.coreSetup g)).placeAll
    | none =>
      if x.resuming || (s.findPlace x true).isSome then s else (s.endUnrun g 1 .placement).placeAll

def execPlaceGrid (s : State) : Answered :=
  match s.input with
  | .placeGrid g => .next (match s.grid g with
    | some x => if x.st == .placing then s.place g x else s
    | none => s)
  | _ => .next s

/-! ## Core set-up (R469) -/

/-- A set-up record from its 8 granules (Table 15). -/
def setUpOf (gs : List Got) : SetUp :=
  let b := gs.flatMap (·.bytes)
  { flags := field b 1 1, clen := field b 4 4, code := (gs.getD 1 {}).reg,
    vals := (List.range 7).map fun i => field b (32 + 4 * i) 4, ovlh := (gs.getD 4 {}).reg, thnd := (gs.getD 5 {}).reg }

/-- The checks of R469. -/
def setUpOk (gs : List Got) : Bool :=
  let b := gs.flatMap (·.bytes)
  let u := setUpOf gs
  let ea := capAddr u.code.data
  field b 0 1 = 0x10 && u.flags / 4 = 0 && field b 2 2 = 0 && field b 8 8 = 0 && field b 60 4 = 0 && field b 96 32 = 0 &&
    u.clen % 32 = 0 && decide (u.clen ≤ u.vals.getD 0 0 % 2 ^ 18 / 1024 * 1024) &&
    (u.clen = 0 || capOk u.code ea u.clen (withG [permR] ea))

/-- The copies of a code image into the cores of a grid, or the next step where there is no image. -/
def State.beginSetUp (s : State) (g : Nat) (x : Grid) (u : SetUp) : State :=
  let s := s.onGrid g fun x => { x with setUp := some u }
  if u.clen = 0 then s.emit (.coreSetup g)
  else ((s.coresOf g).map (·.1)).foldl (fun s c =>
    let q : CopyCmd :=
      { op := .copy, dst := exactData (localVA 0), src := u.code, total := u.clen, pos := 0, slot := slotKey c 0, grid := g,
        ctx := x.ctx, prio := x.node.prio, qos := x.node.qos, foot := some codeFoot, seq := s.fresh }
    (s.drawn.onCore c fun k => { k with cq := k.cq ++ [q] }).emitOnce (copyEvent c)) s

/-- The registers of a core that a set-up record gives (R469), as a `crwr` by the core would write them. -/
def State.applySetUp (s : State) (u : SetUp) (n : Nat) : State :=
  let s := (List.zip [12, 13, 14, 15, 17, 20, 16] u.vals).foldl (fun s (e : Nat × Nat) => s.writeCoreCR n e.1 (exactData e.2)) s
  let s := if bit u.flags 0 then s.writeCoreCR n 18 u.ovlh else s
  if bit u.flags 1 then s.writeCoreCR n 19 u.thnd else s

/-- The task record of a grid core (R79). -/
def Grid.dealtTask (x : Grid) (g n gx gy bay k : Nat) : Task :=
  { kind := 0, cls := x.node.cls, prio := x.node.prio, qos := x.node.qos, grid := g, ctx := x.ctx, entry := x.node.entry,
    args := [x.node.arg0, x.node.arg1,
      exactData (gx % 65536 + gy % 65536 * 2 ^ 16 + k % 256 * 2 ^ 32 + x.stageOf bay % 16 * 2 ^ 40)],
    inbox := some n, dealt := some ((gy * (x.gw * x.node.bw) + gx) * x.node.tasks + k) }

/-- The tasks of a grid in the order of dealing (R79): `inbox` names the core that receives each. -/
def State.dealList (s : State) (g : Nat) (x : Grid) : List Task :=
  (List.range (x.gw * x.node.gh)).flatMap fun b =>
    (List.range (x.node.bw * x.node.bh)).flatMap fun q =>
      let gx := b % x.gw * x.node.bw + q % x.node.bw
      let gy := b / x.gw * x.node.bh + q / x.node.bw
      match s.gridCore g gx gy with
      | some n => (List.range x.node.tasks).map fun k => x.dealtTask g n gx gy b k
      | none => []

/-- The destination ranges of the footprints lie in the scratchpad that the set-up record gives (R80). -/
def State.feetFit (s : State) (g : Nat) (x : Grid) : Bool :=
  (s.coresOf g).all fun e => x.node.foots.all fun f => s.codeEnd e.1 ≤ f.dst && f.dst + f.len ≤ s.spadEnd e.1

/-- The set-up has been read: the registers are written once the code images have been copied, and dealing begins. -/
def State.finishSetUp (s : State) (g : Nat) (x : Grid) (u : SetUp) : State :=
  if (s.coresOf g).any fun e => e.2.cq.any fun q => q.foot == some codeFoot then s
  else
    let s := ((s.coresOf g).map (·.1)).foldl (fun s n => s.applySetUp u n) s
    if !s.feetFit g x then s.endUnrun g 1 .footprint
    else
      let ts := s.dealList g x
      (s.onGrid g fun x => { x with undealt := ts, trig := ts.length }).emit (.dealTask g)

/-- The set-up record of a grid read (R469): the node's, or the default of the context. -/
def State.readSetUp (s : State) (g : Nat) (x : Grid) : State :=
  let va := if x.node.setup = 0 then look 0 s.setups x.ctx else x.node.setup
  if va = 0 then s.beginSetUp g x {}
  else if va % 64 != 0 then s.endUnrun g 1 .setup va
  else match s.schedGranules x.region x.ctx va 8 with
    | (.error _, s) => s.endUnrun g 1 .setup va
    | (.ok none, s) => s.emit (.coreSetup g)
    | (.ok (some gs), s) => if setUpOk gs then s.beginSetUp g x (setUpOf gs) else s.endUnrun g 1 .setup

def execCoreSetup (s : State) : Answered :=
  match s.input with
  | .coreSetup g => .next (match s.grid g with
    | some x =>
      if x.st != .dealing || x.trig != 0 then s
      else match x.setUp with
        | none => s.readSetUp g x
        | some u => s.finishSetUp g x u
    | none => s)
  | _ => .next s

/-! ## Dealing (R79, R229) -/

/-- A dealt task cannot enter the run queue of its core: the entries that are free belong to messages that reached the core before
it (R229). -/
def State.dealBlocked (s : State) (n claim : Nat) : Bool :=
  let c := s.core n
  let earlier (m : Task) : Bool := !m.half && !(c.runq.any fun t => t.inbox = m.inbox) &&
    (claim = 0 || m.inbox.any (· < claim))
  64 ≤ c.runq.length + (c.inbox.filter earlier).length

/-- The first task that can be dealt, and the tasks that are left: those that wait at a full run queue have reached it. -/
def State.dealFirst (s : State) (seen : List Nat) : List Task → List Task × Option Task
  | [] => ([], none)
  | t :: ts =>
    let n := t.inbox.getD 0
    if seen.contains n then
      let (l, r) := s.dealFirst seen ts
      (t :: l, r)
    else if s.dealBlocked n t.age then
      let (l, r) := s.dealFirst (n :: seen) ts
      ({ t with age := if t.age = 0 then max 1 s.fresh else t.age } :: l, r)
    else (ts, some t)

/-- A task in the run queue of its core: ready, or waiting for its footprints. A thief that waits goes on waiting for a task that is
ready (R240), and a message that waits for an entry looks again. -/
def State.dealOne (s : State) (g : Nat) (x : Grid) (t : Task) : State :=
  let n := t.inbox.getD 0
  let t : Task := { t with inbox := none, age := if x.node.foots = [] then s.fresh + 1 else 0 }
  let s := s.drawn.onCore n fun c => { c with
    runq := c.runq ++ [t], stealWait := c.stealWait && x.node.foots != [] }
  let s := if (s.core n).firstUnready.isSome then s.emitOnce (.messageReady n) else s
  if x.node.foots = [] then s.emit (.taskSelect n) else s.emit (.footprintCopy g n (t.dealt.getD 0))

/-- R79. One task is dealt; after the last the grid runs. -/
def State.deal (s : State) (g : Nat) (x : Grid) : State :=
  let (left, next) := s.dealFirst [] x.undealt
  let s := s.drawn.onGrid g fun x => { x with undealt := left }
  match next with
  | none => s
  | some t =>
    let s := s.dealOne g x t
    if left = [] then
      let s := s.onGrid g fun x => { x with st := .running }
      (if s.limiter.preempted then s.thermalStop g else s).checkGridEnd g
    else s.emit (.dealTask g)

def execDealTask (s : State) : Answered :=
  match s.input with
  | .dealTask g => .next (match s.grid g with
    | some x => if x.st == .dealing && x.undealt != [] then s.deal g x else s
    | none => s)
  | _ => .next s

/-! ## Footprint copies (R80) -/

/-- A source address of a footprint copy: that of the handle, further by the stride for each task. -/
def Foot.source (f : Foot) (l : Nat) : Nat := capAddr f.handle.data + l * f.stride

/-- A dealt task of a core's run queue changed. -/
def State.onDealt (s : State) (n l : Nat) (f : Task → Task) : State :=
  s.onCore n fun c => { c with runq := c.runq.map fun t => if t.dealt = some l && t.age = 0 then f t else t }

/-- The copies of a task's footprints begin: its ranges are pinned. -/
def State.beginFeet (s : State) (g n l : Nat) (x : Grid) : State :=
  match x.node.foots.find? fun f => !inBounds f.handle.data (f.source l) f.len with
  | some f => s.endGrid g { status := 1, cause := Cause.footprint.code, taddr := f.source l % 2 ^ 64 }
  | none =>
    let ranges := x.node.foots.map fun f => (f.dst, f.len)
    let others := s.pinned n l
    if ranges.any fun r => others.any (pinMeets r) then s
    else
      let s := s.onDealt n l fun t => { t with pins := ranges }
      x.node.foots.foldl (fun s f =>
        let q : CopyCmd :=
          { op := .copy, dst := exactData (localVA f.dst), src := ⟨withAddr f.handle.data (f.source l), .cap⟩,
            total := f.len, pos := 0, slot := slotKey n 0, grid := g, ctx := x.ctx, prio := x.node.prio, qos := x.node.qos, foot := some l,
            seq := s.fresh }
        (s.drawn.onCore n fun k => { k with cq := k.cq ++ [q] }).emitOnce (copyEvent n)) s

/-- R80. A task that waits for its footprints: their copies begin, or have ended, and the task is ready. -/
def State.footStep (s : State) (g n l : Nat) (x : Grid) : State :=
  if x.st != .dealing && x.st != .running then s
  else if (s.core n).cq.any fun q => q.foot == some l then s
  else match (s.core n).runq.find? fun t => t.dealt = some l && t.age = 0 with
    | none => s
    | some t =>
      if t.pins = [] then s.beginFeet g n l x
      else (s.drawn.onDealt n l fun t => { t with age := s.fresh + 1 }).emit (.taskSelect n)

def execFootprintCopy (s : State) : Answered :=
  match s.input with
  | .footprintCopy g n l =>
    .next (if l = codeFoot then s.emitOnce (.coreSetup g)
      else match s.grid g with
        | some x => s.footStep g n l x
        | none => s)
  | _ => .next s

/-! ## The release of successors (R81, R83) -/

/-- What a launch scheduler does that may have to wait: done, or to be tried again. -/
abbrev Tried := Bool × State

/-- A counter is decremented by 1 with release: nothing where it cannot be reached. An answer of another device comes under the
tag. -/
def State.release (s : State) (x : Grid) (va tag : Nat) : Tried :=
  let r : DeskReq :=
    { va := va, ctx := x.ctx, who := schedWaiter x.region, seq := tag, prio := x.node.prio, qos := x.node.qos, n := -1 }
  if farAway va then (true, if s.upPorts = [] then s else s.agentAsk x.region tag va .cadd r)
  else match s.findCell x.agent (atHome va) .cadd with
    | (.fail _, s) | (.untyped, s) => (true, s)
    | (.park, s) => (false, s)
    | (.cell pa, s) =>
      if (s.granule pa).poison || s.cutOff (clusterOf (serviceCore x.region)) (s.homeCluster pa) then (true, s)
      else match s.desk .cadd { r with pa := pa } with
        | (.park, _) => (false, s)
        | (_, s) => (true, s)

/-- `pfault` of a node record written, on this device or on another (R81). -/
def State.writeFault (s : State) (x : Grid) (va : Nat) (set_ : Bool) : Except Cause (Option Unit) × State :=
  if farAway va then
    match s.farAll x.region x.ctx [(va, .flags set_)] with
    | (.error c, s) => (.error c, s)
    | (.ok none, s) => (.ok none, s)
    | (.ok (some _), s) => (.ok (some ()), s)
  else s.rewriteFlags x.agent (atHome va) set_

/-- A successor that cannot be reached is skipped, with the address that failed. -/
def State.succLost (s : State) (x : Grid) (va : Nat) : State := s.record (sourceOfService x.region) none 0x5 va x.tag

/-- R81. The successor of a list entry is marked, if the grid has failed, and its counter decremented. -/
def State.releaseSuccessor (s : State) (x : Grid) (fault : Bool) : Tried :=
  let entry := x.node.slist + 8 * x.succAt
  match s.schedNum x.region x.ctx entry 8 with
  | (.error _, s) => (true, s.succLost x entry)
  | (.ok none, s) => (false, s)
  | (.ok (some node), s) =>
    let marked := if fault then s.writeFault x (node + 1) true else (.ok (some ()), s)
    match marked with
    | (.error _, s) => (true, s.succLost x node)
    | (.ok none, s) => (false, s)
    | (.ok (some _), s) =>
      match s.schedNum x.region x.ctx (node + 64) 8 with
      | (.error _, s) => (true, s.succLost x node)
      | (.ok none, s) => (false, s)
      | (.ok (some 0), s) => (true, s)
      | (.ok (some pred), s) => s.drawn.release x pred s.fresh

/-- The successors from the one that is due, in list order, as far as they can be released now. -/
def State.releaseAll (s : State) (g : Nat) (fault : Bool) : Nat → State
  | 0 => s
  | n + 1 =>
    match s.grid g with
    | none => s
    | some x =>
      if x.succAt = x.node.succ then s.onGrid g fun x => { x with released := true }
      else match s.releaseSuccessor x fault with
        | (false, s) => s
        | (true, s) => (s.onGrid g fun x => { x with succAt := x.succAt + 1 }).releaseAll g fault n

/-- Posted accesses that the dealt tasks of a grid issued before they had triggered are still to be acknowledged (R83). -/
def State.postedLeft (s : State) (g : Nat) (x : Grid) : Bool :=
  let open_ (p : Posted) : Bool := p.grid = g && !p.late
  (s.cores.any fun e => e.2.posted.any open_) || x.saved.any fun c => c.core.posted.any open_

/-- R83. Every dealt task has triggered or ended: the successors are released before Ending. -/
def State.triggered (s : State) (g : Nat) (x : Grid) : State :=
  if x.released || x.st == .ending then s
  else if s.postedLeft g x then s.emit (.triggerRelease g)
  else
    let s := s.releaseAll g false (x.node.succ + 1)
    if (s.grid g).any (·.released) then s else s.emit (.triggerRelease g)

def execTriggerRelease (s : State) : Answered :=
  match s.input with
  | .triggerRelease g => .next (match s.grid g with
    | some x => s.triggered g x
    | none => s)
  | _ => .next s

/-! ## Ending (R72, R81, R94) -/

/-- The wait on the predecessor counter of a launch that ends is given up (R135). -/
def State.dropWait (s : State) (g : Nat) (x : Grid) : State :=
  if x.waitSeq = 0 then s
  else
    let s := s.onGrid g fun x => { x with waitSeq := 0 }
    let who := schedWaiter x.region
    match s.holds.find? fun h => h.who = who && h.seq = x.waitSeq with
    | some h => (s.dropHold h).settleCell h.pa
    | none =>
      if farAway x.node.pred && s.upPorts != [] then
        let addr := bits x.node.pred 49 0
        s.send
          { dst := bits x.node.pred 62 50, addr := addr, ctx := x.ctx,
            op := .cancel { pa := untranslated, va := addr, ctx := x.ctx, who := who, seq := x.waitSeq } }
          (clusterOf (serviceCore x.region))
      else s

/-- The holds of saved contexts at the Desks of other devices are cancelled with them (R135): their strands await nothing more. -/
def State.cancelSaved (s : State) (g : Nat) (x : Grid) : State :=
  let ask (c : SavedCore) (h : Nat) : Option Packet :=
    let sl := c.slots.getD h {}
    match sl.await with
    | some (.cell seq op _ va _ _ _ _) =>
      if farAway va && op.canHold then
        let addr := bits va 49 0
        some { dst := bits va 62 50, addr := addr, ctx := x.ctx, qos := sl.qos,
               op := .cancel { pa := untranslated, va := addr, ctx := x.ctx,
                               who := ⟨thisDevice, 1, g, c.core.gx, c.core.gy, h⟩, seq := seq } }
      else none
    | _ => none
  let packets := x.saved.flatMap fun c => (List.range 4).filterMap (ask c)
  if packets = [] then s
  else
    let s := if s.upPorts = [] then s else packets.foldl (fun s p => s.send p (clusterOf (serviceCore x.region))) s
    s.onGrid g fun x => { x with saved := x.saved.map fun c => { c with slots := c.slots.map fun sl => { sl with await := none } } }

/-- The holds of a grid that enters Ending are cancelled (R135). -/
def State.cancelHolds (s : State) (g : Nat) : State :=
  (s.holds.filter fun h => h.who.kind = 1 && h.who.dev = thisDevice && h.who.grid = g && !h.void).foldl
    (fun s h => s.cancelHold h.pa h.who h.seq) s

/-- The acknowledgement of a posted access cannot cross a failed crossing on its way to a core (R94): it comes back on the port by
which the access left. -/
def State.ackLost (s : State) (n : Nat) (p : Posted) : Bool :=
  match s.toFabric.find? fun k => k.entry = p.tag with
  | some k => s.cutOff (portAgent k.port).router (clusterOf n)
  | none => false

/-- R72 step 1: what the grid has begun has ended; on a device that has stopped, the acknowledgements that cannot cross are not
awaited (R94). -/
def State.settled (s : State) (g : Nat) (x : Grid) : Bool :=
  let open_ (n : Nat) (p : Posted) : Bool := p.grid = g && !(s.phase == .stopped && s.ackLost n p)
  !(s.cores.any fun e => e.2.posted.any (open_ e.1)) && !(x.saved.any fun c => c.core.posted.any (open_ c.place)) &&
    (s.coresOf g).all fun e => e.2.muq = [] && e.2.vq = [] && e.2.xq = [] && e.2.cq.all (·.stopped)

/-- The error status record (R72 Table 5). -/
def State.statusRecord (s : State) (x : Grid) : List Byte :=
  let e := x.ended.getD {}
  bytesOf 1 0x10 ++ bytesOf 1 e.status ++ bytesOf 2 e.cause ++ bytesOf 4 x.tag ++ bytesOf 8 e.taddr ++ bytesOf 8 e.tpc ++
    bytesOf 2 e.x ++ bytesOf 2 e.y ++ bytesOf 1 e.slot ++ bytesOf 1 e.stage ++ bytesOf 2 e.bay ++
    bytesOf 8 (if e.saved then x.node.save else 0) ++ bytesOf 4 e.stopped ++ bytesOf 4 0 ++ bytesOf 8 s.time ++ bytesOf 8 0

/-- A part of an access lies beyond a crossing that has failed, from a launch scheduler (R94). -/
def State.beyond (s : State) (region : Nat) (ps : List (Spot × Nat)) : Bool :=
  ps.any fun p => match p.1.hbm with
    | some pa => s.cutOff (clusterOf (serviceCore region)) (s.homeCluster pa)
    | none => false

/-- R72 step 2. -/
def State.writeStatus (s : State) (g : Nat) (x : Grid) : Tried :=
  let bs := s.statusRecord x
  let next (s : State) : Tried := (true, s.onGrid g fun x => { x with written := true, stage := 2 })
  if farAway x.errAddr then
    if s.upPorts = [] then next (s.statusLost x)
    else
      let tag := s.fresh
      next ((s.drawn.send
        { dst := bits x.errAddr 62 50, addr := bits x.errAddr 49 0, ctx := x.ctx, qos := x.node.qos, entry := tag, acq := true,
          op := .store bs false false false none } (clusterOf (serviceCore x.region))).onGrid g fun x => { x with waitSeq := tag })
  else match s.ownFabricParts x.agent .write true (sectors 3 (atHome x.errAddr) 64) with
    | (.error _, s) => next (s.statusLost x)
    | (.ok none, s) => (false, s)
    | (.ok (some ps), s) =>
      if ps.any fun p => s.typedAt p.1 p.2 then next (s.statusLost x)
      else if s.beyond x.region ps then next s
      else next (s.writeParts x.node.qos .other none .plain ps bs)

/-- R72 step 3, and what follows it at the queue (R69, R72). -/
def State.queueAdvances (s : State) (x : Grid) : State :=
  let region := x.region
  let i := x.queue % 16
  let faulted := x.ended.any (·.status != 0)
  let here := (s.queue region i).any (·.num = x.attach)
  let s := if here then s.onQueue region i fun q => { q with running := q.running - 1 } else s
  let s := if here && faulted && bit x.flags 2 then s.stopQueue region i else s
  let s := if faulted then s.record (sourceOfService region) none 0x2 x.errAddr x.tag else s
  let s := if bit x.flags 1 then s.record (sourceOfService region) none 0x1 x.cell x.tag else s
  if here then (s.dropDetached region i).emitOnce (.queueAgentPop x.queue) else s

/-- Done (R78, R81, R375, R468): `pfault` is written as 0, the cores are returned clean, the number is free. -/
def State.finishGrid (s : State) (g : Nat) (x : Grid) : Tried :=
  match s.writeFault x (x.addr + 1) false with
  | (.ok none, s) => (false, s)
  | (_, s) =>
    let s := ((s.coresOf g).map (·.1)).foldl (fun s n => s.cleanCore n {}) s
    let s : State := { s with
      lines := s.lines.map fun e => (e.1, { e.2 with pins := e.2.pins.filter (· != g) })
      taken := s.taken.filter fun e => e.2.grid != g
      arrived := s.arrived.filter fun (e : Nat × Waiter) => !(e.2.kind = 1 && e.2.grid = g)
      outcomes := put s.outcomes g (if x.outcome = preemptBusy then preemptEnded else x.outcome)
      grids := without s.grids g }
    (true, s.placeAll)

/-- R72, R81. The next step of a grid in Ending. -/
def State.endingStep (s : State) (g : Nat) (x : Grid) : State :=
  let again (s : State) : State := s.emitOnce (.completionRelease g)
  let to_ (s : State) (n : Nat) : State := again (s.onGrid g fun x => { x with stage := n })
  match x.stage with
  | 0 =>
    let s := ((s.dropWait g x).cancelHolds g).cancelSaved g x
    if s.settled g x then to_ s 1 else again s
  | 1 => again (s.writeStatus g x).2
  | 2 =>
    if x.waitSeq != 0 then s
    else
      let tag := s.fresh
      match s.drawn.release x x.counter tag with
      | (false, s) => again s
      | (true, s) =>
        let s := if farAway x.counter && s.upPorts != [] then s.onGrid g fun x => { x with waitSeq := tag } else s
        to_ s 3
  | 3 => if x.waitSeq != 0 then s else to_ (s.queueAdvances x) 4
  | 4 =>
    if x.released then to_ s 5
    else
      let s := s.releaseAll g x.ended.isSome (x.node.succ + 1)
      if (s.grid g).any (·.released) then to_ s 5 else again s
  | _ => match s.finishGrid g x with
    | (false, s) => again s
    | (true, s) => s

def execCompletionRelease (s : State) : Answered :=
  match s.input with
  | .completionRelease g => .next (match s.grid g with
    | some x => if x.st == .ending then s.endingStep g x else s
    | none => s)
  | _ => .next s

end Sys2Proof.Machine
end

