-- ==== Sys2Proof/Machine/Dispatch.lean ====
section
/-! DEFINITION. One arm for each instruction: each calls its own meaning. -/

namespace Sys2Proof.Machine

open Sys2Proof

def exec (i : Instr) (s : State) : Host.Outcome State Fault Refusal :=
  match i with
  | .lui rd imm => Sys2Proof.Machine.execLui rd imm s
  | .auipc rd imm => Sys2Proof.Machine.execAuipc rd imm s
  | .jal rd off => Sys2Proof.Machine.execJal rd off s
  | .jalr rd rs1 imm => Sys2Proof.Machine.execJalr rd rs1 imm s
  | .beq rs1 rs2 off => Sys2Proof.Machine.execBeq rs1 rs2 off s
  | .bne rs1 rs2 off => Sys2Proof.Machine.execBne rs1 rs2 off s
  | .blt rs1 rs2 off => Sys2Proof.Machine.execBlt rs1 rs2 off s
  | .bge rs1 rs2 off => Sys2Proof.Machine.execBge rs1 rs2 off s
  | .bltu rs1 rs2 off => Sys2Proof.Machine.execBltu rs1 rs2 off s
  | .bgeu rs1 rs2 off => Sys2Proof.Machine.execBgeu rs1 rs2 off s
  | .ldI8 rd rs1 imm => Sys2Proof.Machine.execLdI8 rd rs1 imm s
  | .ldI16 rd rs1 imm => Sys2Proof.Machine.execLdI16 rd rs1 imm s
  | .ldI32 rd rs1 imm => Sys2Proof.Machine.execLdI32 rd rs1 imm s
  | .ldI64 rd rs1 imm => Sys2Proof.Machine.execLdI64 rd rs1 imm s
  | .ldN8 rd rs1 imm => Sys2Proof.Machine.execLdN8 rd rs1 imm s
  | .ldN16 rd rs1 imm => Sys2Proof.Machine.execLdN16 rd rs1 imm s
  | .ldN32 rd rs1 imm => Sys2Proof.Machine.execLdN32 rd rs1 imm s
  | .stI8 rs2 rs1 imm => Sys2Proof.Machine.execStI8 rs2 rs1 imm s
  | .stI16 rs2 rs1 imm => Sys2Proof.Machine.execStI16 rs2 rs1 imm s
  | .stI32 rs2 rs1 imm => Sys2Proof.Machine.execStI32 rs2 rs1 imm s
  | .stI64 rs2 rs1 imm => Sys2Proof.Machine.execStI64 rs2 rs1 imm s
  | .addi rd rs1 imm => Sys2Proof.Machine.execAddi rd rs1 imm s
  | .slti rd rs1 imm => Sys2Proof.Machine.execSlti rd rs1 imm s
  | .sltiu rd rs1 imm => Sys2Proof.Machine.execSltiu rd rs1 imm s
  | .xori rd rs1 imm => Sys2Proof.Machine.execXori rd rs1 imm s
  | .ori rd rs1 imm => Sys2Proof.Machine.execOri rd rs1 imm s
  | .andi rd rs1 imm => Sys2Proof.Machine.execAndi rd rs1 imm s
  | .slli rd rs1 sh => Sys2Proof.Machine.execSlli rd rs1 sh s
  | .srli rd rs1 sh => Sys2Proof.Machine.execSrli rd rs1 sh s
  | .srai rd rs1 sh => Sys2Proof.Machine.execSrai rd rs1 sh s
  | .addiw rd rs1 imm => Sys2Proof.Machine.execAddiw rd rs1 imm s
  | .slliw rd rs1 sh => Sys2Proof.Machine.execSlliw rd rs1 sh s
  | .srliw rd rs1 sh => Sys2Proof.Machine.execSrliw rd rs1 sh s
  | .sraiw rd rs1 sh => Sys2Proof.Machine.execSraiw rd rs1 sh s
  | .add gd gs1 gs2 => Sys2Proof.Machine.execAdd gd gs1 gs2 s
  | .sub gd gs1 gs2 => Sys2Proof.Machine.execSub gd gs1 gs2 s
  | .sll gd gs1 gs2 => Sys2Proof.Machine.execSll gd gs1 gs2 s
  | .slt gd gs1 gs2 => Sys2Proof.Machine.execSlt gd gs1 gs2 s
  | .sltu gd gs1 gs2 => Sys2Proof.Machine.execSltu gd gs1 gs2 s
  | .xor gd gs1 gs2 => Sys2Proof.Machine.execXor gd gs1 gs2 s
  | .srl gd gs1 gs2 => Sys2Proof.Machine.execSrl gd gs1 gs2 s
  | .sra gd gs1 gs2 => Sys2Proof.Machine.execSra gd gs1 gs2 s
  | .or gd gs1 gs2 => Sys2Proof.Machine.execOr gd gs1 gs2 s
  | .and gd gs1 gs2 => Sys2Proof.Machine.execAnd gd gs1 gs2 s
  | .addw gd gs1 gs2 => Sys2Proof.Machine.execAddw gd gs1 gs2 s
  | .subw gd gs1 gs2 => Sys2Proof.Machine.execSubw gd gs1 gs2 s
  | .sllw gd gs1 gs2 => Sys2Proof.Machine.execSllw gd gs1 gs2 s
  | .srlw gd gs1 gs2 => Sys2Proof.Machine.execSrlw gd gs1 gs2 s
  | .sraw gd gs1 gs2 => Sys2Proof.Machine.execSraw gd gs1 gs2 s
  | .mul gd gs1 gs2 => Sys2Proof.Machine.execMul gd gs1 gs2 s
  | .mulh gd gs1 gs2 => Sys2Proof.Machine.execMulh gd gs1 gs2 s
  | .mulhsu gd gs1 gs2 => Sys2Proof.Machine.execMulhsu gd gs1 gs2 s
  | .mulhu gd gs1 gs2 => Sys2Proof.Machine.execMulhu gd gs1 gs2 s
  | .div gd gs1 gs2 => Sys2Proof.Machine.execDiv gd gs1 gs2 s
  | .divu gd gs1 gs2 => Sys2Proof.Machine.execDivu gd gs1 gs2 s
  | .rem gd gs1 gs2 => Sys2Proof.Machine.execRem gd gs1 gs2 s
  | .remu gd gs1 gs2 => Sys2Proof.Machine.execRemu gd gs1 gs2 s
  | .mulw gd gs1 gs2 => Sys2Proof.Machine.execMulw gd gs1 gs2 s
  | .divw gd gs1 gs2 => Sys2Proof.Machine.execDivw gd gs1 gs2 s
  | .divuw gd gs1 gs2 => Sys2Proof.Machine.execDivuw gd gs1 gs2 s
  | .remw gd gs1 gs2 => Sys2Proof.Machine.execRemw gd gs1 gs2 s
  | .remuw gd gs1 gs2 => Sys2Proof.Machine.execRemuw gd gs1 gs2 s
  | .fence imm rs1 rd => Sys2Proof.Machine.execFence imm rs1 rd s
  | .ecall => Sys2Proof.Machine.execEcall s
  | .ebreak => Sys2Proof.Machine.execEbreak s
  | .ldlI8 la gd gs1 off => Sys2Proof.Machine.execLdlI8 la gd gs1 off s
  | .ldlN8 la gd gs1 off => Sys2Proof.Machine.execLdlN8 la gd gs1 off s
  | .ldlI16 la gd gs1 off => Sys2Proof.Machine.execLdlI16 la gd gs1 off s
  | .ldlN16 la gd gs1 off => Sys2Proof.Machine.execLdlN16 la gd gs1 off s
  | .ldlI32 la gd gs1 off => Sys2Proof.Machine.execLdlI32 la gd gs1 off s
  | .ldlN32 la gd gs1 off => Sys2Proof.Machine.execLdlN32 la gd gs1 off s
  | .ldlI64 la gd gs1 off => Sys2Proof.Machine.execLdlI64 la gd gs1 off s
  | .ldq la gd gs1 off => Sys2Proof.Machine.execLdq la gd gs1 off s
  | .stlI8 la gs1 gs2 off => Sys2Proof.Machine.execStlI8 la gs1 gs2 off s
  | .stlI16 la gs1 gs2 off => Sys2Proof.Machine.execStlI16 la gs1 gs2 off s
  | .stlI32 la gs1 gs2 off => Sys2Proof.Machine.execStlI32 la gs1 gs2 off s
  | .stlI64 la gs1 gs2 off => Sys2Proof.Machine.execStlI64 la gs1 gs2 off s
  | .stq la gs1 gs2 off => Sys2Proof.Machine.execStq la gs1 gs2 off s
  | .sbB la gs1 gs2 off => Sys2Proof.Machine.execSbB la gs1 gs2 off s
  | .cld la gd gs1 off => Sys2Proof.Machine.execCld la gd gs1 off s
  | .cst la gs1 gs2 off => Sys2Proof.Machine.execCst la gs1 gs2 off s
  | .ldacqI64 la gd gs1 off => Sys2Proof.Machine.execLdacqI64 la gd gs1 off s
  | .ldacqQ la gd gs1 off => Sys2Proof.Machine.execLdacqQ la gd gs1 off s
  | .strelI64 la gs1 gs2 off => Sys2Proof.Machine.execStrelI64 la gs1 gs2 off s
  | .strelQ la gs1 gs2 off => Sys2Proof.Machine.execStrelQ la gs1 gs2 off s
  | .fenceRel la gs1 => Sys2Proof.Machine.execFenceRel la gs1 s
  | .fenceAcq la gs1 => Sys2Proof.Machine.execFenceAcq la gs1 s
  | .fenceFull la gs1 => Sys2Proof.Machine.execFenceFull la gs1 s
  | .pref la gs1 off hint => Sys2Proof.Machine.execPref la gs1 off hint s
  | .pin la gd gs1 off => Sys2Proof.Machine.execPin la gd gs1 off s
  | .unpin la gd gs1 off => Sys2Proof.Machine.execUnpin la gd gs1 off s
  | .afadd ord wd gd gs1 gs2 => Sys2Proof.Machine.execAfadd ord wd gd gs1 gs2 s
  | .aswap ord wd gd gs1 gs2 => Sys2Proof.Machine.execAswap ord wd gd gs1 gs2 s
  | .acas64 ord gd gs1 gs2 => Sys2Proof.Machine.execAcas64 ord gd gs1 gs2 s
  | .acas128 ord gd gs1 gs2 => Sys2Proof.Machine.execAcas128 ord gd gs1 gs2 s
  | .amax ord wd gd gs1 gs2 => Sys2Proof.Machine.execAmax ord wd gd gs1 gs2 s
  | .amin ord wd gd gs1 gs2 => Sys2Proof.Machine.execAmin ord wd gd gs1 gs2 s
  | .aand ord wd gd gs1 gs2 => Sys2Proof.Machine.execAand ord wd gd gs1 gs2 s
  | .aor ord wd gd gs1 gs2 => Sys2Proof.Machine.execAor ord wd gd gs1 gs2 s
  | .axor ord wd gd gs1 gs2 => Sys2Proof.Machine.execAxor ord wd gd gs1 gs2 s
  | .cflush la gs1 off => Sys2Proof.Machine.execCflush la gs1 off s
  | .cmov la gd gs1 => Sys2Proof.Machine.execCmov la gd gs1 s
  | .csetaddr la gd gs1 gs2 => Sys2Proof.Machine.execCsetaddr la gd gs1 gs2 s
  | .cincaddr la gd gs1 gs2 => Sys2Proof.Machine.execCincaddr la gd gs1 gs2 s
  | .cincaddri la gd gs1 imm => Sys2Proof.Machine.execCincaddri la gd gs1 imm s
  | .csetbnd la gd gs1 gs2 => Sys2Proof.Machine.execCsetbnd la gd gs1 gs2 s
  | .candperm la gd gs1 gs2 => Sys2Proof.Machine.execCandperm la gd gs1 gs2 s
  | .cseal la gd gs1 => Sys2Proof.Machine.execCseal la gd gs1 s
  | .cget la gd gs1 sel => Sys2Proof.Machine.execCget la gd gs1 sel s
  | .cellFree gd gs1 => Sys2Proof.Machine.execCellFree gd gs1 s
  | .cntInit gd gs1 gs2 => Sys2Proof.Machine.execCntInit gd gs1 gs2 s
  | .barInit gd gs1 gs2 => Sys2Proof.Machine.execBarInit gd gs1 gs2 s
  | .lckInit gd gs1 => Sys2Proof.Machine.execLckInit gd gs1 s
  | .queInit gd gs1 gs2 => Sys2Proof.Machine.execQueInit gd gs1 gs2 s
  | .cndInit gd gs1 => Sys2Proof.Machine.execCndInit gd gs1 s
  | .cellQuery la gd gs1 sel => Sys2Proof.Machine.execCellQuery la gd gs1 sel s
  | .cntAdd la gd gs1 gs2 => Sys2Proof.Machine.execCntAdd la gd gs1 gs2 s
  | .cntWait la gd gs1 => Sys2Proof.Machine.execCntWait la gd gs1 s
  | .cntArm la gd gs1 gs2 => Sys2Proof.Machine.execCntArm la gd gs1 gs2 s
  | .cntDisarm la gd gs1 => Sys2Proof.Machine.execCntDisarm la gd gs1 s
  | .barArrive la gd gs1 => Sys2Proof.Machine.execBarArrive la gd gs1 s
  | .barWait la gd gs1 gs2 => Sys2Proof.Machine.execBarWait la gd gs1 gs2 s
  | .barSync la gd gs1 => Sys2Proof.Machine.execBarSync la gd gs1 s
  | .lckAcq la gd gs1 => Sys2Proof.Machine.execLckAcq la gd gs1 s
  | .lckTry la gd gs1 => Sys2Proof.Machine.execLckTry la gd gs1 s
  | .lckRel la gd gs1 => Sys2Proof.Machine.execLckRel la gd gs1 s
  | .quePush la gd gs1 gs2 => Sys2Proof.Machine.execQuePush la gd gs1 gs2 s
  | .quePop la gd gs1 gs2 => Sys2Proof.Machine.execQuePop la gd gs1 gs2 s
  | .queTrypush la gd gs1 gs2 => Sys2Proof.Machine.execQueTrypush la gd gs1 gs2 s
  | .queTrypop la gd gs1 gs2 => Sys2Proof.Machine.execQueTrypop la gd gs1 gs2 s
  | .cndWait la gd gs1 gs2 => Sys2Proof.Machine.execCndWait la gd gs1 gs2 s
  | .cndSignal la gd gs1 => Sys2Proof.Machine.execCndSignal la gd gs1 s
  | .cndBcast la gd gs1 => Sys2Proof.Machine.execCndBcast la gd gs1 s
  | .rowop la gd gs1 gs2 => Sys2Proof.Machine.execRowop la gd gs1 gs2 s
  | .cvset la gs1 n => Sys2Proof.Machine.execCvset la gs1 n s
  | .cvpush la n => Sys2Proof.Machine.execCvpush la n s
  | .cvquery la gd n => Sys2Proof.Machine.execCvquery la gd n s
  | .mrec la acc fmt ca cb => Sys2Proof.Machine.execMrec la acc fmt ca cb s
  | .mrload la gs1 => Sys2Proof.Machine.execMrload la gs1 s
  | .mdrain la acc clr gs1 gs2 => Sys2Proof.Machine.execMdrain la acc clr gs1 gs2 s
  | .mzero la n => Sys2Proof.Machine.execMzero la n s
  | .ewait la gd sel => Sys2Proof.Machine.execEwait la gd sel s
  | .copy la gs1 gs2 => Sys2Proof.Machine.execCopy la gs1 gs2 s
  | .copy2d la gs1 gs2 => Sys2Proof.Machine.execCopy2d la gs1 gs2 s
  | .gather la gs1 gs2 => Sys2Proof.Machine.execGather la gs1 gs2 s
  | .scatter la gs1 gs2 => Sys2Proof.Machine.execScatter la gs1 gs2 s
  | .fill la gs1 gs2 => Sys2Proof.Machine.execFill la gs1 gs2 s
  | .sbind la n => Sys2Proof.Machine.execSbind la n s
  | .sunbind la n => Sys2Proof.Machine.execSunbind la n s
  | .xprog la gd gs1 gs2 => Sys2Proof.Machine.execXprog la gd gs1 gs2 s
  | .xcal la gs1 gs2 => Sys2Proof.Machine.execXcal la gs1 gs2 s
  | .xmvm la gd gs1 gs2 => Sys2Proof.Machine.execXmvm la gd gs1 gs2 s
  | .xwait la gd sel => Sys2Proof.Machine.execXwait la gd sel s
  | .accept la gd gs1 => Sys2Proof.Machine.execAccept la gd gs1 s
  | .acceptSp la gd gs1 => Sys2Proof.Machine.execAcceptSp la gd gs1 s
  | .acceptAcc la n => Sys2Proof.Machine.execAcceptAcc la n s
  | .vsetcfg la gd gs1 => Sys2Proof.Machine.execVsetcfg la gd gs1 s
  | .vadd la gd gs1 gs2 => Sys2Proof.Machine.execVadd la gd gs1 gs2 s
  | .vsub la gd gs1 gs2 => Sys2Proof.Machine.execVsub la gd gs1 gs2 s
  | .vmul la gd gs1 gs2 => Sys2Proof.Machine.execVmul la gd gs1 gs2 s
  | .vfma la gd gs1 gs2 => Sys2Proof.Machine.execVfma la gd gs1 gs2 s
  | .vmax la gd gs1 gs2 => Sys2Proof.Machine.execVmax la gd gs1 gs2 s
  | .vmin la gd gs1 gs2 => Sys2Proof.Machine.execVmin la gd gs1 gs2 s
  | .vabs la gd gs1 => Sys2Proof.Machine.execVabs la gd gs1 s
  | .vneg la gd gs1 => Sys2Proof.Machine.execVneg la gd gs1 s
  | .vadds la gd gs1 gs2 => Sys2Proof.Machine.execVadds la gd gs1 gs2 s
  | .vmuls la gd gs1 gs2 => Sys2Proof.Machine.execVmuls la gd gs1 gs2 s
  | .vcvt la gd gs1 sat fmt => Sys2Proof.Machine.execVcvt la gd gs1 sat fmt s
  | .vexp la gd gs1 => Sys2Proof.Machine.execVexp la gd gs1 s
  | .vrcp la gd gs1 => Sys2Proof.Machine.execVrcp la gd gs1 s
  | .vrsqrt la gd gs1 => Sys2Proof.Machine.execVrsqrt la gd gs1 s
  | .vsum la gd gs1 => Sys2Proof.Machine.execVsum la gd gs1 s
  | .vmaxr la gd gs1 => Sys2Proof.Machine.execVmaxr la gd gs1 s
  | .vargmax la gd gs1 => Sys2Proof.Machine.execVargmax la gd gs1 s
  | .vsel la gd gs1 gs2 => Sys2Proof.Machine.execVsel la gd gs1 gs2 s
  | .vcmplt la gd gs1 gs2 => Sys2Proof.Machine.execVcmplt la gd gs1 gs2 s
  | .vand la gd gs1 gs2 => Sys2Proof.Machine.execVand la gd gs1 gs2 s
  | .vor la gd gs1 gs2 => Sys2Proof.Machine.execVor la gd gs1 gs2 s
  | .vxor la gd gs1 gs2 => Sys2Proof.Machine.execVxor la gd gs1 gs2 s
  | .vmov la gd gs1 => Sys2Proof.Machine.execVmov la gd gs1 s
  | .vfill la gd gs2 => Sys2Proof.Machine.execVfill la gd gs2 s
  | .fork la gd gs1 gs2 => Sys2Proof.Machine.execFork la gd gs1 gs2 s
  | .join la gs1 => Sys2Proof.Machine.execJoin la gs1 s
  | .spawn n gd gs1 gs2 => Sys2Proof.Machine.execSpawn n gd gs1 gs2 s
  | .exit la => Sys2Proof.Machine.execExit la s
  | .yield la gs1 => Sys2Proof.Machine.execYield la gs1 s
  | .trigger la => Sys2Proof.Machine.execTrigger la s
  | .send n gd gs2 => Sys2Proof.Machine.execSend n gd gs2 s
  | .lbsend n gd gs1 gs2 => Sys2Proof.Machine.execLbsend n gd gs1 gs2 s
  | .rcall n r gd gs1 gs2 => Sys2Proof.Machine.execRcall n r gd gs1 gs2 s
  | .rpost n gs1 gs2 => Sys2Proof.Machine.execRpost n gs1 gs2 s
  | .rreply n gs2 => Sys2Proof.Machine.execRreply n gs2 s
  | .migrate la gs1 => Sys2Proof.Machine.execMigrate la gs1 s
  | .atake la gd => Sys2Proof.Machine.execAtake la gd s
  | .hold la gd gs1 => Sys2Proof.Machine.execHold la gd gs1 s
  | .unhold la gd gs1 => Sys2Proof.Machine.execUnhold la gd gs1 s
  | .catset la gs2 sel => Sys2Proof.Machine.execCatset la gs2 sel s
  | .bind la gd sel => Sys2Proof.Machine.execBind la gd sel s
  | .unbind la => Sys2Proof.Machine.execUnbind la s
  | .gpos la gd sel => Sys2Proof.Machine.execGpos la gd sel s
  | .crrd la gd sel => Sys2Proof.Machine.execCrrd la gd sel s
  | .crwr la gd gs1 sel => Sys2Proof.Machine.execCrwr la gd gs1 sel s
  | .crset la gd gs1 sel => Sys2Proof.Machine.execCrset la gd gs1 sel s
  | .crclr la gd gs1 sel => Sys2Proof.Machine.execCrclr la gd gs1 sel s
  | .tret la => Sys2Proof.Machine.execTret la s
  | .ctxsave la gd gs1 gs2 => Sys2Proof.Machine.execCtxsave la gd gs1 gs2 s
  | .ctxload la gd gs1 gs2 => Sys2Proof.Machine.execCtxload la gd gs1 gs2 s
  | .preack la gd gs1 => Sys2Proof.Machine.execPreack la gd gs1 s
  | .tdrain la gd gs1 gs2 => Sys2Proof.Machine.execTdrain la gd gs1 gs2 s
  | .tconfirm la gd gs1 => Sys2Proof.Machine.execTconfirm la gd gs1 s
  | .evrd la gd sel => Sys2Proof.Machine.execEvrd la gd sel s
  | .evclr la gs1 => Sys2Proof.Machine.execEvclr la gs1 s
  | .finject la gd gs1 sel => Sys2Proof.Machine.execFinject la gd gs1 sel s
  | .gpreempt la gd gs1 => Sys2Proof.Machine.execGpreempt la gd gs1 s
  | .gpreemptEnd la gd gs1 => Sys2Proof.Machine.execGpreemptEnd la gd gs1 s
  | .gresume la gd gs1 => Sys2Proof.Machine.execGresume la gd gs1 s
  | .mmaE4e4 acc ca cb gs3 => Sys2Proof.Machine.execMmaE4e4 acc ca cb gs3 s
  | .mmaE4e5 acc ca cb gs3 => Sys2Proof.Machine.execMmaE4e5 acc ca cb gs3 s
  | .mmaE5e4 acc ca cb gs3 => Sys2Proof.Machine.execMmaE5e4 acc ca cb gs3 s
  | .mmaE5e5 acc ca cb gs3 => Sys2Proof.Machine.execMmaE5e5 acc ca cb gs3 s
  | .mmaH acc ca cb gs3 => Sys2Proof.Machine.execMmaH acc ca cb gs3 s
  | .mmaB acc ca cb gs3 => Sys2Proof.Machine.execMmaB acc ca cb gs3 s
  | .mmaS acc ca cb gs3 => Sys2Proof.Machine.execMmaS acc ca cb gs3 s
  | .mmaI8 acc ca cb gs3 => Sys2Proof.Machine.execMmaI8 acc ca cb gs3 s
  | .mmaNi acc km1 ca cb gs3 => Sys2Proof.Machine.execMmaNi acc km1 ca cb gs3 s
  | .fmaddS gd gs1 gs2 gs3 => Sys2Proof.Machine.execFmaddS gd gs1 gs2 gs3 s
  | .fmsubS gd gs1 gs2 gs3 => Sys2Proof.Machine.execFmsubS gd gs1 gs2 gs3 s
  | .fnmaddS gd gs1 gs2 gs3 => Sys2Proof.Machine.execFnmaddS gd gs1 gs2 gs3 s
  | .fnmsubS gd gs1 gs2 gs3 => Sys2Proof.Machine.execFnmsubS gd gs1 gs2 gs3 s
  | .faddS gd gs1 gs2 => Sys2Proof.Machine.execFaddS gd gs1 gs2 s
  | .fsubS gd gs1 gs2 => Sys2Proof.Machine.execFsubS gd gs1 gs2 s
  | .fmulS gd gs1 gs2 => Sys2Proof.Machine.execFmulS gd gs1 gs2 s
  | .fdivS gd gs1 gs2 => Sys2Proof.Machine.execFdivS gd gs1 gs2 s
  | .fsqrtS gd gs1 => Sys2Proof.Machine.execFsqrtS gd gs1 s
  | .fminS gd gs1 gs2 => Sys2Proof.Machine.execFminS gd gs1 gs2 s
  | .fmaxS gd gs1 gs2 => Sys2Proof.Machine.execFmaxS gd gs1 gs2 s
  | .feqS gd gs1 gs2 => Sys2Proof.Machine.execFeqS gd gs1 gs2 s
  | .fltS gd gs1 gs2 => Sys2Proof.Machine.execFltS gd gs1 gs2 s
  | .fleS gd gs1 gs2 => Sys2Proof.Machine.execFleS gd gs1 gs2 s
  | .fcvt gd gs1 src sat dst => Sys2Proof.Machine.execFcvt gd gs1 src sat dst s
  | .powerOn => Sys2Proof.Machine.execPowerOn s
  | .carrierReset => Sys2Proof.Machine.execCarrierReset s
  | .startWatchdog => Sys2Proof.Machine.execStartWatchdog s
  | .governorWindow => Sys2Proof.Machine.execGovernorWindow s
  | .levelStepDone => Sys2Proof.Machine.execLevelStepDone s
  | .nrctlWrite => Sys2Proof.Machine.execNrctlWrite s
  | .limiterSample => Sys2Proof.Machine.execLimiterSample s
  | .thermalLimit => Sys2Proof.Machine.execThermalLimit s
  | .thermalPreempt => Sys2Proof.Machine.execThermalPreempt s
  | .thermalClear => Sys2Proof.Machine.execThermalClear s
  | .thermalShutdown => Sys2Proof.Machine.execThermalShutdown s
  | .sliceScrub => Sys2Proof.Machine.execSliceScrub s
  | .hbmRowScrub => Sys2Proof.Machine.execHbmRowScrub s
  | .crossingFail => Sys2Proof.Machine.execCrossingFail s
  | .groupReceive => Sys2Proof.Machine.execGroupReceive s
  | .laneLockLoss => Sys2Proof.Machine.execLaneLockLoss s
  | .retrainEnd => Sys2Proof.Machine.execRetrainEnd s
  | .fpctlEn => Sys2Proof.Machine.execFpctlEn s
  | .fpctlDown => Sys2Proof.Machine.execFpctlDown s
  | .fshareWrite => Sys2Proof.Machine.execFshareWrite s
  | .hshareWrite => Sys2Proof.Machine.execHshareWrite s
  | .sshareWrite => Sys2Proof.Machine.execSshareWrite s
  | .enforcementWindow => Sys2Proof.Machine.execEnforcementWindow s
  | .fabricPacket => Sys2Proof.Machine.execFabricPacket s
  | .memoryRead => Sys2Proof.Machine.execMemoryRead s
  | .memoryWrite => Sys2Proof.Machine.execMemoryWrite s
  | .cellRequest => Sys2Proof.Machine.execCellRequest s
  | .hostCancel => Sys2Proof.Machine.execHostCancel s
  | .unsupportedRequest => Sys2Proof.Machine.execUnsupportedRequest s
  | .streamRequestIssue => Sys2Proof.Machine.execStreamRequestIssue s
  | .eventRecordSend => Sys2Proof.Machine.execEventRecordSend s
  | .attachQueue => Sys2Proof.Machine.execAttachQueue s
  | .detachQueue => Sys2Proof.Machine.execDetachQueue s
  | .resetQueue => Sys2Proof.Machine.execResetQueue s
  | .setStream => Sys2Proof.Machine.execSetStream s
  | .negotiate => Sys2Proof.Machine.execNegotiate s
  | .readCap => Sys2Proof.Machine.execReadCap s
  | .readStart => Sys2Proof.Machine.execReadStart s
  | .clearStart => Sys2Proof.Machine.execClearStart s
  | .selectSlot => Sys2Proof.Machine.execSelectSlot s
  | .attest => Sys2Proof.Machine.execAttest s
  | .relocate => Sys2Proof.Machine.execRelocate s
  | .setSetup => Sys2Proof.Machine.execSetSetup s
  | .queueAgentPop => Sys2Proof.Machine.execQueueAgentPop s
  | .launch => Sys2Proof.Machine.execLaunch s
  | .wait => Sys2Proof.Machine.execWait s
  | .signal => Sys2Proof.Machine.execSignal s
  | .write => Sys2Proof.Machine.execWrite s
  | .event => Sys2Proof.Machine.execEvent s
  | .nop => Sys2Proof.Machine.execNop s
  | .launchReady => Sys2Proof.Machine.execLaunchReady s
  | .placeGrid => Sys2Proof.Machine.execPlaceGrid s
  | .coreSetup => Sys2Proof.Machine.execCoreSetup s
  | .dealTask => Sys2Proof.Machine.execDealTask s
  | .footprintCopy => Sys2Proof.Machine.execFootprintCopy s
  | .triggerRelease => Sys2Proof.Machine.execTriggerRelease s
  | .completionRelease => Sys2Proof.Machine.execCompletionRelease s
  | .taskSelect => Sys2Proof.Machine.execTaskSelect s
  | .taskStart => Sys2Proof.Machine.execTaskStart s
  | .messageArrival => Sys2Proof.Machine.execMessageArrival s
  | .messageReady => Sys2Proof.Machine.execMessageReady s
  | .annexStart => Sys2Proof.Machine.execAnnexStart s
  | .stealRequest => Sys2Proof.Machine.execStealRequest s
  | .stealRetry => Sys2Proof.Machine.execStealRetry s
  | .migrateArrival => Sys2Proof.Machine.execMigrateArrival s
  | .callSlip => Sys2Proof.Machine.execCallSlip s
  | .rcallReply => Sys2Proof.Machine.execRcallReply s
  | .yieldExpiry => Sys2Proof.Machine.execYieldExpiry s
  | .memoryReply => Sys2Proof.Machine.execMemoryReply s
  | .storeAck => Sys2Proof.Machine.execStoreAck s
  | .postedTimeout => Sys2Proof.Machine.execPostedTimeout s
  | .replyDeadline => Sys2Proof.Machine.execReplyDeadline s
  | .elMaterialise => Sys2Proof.Machine.execElMaterialise s
  | .registerImageWrite => Sys2Proof.Machine.execRegisterImageWrite s
  | .hlinWrite => Sys2Proof.Machine.execHlinWrite s
  | .ctxbaseWrite => Sys2Proof.Machine.execCtxbaseWrite s
  | .eltabWrite => Sys2Proof.Machine.execEltabWrite s
  | .rtabWrite => Sys2Proof.Machine.execRtabWrite s
  | .xctlWrite => Sys2Proof.Machine.execXctlWrite s
  | .mqctlWrite => Sys2Proof.Machine.execMqctlWrite s
  | .muDoorbell => Sys2Proof.Machine.execMuDoorbell s
  | .copyDoorbell => Sys2Proof.Machine.execCopyDoorbell s
  | .vectorDoorbell => Sys2Proof.Machine.execVectorDoorbell s
  | .carouselDescriptorWrite => Sys2Proof.Machine.execCarouselDescriptorWrite s
  | .registerWrite => Sys2Proof.Machine.execRegisterWrite s
  | .query => Sys2Proof.Machine.execQuery s
  | .free => Sys2Proof.Machine.execFree s
  | .init => Sys2Proof.Machine.execInit s
  | .cadd => Sys2Proof.Machine.execCadd s
  | .cwait => Sys2Proof.Machine.execCwait s
  | .carm => Sys2Proof.Machine.execCarm s
  | .cdisarm => Sys2Proof.Machine.execCdisarm s
  | .barrive => Sys2Proof.Machine.execBarrive s
  | .bwait => Sys2Proof.Machine.execBwait s
  | .bsync => Sys2Proof.Machine.execBsync s
  | .bpendadd => Sys2Proof.Machine.execBpendadd s
  | .bpendsub => Sys2Proof.Machine.execBpendsub s
  | .lacq => Sys2Proof.Machine.execLacq s
  | .ltry => Sys2Proof.Machine.execLtry s
  | .lrel => Sys2Proof.Machine.execLrel s
  | .qpush => Sys2Proof.Machine.execQpush s
  | .qpop => Sys2Proof.Machine.execQpop s
  | .qtrypush => Sys2Proof.Machine.execQtrypush s
  | .qtrypop => Sys2Proof.Machine.execQtrypop s
  | .vwait => Sys2Proof.Machine.execVwait s
  | .vsignal => Sys2Proof.Machine.execVsignal s
  | .vbcast => Sys2Proof.Machine.execVbcast s
  | .result => Sys2Proof.Machine.execResult s
  | .wake => Sys2Proof.Machine.execWake s
  | .boost => Sys2Proof.Machine.execBoost s
  | .expire => Sys2Proof.Machine.execExpire s
  | .prioset => Sys2Proof.Machine.execPrioset s
  | .cancel => Sys2Proof.Machine.execCancel s
  | .censusreq => Sys2Proof.Machine.execCensusreq s
  | .census => Sys2Proof.Machine.execCensus s
  | .censusEntryTimeout => Sys2Proof.Machine.execCensusEntryTimeout s
  | .deskResend => Sys2Proof.Machine.execDeskResend s
  | .muStep => Sys2Proof.Machine.execMuStep s
  | .drainClose => Sys2Proof.Machine.execDrainClose s
  | .vectorCommand => Sys2Proof.Machine.execVectorCommand s
  | .copyChunk => Sys2Proof.Machine.execCopyChunk s
  | .streamElement => Sys2Proof.Machine.execStreamElement s
  | .xuProduct => Sys2Proof.Machine.execXuProduct s
  | .xprogRow => Sys2Proof.Machine.execXprogRow s
  | .xcalStep => Sys2Proof.Machine.execXcalStep s
  | .rowOpComplete => Sys2Proof.Machine.execRowOpComplete s
  | .preemptBoundary => Sys2Proof.Machine.execPreemptBoundary s
  | .saveComplete => Sys2Proof.Machine.execSaveComplete s
  | .powerLoss => Sys2Proof.Machine.execPowerLoss s
  | .softError => Sys2Proof.Machine.execSoftError s
  | .illegalInstruction => Sys2Proof.Machine.execIllegalInstruction s
  | .overlayTrap => Sys2Proof.Machine.execOverlayTrap s
  | .thermalLimitExit => Sys2Proof.Machine.execThermalLimitExit s

end Sys2Proof.Machine
end

