-- ==== Sys2Proof/Machine/Network.lean ====
section
/-! DEFINITION. The mesh (spec/06_network_and_slices.md R91-R102): injection, the virtual channels, the routes, the grants of the
output ports, multicast, ejection, and the ingress of the slices (R105). In each step every router forwards what its outputs can
take; how many cycles that lasts is not modelled (notes/assumptions/77.md). -/

namespace Sys2Proof.Machine

open Sys2Proof

/-! ## Routers and channels (R91, R95, R96) -/

/-- The five input ports of a router, in the order of their turns. -/
def inputs : List Dir := [.north, .south, .east, .west, .here]

def Dir.index : Dir → Nat
  | .north => 0 | .south => 1 | .east => 2 | .west => 3 | .here => 4

/-- The router beyond an output port, and the input port by which its messages arrive (R91). -/
def neighbour (r : Nat) : Dir → Option (Nat × Dir)
  | .north => some (clusterAt (clusterX r) (clusterY r + 1), .south)
  | .south => some (clusterAt (clusterX r) (clusterY r - 1), .north)
  | .east => some (clusterAt (clusterX r + 1) (clusterY r), .west)
  | .west => some (clusterAt (clusterX r - 1) (clusterY r), .east)
  | .here => none

/-- The die-to-die crossing that a link passes (R13, R91). -/
def crossingOf (r : Nat) (d : Dir) : Option Nat :=
  let x := clusterX r
  let y := clusterY r
  if d = .east && x = 15 || d = .west && x = 16 then some (if y < 16 then 0 else 1)
  else if d = .north && y = 15 || d = .south && y = 16 then some (if x < 16 then 2 else 3)
  else none

/-- The link of an output port is down (R94). -/
def State.linkDown (s : State) (r : Nat) (d : Dir) : Bool :=
  (crossingOf r d).isSome && crossingOf r d = s.crossingDown

/-- The route mode and the channel of a class (R95 Table 2, R96 Table 3). -/
def State.classRoute (s : State) (cls : Nat) : Nat × Nat :=
  let m := bits s.rtab.toNat (4 * cls + 1) (4 * cls)
  let m := if m = 3 then 0 else m
  (m, 3 + 2 * m + bits s.rtab.toNat (4 * cls + 2) (4 * cls + 2))

/-- The header with the route mode and the channel that it latches when it is injected (R95). -/
def State.latched (s : State) (f : Flight) : Header :=
  let r : Nat × Nat :=
    if f.copies != [] then (0, 9) else if f.head.family < 3 then (0, f.head.family) else s.classRoute f.head.cls
  { f.head with mode := r.1, vc := r.2 }

/-- The flits that a channel of an input port can still take: it buffers a whole message of 6 (R95). -/
def Net.room (n : Net) (r : Nat) (inp : Dir) (vc : Nat) : Nat :=
  6 - ((n.flights.filter fun f => f.router = r && f.inp = some inp && f.head.vc = vc).map (·.head.len)).sum

/-! ## Injection -/

/-- The messages that wait at their source, in order: each is injected into its channel of the local input port if nothing waits
before it and its flits find room there (R95, R98). In a device that has stopped only replies and acknowledgements are (R94). -/
def State.injectAll (s : State) : State :=
  let go (a : List Flight × List (Nat × Nat)) (f : Flight) : List Flight × List (Nat × Nat) :=
    let h := s.latched f
    let inside : Net := { flights := s.net.flights.filter (·.inp.isSome) ++ a.1.filter (·.inp.isSome) }
    if a.2.contains (f.router, h.vc) || inside.room f.router .here h.vc < h.len || s.phase = .stopped && h.family != 1 then
      (a.1 ++ [f], (f.router, h.vc) :: a.2)
    else (a.1 ++ [{ f with head := h, inp := some .here }], a.2)
  let waiting := (s.net.flights.filter (·.inp.isNone)).foldl go ([], [])
  { s with net := { s.net with flights := s.net.flights.filter (·.inp.isSome) ++ waiting.1 } }

/-! ## Routes -/

/-- Room beyond an output for a message's channel. -/
def Net.roomBeyond (n : Net) (r vc : Nat) (d : Dir) : Nat :=
  match neighbour r d with
  | some (q, i) => n.room q i vc
  | none => 0

/-- The output that the route of a message takes at its router (R95): XY, YX, or west-first, which takes its westward hops first
and then the productive output with the most room, north before east before south. -/
def Net.route (n : Net) (f : Flight) : Dir :=
  let r := f.router
  let d := f.head.dst.router
  let x := clusterX r
  let y := clusterY r
  let onX : Dir := if x < clusterX d then .east else .west
  let onY : Dir := if y < clusterY d then .north else .south
  if d = r then .here
  else if f.head.mode = 1 then (if clusterY d = y then onX else onY)
  else if f.head.mode = 2 then
    if clusterX d < x then .west
    else
      let productive : List Dir :=
        (if y < clusterY d then [.north] else []) ++ (if x < clusterX d then [.east] else []) ++
          (if clusterY d < y then [.south] else [])
      productive.foldl (fun b o => if n.roomBeyond r f.head.vc b < n.roomBeyond r f.head.vc o then o else b)
        (productive.headD .here)
  else (if clusterX d = x then onY else onX)

/-- The output of a copy of a multicast (R101): along the row to its column, then along the column, then out. -/
def branchOf (r core : Nat) : Dir :=
  let c := clusterOf core
  if clusterX r < clusterX c then .east else if clusterX c < clusterX r then .west
  else if clusterY r < clusterY c then .north else if clusterY c < clusterY r then .south else .here

/-- The outputs that a message needs at its router, with the part of it that each takes (R101). -/
def Net.branches (n : Net) (f : Flight) : List (Dir × Flight) :=
  if f.copies = [] then [(n.route f, f)]
  else ([.north, .south, .east, .west, .here] : List Dir).filterMap fun d =>
    match f.copies.filter fun c => branchOf f.router c.1 = d with
    | [] => none
    | c :: cs => some (d, { f with act := c.2, copies := c :: cs })

/-- What a message does where it leaves the mesh: itself, or a multicast's copies. -/
def Flight.acts (f : Flight) : List Event := if f.copies = [] then [f.act] else f.copies.map (·.2)

/-- The core whose inbox an arrival enters, if it enters one. -/
def inboxOf : Event → Option Nat
  | .messageArrival n _ | .callSlip n _ | .migrateArrival n _ => some n
  | _ => none

/-- A message that has reached its router's local output can leave the mesh: a slice takes a request into the queue of its class,
of 16 entries (R105); a message for a core waits in the output while another waits there for that core's inbox (R99). -/
def State.ejects (s : State) (f : Flight) : Bool :=
  if f.head.family = 0 && f.head.dst.code = 1 then
    (s.net.ingress.filter fun i => i.cluster = f.router && i.cls = f.head.qos).length < 16
  else f.acts.all fun e => match inboxOf e with
    | some n => if n < 16384 then (s.core n).router = [] else (s.bank (n - 16384)).router = []
    | none => true

/-- An output can take a part of a message: its link is up and its channel has room for the whole message (R95, R102). -/
def State.takes (s : State) (d : Dir) (f : Flight) : Bool :=
  match d with
  | .here => s.ejects f
  | d => !s.linkDown f.router d && f.head.len ≤ s.net.roomBeyond f.router f.head.vc d

/-! ## Grants (R100, R102) -/

/-- A message at the head of its input channel, with the parts that its outputs take. -/
structure Asking where
  flight : Flight
  inp : Dir
  parts : List (Dir × Flight)

/-- The messages at the heads of their channels all of whose outputs can take them: a multicast reserves a buffer on every output
that it needs, or none (R102). -/
def State.askingAll (s : State) : List Asking :=
  let heads := s.net.flights.foldl (fun (a : List Flight) f =>
    if f.inp.isNone || a.any fun g => g.router = f.router && g.inp = f.inp && g.head.vc = f.head.vc then a else a ++ [f]) []
  (heads.filterMap fun f => f.inp.map fun i => (⟨f, i, s.net.branches f⟩ : Asking)).filter fun q =>
    q.parts.all fun p => s.takes p.1 p.2

/-- The order in which an output asks the inputs: after the one it granted last (R100). -/
def Net.order (n : Net) (r : Nat) (d : Dir) : List Dir :=
  let i := (look Dir.here n.granted (8 * r + d.index)).index
  inputs.drop (i + 1) ++ inputs.take (i + 1)

/-- The message that an output grants, among those that ask for it. -/
def Net.grant (n : Net) (all : List Asking) (r : Nat) (d : Dir) : Option Asking :=
  (n.order r d).findSome? fun i =>
    all.find? fun q => q.flight.router = r && q.inp = i && q.parts.any fun p => p.1 = d

/-- Every output that a message needs grants it. -/
def Net.grantsAll (n : Net) (all : List Asking) (q : Asking) : Bool :=
  q.parts.all fun p => match n.grant all q.flight.router p.1 with
    | some g => g.flight = q.flight
    | none => false

/-- The messages that move: the multicasts that all their outputs grant, and, where a multicast waits and so holds nothing, what
the outputs grant without it. -/
def State.moving (s : State) : List Asking :=
  let all := s.askingAll
  let left := all.filter fun q => q.flight.copies = [] || s.net.grantsAll all q
  left.filter (s.net.grantsAll left)

/-! ## Movement -/

/-- A part of a message passes its output: to the input of the next router, into the ingress of a slice, or out of the mesh. -/
def State.pass (s : State) (inp : Dir) (p : Dir × Flight) : State :=
  let f := p.2
  let s : State := { s with net := { s.net with granted := put s.net.granted (8 * f.router + p.1.index) inp } }
  match neighbour f.router p.1 with
  | some (r, i) => { s with net := { s.net with flights := s.net.flights ++ [{ f with router := r, inp := some i }] } }
  | none =>
    if f.head.family = 0 && f.head.dst.code = 1 then
      { s with net := { s.net with ingress := s.net.ingress ++ [⟨f.router, f.head.qos, f.head.prio, inp, f.act⟩] } }
    else s.emits f.acts

/-- A granted message leaves its input channel and passes its outputs. -/
def State.move (s : State) (q : Asking) : State :=
  let s : State := { s with net := { s.net with flights := s.net.flights.erase q.flight } }
  q.parts.foldl (fun s p => s.pass q.inp p) s

/-! ## The ingress of a slice (R88, R105) -/

/-- Bytes that the slices of a die take in an enforcement window: 256 slices, 32 bytes per ncycle, two ncycles in three cycles
(level 0; R88, R89). -/
def ingressWindow : Nat := 256 * 32 * 4096 * 2 / 3

/-- A class has unused share at the ingress of a die in this window (R87, R88). -/
def State.hasShare (s : State) (die cls : Nat) : Bool :=
  let used := ((s.charges.filter fun c =>
    c.window = s.time / 4096 && c.regulator = dieRegulator die && c.cls = cls).map (·.bytes)).sum
  used < bits (look (0x2020202020202020 : Word64) s.sshare die).toNat (8 * cls + 7) (8 * cls) * ingressWindow / 256

/-- The next class by weighted round robin among those that wait (R88): the one whose turn it is while some of the turn remains,
else the next in order with a turn of its share, at least 1 (R49). -/
def State.turnOf (s : State) (c : Nat) (waiting : List Nat) : Option (Nat × Nat) :=
  let (now, left) := look (7, 0) s.net.turns c
  if left != 0 && waiting.contains now then some (now, left - 1)
  else (([1, 2, 3, 4, 5, 6, 7, 8].map fun i => (now + i) % 8).find? waiting.contains).map fun q =>
    (q, max 1 (bits (look (0x2020202020202020 : Word64) s.sshare (c / 256)).toNat (8 * q + 7) (8 * q)) - 1)

/-- A slice admits a request (R105): a class with unused share first, within the class the highest priority (R88) and then the
router inputs in turn. -/
def State.serveSlice (s : State) (c : Nat) : State :=
  let mine := s.net.ingress.filter (·.cluster = c)
  let waiting := (mine.map (·.cls)).eraseDups
  let first := waiting.filter (s.hasShare (c / 256))
  match s.turnOf c (if first = [] then waiting else first) with
  | none => s
  | some (q, left) =>
    let ours := mine.filter (·.cls = q)
    let top := (ours.map (·.prio)).foldl max 0
    let i := (look Dir.here s.net.served (8 * c + q)).index
    match (inputs.drop (i + 1) ++ inputs.take (i + 1)).findSome? fun d => ours.find? fun r => r.inp = d && r.prio = top with
    | none => s
    | some r =>
      ({ s with net := { s.net with
          ingress := s.net.ingress.erase r
          served := put s.net.served (8 * c + q) r.inp
          turns := put s.net.turns c (q, left) } } : State).emit r.act

/-! ## A turn of the mesh -/

/-- What the mesh does in a step: it injects, every router forwards, and every slice with a waiting request admits one. -/
def State.netTurn (s : State) : State :=
  if s.net.flights.isEmpty && s.net.ingress.isEmpty then s
  else
    let s := s.injectAll
    let s := s.moving.foldl State.move s
    ((s.net.ingress.map (·.cluster)).eraseDups).foldl State.serveSlice s

end Sys2Proof.Machine
end

