-- ==== Sys2Proof/Machine/Step.lean ====
section
/-! DEFINITION. One step of the device: an event of the agenda is performed, or a ready slot fetches, decodes and
executes one instruction (spec/12_cores_and_strands.md R225, spec/16_isa_framework.md R330). -/

namespace Sys2Proof.Machine

open Sys2Proof

/-- The grid of a slot lets its strands issue (R278, R457): it is not being stopped, saved or ended. -/
def State.gridIssues (s : State) (k : Nat) : Bool :=
  if isBankSlot k then true else
  match (s.core (coreOf k)).grid with
  | none => true
  | some g => match s.grid g with
    | none => true
    | some x => match x.st with
      | .stopping | .saving | .saved | .ending | .done => false
      | _ => true

/-- A slot may issue (R224, R225): it is Running and its instruction waits for no answer. -/
def State.mayIssue (s : State) (k : Nat) : Bool :=
  let sl := s.slot k
  sl.st == .running && sl.await.isNone && sl.yielding == 0 && s.phase != .dead && s.phase != .stopped &&
    s.gridIssues k

/-- The core or bank unit that issues next, by its slots' keys over 4: the first with a slot that may issue from `next` upwards,
else the first of all. -/
def State.nextUnit (s : State) : Option Nat :=
  match s.slots.find? fun e => s.next ≤ e.1 / 4 && s.mayIssue e.1 with
  | some e => some (e.1 / 4)
  | none => (s.slots.find? fun e => s.mayIssue e.1).map (·.1 / 4)

/-- The slots of a core or bank unit that may issue, in order after the slot that issued last (R225). -/
def State.turns (s : State) (u : Nat) : List Nat :=
  let h := look 3 s.issued u
  ([1, 2, 3, 4].map fun i => 4 * u + (h + i) % 4).filter s.mayIssue

/-- The slots to try in this step. -/
def State.nextSlots (s : State) : List Nat :=
  match s.nextUnit with
  | some u => s.turns u
  | none => []

/-- Time passes (R73): at least a cycle, and a number of further cycles that the specification bounds and does not
fix; the cores with a Held slot count them in `ev8` (R305). The mesh
moves its messages. -/
def State.tick (s : State) : State :=
  let dt := 1 + Config.cycles s.fresh
  let held := ((s.slots.filter fun e => e.2.st == .held && !isBankSlot e.1).map fun e => coreOf e.1).eraseDups
  let s := held.foldl (fun s c => s.count c 8 dt) s
  ({ s with time := s.time + dt, fresh := s.fresh + 1 } : State).netTurn

/-- The instructions that a resume passes over (R275). -/
def State.passDone (s : State) (k : Nat) : Nat → State
  | 0 => s
  | n + 1 =>
    let sl := s.slot k
    match sl.skip with
    | none => s
    | some r =>
      let d := (sl.pc - r.base).toNat
      let j := d / 4
      if d % 4 != 0 || r.len < j then s.onSlot k fun sl => { sl with skip := none }
      else if j != 0 && r.done.getLsbD (j - 1) then
        (s.onSlot k fun sl => { sl with pc := sl.pc + 4 }).passDone k n
      else s

/-- What a fetch brings (R250, R273 rank 1, R317, R192): an offset at or above `xbound` raises the overlay trap, a
poisoned word POISON, an offset that is no multiple of 4 ALIGNMENT. -/
inductive Fetch where
  | overlay
  | trap (t : TrapInfo)
  | word (w : Word32)

def State.fetchAt (s : State) (k : Nat) : Fetch :=
  let pc := (s.slot k).pc
  let a := pc.toNat
  if isBankSlot k then
    if 0x8000 ≤ a then .trap { cause := .illegalInstruction }
    else if a % 4 != 0 then .trap { cause := .alignment, addr := a }
    else .word (s.wordAt k pc)
  else if s.codeEnd (coreOf k) ≤ a then .overlay
  else if a % 4 != 0 then .trap { cause := .alignment, addr := a }
  else if (s.granule (fetchPA k a)).poison then .trap { cause := .poison, addr := a }
  else .word (s.wordAt k pc)

/-- A word executed: the instruction that it decodes to, or the illegal instruction (R330). -/
def runWord (w : Word32) (s : State) : Answered :=
  match decodeWord w with
  | .ok i => exec i s
  | .error _ => exec .illegalInstruction { s with input := .illegalInstruction w }

/-- A slot issues its next instruction. -/
def issue (k : Nat) (s : State) : Answered :=
  let s := ({ s with
    cur := k, next := k / 4 + 1, issued := put s.issued (k / 4) (k % 4), waited := false, eventTurn := true } : State).passDone k 16
  let s := match s.slot k, isBankSlot k with
    | sl, false => if s.flips = [] then s else s.mendMemory (fetchPA k sl.pc.toNat) 4
    | _, true => s
  match s.fetchAt k with
  | .overlay => exec .overlayTrap { s with input := .overlayTrap }
  | .trap t => .next (s.takeTrap t 0)
  | .word w => runWord w s

/-- The first of the slots whose instruction is ready issues (R225): one whose instruction waits has not issued. -/
def issueFirst : List Nat → State → Answered
  | [], s => .next { s with eventTurn := true }
  | k :: ks, s =>
    match issue k s with
    | .next t => if t.waited then issueFirst ks { t with issued := s.issued } else .next t
    | r => r

/-- An event of the agenda is performed. -/
def perform (e : Event) (rest : List Event) (s : State) : Answered :=
  exec e.instr { s with agenda := rest, input := e, eventTurn := false }

/-- One step. Without power nothing happens until power returns (R23, R53). Otherwise events and instructions take
turns where both are ready (notes/assumptions/4.md), and where neither is, time passes. -/
def step (s : State) : Host.Outcome State Fault Refusal :=
  if !s.powered then
    match s.agenda with
    | [] => .fault .noPower
    | .powerOn env 0 :: rest => perform (.powerOn env 0) rest s.tick
    | _ :: rest => .next { s with agenda := rest }
  else
    let s := s.tick
    match s.agenda, s.nextSlots with
    | [], [] => .next s
    | [], ks => issueFirst ks s
    | e :: rest, [] => perform e rest s
    | e :: rest, ks => if s.eventTurn then perform e rest s else issueFirst ks s

/-- The slot that fetches next, or the first slot of the start core where none does. -/
def State.fetchSlot (s : State) : Nat := s.nextSlots.headD 0

/-- The state with an instruction stored where the next step fetches: slot and offset made ready for the fetch
where they are not (notes/assumptions/7.md). -/
def State.withFetchWord (s : State) (_nbits w : Nat) : State :=
  let k := s.fetchSlot
  let s := s.onSlot k fun sl => { sl with
    st := .running, await := none, yielding := 0, skip := none
    pc := if sl.pc.toNat % 4 = 0 && sl.pc.toNat < (if isBankSlot k then 0x8000 else 1024) then sl.pc else 0 }
  let s := if isBankSlot k then s else s.onCore (coreOf k) fun c => { c with
    xbound := if c.xbound.toNat < 1024 then 1024 else c.xbound }
  let pa := fetchPA k (s.slot k).pc.toNat
  let s := (s.store pa (bytesOf 4 w)).onGranule pa fun g => { g with poison := false }
  { s with powered := true, next := k / 4, issued := put s.issued (k / 4) ((k + 3) % 4), eventTurn := false,
           phase := if s.phase == .dead || s.phase == .stopped then .up else s.phase }

end Sys2Proof.Machine
end

