-- ==== Sys2Proof/Safety.lean ====
section
/-! DEFINITION. What the statements mean by a good state, a run, a register that can be read or written at once, and the
state after an instruction that has written its result (spec/08_memory_and_translation.md R139,
spec/16_isa_framework.md R308, spec/17_isa_integer_control.md R343, R344). -/

namespace Sys2Proof.Machine

open Sys2Proof

/-- The memory is in its canonical form (notes/assumptions/5.md): addresses strictly rising, and no byte that equals
what an unlisted address reads as. -/
abbrev State.MemoryCanonical (s : State) : Prop := Memory.wf s.mem = true

/-- A step of the device succeeds: it answers a next state. -/
def State.StepsTo (s t : State) : Prop := step s = .next t

/-- The states that are reached from a state by steps that answer a next state. -/
inductive State.Reaches : State → State → Prop where
  | here (s : State) : State.Reaches s s
  | later {s t u : State} : State.Reaches s t → State.StepsTo t u → State.Reaches s u

/-- The issuing strand reads the register at once: no stream is bound to it (R268), no result for it is outstanding
(R225), it has no deferred mark (R276), and no error has struck it (R24). -/
def State.Readable (s : State) (r : RegNo) : Prop :=
  s.here.stream r.toNat = none ∧ s.outstanding s.cur r.toNat = false ∧
    (s.here.marks.find? fun e => e.1 = r.toNat) = none ∧
    ∀ f ∈ s.flips, f.at_.isRegister s.cur r.toNat = false

/-- The issuing strand writes the register at once: no stream is bound to it and no result for it is outstanding. -/
def State.Writable (s : State) (r : RegNo) : Prop :=
  s.here.stream r.toNat = none ∧ s.outstanding s.cur r.toNat = false

/-- What the issuing strand reads from a register. -/
def State.value (s : State) (r : RegNo) : Reg := s.here.reg r.toNat

/-- `t` differs from `s` in the issuing slot, in errors that had struck its registers, and in the event counters of its
core alone: memory, every other strand and every other register of the device are as they were. -/
def State.OnlyHere (s t : State) : Prop :=
  t = { s with slots := t.slots, cores := t.cores, flips := t.flips } ∧
  (∀ k, k ≠ s.cur → t.slot k = s.slot k) ∧
  (∀ n, t.core n = { s.core n with ev := (t.core n).ev }) ∧
  (∀ n e, e ≠ 7 → look 0 (t.core n).ev e = look 0 (s.core n).ev e)

/-- The issuing slot is as it was but for its registers, their marks, its `pc` and its lookahead window. -/
def Slot.SameButRegs (a b : Slot) : Prop :=
  b = { a with regs := b.regs, marks := b.marks, pc := b.pc, window := b.window }

/-- `t` is `s` after an instruction that wrote `v` to `rd` and retired (R344, R308, R321): every other register reads as
before, g0 reads 0, the strand goes on at the next word, and nothing else has changed. -/
def State.Wrote (s : State) (rd : RegNo) (v : Reg) (la : Nat) (t : State) : Prop :=
  s.OnlyHere t ∧ s.here.SameButRegs t.here ∧
  (∀ r, t.value r = if r = rd ∧ rd ≠ 0 then v else s.value r) ∧
  t.here.pc = s.here.pc + 4 ∧
  t.here.window = (if s.here.window = 0 then la else s.here.window - 1)

/-- `t` is `s` after a transfer of control to `pc` that wrote `v` to `rd` (R350-R352): the lookahead window has ended
(R274), every other register reads as before, and nothing else has changed. -/
def State.WentTo (s : State) (rd : RegNo) (v : Reg) (pc : Word64) (t : State) : Prop :=
  s.OnlyHere t ∧
  t.here = { s.here with regs := t.here.regs, marks := t.here.marks, pc := pc, window := 0, skip := none } ∧
  (∀ r, t.value r = if r = rd ∧ rd ≠ 0 then v else s.value r)

/-- `t` is `s` but for the lines that cache portions hold (R149, R150), which no program can see, and the number of the next free
value, which a choice of the line to evict takes. -/
def State.SameButPortions (s t : State) : Prop :=
  t = { s with cores := t.cores, fresh := t.fresh } ∧
    ∀ n, t.core n = { s.core n with lines := (t.core n).lines, pooled := (t.core n).pooled }

/-- The effective address of a base register of the issuing strand and an offset (R361). -/
def State.address (s : State) (r : RegNo) (off : Word64) : Nat := ((s.value r).data.setWidth 64 + off).toNat

/-- The base passes the checks of R362 steps 2 to 4 for `n` bytes at `ea`: a capability, within its bounds, with the
permissions, and with G in the fabric window; the address is a multiple of `align` where that is not 0. -/
def State.BaseOk (s : State) (r : RegNo) (ea n align : Nat) (perms : List Nat) : Prop :=
  (s.value r).tag = .cap ∧ inBounds (s.value r).data ea n = true ∧
    (∀ p ∈ perms, hasPerm (s.value r).data p = true) ∧ (isFabric ea = true → hasPerm (s.value r).data permG = true) ∧
    (align ≠ 0 → ea % align = 0)

/-- The parts of `n` bytes at `ea` are found at once, outside the fabric window, in the state `u` (R361, R362). -/
def State.Finds (s : State) (use : Use) (base : RegNo) (ea n : Nat) (parts : List (Spot × Nat)) (u : State) : Prop :=
  isFabric ea = false ∧ findParts use (acqOf (s.value base)) (partsOf ea n) s = .ok (parts, u)

/-- The instruction is a load of `n` bytes that writes `value bytes tags` to `rd` (R366), or raises POISON (R26). -/
def State.Loads (s : State) (i : Instr) (rd base : RegNo) (off : Word64) (n align la : Nat) (value : Got → Reg) : Prop :=
  let ea := s.address base off
  s.BaseOk base ea n align [permR] → ∀ parts u, s.Finds .read base ea n parts u →
    let found := u.readParts u.here.qos parts
    if found.1.poison = true then exec i s = .next (found.2.takeTrap { cause := .poison, addr := ea } la)
    else ∃ t v, exec i s = .next t ∧ found.2.Wrote rd (value found.1) la v ∧ v.SameButPortions t

/-- The instruction is a store of the bytes `bs` (R367, R370, R371): they are written where the address is found, and counted
for a barrier where one is named (R368); a byte of a typed cell raises TYPE (R109). -/
def State.Stores (s : State) (i : Instr) (base : RegNo) (off : Word64) (bs : List Byte) (align la : Nat)
    (perms : List Nat) (kind : StoreKind) : Prop :=
  let ea := s.address base off
  s.BaseOk base ea bs.length align perms → ∀ parts u, s.Finds .write base ea bs.length parts u →
    if parts.any (fun p => u.typedAt p.1 p.2) = true then exec i s = .next (u.takeTrap { cause := .type, addr := ea } la)
    else
      let w := u.writeParts u.here.qos (u.agentOf u.cur).writer (some (coreOf u.cur)) kind parts bs
      let w := if s.counts s.cur ea = true then (w.countStore w.cur bs.length).visibleAt w.cur bs.length parts else w
      ∃ t, exec i s = .next t ∧ w.Wrote 0 {} la t

/-- The typed cell that a register names is found at once at `pa`, in the state `u`, and the operation has nothing to wait
for (R383 steps 2 to 5, R384): the earlier accesses of a release are done, and no unsent count is due first (R368). -/
def State.CellAt (s : State) (op : DeskOp) (base : RegNo) (pa : Nat) (u : State) : Prop :=
  let va := capAddr (s.value base).data
  levelOf s.cur ∈ (if op.canHold then holders else everywhere) ∧ s.BaseOk base va 32 32 [permOBJ] ∧
  regionOfVA va = .translated ∧ s.findCell (s.agentOf s.cur) va op = (.cell pa, u) ∧ (u.granule pa).poison = false ∧
  (op.releases = true → u.readsOpen u.cur = false ∧ u.postsOpen u.cur = false) ∧
  u.here.unsent = 0 ∧ ∀ r, .bpendadd r ∈ u.coming → r.who ≠ u.waiterOf u.cur

/-- What an instruction does with the answer of its Desk (R381-R385): it writes the result, which `value` makes of the
status, the value and the data, or raises what the status asks for (Table 3); a hold leaves it waiting for its wake-up. -/
def State.AnswersTo (s u : State) (i : Instr) (op : DeskOp) (gd : RegNo) (va pa la : Nat) (area : Option Reg) (r : DeskReq)
    (value : Nat → Nat → List Byte → Reg) : Prop :=
  match u.drawn.desk op (u.cellRequest r va pa) with
  | (.park, _) => exec i s = .next { s with waited := true }
  | (.held, t) => exec i s = .next (t.awaitCell op u.fresh gd.toNat va pa la area false)
  | (.done st val elem, t) =>
    let t := t.onHere fun sl => { sl with popped := none }
    match st with
    | 0 | 1 | 2 | 7 => ∃ v, exec i s = .next v ∧ t.Wrote gd (value st val elem) la v
    | 8 => exec i s = .next (t.takeTrap { cause := .holdExhausted, addr := va, dstat := 8 } la)
    | 10 => exec i s = .next (t.takeTrap { cause := .type, addr := va, dstat := 10 } la)
    | st => exec i s = .next (t.takeTrap { cause := .cell, addr := va, dstat := st } la)

end Sys2Proof.Machine
end

