-- ==== Sys2Proof/Certificates/Slice0/Obligations.lean ====
section
/-! DEFINITION. The statements for the provers: the encoding, the step, and for each instruction and each event what it does in
every state that meets the conditions of the statement (spec/, rule by rule). -/

open Sys2Proof Sys2Proof.Machine

/-! ## Encoding, the step, and the state after reset (spec/16_isa_framework.md R317-R330) -/

/-- R317, R319, R330: for every well-formed instruction that has an encoding, with every operand, the word that the encoder writes
decodes to that instruction. -/
def Obligations.EncodeThenDecode : Prop :=
  ∀ (i : Instr) (w : Word32), i.wellFormed = true → encode i = some w → decodeWord w = .ok i

/-- R317, R319, R323, R330: a word that decodes is the encoding of the instruction that it decodes to, and that instruction is
well formed: no two words decode to one instruction, and no bit of a word is dropped. -/
def Obligations.DecodeThenEncode : Prop :=
  ∀ (w : Word32) (i : Instr), decodeWord w = .ok i → encode i = some w ∧ i.wellFormed = true

/-- R317-R323, R345, R361, R379, R390: words written out from the encoding tables decode to the instructions that they stand for;
the words of 0 and of a 16-bit encoding, and an unused field that is not 0, decode to none. -/
def Obligations.WordsDecode : Prop :=
  decodeWord 0x3053E28B#32 = .ok (.ldlI64 3 5 7 5) ∧ decodeWord 0x3C62827B#32 = .ok (.fmaddS 4 5 6 7) ∧
  decodeWord 0x1263A18B#32 = .ok (.stlI32 1 7 6 3) ∧ decodeWord 0x08A4E40B#32 = .ok (.csetbnd 0 8 9 10) ∧
  decodeWord 0x0F18628B#32 = .ok (.rowop 0 5 16 17) ∧ decodeWord 0x0A73428B#32 = .ok (.cntAdd 0 5 6 7) ∧
  decodeWord 0x0A03528B#32 = .ok (.cntWait 0 5 6) ∧ decodeWord 0x040232DB#32 = .ok (.bind 0 5 4) ∧
  decodeWord 0x0800405B#32 = .ok (.tret 0) ∧ decodeWord 0x2483A32B#32 = .ok (.xmvm 2 6 7 8) ∧
  decodeWord 0x00000073#32 = .ok .ecall ∧ decodeWord 0x00100073#32 = .ok .ebreak ∧
  (∃ e, decodeWord 0#32 = .error e) ∧ (∃ e, decodeWord 0x4501#32 = .error e) ∧ (∃ e, decodeWord 0x0800C05B#32 = .error e)

/-- R225, R317, R323, R330: where an instruction is due at a slot of a core whose program counter lies in its code region,
aligned, the step executes the instruction that its four bytes decode to, and takes the illegal-instruction trap where they decode
to none; if that instruction is not ready, the step tries the next slot of the core; where an event is due, the step performs the
row of that event. -/
def Obligations.StepRunsDecoded : Prop :=
  ∀ (s : State), s.powered = true →
    (∀ k ks, s.tick.nextSlots = k :: ks → (s.tick.agenda = [] ∨ s.tick.eventTurn = false) →
      let u := ({ s.tick with
        cur := k, next := k / 4 + 1, issued := put s.tick.issued (k / 4) (k % 4), waited := false, eventTurn := true } : State).passDone k 16
      let issues (a : Answered) : Prop := ∃ t, a = .next t ∧
        (t.waited = false → step s = .next t) ∧
        (t.waited = true → step s = issueFirst ks { t with issued := s.tick.issued })
      let pc := (u.slot k).pc.toNat
      u.flips = [] → isBankSlot k = false → pc < u.codeEnd (coreOf k) → pc % 4 = 0 →
      (u.granule (windowPA (coreOf k) pc)).poison = false →
      (∀ w i, wordBytes w = u.bytes (windowPA (coreOf k) pc) 4 → decodeWord w = .ok i → issues (exec i u)) ∧
      (∀ w e, wordBytes w = u.bytes (windowPA (coreOf k) pc) 4 → decodeWord w = .error e →
        issues (exec .illegalInstruction { u with input := .illegalInstruction w }))) ∧
    (∀ e rest, s.tick.agenda = e :: rest → (s.tick.nextSlots = [] ∨ s.tick.eventTurn = true) →
      step s = exec e.instr { s.tick with agenda := rest, input := e, eventTurn := false })

/-- R20, R49, R57, R64, R96, R140, R147, R152, R158, R220, R223, R224, R226, R277, R307, R427: the state after reset. -/
def Obligations.ResetValues : Prop :=
  let s := State.reset
  s.MemoryCanonical ∧ s.mem = [] ∧ s.phase = .off ∧ s.rtab = 0 ∧ s.ctxbase = 0 ∧ s.eltab = 0 ∧ s.grids = [] ∧ s.holds = [] ∧ s.drains = [] ∧ s.time = 0 ∧
  (∀ r < 16, (s.region r).floor_ = 0 ∧ (s.region r).ceiling = 8 ∧ (s.region r).cur = 0 ∧ (s.region r).pinned = false) ∧
  (∀ p < 33, (s.port p).fpctl = 1#32) ∧ (∀ n < 16, (s.hostStream n).hstream = 0#32) ∧
  (∀ c < 16384, s.core c = {} ∧ (s.core c).xbound = 0#32 ∧ (s.core c).lsplit = 0#32 ∧ (s.core c).vpool = 0#32 ∧ (s.core c).hmask = 0#32 ∧
    (s.core c).annexctl = 0x101C#32 ∧ (s.core c).evctl = 0xFFFF#32 ∧ (s.core c).mqwt = 8) ∧
  (∀ k < 67072, (s.slot k).st = .free ∧ (s.slot k).sstat = 0#32 ∧ (s.slot k).rdeadline = 100#32 ∧ (s.slot k).vcfg = 0#32 ∧
    ∀ r, (s.slot k).reg r = {})

/-- The model's canonical form of memory (notes/assumptions/5.md): addresses strictly rising and no byte that equals what an
unlisted address reads as. Every step of the device keeps it, from every state that has it. -/
def Obligations.MemoryStaysCanonical : Prop :=
  ∀ (s t : State), s.MemoryCanonical → s.StepsTo t → t.MemoryCanonical

/-! ## Integer computation (spec/17_isa_integer_control.md) -/

/-- R344, R346, R348: each two-register instruction writes its result, exact data with the high half 0 unless a source is bounded,
and changes nothing else. R344, R346, R348: the 32-bit two-register instructions work on bits [31:0] and sign-extend the result.
-/
def Obligations.RegisterArithmetic : Prop :=
  (
    ∀ p ∈ ([(.add, fun a b => BitVec.ofNat 64 (a.toNat + b.toNat)), (.sub, fun a b => BitVec.ofInt 64 (a.toInt - b.toInt)),
        (.sll, fun a b => BitVec.ofNat 64 (a.toNat * 2 ^ (b.toNat % 64))),
        (.slt, fun a b => if a.toInt < b.toInt then 1 else 0), (.sltu, fun a b => if a.toNat < b.toNat then 1 else 0),
        (.xor, fun a b => a ^^^ b), (.or, fun a b => a ||| b), (.and, fun a b => a &&& b),
        (.srl, fun a b => BitVec.ofNat 64 (a.toNat / 2 ^ (b.toNat % 64))),
        (.sra, fun a b => BitVec.ofInt 64 (a.toInt / 2 ^ (b.toNat % 64))),
        (.mul, fun a b => BitVec.ofNat 64 (a.toNat * b.toNat)),
        (.mulh, fun a b => BitVec.ofInt 64 (a.toInt * b.toInt / 2 ^ 64)),
        (.mulhsu, fun a b => BitVec.ofInt 64 (a.toInt * b.toNat / 2 ^ 64)),
        (.mulhu, fun a b => BitVec.ofNat 64 (a.toNat * b.toNat / 2 ^ 64)),
        (.div, fun a b => if b = 0 then BitVec.allOnes 64 else BitVec.ofInt 64 (a.toInt.tdiv b.toInt)),
        (.divu, fun a b => if b = 0 then BitVec.allOnes 64 else BitVec.ofNat 64 (a.toNat / b.toNat)),
        (.rem, fun a b => if b = 0 then a else BitVec.ofInt 64 (a.toInt.tmod b.toInt)),
        (.remu, fun a b => if b = 0 then a else BitVec.ofNat 64 (a.toNat % b.toNat))] :
        List ((RegNo → RegNo → RegNo → Instr) × (Word64 → Word64 → Word64))),
      ∀ (s : State) (gd gs1 gs2 : RegNo), s.Readable gs1 → s.Readable gs2 → s.Writable gd →
        ∃ t : State, exec (p.1 gd gs1 gs2) s = .next t ∧
          s.Wrote gd ⟨(p.2 ((s.value gs1).data.setWidth 64) ((s.value gs2).data.setWidth 64)).setWidth 128,
            if (s.value gs1).tag = .bounded ∨ (s.value gs2).tag = .bounded then .bounded else .exact⟩ 0 t) ∧
  (
    ∀ p ∈ ([(.addw, fun a b => BitVec.ofNat 32 (a.toNat + b.toNat)), (.subw, fun a b => BitVec.ofInt 32 (a.toInt - b.toInt)),
        (.sllw, fun a b => BitVec.ofNat 32 (a.toNat * 2 ^ (b.toNat % 32))),
        (.srlw, fun a b => BitVec.ofNat 32 (a.toNat / 2 ^ (b.toNat % 32))),
        (.sraw, fun a b => BitVec.ofInt 32 (a.toInt / 2 ^ (b.toNat % 32))),
        (.mulw, fun a b => BitVec.ofNat 32 (a.toNat * b.toNat)),
        (.divw, fun a b => if b = 0 then BitVec.allOnes 32 else BitVec.ofInt 32 (a.toInt.tdiv b.toInt)),
        (.divuw, fun a b => if b = 0 then BitVec.allOnes 32 else BitVec.ofNat 32 (a.toNat / b.toNat)),
        (.remw, fun a b => if b = 0 then a else BitVec.ofInt 32 (a.toInt.tmod b.toInt)),
        (.remuw, fun a b => if b = 0 then a else BitVec.ofNat 32 (a.toNat % b.toNat))] :
        List ((RegNo → RegNo → RegNo → Instr) × (Word32 → Word32 → Word32))),
      ∀ (s : State) (gd gs1 gs2 : RegNo), s.Readable gs1 → s.Readable gs2 → s.Writable gd →
        ∃ t : State, exec (p.1 gd gs1 gs2) s = .next t ∧
          s.Wrote gd ⟨((p.2 ((s.value gs1).data.setWidth 32) ((s.value gs2).data.setWidth 32)).signExtend 64).setWidth 128,
            if (s.value gs1).tag = .bounded ∨ (s.value gs2).tag = .bounded then .bounded else .exact⟩ 0 t)

/-- R325, R344-R346: the instructions with an immediate or a shift amount; with rd = g0 they are hints, which read nothing. R346:
`lui` and `auipc` write exact data; with rd = g0 they are hints (R325). -/
def Obligations.ImmediateArithmetic : Prop :=
  (
    ∀ (s : State) (rd rs1 : RegNo), (rd ≠ 0 → s.Readable rs1 ∧ s.Writable rd) →
      (∀ p ∈ ([(.addi, fun a b => BitVec.ofInt 64 (a.toInt + b)), (.slti, fun a b => if a.toInt < b then 1 else 0),
          (.sltiu, fun a b => if a.toNat < (b % 2 ^ 64).toNat then 1 else 0), (.xori, fun a b => a ^^^ BitVec.ofInt 64 b),
          (.ori, fun a b => a ||| BitVec.ofInt 64 b), (.andi, fun a b => a &&& BitVec.ofInt 64 b),
          (.addiw, fun a b => (BitVec.ofInt 32 (a.toInt + b)).signExtend 64)] :
          List ((RegNo → RegNo → BitVec 12 → Instr) × (Word64 → Int → Word64))),
        ∀ imm : BitVec 12, ∃ t : State, exec (p.1 rd rs1 imm) s = .next t ∧
          s.Wrote rd ⟨(p.2 ((s.value rs1).data.setWidth 64) imm.toInt).setWidth 128,
            if (s.value rs1).tag = .bounded then .bounded else .exact⟩ 0 t) ∧
      (∀ p ∈ ([(.slli, fun a n => BitVec.ofNat 64 (a.toNat * 2 ^ n)), (.srli, fun a n => BitVec.ofNat 64 (a.toNat / 2 ^ n)),
          (.srai, fun a n => BitVec.ofInt 64 (a.toInt / 2 ^ n))] :
          List ((RegNo → RegNo → BitVec 6 → Instr) × (Word64 → Nat → Word64))),
        ∀ sh : BitVec 6, ∃ t : State, exec (p.1 rd rs1 sh) s = .next t ∧
          s.Wrote rd ⟨(p.2 ((s.value rs1).data.setWidth 64) sh.toNat).setWidth 128,
            if (s.value rs1).tag = .bounded then .bounded else .exact⟩ 0 t) ∧
      (∀ p ∈ ([(.slliw, fun a n => BitVec.ofNat 32 (a.toNat * 2 ^ n)), (.srliw, fun a n => BitVec.ofNat 32 (a.toNat / 2 ^ n)),
          (.sraiw, fun a n => BitVec.ofInt 32 (a.toInt / 2 ^ n))] :
          List ((RegNo → RegNo → BitVec 5 → Instr) × (Word32 → Nat → Word32))),
        ∀ sh : BitVec 5, ∃ t : State, exec (p.1 rd rs1 sh) s = .next t ∧
          s.Wrote rd ⟨((p.2 ((s.value rs1).data.setWidth 32) sh.toNat).signExtend 64).setWidth 128,
            if (s.value rs1).tag = .bounded then .bounded else .exact⟩ 0 t)) ∧
  (
    ∀ (s : State) (rd : RegNo) (imm : BitVec 20), (rd ≠ 0 → s.Writable rd) →
      (∃ t : State, exec (.lui rd imm) s = .next t ∧
        s.Wrote rd ⟨(BitVec.ofInt 64 (imm.toInt * 4096)).setWidth 128, .exact⟩ 0 t) ∧
      (∃ t : State, exec (.auipc rd imm) s = .next t ∧
        s.Wrote rd ⟨(BitVec.ofInt 64 (s.here.pc.toInt + imm.toInt * 4096)).setWidth 128, .exact⟩ 0 t))

/-! ## Control transfer and capabilities (spec/17_isa_integer_control.md) -/

/-- R352: a conditional branch goes to `pc` + its immediate where its condition holds, to the next word otherwise; a bounded
source and a misaligned target trap instead. At a bank unit the task goes on unless the transfer is to offset 0 (R192). -/
def Obligations.ConditionalBranches : Prop :=
  (∀ p ∈ ([(.beq, fun a b => decide (a = b)), (.bne, fun a b => decide (a ≠ b)), (.blt, fun a b => decide (a.toInt < b.toInt)),
      (.bge, fun a b => decide (b.toInt ≤ a.toInt)), (.bltu, fun a b => decide (a.toNat < b.toNat)),
      (.bgeu, fun a b => decide (b.toNat ≤ a.toNat))] :
      List ((RegNo → RegNo → BitVec 12 → Instr) × (Word64 → Word64 → Bool))),
    ∀ (s : State) (rs1 rs2 : RegNo) (off : BitVec 12), s.Readable rs1 → s.Readable rs2 →
      let taken := p.2 ((s.value rs1).data.setWidth 64) ((s.value rs2).data.setWidth 64)
      let target : Word64 := if taken then s.here.pc + BitVec.ofInt 64 (2 * off.toInt) else s.here.pc + 4
      if (s.value rs1).tag = .bounded ∨ (s.value rs2).tag = .bounded then
        exec (p.1 rs1 rs2 off) s = .next (s.takeTrap { cause := .boundedValue } 0)
      else if taken = true ∧ target.getLsbD 1 = true then
        exec (p.1 rs1 rs2 off) s = .next (s.takeTrap { cause := .alignment, addr := target.toNat } 0)
      else (isBankSlot s.cur = false ∨ target ≠ 0) →
        ∃ t : State, exec (p.1 rs1 rs2 off) s = .next t ∧ s.WentTo 0 {} target t) ∧
  (∀ p ∈ ([(.beq, 0), (.bne, 1), (.blt, 4), (.bge, 5), (.bltu, 6), (.bgeu, 7)] : List ((RegNo → RegNo → BitVec 12 → Instr) × Nat)),
    ∀ rs1 rs2 off w, encode (p.1 rs1 rs2 off) = some w → w.toNat % 128 = 0x63 ∧ w.toNat / 2 ^ 12 % 8 = p.2 ∧
      decodeWord w = .ok (p.1 rs1 rs2 off)) ∧
  (∀ (s : State) (w : Word32), w.toNat % 128 = 0x63 → w.toNat / 2 ^ 12 % 8 = 2 ∨ w.toNat / 2 ^ 12 % 8 = 3 →
    runWord w s = exec .illegalInstruction { s with input := .illegalInstruction w })

/-- R350, R351: `jal` and `jalr` with a plain offset go to their target and write the address of the next word as exact data; a
misaligned target traps and writes nothing. -/
def Obligations.JumpsLink : Prop :=
  ∀ (s : State) (rd : RegNo), s.Writable rd →
    let link : Reg := ⟨(s.here.pc + 4).setWidth 128, .exact⟩
    (∀ (off : BitVec 20) (w : Word32), encode (.jal rd off) = some w → w.toNat % 128 = 0x6F) ∧
    (∀ off : BitVec 20,
      let target : Word64 := s.here.pc + BitVec.ofInt 64 (2 * off.toInt)
      if target.getLsbD 1 = true then
        exec (.jal rd off) s = .next (s.takeTrap { cause := .alignment, addr := target.toNat } 0)
      else (isBankSlot s.cur = false ∨ target ≠ 0) → ∃ t : State, exec (.jal rd off) s = .next t ∧ s.WentTo rd link target t) ∧
    (∀ (rs1 : RegNo) (imm : BitVec 12), s.Readable rs1 →
      let a : Word64 := (s.value rs1).data.setWidth 64
      let target : Word64 := (a + imm.signExtend 64) &&& ~~~1
      match (s.value rs1).tag with
      | .bounded => exec (.jalr rd rs1 imm) s = .next (s.takeTrap { cause := .boundedValue } 0)
      | .exact =>
        if target.getLsbD 1 = true then
          exec (.jalr rd rs1 imm) s = .next (s.takeTrap { cause := .alignment, addr := target.toNat } 0)
        else (isBankSlot s.cur = false ∨ target ≠ 0) →
          ∃ t : State, exec (.jalr rd rs1 imm) s = .next t ∧ s.WentTo rd link target t
      | .cap =>
        if hasPerm (s.value rs1).data permX = true ∧ inBounds (s.value rs1).data (a + imm.signExtend 64).toNat 4 = true then
          target.getLsbD 1 = false → (isBankSlot s.cur = false ∨ target ≠ 0) →
            ∃ t : State, exec (.jalr rd rs1 imm) s = .next t ∧ s.WentTo rd link target t
        else exec (.jalr rd rs1 imm) s =
          .next (s.takeTrap { cause := .capability, addr := (a + imm.signExtend 64).toNat } 0)
      | .sealed =>
        if imm = 0 ∧ hasPerm (s.value rs1).data permX = true ∧ hasPerm (s.value rs1).data permS = true ∧
            inBounds (s.value rs1).data a.toNat 4 = true then
          (a &&& ~~~1).getLsbD 1 = false → (isBankSlot s.cur = false ∨ a &&& ~~~1 ≠ 0) →
            ∃ t : State, exec (.jalr rd rs1 imm) s = .next t ∧ s.WentTo rd link (a &&& ~~~1) t
        else exec (.jalr rd rs1 imm) s = .next (s.takeTrap { cause := .capability, addr := a.toNat } 0))

/-- R354-R357: what the capability instructions write, with the tag that the source and the bounds leave (R314, R316). -/
def Obligations.CapabilityResults : Prop :=
  ∀ (s : State) (la : Look) (gd gs1 gs2 : RegNo), s.Readable gs1 → s.Readable gs2 → s.Writable gd →
    let c := s.value gs1
    let b : Word64 := (s.value gs2).data.setWidth 64
    let addr : Word64 := c.data.setWidth 64
    let at_ (a : Word64) : Reg :=
      let d : Word128 := (c.data >>> 64 <<< 64) ||| a.setWidth 128
      ⟨d, if c.tag = .cap ∧ decodeBounds d ≠ none ∧ decodeBounds d = decodeBounds c.data then .cap else .exact⟩
    (∃ t : State, exec (.cmov la gd gs1) s = .next t ∧ s.Wrote gd c 0 t) ∧
    (c.tag ≠ .bounded → ∃ t : State, exec (.cseal la gd gs1) s = .next t ∧ s.Wrote gd
      ⟨if c.tag = .sealed then c.data else c.data ||| BitVec.ofNat 128 (2 ^ 121),
        if c.tag = .sealed ∨ c.tag = .cap ∧ hasPerm c.data permX = true ∧ decodeBounds c.data ≠ none then .sealed
        else .exact⟩ 0 t) ∧
    (∀ sel ∈ ([(0, fun _ => capAddr c.data), (1, fun e => (e.map (·.1)).getD 0),
          (2, fun e => (e.map fun x => min (x.2 - x.1) (2 ^ 64 - 1)).getD 0), (3, fun _ => capPerm c.data),
          (4, fun _ => bits c.data.toNat 111 106),
          (5, fun _ => match c.tag with
            | .exact => 0
            | .bounded => 1
            | .cap => 2
            | .sealed => 3),
          (6, fun e => if e = none then 0 else 1)] : List (BitVec 5 × (Option (Nat × Nat) → Nat))),
      ∃ t : State, exec (.cget la gd gs1 sel.1) s = .next t ∧ s.Wrote gd
        ⟨BitVec.ofNat 128 (sel.2 (decodeBounds c.data)), if c.tag = .bounded ∧ sel.1 ≠ 5 then .bounded else .exact⟩ 0 t) ∧
    (c.tag ≠ .bounded → c.tag ≠ .sealed →
      (∀ imm : BitVec 5, ∃ t : State, exec (.cincaddri la gd gs1 imm) s = .next t ∧
        s.Wrote gd (at_ (addr + BitVec.ofInt 64 (16 * imm.toInt))) 0 t) ∧
      ((s.value gs2).tag ≠ .bounded →
        (∃ t : State, exec (.csetaddr la gd gs1 gs2) s = .next t ∧ s.Wrote gd (at_ b) 0 t) ∧
        (∃ t : State, exec (.cincaddr la gd gs1 gs2) s = .next t ∧ s.Wrote gd (at_ (addr + b)) 0 t) ∧
        (∃ t : State, exec (.candperm la gd gs1 gs2) s = .next t ∧ s.Wrote gd
          ⟨c.data &&& BitVec.ofNat 128 (b.toNat % 65536 * 2 ^ 112 + (2 ^ 112 - 1)), c.tag⟩ 0 t) ∧
        (∃ t : State, exec (.csetbnd la gd gs1 gs2) s = .next t ∧ s.Wrote gd (narrowed c b.toNat) 0 t))) ∧
    (∀ (sel : BitVec 5) (w : Word32), 7 ≤ sel.toNat → encode (.cget la gd gs1 sel) = some w →
      runWord w s = exec .illegalInstruction { s with input := .illegalInstruction w })

/-! ## Loads, stores and atomics (spec/18_isa_memory.md) -/

/-- R361, R364-R366, R369: every load whose address is found outside the fabric window writes the bytes that it reads, sign- or
zero-extended, bounded where a granule read is marked; the address is the base plus the immediate, or plus the offset field times
the width. R371: `cld` reads 16 aligned bytes with their tag, which it keeps only through a base with LC. -/
def Obligations.LoadsExtend : Prop :=
  (
    ∀ (s : State) (rd rs1 : RegNo), s.Readable rs1 → s.Writable rd →
      let value (sgn : Bool) (n : Nat) (g : Got) : Reg :=
        ⟨if sgn then ((BitVec.ofNat (8 * n) (ofBytes g.bytes)).signExtend 64).setWidth 128 else BitVec.ofNat 128 (ofBytes g.bytes % 2 ^ (8 * n)),
          if g.bnd then .bounded else .exact⟩
      (∀ p ∈ ([(.ldI8, 1, true), (.ldI16, 2, true), (.ldI32, 4, true), (.ldI64, 8, true), (.ldN8, 1, false), (.ldN16, 2, false),
          (.ldN32, 4, false)] : List ((RegNo → RegNo → BitVec 12 → Instr) × Nat × Bool)),
        ∀ imm : BitVec 12,
          s.Loads (p.1 rd rs1 imm) rd rs1 (imm.signExtend 64) p.2.1 0 0 (value p.2.2 p.2.1)) ∧
      (∀ p ∈ ([(.ldlI8, 1, true), (.ldlI16, 2, true), (.ldlI32, 4, true), (.ldlI64, 8, true), (.ldlN8, 1, false),
          (.ldlN16, 2, false), (.ldlN32, 4, false), (.ldq, 16, false)] :
          List ((Look → RegNo → RegNo → BitVec 5 → Instr) × Nat × Bool)),
        ∀ (la : Look) (off : BitVec 5),
          s.Loads (p.1 la rd rs1 off) rd rs1 (BitVec.ofNat 64 (off.toNat * p.2.1)) p.2.1 0 la.toNat (value p.2.2 p.2.1))) ∧
  (
    ∀ (s : State) (la : Look) (gd gs1 : RegNo) (off : BitVec 5), s.Readable gs1 → s.Writable gd →
      s.Loads (.cld la gd gs1 off) gd gs1 (BitVec.ofNat 64 (off.toNat * 16)) 16 16 la.toNat fun g =>
        let d : Word128 := BitVec.ofNat 128 (ofBytes g.bytes)
        ⟨d, if g.bnd then .bounded
          else if g.tag && hasPerm (s.value gs1).data permLC then (if d.getLsbD 121 then .sealed else .cap) else .exact⟩)

/-- R364, R365, R367, R369-R371: every store writes the low bytes of its data; data that are bounded are refused but by `sb.b`,
and a tagged value of `cst` needs SC. -/
def Obligations.StoresWrite : Prop :=
  ∀ (s : State) (gs1 gs2 : RegNo), s.Readable gs1 → s.Readable gs2 →
    let d := (s.value gs2).data
    (∀ p ∈ ([(.stI8, 1), (.stI16, 2), (.stI32, 4), (.stI64, 8)] :
        List ((RegNo → RegNo → BitVec 12 → Instr) × Nat)),
      ∀ imm : BitVec 12,
        if (s.value gs2).tag = .bounded then exec (p.1 gs2 gs1 imm) s = .next (s.takeTrap { cause := .boundedValue } 0)
        else s.Stores (p.1 gs2 gs1 imm) gs1 (imm.signExtend 64) (bytesOf p.2 d.toNat) 0 0 [permW] .plain) ∧
    (∀ p ∈ ([(.stlI8, 1), (.stlI16, 2), (.stlI32, 4), (.stlI64, 8), (.stq, 16)] :
        List ((Look → RegNo → RegNo → BitVec 5 → Instr) × Nat)),
      ∀ (la : Look) (off : BitVec 5),
        if (s.value gs2).tag = .bounded then
          exec (p.1 la gs1 gs2 off) s = .next (s.takeTrap { cause := .boundedValue } la.toNat)
        else s.Stores (p.1 la gs1 gs2 off) gs1 (BitVec.ofNat 64 (off.toNat * p.2)) (bytesOf p.2 d.toNat) 0 la.toNat [permW]
          .plain) ∧
    (∀ (la : Look) (off : BitVec 5),
      s.Stores (.sbB la gs1 gs2 off) gs1 (BitVec.ofNat 64 (off.toNat * 16)) (bytesOf 16 d.toNat) 0 la.toNat [permW] .bounded) ∧
    (∀ (la : Look) (off : BitVec 5),
      if (s.value gs2).tag = .bounded then
        exec (.cst la gs1 gs2 off) s = .next (s.takeTrap { cause := .boundedValue } la.toNat)
      else s.Stores (.cst la gs1 gs2 off) gs1 (BitVec.ofNat 64 (off.toNat * 16)) (bytesOf 16 d.toNat) 16 la.toNat
        (if (s.value gs2).tag = .cap ∨ (s.value gs2).tag = .sealed then [permW, permSC] else [permW])
        (.cap (s.value gs2).tag))

/-- R372: an acquire load and a release store are an aligned load and store of their width; an acquire waits for the strand's
posted stores, a release for all its earlier accesses (R174). -/
def Obligations.AcquireRelease : Prop :=
  ∀ (s : State) (la : Look) (gs1 gs2 : RegNo) (off : BitVec 5), s.Readable gs1 →
    (∀ p ∈ ([(.ldacqI64, 8), (.ldacqQ, 16)] : List ((Look → RegNo → RegNo → BitVec 5 → Instr) × Nat)), s.Writable gs2 →
      (s.postsOpen s.cur = false →
        s.Loads (p.1 la gs2 gs1 off) gs2 gs1 (BitVec.ofNat 64 (off.toNat * p.2)) p.2 p.2 la.toNat fun g =>
          ⟨BitVec.ofNat 128 (ofBytes g.bytes % 2 ^ (8 * p.2)), if g.bnd then .bounded else .exact⟩) ∧
      (s.postsOpen s.cur = true → exec (p.1 la gs2 gs1 off) s = .next { s with waited := true })) ∧
    (∀ p ∈ ([(.strelI64, 8), (.strelQ, 16)] : List ((Look → RegNo → RegNo → BitVec 5 → Instr) × Nat)), s.Readable gs2 →
      (s.readsOpen s.cur = false → s.postsOpen s.cur = false → (s.value gs2).tag ≠ .bounded →
        s.Stores (p.1 la gs1 gs2 off) gs1 (BitVec.ofNat 64 (off.toNat * p.2)) (bytesOf p.2 (s.value gs2).data.toNat) p.2
          la.toNat [permW] .plain) ∧
      (s.readsOpen s.cur = true ∨ s.postsOpen s.cur = true →
        exec (p.1 la gs1 gs2 off) s = .next { s with waited := true }))

/-- R361, R367: whatever a store instruction does, a byte of memory that changes lies in a part of its address: the bytes of
memory, engine register shadows or bank code SRAM at which the part was found. -/
def Obligations.StoresKeepOtherMemory : Prop :=
  let at_ : Spot → Option Nat := fun sp => match sp with
    | .mem pa => some pa
    | .engine c o => some (windowPA c (0x32000 + o))
    | .unit o => match unitRegister o with
      | (.code b x, _, _) => some (bankPA b x)
      | _ => none
    | _ => none
  ∀ (s t : State) (gs1 gs2 : RegNo) (la : Look) (imm : BitVec 12) (off : BitVec 5) (q : Nat),
    ∀ p ∈ [(Instr.stI8 gs2 gs1 imm, immI imm, 1), (.stI16 gs2 gs1 imm, immI imm, 2), (.stI32 gs2 gs1 imm, immI imm, 4),
        (.stI64 gs2 gs1 imm, immI imm, 8), (.stlI8 la gs1 gs2 off, scaled off 1, 1), (.stlI16 la gs1 gs2 off, scaled off 2, 2),
        (.stlI32 la gs1 gs2 off, scaled off 4, 4), (.stlI64 la gs1 gs2 off, scaled off 8, 8),
        (.stq la gs1 gs2 off, scaled off 16, 16), (.sbB la gs1 gs2 off, scaled off 16, 16), (.cst la gs1 gs2 off, scaled off 16, 16),
        (.strelI64 la gs1 gs2 off, scaled off 8, 8), (.strelQ la gs1 gs2 off, scaled off 16, 16)],
      s.Readable gs1 → s.Readable gs2 → isFabric (s.address gs1 p.2.1) = false → exec p.1 s = .next t → t.byte q ≠ s.byte q →
        ∃ parts u, s.Finds .write gs1 (s.address gs1 p.2.1) p.2.2 parts u ∧
          ∃ sp ∈ parts, ∃ a, at_ sp.1 = some a ∧ a ≤ q ∧ q < a + sp.2

/-- R372, R377-R380: an atomic on a word of an atomic page returns the old value, sign-extended from 32 bits, and leaves the new
one in memory; its order field makes it wait for what a release and an acquire wait for. -/
def Obligations.AtomicsUpdate : Prop :=
  let sg (n v : Nat) : Int := (BitVec.ofNat (8 * n) v).toInt
  ∀ p ∈ ([(.afadd, 0, 4, fun o a => (o + a) % 2 ^ 32), (.afadd, 1, 8, fun o a => (o + a) % 2 ^ 64), (.aswap, 0, 4, fun _ a => a),
      (.aswap, 1, 8, fun _ a => a), (.aswap, 2, 16, fun _ a => a), (.amax, 0, 4, fun o a => if sg 4 o < sg 4 a then a else o),
      (.amax, 1, 8, fun o a => if sg 8 o < sg 8 a then a else o), (.amax, 2, 4, fun o a => max o a),
      (.amax, 3, 8, fun o a => max o a), (.amin, 0, 4, fun o a => if sg 4 a < sg 4 o then a else o),
      (.amin, 1, 8, fun o a => if sg 8 a < sg 8 o then a else o), (.amin, 2, 4, fun o a => min o a),
      (.amin, 3, 8, fun o a => min o a), (.aand, 0, 4, fun o a => o &&& a), (.aand, 1, 8, fun o a => o &&& a),
      (.aor, 0, 4, fun o a => o ||| a), (.aor, 1, 8, fun o a => o ||| a), (.axor, 0, 4, fun o a => o ^^^ a),
      (.axor, 1, 8, fun o a => o ^^^ a)] :
      List ((BitVec 2 → BitVec 2 → RegNo → RegNo → RegNo → Instr) × BitVec 2 × Nat × (Nat → Nat → Nat))),
    ∀ (s u : State) (ord : BitVec 2) (gd gs1 gs2 : RegNo) (pa : Nat),
      let n := p.2.2.1
      let ea := s.address gs1 0
      s.Readable gs1 → s.Readable gs2 → s.Writable gd → (s.value gs2).tag ≠ .bounded →
      s.BaseOk gs1 ea n n [permR, permW] → s.Finds .atomic gs1 ea n [(.mem pa, n)] u → s.flips = [] →
      u.typedAt (.mem pa) n = false → (u.readSpot (.mem pa) n).poison = false →
      let waits : Prop := ord.getLsbD 1 = true ∧ s.readsOpen s.cur = true ∨ ord ≠ 0 ∧ s.postsOpen s.cur = true
      let old := u.num pa n
      let new := p.2.2.2 old ((s.value gs2).data.toNat % 2 ^ (8 * n))
      (¬waits → ∃ t : State, exec (p.1 ord p.2.1 gd gs1 gs2) s = .next t ∧
        ((u.enterSlice u.here.qos pa n).storeData pa (bytesOf n new)).Wrote gd
          ⟨if n = 4 then (BitVec.ofInt 64 (sg 4 old)).setWidth 128 else BitVec.ofNat 128 old,
            if u.bndAt pa n then .bounded else .exact⟩ 0 t) ∧
      (waits → exec (p.1 ord p.2.1 gd gs1 gs2) s = .next { s with waited := true })

/-- R372, R379, R380: a compare-and-swap returns the old value and writes the new one where the old was as expected; `acas128`
says in the next register whether it did; the order field makes it wait for what a release and an acquire wait for. -/
def Obligations.CompareAndSwap : Prop :=
  ∀ (s u : State) (ord : BitVec 2) (gd gs1 gs2 : RegNo) (pa : Nat), gs2.toNat < 31 →
    let ea := s.address gs1 0
    let waits : Prop := ord.getLsbD 1 = true ∧ s.readsOpen s.cur = true ∨ ord ≠ 0 ∧ s.postsOpen s.cur = true
    s.Readable gs1 → s.Readable gs2 → s.Readable (gs2 + 1) → (s.value gs2).tag ≠ .bounded → (s.value (gs2 + 1)).tag ≠ .bounded →
    s.flips = [] →
    (s.Writable gd → s.BaseOk gs1 ea 8 8 [permR, permW] → s.Finds .atomic gs1 ea 8 [(.mem pa, 8)] u →
      u.typedAt (.mem pa) 8 = false → (u.readSpot (.mem pa) 8).poison = false →
      let hit := u.num pa 8 = (s.value gs2).data.toNat % 2 ^ 64
      let v := u.enterSlice u.here.qos pa 8
      (¬waits → ∃ t : State, exec (.acas64 ord gd gs1 gs2) s = .next t ∧
        (if hit then v.storeData pa (bytesOf 8 ((s.value (gs2 + 1)).data.toNat % 2 ^ 64)) else v).Wrote gd
          ⟨BitVec.ofNat 128 (u.num pa 8), if u.bndAt pa 8 then .bounded else .exact⟩ 0 t) ∧
      (waits → exec (.acas64 ord gd gs1 gs2) s = .next { s with waited := true })) ∧
    (s.Writable gd → s.Writable (gd + 1) → s.BaseOk gs1 ea 16 16 [permR, permW] → s.Finds .atomic gs1 ea 16 [(.mem pa, 16)] u →
      u.typedAt (.mem pa) 16 = false → (u.readSpot (.mem pa) 16).poison = false →
      let hit := u.num pa 16 = (s.value gs2).data.toNat
      let v := u.enterSlice u.here.qos pa 16
      (¬waits → ∃ t : State, exec (.acas128 ord gd gs1 gs2) s = .next t ∧
        ((if hit then v.storeData pa (bytesOf 16 (s.value (gs2 + 1)).data.toNat) else v).writeReg u.cur gd.toNat
          ⟨BitVec.ofNat 128 (u.num pa 16), if u.bndAt pa 16 then .bounded else .exact⟩).Wrote (gd + 1)
          ⟨if hit then 1 else 0, .exact⟩ 0 t) ∧
      (waits → exec (.acas128 ord gd gs1 gs2) s = .next { s with waited := true }))

/-- R373, R174, R325: a fence completes, with no effect but its retirement, when the strand's earlier accesses of its reach have
been performed, and waits until then; a scope operand that is no scope raises SCOPE. R374-R376, R103: a prefetch changes no
register and no byte; `pin` answers 1 and holds the line for its grid where the set has a way for it, `unpin` answers 1 where the
grid held a pin, and `cflush` writes the line back without changing a value. -/
def Obligations.FencesAndPins : Prop :=
  (
    ∀ (s : State),
      (∀ (imm : BitVec 12) (rs1 rd : RegNo),
        (s.readsOpen s.cur = false → ∃ t : State, exec (.fence imm rs1 rd) s = .next t ∧ s.Wrote 0 {} 0 t) ∧
        (s.readsOpen s.cur = true → exec (.fence imm rs1 rd) s = .next { s with waited := true })) ∧
      (∀ (la : Look) (gs1 : RegNo), levelOf s.cur ∈ onCores → s.Readable gs1 → (s.value gs1).tag ≠ .bounded →
        (scopeOf (s.value gs1).data = none → ∀ i ∈ [Instr.fenceRel la gs1, .fenceAcq la gs1, .fenceFull la gs1],
          exec i s = .next (s.takeTrap { cause := .scope } la.toNat)) ∧
        (∀ sc, scopeOf (s.value gs1).data = some sc →
          (∀ i ∈ [Instr.fenceRel la gs1, .fenceAcq la gs1, .fenceFull la gs1],
            s.readsOpen s.cur = false → (sc = .pod → i ≠ .fenceAcq la gs1 → s.postsOpen s.cur = false) →
              ∃ t : State, exec i s = .next t ∧ s.Wrote 0 {} la.toNat t) ∧
          (∀ i ∈ [Instr.fenceRel la gs1, .fenceAcq la gs1, .fenceFull la gs1],
            s.readsOpen s.cur = true ∨ sc = .pod ∧ i ≠ .fenceAcq la gs1 ∧ s.postsOpen s.cur = true →
              exec i s = .next { s with waited := true })))) ∧
  (
    ∀ (s : State) (la : Look) (gd gs1 : RegNo) (off : BitVec 5), levelOf s.cur ∈ onCores → s.Readable gs1 → s.Writable gd →
      (∀ hint : BitVec 5, (s.value gs1).tag ≠ .bounded → ∃ t : State, exec (.pref la gs1 off hint) s = .next t ∧ t.mem = s.mem ∧
        t.granules = s.granules ∧ (∀ r, t.value r = s.value r) ∧ t.here.pc = s.here.pc + 4) ∧
      (let ea := s.address gs1 (BitVec.ofNat 64 (off.toNat * 128))
       ∀ (u : State) (pa : Nat), s.BaseOk gs1 ea 1 0 [permR] → s.Finds .read gs1 ea 1 [(.mem pa, 1)] u →
        pa < hbmEnd →
        let g := (u.gridOf u.cur).getD 0xFFFF
        let line : Line := look {} u.lines (pa / 128)
        let room : Bool := line.pins.contains g || line.pins != [] || decide (u.pinnedWays pa < 8)
        (∃ (t v : State), exec (.pin la gd gs1 off) s = .next t ∧ v = { u with lines := v.lines, fresh := v.fresh } ∧
          v.Wrote gd (exactData (if room then 1 else 0)) la.toNat t ∧
          (room = true → (look ({} : Line) t.lines (pa / 128)).pins.contains g = true)) ∧
        (∃ (t v : State), exec (.unpin la gd gs1 off) s = .next t ∧ v = { u with lines := v.lines } ∧
          v.Wrote gd (exactData (if line.pins.contains g then 1 else 0)) la.toNat t ∧
          look ({} : Line) t.lines (pa / 128) = { line with pins := line.pins.erase g }) ∧
        (∃ t : State, exec (.cflush la gs1 off) s = .next t ∧ t.mem = s.mem ∧ (∀ r, t.value r = s.value r) ∧
          t.here.pc = s.here.pc + 4 ∧ (look ({} : Line) t.lines (pa / 128)).dirty = 0)))

/-- R45-R48, R363: an access of another device through the fabric window sends one packet with its operation: a load leaves its
destination outstanding under an entry of the scoreboard, a store is posted under an entry of its own; the strand goes on. -/
def Obligations.RemoteAccessesSend : Prop :=
  ∀ (s : State) (gs1 gd : RegNo) (imm : BitVec 12) (dev addr : Nat),
    let ea := s.address gs1 (immI imm)
    regionOfVA ea = .fabric dev addr → dev ≠ thisDevice → s.upPorts ≠ [] → s.Readable gs1 →
    (∀ p ∈ ([(.ldI8, 1), (.ldI16, 2), (.ldI32, 4), (.ldI64, 8), (.ldN8, 1), (.ldN16, 2), (.ldN32, 4)] :
        List ((RegNo → RegNo → BitVec 12 → Instr) × Nat)),
      s.BaseOk gs1 ea p.2 0 [permR] → s.Writable gd → gd ≠ 0 → (s.hereCore.board.map (·.id)).length < 64 →
      ∃ (t : State) (q : Packet), exec (p.1 gd gs1 imm) s = .next t ∧ t.toFabric = s.toFabric ++ [q] ∧ q.dst = dev ∧ q.addr = addr ∧
        q.op = .load p.2 ∧ t.outstanding s.cur gd.toNat = true ∧ t.here.pc = s.here.pc + 4 ∧ t.mem = s.mem ∧
        (∀ r, t.value r = s.value r)) ∧
    (∀ p ∈ ([(.stI8, 1), (.stI16, 2), (.stI32, 4), (.stI64, 8)] : List ((RegNo → RegNo → BitVec 12 → Instr) × Nat)),
      s.BaseOk gs1 ea p.2 0 [permW] → s.Readable gd → (s.value gd).tag ≠ .bounded →
      (s.hereCore.posted.map (·.id)).length < 256 → s.here.stbar.tag ≠ .cap →
      ∃ (t : State) (q : Packet), exec (p.1 gd gs1 imm) s = .next t ∧ t.toFabric = s.toFabric ++ [q] ∧ q.dst = dev ∧ q.addr = addr ∧
        q.op = .store (bytesOf p.2 (s.value gd).data.toNat) false false false none ∧ t.postsOpen s.cur = true ∧
        t.here.pc = s.here.pc + 4 ∧ t.mem = s.mem ∧ (∀ r, t.value r = s.value r))

/-! ## Floating point (spec/15_number_formats.md, spec/17_isa_integer_control.md) -/

/-- R358, R359, R290, R305: each scalar FP32 instruction writes the code of its exact result rounded once in the strand's mode,
bounded where a source is, and counts the events of its result. -/
def Obligations.FloatResults : Prop :=
  ∀ (s : State) (gd gs1 gs2 gs3 : RegNo), levelOf s.cur ∈ onCores → s.Readable gs1 → s.Readable gs2 → s.Readable gs3 →
    s.Writable gd →
    let mode := s.here.rmode
    let x (r : RegNo) : Value := (Layout.mk 23 8 127 false).value ((s.value r).data.toNat % 2 ^ 32)
    let bnd (rs : List RegNo) : Tag := if ∃ r ∈ rs, (s.value r).tag = .bounded then .bounded else .exact
    let gives (i : Instr) (rs : List RegNo) (r : Rounded) : Prop :=
      ∃ t : State, exec i s = .next t ∧ (s.tally (coreOf s.cur) r.tally).Wrote gd ⟨BitVec.ofNat 128 r.code, bnd rs⟩ 0 t
    let round (rs : List RegNo) (v : Value) : Rounded := v.deliver .fp32 mode false (rs.any fun r => (x r).isNaN)
    (∀ p ∈ ([(.fmaddS, fun a b c => (a.mul b).add mode c), (.fmsubS, fun a b c => (a.mul b).add mode c.negate),
        (.fnmaddS, fun a b c => (a.mul b).negate.add mode c.negate), (.fnmsubS, fun a b c => (a.mul b).negate.add mode c)] :
        List ((RegNo → RegNo → RegNo → RegNo → Instr) × (Value → Value → Value → Value))),
      gives (p.1 gd gs1 gs2 gs3) [gs1, gs2, gs3] (round [gs1, gs2, gs3] (p.2 (x gs1) (x gs2) (x gs3)))) ∧
    (∀ p ∈ ([(.faddS, fun a b => a.add mode b), (.fsubS, fun a b => a.add mode b.negate), (.fmulS, fun a b => a.mul b)] :
        List ((RegNo → RegNo → RegNo → Instr) × (Value → Value → Value))),
      gives (p.1 gd gs1 gs2) [gs1, gs2] (round [gs1, gs2] (p.2 (x gs1) (x gs2)))) ∧
    gives (.fdivS gd gs1 gs2) [gs1, gs2]
      ((x gs1).divideTo (Layout.mk 23 8 127 false) mode false ((x gs1).isNaN || (x gs2).isNaN) (x gs2)) ∧
    gives (.fsqrtS gd gs1) [gs1] ((x gs1).sqrtTo (Layout.mk 23 8 127 false) mode (x gs1).isNaN) ∧
    (∀ p ∈ ([(.feqS, fun c => c = 0), (.fltS, fun c => c < 0), (.fleS, fun c => c ≤ 0)] :
        List ((RegNo → RegNo → RegNo → Instr) × (Int → Prop))),
      ∃ t : State, exec (p.1 gd gs1 gs2) s = .next t ∧
        ∃ b : Word128, s.Wrote gd ⟨b, bnd [gs1, gs2]⟩ 0 t ∧
          (b = 1 ↔ (x gs1).isNaN = false ∧ (x gs2).isNaN = false ∧ p.2 ((x gs1).compare (x gs2))) ∧ (b = 0 ∨ b = 1)) ∧
    (∀ p ∈ ([(.fminS, false), (.fmaxS, true)] : List ((RegNo → RegNo → RegNo → Instr) × Bool)),
      ∃ t : State, exec (p.1 gd gs1 gs2) s = .next t ∧
        s.Wrote gd ⟨BitVec.ofNat 128 (pickCode .fp32 p.2 ((s.value gs1).data.toNat % 2 ^ 32)
          ((s.value gs2).data.toNat % 2 ^ 32)), bnd [gs1, gs2]⟩ 0 t)

/-- R360: `fcvt` converts between two formats of which one is FP32; an integer result is sign-extended. -/
def Obligations.FloatConversion : Prop :=
  ∀ (s : State) (gd gs1 : RegNo) (sat : BitVec 1), levelOf s.cur ∈ onCores → s.Readable gs1 → s.Writable gd →
    ∀ p ∈ ([(0, .fp32, 4), (1, .fp16, 2), (2, .bf16, 2), (3, .e4m3, 1), (4, .e5m2, 1), (5, .int8, 1), (6, .int32, 4)] :
        List (BitVec 4 × Fmt × Nat)),
      let x : Value := p.2.1.value ((s.value gs1).data.toNat % 2 ^ (8 * p.2.2))
      let single : Value := Fmt.fp32.value ((s.value gs1).data.toNat % 2 ^ 32)
      let tag : Tag := if (s.value gs1).tag = .bounded then .bounded else .exact
      (∃ t : State, exec (.fcvt gd gs1 p.1 0 0) s = .next t ∧
        let r := x.deliver .fp32 s.here.rmode false x.isNaN
        (s.tally (coreOf s.cur) r.tally).Wrote gd ⟨BitVec.ofNat 128 r.code, tag⟩ 0 t) ∧
      (sat = 0 ∨ p.1 = 3 ∨ p.1 = 4 → ∃ t : State, exec (.fcvt gd gs1 0 sat p.1) s = .next t ∧
        let r := single.deliver p.2.1 s.here.rmode (sat = 1) single.isNaN
        (s.tally (coreOf s.cur) r.tally).Wrote gd
          ⟨if p.2.1 = .int8 ∨ p.2.1 = .int32 then
              ((BitVec.ofNat (8 * p.2.2) r.code).signExtend 64).setWidth 128 else BitVec.ofNat 128 r.code, tag⟩ 0 t)

/-! ## Typed cells (spec/07_sync_objects.md, spec/19_isa_sync_tasks_remote.md) -/

/-- R381-R384, R387-R391, R393: the typed-cell instructions whose operands are data send their operation to the Desk of the cell,
and write the status word, the value, or the half image that it answers. -/
def Obligations.CellInstructions : Prop :=
  ∀ (s u : State) (la : Look) (gd gs1 gs2 : RegNo) (sel : BitVec 5) (pa : Nat),
    let v := (s.value gs2).data
    let n : Int := (v.setWidth 64 : Word64).toInt
    let status : Nat → Nat → List Byte → Reg := fun st _ _ => exactData st
    let count : Nat → Nat → List Byte → Reg := fun _ val _ => exactData val
    let phase : Nat → Nat → List Byte → Reg := fun st val _ => exactData (st + val % 2 ^ 16 * 2 ^ 16)
    let ticket : Nat → Nat → List Byte → Reg := fun st val _ => exactData (st + if st = 0 then val % 2 ^ 32 * 2 ^ 16 else 0)
    let half : Nat → Nat → List Byte → Reg := fun _ _ e => ⟨BitVec.ofNat 128 (ofBytes ((e.drop (16 * (sel.toNat % 2))).take 16)), .exact⟩
    ∀ p ∈ ([(.cntInit gd gs1 gs2, 0, .init, { ctype := 1, n := n }, status), (.lckInit gd gs1, 0, .init, { ctype := 3 }, status),
        (.cndInit gd gs1, 0, .init, { ctype := 5 }, status), (.cellFree gd gs1, 0, .free, {}, status),
        (.cellQuery la gd gs1 sel, la.toNat, .query, { phase := sel.toNat % 2 }, half),
        (.cntAdd la gd gs1 gs2, la.toNat, .cadd, { n := n }, count), (.cntWait la gd gs1, la.toNat, .cwait, {}, status),
        (.cntDisarm la gd gs1, la.toNat, .cdisarm, {}, count), (.barArrive la gd gs1, la.toNat, .barrive, {}, phase),
        (.barWait la gd gs1 gs2, la.toNat, .bwait, { phase := v.toNat / 2 ^ 16 % 2 ^ 16 }, status),
        (.barSync la gd gs1, la.toNat, .bsync, {}, phase), (.lckAcq la gd gs1, la.toNat, .lacq, {}, ticket),
        (.lckTry la gd gs1, la.toNat, .ltry, {}, ticket), (.lckRel la gd gs1, la.toNat, .lrel, {}, status),
        (.cndSignal la gd gs1, la.toNat, .vsignal, {}, count), (.cndBcast la gd gs1, la.toNat, .vbcast, {}, count)] :
        List (Instr × Nat × DeskOp × DeskReq × (Nat → Nat → List Byte → Reg))),
      s.Readable gs1 → s.Readable gs2 → (s.value gs2).tag ≠ .bounded → s.Writable gd → s.CellAt p.2.2.1 gs1 pa u →
        s.AnswersTo u p.1 p.2.2.1 gd (capAddr (s.value gs1).data) pa p.2.1 none p.2.2.2.1 p.2.2.2.2

/-- R387, R389, R392, R393: the instructions that name a second object: the rectangle of a barrier, the ring and the element of a
queue, the record of a continuation, the lock of a condition. -/
def Obligations.CellOperands : Prop :=
  ∀ (s u : State) (la : Look) (gd gs1 gs2 : RegNo) (pa : Nat),
    let va := capAddr (s.value gs1).data
    let b := s.value gs2
    let w := b.data.toNat
    let ba := capAddr b.data
    let status : Nat → Nat → List Byte → Reg := fun st _ _ => exactData st
    s.Readable gs1 → s.Readable gs2 → b.tag ≠ .bounded → s.Writable gd →
    (∀ rect, s.CellAt .init gs1 pa u →
      (bit w 48 = false ∧ rect = none ∨ bit w 48 = true ∧ s.Readable (gs2 + 1) ∧ (s.value (gs2 + 1)).tag ≠ .bounded ∧
        ∃ x0 y0 x1 y1, scopeOf (s.value (gs2 + 1)).data = some (.rect x0 y0 x1 y1) ∧ rect = some (x0, y0, x1, y1)) →
      s.AnswersTo u (.barInit gd gs1 gs2) .init gd va pa 0 none
        { ctype := 2, total := w % 2 ^ 32, cmask := w / 2 ^ 32 % 2 ^ 16, rect := rect } status) ∧
    (let q := (s.value (gs2 + 1)).data.toNat
     s.CellAt .init gs1 pa u → s.Readable (gs2 + 1) → (s.value (gs2 + 1)).tag ≠ .bounded →
      s.BaseOk gs2 ba (if q / 2 ^ 16 % 8 ≤ 4 then q % 2 ^ 16 * 2 ^ (q / 2 ^ 16 % 8 + 3) else 0) 0 [permR, permW] →
      s.AnswersTo u (.queInit gd gs1 gs2) .init gd va pa 0 none
        { ctype := 4, buf := ba, cap := q % 2 ^ 16, esz := q / 2 ^ 16 % 8 } status) ∧
    (let c := (s.value gd).data.toNat
     ∀ target : Waiter, s.CellAt .carm gs1 pa u → s.Readable gd → (s.value gd).tag ≠ .bounded → s.BaseOk gs2 ba 64 64 [permR] →
      (bit c 7 = false ∧ target = { s.waiterOf s.cur with slot := 0 } ∨ bit c 7 = true ∧ levelOf s.cur ∈ inGrids ∧
        (s.gridCore ((s.gridOf s.cur).getD 0xFFFF) (c / 2 ^ 8 % 2 ^ 16) (c / 2 ^ 24 % 2 ^ 16)).isSome = true ∧
        target = ⟨thisDevice, 1, (s.gridOf s.cur).getD 0xFFFF, c / 2 ^ 8 % 2 ^ 16, c / 2 ^ 24 % 2 ^ 16, 0⟩) →
      s.AnswersTo u (.cntArm la gd gs1 gs2) .carm gd va pa la.toNat none
        { cont := ba, cls := c % 16, cprio := min (c / 16 % 8) u.here.prio, target := target } status) ∧
    (let n := areaLength b
     n ≠ 0 → s.here.popped = none → u.here.popped = none →
      (∀ u' g, fetch b ba n 0 [permR] .read u = .ok (.got g, u') → g.bnd = false → s.BaseOk gs2 ba n 8 [permR] →
        (s.CellAt .qpush gs1 pa u → s.AnswersTo u' (.quePush la gd gs1 gs2) .qpush gd va pa la.toNat none
          { elem := g.bytes, elen := n } status) ∧
        (s.CellAt .qtrypush gs1 pa u → s.AnswersTo u' (.queTrypush la gd gs1 gs2) .qtrypush gd va pa la.toNat none
          { elem := g.bytes, elen := n } status)) ∧
      (s.BaseOk gs2 ba n 8 [permW] →
        ∀ p ∈ ([(.quePop la gd gs1 gs2, .qpop), (.queTrypop la gd gs1 gs2, .qtrypop)] : List (Instr × DeskOp)),
          s.CellAt p.2 gs1 pa u →
          match u.drawn.desk p.2 (u.cellRequest { elen := n } va pa) with
          | (.done 0 _ e, t) => ∀ v, storeAt b ba e .plain 0 [permW] false
              ((t.onHere fun sl => { sl with popped := none }).onHere fun sl => { sl with popped := some e }) = .ok ((), v) →
            ∃ x, exec p.1 s = .next x ∧ (v.onHere fun sl => { sl with popped := none }).Wrote gd (exactData 0) la.toNat x
          | _ => s.AnswersTo u p.1 p.2 gd va pa la.toNat (some b) { elen := n } status)) ∧
    (∀ l w', s.CellAt .vwait gs1 pa u → s.BaseOk gs2 ba 32 32 [permOBJ] → regionOfVA ba = .translated →
      u.findCell (u.agentOf u.cur) ba .lrel = (.cell l, w') → (w'.granule l).poison = false →
      s.AnswersTo w' (.cndWait la gd gs1 gs2) .vwait gd va pa la.toNat none { lock := l } status)

/-- R114, R116-R118, R124, R125: what the Desk answers to the counter and lock operations, and what they leave in the image. -/
def Obligations.CountersAndLocks : Prop :=
  ∀ (s : State) (r : DeskReq), s.flips = [] → r.pa % 32 = 0 →
    let f (t : State) (hi lo : Nat) : Nat := bits (t.image r.pa) hi lo
    let woken (h : Hold) (val : Nat) (t : State) : Prop := h.cond = none → h.who.dev = thisDevice →
      .wake { who := h.who, seq := h.seq, st := 0, op := h.op, val := val, pa := r.pa, qos := h.qos, ctx := h.ctx } ∈ t.coming
    let room : Bool := s.listUsed (s.homeCluster r.pa) + 1 ≤ 256 || s.storeUsed (s.homeCluster r.pa / 256) + 1 ≤ 2097152
    let holds (op : DeskOp) (key : Nat) (t : State) : Prop :=
      ∃ h ∈ t.holds, h.pa = r.pa ∧ h.who = r.who ∧ h.seq = r.seq ∧ h.prio = r.prio ∧ h.op = op ∧ h.key = key ∧ h.void = false
    (s.cellType r.pa = 1 →
      (let sum := (BitVec.ofNat 64 (f s 63 0)).toInt + r.n
       if sum < -2 ^ 63 ∨ 2 ^ 63 ≤ sum then ∃ t, s.desk .cadd r = (.done 4 0 [], t) ∧ f t 63 0 = f s 63 0
       else if sum = 0 ∧ f s 199 199 = 1 ∧ s.taskParked (s.image r.pa) = true then (s.desk .cadd r).1 = .park
       else ∃ t, s.desk .cadd r = (.done 0 (f s 63 0) [], t) ∧ (f t 63 0 : Int) = sum % 2 ^ 64 ∧
        (sum ≠ 0 → f t 199 199 = f s 199 199 ∧ ∀ h ∈ s.holdsOn r.pa, h ∈ t.holdsOn r.pa) ∧
        (sum = 0 → f t 199 199 = 0 ∧ ∀ h ∈ s.holdsOn r.pa, woken h 0 t)) ∧
      (if f s 63 0 = 0 then (s.desk .cwait r).1 = .done 0 0 []
       else if room then ∃ t, s.desk .cwait r = (.held, t) ∧ holds .cwait 0 t else (s.desk .cwait r).1 = .done 8 0 []) ∧
      (if r.cls % 16 = 0 then (s.desk .carm r).1 = .done 4 0 []
       else if f s 199 199 = 1 then (s.desk .carm r).1 = .done 1 0 []
       else if f s 63 0 = 0 ∧ ((List.range 4).any fun i => s.parks (r.ctx % 2 ^ 16) (r.cont % 2 ^ 64 + 16 * i)) = true then (s.desk .carm r).1 = .park
       else ∃ t, s.desk .carm r = (.done 0 0 [], t) ∧ f t 127 64 = r.cont % 2 ^ 64 ∧ f t 195 192 = r.cls % 16 ∧
        f t 198 196 = r.cprio % 8 ∧ f t 215 200 = r.ctx % 2 ^ 16 ∧ f t 199 199 = if f s 63 0 = 0 then 0 else 1) ∧
      (∃ t, s.desk .cdisarm r = (.done 0 (f s 199 199) [], t) ∧ f t 199 199 = 0 ∧ f t 63 0 = f s 63 0)) ∧
    (s.cellType r.pa = 3 →
      let free : Prop := f s 31 0 = f s 63 32 ∧ f s 79 77 = 0
      let granted (t : State) : Prop := f t 31 0 = (f s 31 0 + 1) % 2 ^ 32 ∧ f t 63 32 = f s 63 32 ∧ f t 127 64 = r.who.word % 2 ^ 64 ∧
        f t 129 128 = r.who.slot % 4 ∧ f t 191 160 = (f s 191 160 + 1) % 2 ^ 32
      (free → (∃ t, s.desk .lacq r = (.done 0 (f s 31 0) [], t) ∧ granted t) ∧
        ∃ t, s.desk .ltry r = (.done 0 (f s 31 0) [], t) ∧ granted t) ∧
      (¬free → (∃ t, s.desk .ltry r = (.done 1 0 [], t) ∧ f t 31 0 = f s 31 0) ∧
        if room then ∃ t, s.desk .lacq r = (.held, t) ∧ f t 31 0 = (f s 31 0 + 1) % 2 ^ 32 ∧ holds .lacq (f s 31 0) t
        else ∃ t, s.desk .lacq r = (.done 8 0 [], t) ∧ f t 31 0 = f s 31 0) ∧
      (let mine : Prop := r.who.kind ≠ 0 ∧ f s 127 64 = r.who.word ∧ f s 129 128 = r.who.slot % 4
       (¬mine → ∃ t, s.desk .lrel r = (.done 3 0 [], t) ∧ f t 63 32 = f s 63 32 ∧ f t 127 64 = f s 127 64) ∧
       (mine → let next := (f s 63 32 + 1) % 2 ^ 32
        match s.holds.find? fun h => h.pa = r.pa && h.op == .lacq && h.key = next with
        | none => ∃ t, s.desk .lrel r = (.done 0 0 [], t) ∧ f t 63 32 = next ∧ f t 127 64 = 0
        | some h => h.void = false →
          ∃ t, s.desk .lrel r = (.done 0 0 [], t) ∧ f t 63 32 = next ∧ f t 127 64 = h.who.word % 2 ^ 64 ∧
            f t 129 128 = h.who.slot % 4 ∧ woken h h.key t)))

/-- R121, R126-R129, R136: what the Desk answers to the operations on barriers, queues and conditions, to INIT, FREE and QUERY,
and what they leave in the image. -/
def Obligations.BarriersQueuesConditions : Prop :=
  ∀ (s : State) (r : DeskReq), s.flips = [] → r.pa % 32 = 0 →
    let f (t : State) (hi lo : Nat) : Nat := bits (t.image r.pa) hi lo
    let room : Bool := s.listUsed (s.homeCluster r.pa) + 1 ≤ 256
    (s.cellType r.pa = 2 →
      let left := f s 63 32
      let p := f s 111 96
      let arrived (t : State) : Prop := if left = 1 ∧ f s 95 64 = 0 then f t 111 96 = (p + 1) % 2 ^ 16 ∧ f t 63 32 = f s 31 0
        else f t 111 96 = p ∧ f t 63 32 = left - 1
      (left = 0 → (s.desk .barrive r).1 = .done 5 0 [] ∧ (s.desk .bsync r).1 = .done 5 0 []) ∧
      (left ≠ 0 → (∃ t, s.desk .barrive r = (.done 0 p [], t) ∧ arrived t) ∧
        (left ≠ 1 ∨ f s 95 64 ≠ 0 → room = true → ∃ t, s.desk .bsync r = (.held, t) ∧ arrived t) ∧
        (left = 1 → f s 95 64 = 0 → f s 127 112 = 0 → (∀ c ∈ s.censuses, c.pa = r.pa → c.phase ≠ p) →
          ∃ t, s.desk .bsync r = (.done 0 p [], t) ∧ arrived t)) ∧
      (let done := 2 ^ 15 ≤ (r.phase % 2 ^ 16 + 2 ^ 16 - p) % 2 ^ 16 ∧ ∀ c ∈ s.censuses, c.pa = r.pa → c.phase ≠ r.phase % 2 ^ 16
       if done then (s.desk .bwait r).1 = .done 0 0 [] else room = true → (s.desk .bwait r).1 = .held) ∧
      (∃ t, s.desk .bpendadd r = (.done 0 0 [], t) ∧ (f t 95 64 : Int) = (f s 95 64 + r.n) % 2 ^ 32 ∧ f t 111 96 = p) ∧
      (∃ t, s.desk .bpendsub r = (.done 0 0 [], t) ∧ (f t 95 64 : Int) = (f s 95 64 - r.n) % 2 ^ 32 ∧
        f t 111 96 = if left = 0 ∧ f t 95 64 = 0 then (p + 1) % 2 ^ 16 else p)) ∧
    (s.cellType r.pa = 4 →
      let size := 8 * 2 ^ f s 146 144
      let queued := (f s 127 96 + 2 ^ 32 - f s 95 64) % 2 ^ 32
      (size < r.elem.length → (s.desk .qpush r).1 = .done 4 0 [] ∧ (s.desk .qtrypush r).1 = .done 4 0 []) ∧
      (r.elen < size → (s.desk .qpop r).1 = .done 4 0 [] ∧ (s.desk .qtrypop r).1 = .done 4 0 []) ∧
      (r.elem.length ≤ size → ∀ h, s.firstHold r.pa .qpop = some h → ∀ op ∈ [DeskOp.qpush, .qtrypush],
        ∃ t, s.desk op r = (.done 0 0 [], t) ∧ f t 95 64 = (f s 95 64 + 1) % 2 ^ 32 ∧ f t 127 96 = (f s 127 96 + 1) % 2 ^ 32 ∧
          (let e := r.elem ++ List.replicate (size - r.elem.length) 0
           h.cond = none → h.who.dev = thisDevice →
            .wake { who := h.who, seq := h.seq, st := 0, op := h.op, elem := e, pa := r.pa, qos := h.qos, ctx := h.ctx } ∈ t.coming)) ∧
      (r.elem.length ≤ size → s.firstHold r.pa .qpop = none → f s 143 128 ≤ queued →
        (s.desk .qtrypush r).1 = .done 1 0 [] ∧
        (s.listUsed (s.homeCluster r.pa) + 1 + (size + 31) / 32 ≤ 256 → (s.desk .qpush r).1 = .held)) ∧
      (size ≤ r.elen → queued = 0 → (s.desk .qtrypop r).1 = .done 1 0 [] ∧ (room = true → (s.desk .qpop r).1 = .held)) ∧
      (r.elem.length ≤ size → s.firstHold r.pa .qpop = none → queued < f s 143 128 → ∀ u, s.pushTail r.pa
          (r.elem ++ List.replicate (size - r.elem.length) 0) = .ok u → ∀ op ∈ [DeskOp.qpush, .qtrypush],
        s.desk op r = (.done 0 0 [], u.settleCell r.pa)) ∧
      (size ≤ r.elen → queued ≠ 0 → s.firstHold r.pa .qpush = none → ∀ e u, s.readElement (s.deskActor r.pa (f s 207 192))
          (partsOf (f s 63 0 + f s 95 64 % f s 143 128 * size) size) = (.ok e, u) → ∀ op ∈ [DeskOp.qpop, .qtrypop],
        ∃ t, s.desk op r = (.done 0 0 e, t) ∧ f t 95 64 = (f s 95 64 + 1) % 2 ^ 32)) ∧
    (s.cellType r.pa = 5 →
      (s.holdsOn r.pa ≠ [] ∧ f s 63 0 ≠ r.lock → (s.desk .vwait r).1 = .done 6 0 []) ∧
      (s.holdsOn r.pa = [] ∨ f s 63 0 = r.lock → room = true → ∃ t, s.desk .vwait r = (.held, t) ∧ f t 63 0 = r.lock % 2 ^ 64 ∧
        .lrel { pa := r.lock, who := r.who, seq := r.seq, prio := r.prio, qos := r.qos, ctx := r.ctx, acting := some r.pa } ∈ t.coming) ∧
      (s.holdsOn r.pa = [] → (s.desk .vsignal r).1 = .done 0 0 [] ∧ (s.desk .vbcast r).1 = .done 0 0 []) ∧
      (let asked (h : Hold) (t : State) : Prop :=
        .lacq { pa := h.lock, who := h.who, seq := h.seq, prio := h.prio, qos := h.qos, ctx := h.ctx, acting := some r.pa } ∈ t.coming
       ∀ h hs, s.holdsOn r.pa = h :: hs →
        (∃ t, s.desk .vsignal r = (.done 0 1 [], t) ∧ f t 127 96 = (f s 127 96 + 1) % 2 ^ 32 ∧ asked h t) ∧
        ∃ t, s.desk .vbcast r = (.done 0 (hs.length + 1) [], t) ∧ ∀ h ∈ s.holdsOn r.pa, asked h t)) ∧
    (1 ≤ s.cellType r.pa → s.cellType r.pa ≤ 5 → ∃ t, s.desk .query r = (.done 0 0 (s.bytes r.pa 32), t)) ∧
    (∃ t, s.desk .free r = (.done 0 0 [], t) ∧ t.cellType r.pa = 0 ∧ t.image r.pa = 0) ∧
    (r.ctype = 0 ∨ 5 < r.ctype → (s.desk .init r).1 = .done 10 0 []) ∧
    (1 ≤ r.ctype → r.ctype ≤ 5 → match s.newImage r with
      | none => (s.desk .init r).1 = .done 4 0 []
      | some v => ∃ t, s.desk .init r = (.done 0 0 [], t) ∧ t.cellType r.pa = r.ctype ∧ (r.ctype ≤ 3 → f t 223 0 = v % 2 ^ 224) ∧
        (r.ctype = 4 → f t 159 0 = v % 2 ^ 160 ∧ f t 223 192 = bits v 223 192) ∧ (r.ctype = 5 → f t 63 0 = 0) ∧ f t 226 224 = r.ctype ∧ f t 255 240 = if s.cellType r.pa = 0 then 0 else (f s 255 240 + 1) % 2 ^ 16)

/-- R112-R115, R138: a request that reaches a Desk from a copy engine, a port, a host or another Desk is performed whole, and its
RESULT goes to the requester, on this device or across the fabric; a hold sends nothing. -/
def Obligations.DeskRequests : Prop :=
  ∀ (s : State) (r : DeskReq), r.pa < 2 ^ 64 →
    ∀ p ∈ ([(.query, .query r, .query), (.free, .free r, .free), (.init, .init r, .init), (.cadd, .cadd r, .cadd),
        (.cwait, .cwait r, .cwait), (.carm, .carm r, .carm), (.cdisarm, .cdisarm r, .cdisarm), (.barrive, .barrive r, .barrive),
        (.bwait, .bwait r, .bwait), (.bsync, .bsync r, .bsync), (.bpendadd, .bpendadd r, .bpendadd),
        (.bpendsub, .bpendsub r, .bpendsub), (.lacq, .lacq r, .lacq), (.ltry, .ltry r, .ltry), (.lrel, .lrel r, .lrel),
        (.qpush, .qpush r, .qpush), (.qpop, .qpop r, .qpop), (.qtrypush, .qtrypush r, .qtrypush), (.qtrypop, .qtrypop r, .qtrypop),
        (.vwait, .vwait r, .vwait), (.vsignal, .vsignal r, .vsignal), (.vbcast, .vbcast r, .vbcast)] :
        List (Instr × Event × DeskOp)),
      let counts : Prop := p.2.2 = .bpendadd ∨ p.2.2 = .bpendsub
      let answers (t : State) (st val : Nat) (elem : List Byte) : Prop :=
        let a : Answer :=
          { who := r.who, seq := r.seq, st := st, op := p.2.2, val := val, elem := elem, pa := r.pa, qos := r.qos, ctx := r.ctx }
        ∃ u, exec p.1 s = .next u ∧ u.mem = t.mem ∧ u.holds = t.holds ∧ u.agenda = t.agenda ∧
          if r.who.dev = thisDevice then .result a ∈ u.coming
          else s.upPorts ≠ [] → ∃ q, u.toFabric = t.toFabric ++ [q] ∧ q.dst = r.who.dev ∧ q.op = .answer a ∧ q.qos = r.qos
      s.input = p.2.1 →
      if s.cellParked r.pa = true then exec p.1 s = .next (s.emit p.2.1)
      else if (s.granule r.pa).poison = true then ¬counts → r.acting = none → answers s 9 0 []
      else match (s.enterSlice r.qos r.pa 32).desk p.2.2 r with
      | (.park, _) => exec p.1 s = .next (s.emit p.2.1)
      | (.held, t) => exec p.1 s = .next t
      | (.done st val elem, t) =>
        if counts then st = 0 → exec p.1 s = .next t else r.acting = none → answers t st val elem

/-- R133, R385, R112: a RESULT or a WAKE completes the instruction of a held strand of a placed grid with the answer that its tag
names, and a RESULT of RETRY makes the request wait to be sent again in its order. -/
def Obligations.AnswersComplete : Prop :=
  ∀ (s : State) (a : Answer) (k va pa la : Nat) (gd : RegNo) (op : DeskOp),
    (a.task = none → a.op ≠ .bpendadd → a.op ≠ .bpendsub → a.who.kind = 1 → s.isSaved a.who = false →
      s.settling a.who = false → s.slotOf a.who = some k →
      (s.slot k).await = some (.cell a.seq op gd.toNat va pa none false la) → op ≠ .query → a.st = 0 ∨ a.st = 2 →
      let w := ({ s with cur := k } : State).onSlot k fun sl => { sl with
        st := if sl.st = .held then .running else sl.st, await := none, due := 0 }
      ∀ p ∈ ([(.wake, .wake a), (.result, .result a)] : List (Instr × Event)), s.input = p.2 →
        ∃ v, w.Wrote gd (cellResult op a.st a.val 0 a.elem) la v ∧ exec p.1 s = .next { v with cur := s.cur }) ∧
    (∀ q r, s.input = .result a → a.st = 11 → q ∈ s.toFabric → q.op = .cell a.op r → r.who = a.who → r.seq = a.seq →
      ∃ t q', exec .result s = .next t ∧ t.resend = s.resend ++ [(a.who, .fabricPacket q')] ∧ t.slots = s.slots ∧ t.holds = s.holds ∧
        ∃ op r', q'.op = .cell op r' ∧ r'.who = a.who ∧ r'.seq = a.seq) ∧
    (∀ w q, s.input = .deskResend w → s.upPorts ≠ [] → (s.resend.filter fun e => e.1 = w) = [(w, .fabricPacket q)] →
      ∃ t q', exec .deskResend s = .next t ∧ t.resend = s.resend.filter (fun e => e.1 != w) ∧ t.toFabric = s.toFabric ++ [q'] ∧
        q'.op = q.op ∧ q'.dst = q.dst ∧ q'.addr = q.addr)

/-- R85, R134, R135: boosts count at their level, a new priority reaches its hold, and a cancel voids one. R106, R123: a
participant answers a census with its selected counters, the answers are summed with saturation on the way to the Desk, and the
Desk closes the census when every participant has been counted. -/
def Obligations.HoldsAndCensuses : Prop :=
  (
    ∀ (s : State) (w : Waiter) (level : Nat),
      (∀ k, w.kind ≠ 2 → w.kind ≠ 3 → s.isSaved w = false → s.slotOf w = some k → level < 8 →
        ∀ p ∈ ([(.boost, .boost w level, fun v => v + 1), (.expire, .expire w level, fun v => v - 1)] :
            List (Instr × Event × (Nat → Nat))),
          s.input = p.2.1 → ∃ t : State, exec p.1 s = .next t ∧ t.mem = s.mem ∧ t.holds = s.holds ∧ (∀ j, j ≠ k → t.slot j = s.slot j) ∧
            ∀ i < 8, (t.slot k).boosts.getD i 0 =
              let v := (s.slot k).boosts.getD i 0
              if i = level ∧ v ≠ 65535 then p.2.2 v else v) ∧
      (∀ cell prio, s.input = .prioset cell w prio → (∃ h ∈ s.holds, h.pa = cell ∧ h.who = w ∧ h.void = false) →
        ∃ t : State, exec .prioset s = .next t ∧
          t.holds = s.holds.map (fun h => if h.pa = cell ∧ h.who = w then { h with prio := prio % 8 } else h)) ∧
      (∀ cell seq h, s.input = .cancel cell w seq → ((s.holdsOn cell).find? fun h => h.who = w && h.seq = seq) = some h →
        h.cond = none → ∃ t : State, exec .cancel s = .next t ∧
          (h.op = .lacq → t.holds = s.holds.map fun x => if x = h then { x with void := true } else x) ∧
          (let val := if h.op = .bsync then h.key else 0
           s.waiterGone w = false → w.dev = thisDevice →
            .wake { who := w, seq := seq, st := 7, op := h.op, val := val, pa := cell, qos := h.qos, ctx := h.ctx } ∈ t.coming)) ∧
      (∀ cell seq, s.input = .cancel cell w seq → (∀ h ∈ s.holdsOn cell, h.who = w → h.seq ≠ seq) → exec .cancel s = .next s)) ∧
  (
    ∀ (s : State) (c : Census) (id router count : Nat) (sums : List Nat), (s.censuses.find? fun c => c.id = id) = some c →
      let desk := s.homeCluster c.pa
      let sat (a b : List Nat) : List Nat := (List.range 16).map fun i => min (a.getD i 0 + b.getD i 0) (2 ^ 32 - 1)
      let passes (i : Instr) (t : State) (e : Event) : Prop := ∃ u, exec i s = .next u ∧ e ∈ u.coming ∧ u.agenda = t.agenda ∧
        u.mem = t.mem ∧ u.censuses = t.censuses ∧ u.combining = t.combining
      (∀ core, s.input = .censusreq id core → core < 16384 → (∀ g, s.grid (s.censusGrid c) = some g → g.rects ≠ []) →
        passes .censusreq s (.census id (clusterOf core) 1
          ((List.range 16).map fun i => if bit c.cmask i = true then look 0 (s.core core).ev i else 0))) ∧
      (s.input = .census id router count sums →
        (router = desk → if c.total ≤ c.count + count then
            (∀ h ∈ s.holds, h.stored = true → h.pa / 32 * 32 ≤ c.pa ∨ c.pa + 128 ≤ h.pa / 32 * 32) →
            ∃ t : State, exec .census s = .next t ∧ (∀ x ∈ t.censuses, x.id ≠ id) ∧
            t.bytes (c.pa + 32) 64 = (sat c.sums sums).flatMap (bytesOf 4) ∧ t.num (c.pa + 96) 4 = (c.count + count) % 2 ^ 32
          else exec .census s = .next { s with censuses := s.censuses.map fun x =>
            if x.id = id then { c with count := c.count + count, sums := sat c.sums sums } else x }) ∧
        (router ≠ desk → ∀ e, (s.combining.find? fun e => e.id = id && e.router = router) = some e →
          let all := ((s.censusCores c).filter fun n => routeMeets (s.censusRouter (s.censusGrid c) n) desk router).length
          if all ≤ e.count + count then
            passes .census { s with combining := s.combining.erase e }
              (.census id (nextRouter router desk) (e.count + count) (sat e.sums sums))
          else exec .census s = .next { s with combining := s.combining.map fun x =>
            if x = e then { e with count := e.count + count, sums := sat e.sums sums } else x })) ∧
      (∀ e, s.input = .censusEntryTimeout id router → (s.combining.find? fun e => e.id = id && e.router = router) = some e →
        passes .censusEntryTimeout { s with combining := s.combining.erase e }
          (.census id (nextRouter router desk) e.count e.sums)))

/-! ## Tasks, messages and calls (spec/12_cores_and_strands.md, spec/19_isa_sync_tasks_remote.md) -/

/-- R394, R395, R399, R400, R406, R407, R411: messages leave for the unit that the target word names, and the instructions on the
strand's own core write what their rules give. -/
def Obligations.TaskInstructions : Prop :=
  ∀ (s : State) (la : Look) (n : BitVec 4) (gd gs1 gs2 : RegNo),
    let c := coreOf s.cur
    let w := (s.value gd).data.toNat
    let payload := (List.range n.toNat).map fun i => gs2 + BitVec.ofNat 5 i
    let message (kind : Nat) (entry : Reg) : Task :=
      { kind := kind, cls := w / 2 ^ 64 % 16, prio := min (w / 2 ^ 68 % 8) s.here.prio, qos := s.here.qos,
        grid := (s.gridOf s.cur).getD 0xFFFF, ctx := s.ctxOf s.cur, entry := entry, args := payload.map s.value,
        sender := s.waiterOf s.cur, pc := s.here.pc }
    (s.Readable gd → (s.value gd).tag ≠ .bounded → (levelOf s.cur = .s → 2 ≤ w / 2 ^ 71 % 4) → (∀ r ∈ payload, s.Readable r) →
      ∀ u k, s.targetOf (s.gridOf s.cur) w = some u → (u = .core k ∨ ∃ b, u = .bank b ∧ k = 16384 + b) →
        let carried (m : Task) : State := s.carry (m.header (slotAgent s.cur) k) (.messageArrival k m)
        (∃ t : State, exec (.send n gd gs2) s = .next t ∧ (carried (message 3 {})).Wrote 0 {} 0 t) ∧
        (levelOf s.cur ∈ onCores → s.Readable gs1 → handleOk (s.value gs1) = true →
          ∃ t : State, exec (.spawn n gd gs1 gs2) s = .next t ∧ (carried (message 2 (s.value gs1))).Wrote 0 {} 0 t)) ∧
    (levelOf s.cur ∈ onCores → s.Readable gs1 → (s.value gs1).tag ≠ .bounded →
      (∃ t : State, exec (.yield la gs1) s = .next t ∧ ((s.onHere fun sl => { sl with
          yielding := s.time + max 1 ((s.value gs1).data.toNat % 2 ^ 16) }).emit (.yieldExpiry s.cur)).Wrote 0 {} la.toNat t) ∧
      (∀ sel : BitVec 5, ∃ t : State, exec (.catset la gs1 sel) s = .next t ∧ look {} (t.core c).cat sel.toNat = s.value gs1 ∧
        t.mem = s.mem ∧ t.here.pc = s.here.pc + 4 ∧ ∀ r, t.value r = s.value r) ∧
      (s.Writable gd → ∀ p ∈ ([(.hold la gd gs1, fun old m => old ||| m), (.unhold la gd gs1, fun old m => old &&& ~~~m)] :
          List (Instr × (BitVec 32 → BitVec 32 → BitVec 32))),
        ∃ t : State, exec p.1 s = .next t ∧
          ((s.onHereCore fun k => { k with hmask := p.2 (s.core c).hmask ((s.value gs1).data.setWidth 32 &&& 0xFFFE) }).emit
            (.taskSelect c)).Wrote gd (exactData (s.core c).hmask.toNat) la.toNat t)) ∧
    (levelOf s.cur ∈ inGrids →
      (match s.here.task with
      | some k => k.dealt ≠ none → k.triggered = false → isBankSlot s.cur = false → s.readsOpen s.cur = false →
        s.postsOpen s.cur = false → ∀ x, s.grid k.grid = some x → x.trig ≠ 0 →
          ∃ t : State, exec (.trigger la) s = .next t ∧ (t.grid k.grid).map (·.trig) = some (x.trig - 1) ∧
            t.here.task = some { k with triggered := true } ∧ t.here.pc = s.here.pc + 4 ∧ t.mem = s.mem ∧
            (x.trig = 1 → x.released = false → x.st = .running → .triggerRelease k.grid ∈ t.agenda)
      | none => True) ∧
      ((∀ k, s.here.task = some k → k.dealt = none ∨ k.triggered = true) →
        ∃ t : State, exec (.trigger la) s = .next t ∧ s.Wrote 0 {} la.toNat t) ∧
      (s.Writable gd → ∀ g, (s.gridOf s.cur).bind s.grid = some g →
        (∃ t : State, exec (.gpos la gd 0) s = .next t ∧ s.Wrote gd (exactData ((s.core c).gx % 2 ^ 16 + (s.core c).gy % 2 ^ 16 * 2 ^ 16 +
          (s.core c).bay % 2 ^ 16 * 2 ^ 32 + g.stageOf (s.core c).bay % 16 * 2 ^ 48 + s.cur % 4 * 2 ^ 52 + s.here.vsz * 2 ^ 54))
          la.toNat t) ∧
        (∃ t : State, exec (.gpos la gd 1) s = .next t ∧ s.Wrote gd (exactData (g.gw * g.node.bw % 2 ^ 16 +
          g.node.gh * g.node.bh % 2 ^ 16 * 2 ^ 16 + g.node.bw % 2 ^ 8 * 2 ^ 32 + g.node.bh % 2 ^ 8 * 2 ^ 40 +
          g.node.stages % 32 * 2 ^ 48)) la.toNat t)))

/-- R396-R398, R242: a fork records its task or calls it inline, a join counts and returns or ends, an exit frees the slot, and a
migration takes the registers to the target core. -/
def Obligations.ForksAndEnds : Prop :=
  ∀ (s : State) (la : Look) (gd gs1 gs2 : RegNo),
    let c := coreOf s.cur
    let args := [gs2, gs2 + 1, gs2 + 2]
    let ended (t : State) : Prop := (t.slot s.cur).st = .free ∧ (t.slot s.cur).task = none ∧ t.mem = s.mem ∧
      (s.cur % 4 ≠ 3 → .taskSelect c ∈ t.agenda)
    (levelOf s.cur ∈ inGrids → s.Readable gs1 → (∀ r ∈ args, s.Readable r) → s.Writable gd → handleOk (s.value gs1) = true →
      s.readsOpen s.cur = false →
      let k : Task := { kind := 1, cls := s.here.oclass, prio := s.here.bprio, qos := s.here.qos, ctx := s.ctxOf s.cur,
                        grid := (s.gridOf s.cur).getD 0xFFFF, age := s.fresh + 1, entry := s.value gs1, args := args.map s.value }
      if (s.core c).deque.length < 32 then
        ∃ t : State, exec (.fork la gd gs1 gs2) s = .next t ∧ ((s.drawn.onCore c fun x => { x with
          deque := x.deque ++ [k], stealWait := false }).emit (.taskSelect c)).Wrote gd (exactData 1) la.toNat t
      else (∀ r ∈ [1, 3, 16, 17, 18], s.outstanding s.cur r = false) →
        ∃ t : State, exec (.fork la gd gs1 gs2) s = .next t ∧ t.here.pc = (s.value gs1).data.setWidth 64 ∧ t.here.window = 0 ∧
        t.value 16 = s.value gs2 ∧ t.value 17 = s.value (gs2 + 1) ∧ t.value 18 = s.value (gs2 + 2) ∧
        t.value 3 = exactData (k.word (s.cur % 4) + 2 ^ 40) ∧ t.value 1 = ⟨(s.here.pc + 4).setWidth 128, .exact⟩ ∧
        (∀ r : RegNo, r ∉ [gd, 1, 3, 16, 17, 18] → t.value r = s.value r) ∧ t.mem = s.mem) ∧
    (levelOf s.cur ∈ inGrids → s.Readable 0 → s.Readable 3 →
      let inline_ := (s.value 3).data.getLsbD 40
      let back : Word64 := ((s.value 1).data.setWidth 64) &&& ~~~1
      (inline_ = true → s.Readable 1 → (s.value 1).tag = .exact → back.getLsbD 1 = false →
        (∃ t : State, exec (.join la 0) s = .next t ∧ s.WentTo 0 {} back t) ∧
        (s.Readable gs1 → gs1 ≠ 0 → ∀ pa u t val, s.CellAt .cadd gs1 pa u → u.drawn.desk .cadd
            (u.cellRequest { n := -1 } (capAddr (s.value gs1).data) pa) = (.done 0 val [], t) → t.cur = s.cur → t.here = s.here →
            t.flips = s.flips → ∃ v, exec (.join la gs1) s = .next v ∧ v.here.pc = back ∧ v.mem = t.mem ∧ v.holds = t.holds)) ∧
      (inline_ = false → ∃ t : State, exec (.join la 0) s = .next t ∧ ended t)) ∧
    (levelOf s.cur ∈ onCores → ∃ t : State, exec (.exit la) s = .next t ∧ ended t) ∧
    (levelOf s.cur = .g → s.Readable gs1 → (s.value gs1).tag ≠ .bounded → s.here.streams = [] →
      s.isBound s.cur = false → s.readsOpen s.cur = false → s.postsOpen s.cur = false →
      (∀ b ∈ (s.core c).board, b.slot ≠ s.cur) → (∀ q ∈ (s.core c).vq, q.slot = s.cur → q.gd = 0) → (∀ x ∈ (s.core c).xq, x.slot ≠ s.cur) →
      let w := (s.value gs1).data.toNat
      ∀ n, s.targetOf (s.gridOf s.cur) w = some (.core n) → ∃ (t : State) (m : Task), exec (.migrate la gs1) s = .next t ∧
        (t.slot s.cur).st = .free ∧ (∀ i ∈ [1, 2], .migrateArrival n { m with cause := i } ∈ t.coming) ∧ m.kind = 7 ∧ m.cls = w / 2 ^ 64 % 16 ∧ m.pc = s.here.pc + 4 ∧
        m.args = (List.range 16).map (fun i => s.here.reg i) ∧ t.mem = s.mem)

/-- R401-R404, R408, R409: calls take an entry for their reply and leave for their unit, a reply goes to the caller, and the annex
thread takes messages and gives them back. -/
def Obligations.CallInstructions : Prop :=
  ∀ (s : State) (la : Look) (n : BitVec 4) (r : BitVec 2) (gd gs1 gs2 : RegNo),
    let c := coreOf s.cur
    let payload := (List.range (n.toNat + 1)).map fun i => gs2 + BitVec.ofNat 5 i
    let replies := (List.range (r.toNat + 1)).map fun i => gd + BitVec.ofNat 5 i
    let ctl := (s.value (gs1 + 2)).data.toNat
    let w := (s.value gs1).data.toNat
    (s.Readable gs1 → s.Readable (gs1 + 1) → s.Readable (gs1 + 2) → (∀ q ∈ payload, s.Readable q) →
      (s.value gs1).tag ≠ .bounded → (s.value (gs1 + 2)).tag ≠ .bounded → handleOk (s.value (gs1 + 1)) = true → bit ctl 16 = true →
      ∀ u k, s.targetOf (s.gridOf s.cur) w = some u → (u = .core k ∧ levelOf s.cur ≠ .s ∨ ∃ b, u = .bank b ∧ k = 16384 + b) →
        let slip (kind : Nat) : Task :=
          { kind := kind, cls := w / 2 ^ 64 % 16, prio := s.here.prio, qos := s.here.qos, grid := (s.gridOf s.cur).getD 0xFFFF,
            ctx := s.ctxOf s.cur, entry := s.value (gs1 + 1), args := payload.map s.value, sender := s.waiterOf s.cur,
            seq := ctl % 2 ^ 16, route := some ⟨thisDevice, s.cur, s.fresh, kind = 6, (s.gridOf s.cur).getD 0xFFFF⟩ }
        (levelOf s.cur ∈ [Level.g, .s] → (∀ q ∈ replies, s.Writable q) → (s.core c).board.length < 64 →
          ∃ (t : State) (b : _), exec (.rcall n r gd gs1 gs2) s = .next t ∧ .callSlip k (slip 5) ∈ t.coming ∧
            (t.core c).board = b :: (s.core c).board ∧ b.slot = s.cur ∧ b.reg = gd.toNat ∧ b.count = r.toNat + 1 ∧ b.kind = .call ∧
            b.seq = s.fresh ∧ t.here.pc = s.here.pc + 4 ∧ t.mem = s.mem ∧ ∀ q, t.value q = s.value q) ∧
        (levelOf s.cur ∈ onCores → (s.core c).posted.length < 256 →
          ∃ (t : State) (p : _), exec (.rpost n gs1 gs2) s = .next t ∧ .callSlip k (slip 6) ∈ t.coming ∧
            (t.core c).posted = p :: (s.core c).posted ∧ p.slot = s.cur ∧ p.call = true ∧ p.tag = s.fresh ∧
            t.here.pc = s.here.pc + 4 ∧ t.mem = s.mem ∧ ∀ q, t.value q = s.value q)) ∧
    (∀ k route, s.here.task = some k → k.kind = 5 → k.replied = false → k.route = some route → (∀ q ∈ payload, s.Readable q) →
      s.readsOpen s.cur = false → s.postsOpen s.cur = false → route.dev = thisDevice →
      route.posted = false → ∃ t : State, exec (.rreply n gs2) s = .next t ∧
        .rcallReply ⟨coreOf route.slot, route.entry, .none, .none, thisDevice, payload.map s.value, []⟩ ∈ t.coming ∧
        t.agenda = s.agenda ∧ t.here.task = some { k with replied := true } ∧ t.here.pc = s.here.pc + 4 ∧ t.mem = s.mem ∧
        ∀ q, t.value q = s.value q) ∧
    (levelOf s.cur = .a → s.Writable gd → (∀ i < 11, s.outstanding s.cur (13 + i) = false) →
      match (s.core c).inbox.find? Task.takeable with
      | none => ∃ t : State, exec (.atake la gd) s = .next t ∧ s.Wrote gd (exactData 0) la.toNat t
      | some m => gd.toNat ∉ [13, 14, 15] → (∀ i < m.args.length, gd.toNat ≠ 16 + i) → m.args.length ≤ 15 →
        ∃ t : State, exec (.atake la gd) s = .next t ∧ (gd ≠ 0 → t.value gd = ⟨m.takenWord (originOf (s.fresh % 2 ^ 64)), .exact⟩) ∧
          t.value 13 = m.sender.reg ∧ (∀ i (_ : i < m.args.length), t.value (16 + BitVec.ofNat 5 i) = m.args.getD i {}) ∧
          ((s.core c).router = [] → m.inbox ≠ none →
            (t.core c).inbox = (s.core c).inbox.filter fun q => q.inbox != m.inbox) ∧ (s.fresh % 2 ^ 64, m) ∈ t.taken ∧
          look 0 (t.core c).ev 14 = (if (s.core c).evctl.getLsbD 14 = true then min (look 0 (s.core c).ev 14 + 1) (2 ^ 32 - 1)
            else look 0 (s.core c).ev 14) ∧ t.here.pc = s.here.pc + 4 ∧ t.mem = s.mem) ∧
    (let words := (List.range n.toNat).map fun i => gs2 + BitVec.ofNat 5 i
     levelOf s.cur = .a → s.Readable gs1 → s.Readable (gs1 + 1) → (∀ q ∈ words, s.Readable q) → s.Writable gd →
      (s.value gs1).tag = .exact → bit w 15 = true → (s.value (gs1 + 1)).tag ≠ .bounded → w % 16 = 2 ∨ w % 16 = 3 →
      if (s.core c).inboxUsed < (s.core c).annexHi then
        ∃ (t : State) (m : _), exec (.lbsend n gd gs1 gs2) s = .next t ∧ (t.core c).inbox = (s.core c).inbox ++ [m] ∧ m.kind = w % 16 ∧
          m.cls = w / 16 % 16 ∧ m.prio = w / 256 % 8 ∧ m.args = words.map s.value ∧
          m.entry = (if w % 16 = 2 then s.value (gs1 + 1) else {}) ∧ (gd ≠ 0 → t.value gd = exactData 0) ∧
          t.here.pc = s.here.pc + 4 ∧ t.mem = s.mem
      else ∃ t : State, exec (.lbsend n gd gs1 gs2) s = .next t ∧ s.Wrote gd (exactData 1) 0 t)

/-- R243-R249: `bind` answers the first condition of R244 that fails, else it lends every other slot of the block; `unbind` hands
them back. -/
def Obligations.VolumesBind : Prop :=
  ∀ (s : State) (la : Look) (gd : RegNo) (sel : BitVec 5), levelOf s.cur = .g → s.Writable gd →
    (let code := if sel = 2 then some 1 else if sel = 4 then some 2 else if sel = 8 then some 3 else if sel = 16 then some 4 else none
     match code with
     | none => ∃ t : State, exec (.bind la gd sel) s = .next t ∧ s.Wrote gd (exactData 1) la.toNat t
     | some v =>
      if s.isBound s.cur = true then ∃ t : State, exec (.bind la gd sel) s = .next t ∧ s.Wrote gd (exactData 2) la.toNat t
      else if s.bindStatus s.cur v ≠ 0 then
        ∃ t : State, exec (.bind la gd sel) s = .next t ∧ s.Wrote gd (exactData (s.bindStatus s.cur v)) la.toNat t
      else ∃ t : State, exec (.bind la gd sel) s = .next t ∧ (gd ≠ 0 → t.value gd = exactData 0) ∧ t.here.vsz = v ∧
        t.here.pc = s.here.pc + 4 ∧ t.mem = s.mem ∧
        ∀ m ∈ volumeCores v (coreOf s.cur), ∀ h < 4, slotKey m h ≠ s.cur →
          (t.slot (slotKey m h)).st = .lent ∧ (t.slot (slotKey m h)).lead = some s.cur) ∧
    (if s.isBound s.cur = true then ∃ t : State, exec (.unbind la) s = .next t ∧ t.here.vsz = 0 ∧ t.isBound s.cur = false ∧
        (∀ k, (s.slot k).lead = some s.cur → (t.slot k).st = .free ∧ (t.slot k).lead = none) ∧ t.mem = s.mem ∧
        t.here.pc = s.here.pc + 4
      else ∃ t : State, exec (.unbind la) s = .next t ∧ s.Wrote 0 {} la.toNat t)

/-- R84, R223, R230, R236: the selector fills a free slot with a ready task of the highest priority, the oldest among equals,
every sixteenth time one of a lower priority; the task starts at its entry with its registers; the annex thread starts at its own.
-/
def Obligations.TasksStart : Prop :=
  ∀ (s : State) (c k : Nat),
    (∀ t : Task, (s.core c).choose = some t →
      t ∈ (s.core c).runq ++ (s.core c).deque.getLast?.toList ∧ t.age ≠ 0 ∧
      (t.kind = 7 ∨ t.kind = 8 ∨ t.cls = 0 ∨ (s.core c).hmask.getLsbD t.cls = false) ∧
      ((s.core c).selCount ≠ 15 → ∀ x ∈ (s.core c).candidates, x.prio ≤ t.prio ∧ (x.prio = t.prio → t.age ≤ x.age)) ∧
      ((s.core c).selCount = 15 → (∃ x ∈ (s.core c).candidates, x.prio ≠ t.prio) → ∃ x ∈ (s.core c).candidates, t.prio < x.prio)) ∧
    (∀ t : Task, s.input = .taskSelect c → c < 16384 → s.selects c = true → s.freeSlot c = some k →
      (s.core c).choose = some t → t ∈ (s.core c).runq → ∃ u, exec .taskSelect s = .next u ∧ (u.slot k).st = .starting ∧
        (u.slot k).task = some t ∧ (u.core c).runq = (s.core c).runq.erase t ∧ (u.core c).deque = (s.core c).deque ∧
        (u.core c).selCount = ((s.core c).selCount + 1) % 16 ∧ .taskStart k ∈ u.agenda ∧ u.mem = s.mem) ∧
    (∀ t : Task, s.input = .taskStart k → (s.slot k).st = .starting → (s.slot k).task = some t → t.kind ≠ 7 → isBankSlot k = false →
      t.args.length ≤ 16 → ∃ u, exec .taskStart s = .next u ∧ (u.slot k).st = .running ∧
        (u.slot k).pc = t.entry.data.setWidth 64 ∧ (u.slot k).bprio = t.prio % 8 ∧ (u.slot k).qos = t.qos % 8 ∧
        (u.slot k).rmode = 0 ∧ (u.slot k).reg 1 = {} ∧ (u.slot k).reg 3 = exactData (t.word (k % 4)) ∧
        (u.slot k).reg 2 = s.stackCap (coreOf k) (k % 4) ∧ (∀ i (_ : i < t.args.length), (u.slot k).reg (16 + i) = t.args.getD i {}) ∧
        (t.kind = 2 ∨ t.kind = 3 → (u.slot k).reg 13 = t.sender.reg) ∧ (u.slot k).marks = [] ∧ (u.slot k).tcause = 0 ∧
        (u.slot k).boosts = List.replicate 8 0 ∧ (∀ j, j ≠ k → u.slot j = s.slot j) ∧ u.mem = s.mem) ∧
    (∀ t : Task, s.input = .taskStart k → (s.slot k).st = .starting → (s.slot k).task = some t → t.kind = 7 → isBankSlot k = false →
      ∃ u, exec .taskStart s = .next u ∧ (u.slot k).st = .running ∧ (u.slot k).pc = t.pc ∧
        ∀ i, 0 < i → i < 16 → (u.slot k).reg i = t.args.getD i {}) ∧
    (s.input = .annexStart c → s.annexDue c = true → s.selects c = true → ∃ u, exec .annexStart s = .next u ∧
      (u.slot (slotKey c 3)).st = .running ∧ (u.slot (slotKey c 3)).pc = (s.entryOf c 16).data.setWidth 64 ∧
      (∀ r, (u.slot (slotKey c 3)).reg r = {}) ∧ u.mem = s.mem)

/-- R233, R235, R239, R240, R242, R399, R402: messages, calls and migrating strands enter an inbox or wait in the router, become
ready with the entry of their class, and are stolen or wake again as their rules say. -/
def Obligations.TasksArrive : Prop :=
  ∀ (s : State) (c : Nat) (m : Task),
    (∀ p ∈ ([(.messageArrival, .messageArrival c m), (.callSlip, .callSlip c m), (.migrateArrival, .migrateArrival c m)] :
        List (Instr × Event)), s.input = p.2 → c < 16384 → s.takesFrom c m = true →
      if (s.core c).router = [] ∧ (s.core c).inboxUsed + (if m.kind = 7 ∧ m.cause = 0 then 2 else 1) ≤ 32 then
        ∃ t : State, exec p.1 s = .next t ∧ (t.core c).inbox = (if m.kind = 7 ∧ m.cause = 2 then
            (s.core c).inbox.map fun x => if x.kind = 7 ∧ x.cause = 1 ∧ x.seq = m.seq then { x with cause := 0 } else x
          else (s.core c).inbox ++ [{ m with inbox := some s.fresh, age := 0 }]) ∧
          .messageReady c ∈ t.agenda ∧ t.mem = s.mem ∧ t.slots = s.slots
      else ∃ t : State, exec p.1 s = .next t ∧ (t.core c).router = (s.core c).router ++ [m] ∧ (t.core c).inbox = (s.core c).inbox ∧
        t.agenda = s.agenda) ∧
    (∀ p ∈ ([(.messageArrival, .messageArrival (16384 + c) m), (.callSlip, .callSlip (16384 + c) m)] : List (Instr × Event)),
      s.input = p.2 → s.banksOff.contains (c / 32) = false → (s.bank c).router = [] → (s.bank c).inbox.length < 16 →
      ∃ t : State, exec p.1 s = .next t ∧ (t.bank c).inbox = (s.bank c).inbox ++ [{ m with age := s.fresh + 1 }] ∧
        t.agenda = s.agenda ++ [.taskSelect (16384 + c)]) ∧
    (s.input = .messageReady c → (s.core c).firstUnready = some m → (s.core c).runq.length < 64 → s.dealtClaim c = none →
      (m.kind = 3 → m.cls ≠ 0 → handlerOpen (s.entryOf c m.cls) = true → ∃ t : State, exec .messageReady s = .next t ∧
        (t.core c).runq = (s.core c).runq ++ [{ m with entry := s.entryOf c m.cls, age := s.fresh + 1 }] ∧ .taskSelect c ∈ t.agenda) ∧
      (m.kind = 3 → m.cls = 0 ∨ handlerOpen (s.entryOf c m.cls) = false → handlerOpen (s.entryOf c 0) = true →
        ∃ t : State, exec .messageReady s = .next t ∧ (t.core c).runq = (s.core c).runq ++ [{ m with
          kind := 8, cls := 0, cause := if m.cls = 0 then 2 else 1, entry := s.entryOf c 0, age := s.fresh + 1 }]) ∧
      (m.kind ≠ 3 → m.kind ≠ 4 → ∃ t : State, exec .messageReady s = .next t ∧
        (t.core c).runq = (s.core c).runq ++ [{ m with age := s.fresh + 1 }])) ∧
    (∀ v rest, s.input = .stealRequest c v none → (s.core v).deque = m :: rest → (s.core v).grid = (s.core c).grid →
      (s.core c).runq.length < 64 → ∃ t : State, exec .stealRequest s = .next t ∧ (t.core v).deque = rest ∧
        .stealRequest c v (some (some m)) ∈ t.coming ∧ t.mem = s.mem) ∧
    (∀ v, s.input = .stealRequest c v none → (s.core v).deque = [] → ∃ t : State, exec .stealRequest s = .next t ∧
        .stealRequest c v (some none) ∈ t.coming ∧ t.cores = s.cores) ∧
    (∀ v, s.input = .stealRequest c v (some (some m)) → (s.core c).grid = some m.grid → (s.core c).runq.length < 64 →
      ∃ t : State, exec .stealRequest s = .next t ∧ (t.core c).runq = (s.core c).runq ++ [{ m with age := s.fresh + 1 }] ∧
        (t.core c).steal = none ∧ .taskSelect c ∈ t.agenda) ∧
    (∀ v i, s.input = .stealRequest c v (some none) → (s.core c).steal = some i → (s.victims c)[i]? = some v →
      ∃ t : State, exec .stealRequest s = .next t ∧ match (s.victims c)[i + 1]? with
        | some w => (t.core c).steal = some (i + 1) ∧ .stealRequest c w none ∈ t.coming
        | none => (t.core c).steal = none ∧ (t.core c).stealWait = true ∧ (t.core c).stealAt = s.time ∧ .stealRetry c ∈ t.agenda) ∧
    (s.input = .stealRetry c → (s.core c).stealWait = true → ∃ t : State, exec .stealRetry s = .next t ∧
      (if s.time < (s.core c).stealAt + 1024 then t = s.emit (.stealRetry c) else (t.core c).stealWait = false)) ∧
    (s.input = .yieldExpiry c → (s.slot c).yielding ≠ 0 → ∃ t : State, exec .yieldExpiry s = .next t ∧
      (if s.time < (s.slot c).yielding then t = s.emit (.yieldExpiry c) else
        (t.slot c).yielding = 0 ∧ t.mem = s.mem ∧ ∀ j, j ≠ c → t.slot j = s.slot j))

/-! ## Control registers, traps, pre-emption requests (spec/14_traps_and_preemption.md, spec/21_isa_system.md) -/

/-- R448-R452, R427: the control-register instructions return the old value; a write changes the register where Table 3 lets it,
keeps its reserved bits at 0, and leaves a read-only register as it was. -/
def Obligations.ControlRegisters : Prop :=
  ∀ (s : State) (la : Look) (gd gs1 : RegNo) (sel : BitVec 5), levelOf s.cur ∈ onCores → sel.toNat ≤ 27 → s.Readable gs1 →
    s.Writable gd → (s.value gs1).tag ≠ .bounded →
    let k := s.cur
    let c := s.core (coreOf k)
    let cr := sel.toNat
    let old := s.readCR k cr
    let v := (s.value gs1).data
    let narrow (n : Nat) : Prop := ∀ p ∈ [(Instr.crwr la gd gs1 sel, v), (.crset la gd gs1 sel, old.data ||| (v.setWidth 64 : Word64).setWidth 128),
      (.crclr la gd gs1 sel, old.data &&& ~~~v)], ∃ t : State, exec p.1 s = .next t ∧ t.readCR k cr = exactData (p.2.toNat % 2 ^ 32 &&& n)
    (∃ t : State, exec (.crrd la gd sel) s = .next t ∧ s.drawn.Wrote gd old 0 t) ∧
    (cr ≠ 9 → ∃ t : State, exec (.crwr la gd gs1 sel) s = .next t ∧ (gd ≠ 0 → t.value gd = old) ∧ t.here.pc = s.here.pc + 4 ∧
      ∀ r, r ≠ gd → t.value r = s.value r) ∧
    (cr = 0 → old = exactData s.here.sstat.toNat) ∧ (cr = 1 → old = exactData s.here.tcause.toNat) ∧
    (cr = 12 → old = exactData c.xbound.toNat) ∧ (cr = 23 → old = exactData s.time) ∧
    (cr ∈ [1, 2, 4, 10, 11, 21, 22, 23, 24, 25, 26, 27] →
      ∀ i ∈ [Instr.crwr la gd gs1 sel, .crset la gd gs1 sel, .crclr la gd gs1 sel],
        ∃ t : State, exec i s = .next t ∧ s.drawn.Wrote gd old 0 t) ∧
    (cr = 0 → ∃ t : State, exec (.crwr la gd gs1 sel) s = .next t ∧ t.here.rmode = v.toNat / 2 ^ 6 % 8 ∧ t.here.bprio = s.here.bprio ∧
      t.here.qos = s.here.qos ∧ t.here.oclass = s.here.oclass ∧ t.here.vsz = s.here.vsz) ∧
    (cr = 3 → ∃ t : State, exec (.crwr la gd gs1 sel) s = .next t ∧ t.here.tpc = v.setWidth 64) ∧
    (cr = 5 → narrow 0xFFFFF) ∧ (cr = 7 → narrow 0xFFFFFF) ∧ (cr = 14 → narrow 0x1FFFF) ∧ (cr = 15 → narrow 0xFFFF) ∧
    (cr = 16 → narrow 0xFFFE) ∧ (cr = 20 → ∃ t : State, exec (.crwr la gd gs1 sel) s = .next t ∧ t.readCR k 20 = exactData (v.toNat % 2 ^ 16)) ∧
    (cr = 6 ∨ cr = 18 ∨ cr = 19 → ∃ t : State, exec (.crwr la gd gs1 sel) s = .next t ∧ t.readCR k cr = s.value gs1) ∧
    (cr = 6 ∨ cr = 8 ∨ cr = 18 ∨ cr = 19 → ∀ i ∈ [Instr.crset la gd gs1 sel, .crclr la gd gs1 sel],
      exec i s = .next (s.takeTrap { cause := .illegalInstruction, addr := (s.wordAt k s.here.pc).toNat } 0))

/-- R269-R271, R453, R454, R462, R514: what taking a trap leaves in a strand of a core: the trap registers are written, then the
handler is entered, the slot is parked and reported, or its grid ends. -/
def Obligations.TrapsAreTaken : Prop :=
  ∀ (s : State) (t : TrapInfo) (la : Nat), isBankSlot s.cur = false → s.isBound s.cur = false →
    let k := s.cur
    let l := levelOf k
    let sl := s.here
    let h := if t.cause = .overlay then (s.core (coreOf k)).ovlh else (s.core (coreOf k)).thnd
    let open_ := h.tag = .sealed ∧ h.data.getLsbD 114 = true
    let inSlot := t.deferred = true ∨ t.cause ∈ [Cause.overlay, .ebreak, .recalibrate] ∨ t.cause = .ecall ∧ l = .s
    let parks := t.deferred = false ∧ (t.cause = .ecall ∧ l ≠ .s ∨ t.cause = .pageFault)
    let u := s.takeTrap t la
    let x := u.slot k
    x.regs = sl.regs ∧ x.marks = sl.marks ∧ u.mem = s.mem ∧ (∀ j, j ≠ k → u.slot j = s.slot j) ∧
    x.taddr = BitVec.ofNat 64 t.addr ∧ x.tpc = t.from_.getD (if t.after then sl.pc + 4 else sl.pc) ∧
    x.trcause = BitVec.ofNat 64 (t.rcode.code + t.dstat * 2 ^ 16 + t.dev * 2 ^ 32) ∧
    x.tcause.toNat % 2 ^ 16 = t.cause.code ∧
    (inSlot → open_ → sl.inh = false → x.st = sl.st ∧ x.pc = h.data.setWidth 64 ∧ x.inh = true ∧ x.window = 0 ∧
      bits x.tcause.toNat 18 16 = (if t.deferred then 3 else 1)) ∧
    (parks → l ≠ .s → x.st = .parked ∧ x.pc = sl.pc ∧ bits x.tcause.toNat 18 16 = 2 ∧
      ∃ m, .messageArrival (serviceCore (regionOf (coreOf k))) m ∈ u.coming ∧ m.kind = 3 ∧ m.cls = 15 ∧
        m.args = [exactData (s.slotWord k), exactData x.tcause.toNat, exactData x.taddr.toNat, exactData x.tpc.toNat]) ∧
    (¬inSlot → ¬parks → l ≠ .s → ∀ g gr, (s.core (coreOf k)).grid = some g → s.grid g = some gr → gr.st = .running →
      gr.ended = none → gr.rects ≠ [] →
      ∃ e, (u.grid g).map (fun y => (y.st, y.ended)) = some (LaunchState.stopping, some e) ∧ e.status = 1 ∧ e.cause = t.cause.code ∧
        e.taddr = t.addr ∧ e.tpc = x.tpc.toNat ∧ bits x.tcause.toNat 18 16 = 4)

/-- R453-R455, R330, R250, R275: the instructions and events that trap take their trap; a return resumes at `tpc` outside the
handler, and a grid's strand may return only inside one. -/
def Obligations.TrapsAndReturns : Prop :=
  ∀ (s : State) (la : Look),
    (levelOf s.cur ∈ [Level.g, .s] → exec .ecall s = .next (s.takeTrap { cause := .ecall, after := true } 0)) ∧
    (levelOf s.cur ∈ onCores → exec .ebreak s = .next (s.takeTrap { cause := .ebreak } 0)) ∧
    (∀ w, s.input = .illegalInstruction w →
      exec .illegalInstruction s = .next (s.takeTrap { cause := .illegalInstruction, addr := w.toNat } 0)) ∧
    (s.input = .overlayTrap → exec .overlayTrap s = .next (s.takeTrap { cause := .overlay, addr := s.here.pc.toNat } 0)) ∧
    (levelOf s.cur ∈ onCores →
      if s.here.inh = true then ∃ t : State, exec (.tret la) s = .next t ∧ t.here.pc = s.here.tpc ∧ t.here.inh = false ∧
        t.here.st = .running ∧ t.here.regs = s.here.regs ∧ t.here.marks = s.here.marks ∧ t.mem = s.mem ∧ t.here.tpc = s.here.tpc
      else exec (.tret la) s =
        .next (s.takeTrap { cause := .illegalInstruction, addr := (s.wordAt s.cur s.here.pc).toNat } 0)) ∧
    (isBankSlot s.cur = true → ∀ i ∈ [Instr.ecall, .ebreak, .tret la],
      exec i s = .next (s.takeTrap { cause := .remoteOp } 0))

/-- R456-R460: the control program pre-empts, ends and resumes grids, and learns what became of them. -/
def Obligations.PreemptionRequests : Prop :=
  ∀ (s : State) (la : Look) (gd gs1 : RegNo), levelOf s.cur = .s → s.Readable gs1 → s.Writable gd → (s.value gs1).tag ≠ .bounded →
    let w := (s.value gs1).data.toNat
    let g := w % 2 ^ 16
    w < 2 ^ 32 →
    (match s.grid g with
    | none => (∀ i ∈ [Instr.gpreempt la gd gs1, .gpreemptEnd la gd gs1],
          ∃ t : State, exec i s = .next t ∧ s.Wrote gd (exactData 1) la.toNat t) ∧
        (w < 2 ^ 16 → (∃ t : State, exec (.gresume la gd gs1) s = .next t ∧ s.Wrote gd (exactData 1) la.toNat t) ∧
          ∃ t : State, exec (.preack la gd gs1) s = .next t ∧ s.Wrote gd (exactData (look 0 s.outcomes g)) la.toNat t)
    | some x =>
      (x.st = .running → ∃ (t : State) (y : _), exec (.gpreempt la gd gs1) s = .next t ∧ t.grid g = some y ∧ y.st = .stopping ∧
        (gd ≠ 0 → t.value gd = exactData 0) ∧ .preemptBoundary g ∈ t.agenda ∧ t.here.pc = s.here.pc + 4) ∧
      (x.st = .placing ∨ x.st = .dealing → ∀ i ∈ [Instr.gpreempt la gd gs1, .gpreemptEnd la gd gs1],
        ∃ t : State, exec i s = .next t ∧ s.Wrote gd (exactData 3) la.toNat t) ∧
      (x.st = .running → x.ended = none → x.rects ≠ [] → ∃ (t : State) (y : _) (e : _), exec (.gpreemptEnd la gd gs1) s = .next t ∧ t.grid g = some y ∧
        y.st = .stopping ∧ y.ended = some e ∧ (gd ≠ 0 → t.value gd = exactData 0) ∧
        (w / 2 ^ 16 = 0 → e.status = 2 ∧ e.cause = 0x306) ∧ (w / 2 ^ 16 ≠ 0 → e.status = 1 ∧ e.cause = w / 2 ^ 16)) ∧
      (w < 2 ^ 16 →
        (if x.st = .saved then ∃ (t : State) (y : _), exec (.gresume la gd gs1) s = .next t ∧ t.grid g = some y ∧ y.st = .placing ∧
            y.resuming = true ∧ .placeGrid g ∈ t.agenda ∧ (gd ≠ 0 → t.value gd = exactData 0)
          else ∃ t : State, exec (.gresume la gd gs1) s = .next t ∧ s.Wrote gd (exactData 4) la.toNat t) ∧
        (if x.st = .stopping ∨ x.st = .saving then exec (.preack la gd gs1) s = .next { s with waited := true }
          else ∃ t : State, exec (.preack la gd gs1) s = .next t ∧ s.Wrote gd (exactData x.outcome) la.toNat t)))

/-- R461, R463-R466: the control program saves and loads the context of a parked slot, drains translations, and injects errors;
the event counters are read and cleared. -/
def Obligations.ServiceInstructions : Prop :=
  ∀ (s : State) (la : Look) (gd gs1 gs2 : RegNo) (sel : BitVec 5), s.Readable gs1 → s.Readable gs2 → s.Writable gd →
    (s.value gs1).tag ≠ .bounded → (s.value gs2).tag ≠ .bounded →
    let v := (s.value gs1).data.toNat
    let w := (s.value gs2).data.toNat
    (levelOf s.cur ∈ onCores → sel.toNat ≤ 15 →
      (∃ t : State, exec (.evrd la gd sel) s = .next t ∧
        s.Wrote gd (exactData (look 0 (s.core (coreOf s.cur)).ev sel.toNat)) 0 t) ∧
      ∃ t : State, exec (.evclr la gs1) s = .next t ∧ t.mem = s.mem ∧ (∀ r, t.value r = s.value r) ∧
        ∀ i < 16, i ≠ 7 → look 0 (t.core (coreOf s.cur)).ev i = if bit v i = true then 0 else look 0 (s.core (coreOf s.cur)).ev i) ∧
    (levelOf s.cur = .s →
      (let base := (s.value gs1).data.toNat % 2 ^ 64
       let len := (w / 2 ^ 16 % 2 ^ 14 + 1) * 65536
       w < 2 ^ 30 →
        (base % 65536 ≠ 0 ∨ 2 ^ 56 < base + len → ∃ t : State, exec (.tdrain la gd gs1 gs2) s = .next t ∧ s.Wrote gd (exactData 2) la.toNat t) ∧
        (base % 65536 = 0 → base + len ≤ 2 ^ 56 → s.drains = [] → ∃ t : State, exec (.tdrain la gd gs1 gs2) s = .next t ∧
          ({ s with drains := [⟨0, w % 2 ^ 16, base, len⟩] } : State).Wrote gd (exactData 0) la.toNat t) ∧
        (base % 65536 = 0 → base + len ≤ 2 ^ 56 → (∀ i < 4, ∃ d ∈ s.drains, d.id = i) →
          ∃ t : State, exec (.tdrain la gd gs1 gs2) s = .next t ∧ s.Wrote gd (exactData 1) la.toNat t)) ∧
      (v < 8 → match s.drains.find? fun d => d.id = v % 4 with
        | none => ∃ t : State, exec (.tconfirm la gd gs1) s = .next t ∧ s.Wrote gd (exactData 3) la.toNat t
        | some d => if s.writesLeft d = true then exec (.tconfirm la gd gs1) s = .next { s with waited := true }
          else ∃ t : State, exec (.tconfirm la gd gs1) s = .next t ∧ (gd ≠ 0 → t.value gd = exactData 0) ∧
          (v < 4 → ∀ x ∈ t.drains, x.id ≠ d.id) ∧ (4 ≤ v → t.drains = s.drains) ∧
          ∀ e ∈ t.tlb, e.ctx = d.ctx → meets d.base d.len e.page e.size = false) ∧
      (bits v 31 17 = 0 → v < 2 ^ 48 →
        let k := slotKey (coreAt (v % 2 ^ 7) (v / 2 ^ 7 % 2 ^ 7)) (v / 2 ^ 14 % 4)
        let g := v / 2 ^ 32
        let sl := s.slot k
        (∀ pa u, s.BaseOk gs2 (w % 2 ^ 64) 1152 32 [permW, permSC] → pa + 1152 ≤ hbmEnd → pa % 32 = 0 →
          findParts .write (acqOf (s.value gs2)) (contextParts (w % 2 ^ 64)) s =
            .ok ((List.range 36).map (fun i => (.mem (pa + 32 * i), 32)), u) →
          (∀ i < 36, u.typedAt (.mem (pa + 32 * i)) 32 = false) →
          if u.slotStatus k g ≠ 0 then
            ∃ t : State, exec (.ctxsave la gd gs1 gs2) s = .next t ∧ u.Wrote gd (exactData (u.slotStatus k g)) la.toNat t
          else ∃ t : State, exec (.ctxsave la gd gs1 gs2) s = .next t ∧ (gd ≠ 0 → t.value gd = exactData 0) ∧
            (∀ i < 32, t.num (pa + 32 * i) 16 = ((u.slot k).reg i).data.toNat ∧
              (t.byte (pa + 32 * i + 16)).toNat = ((u.slot k).reg i).tag.code) ∧
            t.num (pa + 1024 + 8) 8 = (u.slot k).pc.toNat ∧ t.num (pa + 1024 + 32) 8 = (u.slot k).tpc.toNat ∧
            ∀ q, q < pa ∨ pa + 1152 ≤ q → t.byte q = s.byte q) ∧
        (∀ pa u, gs2 ≠ 0 → s.BaseOk gs2 (w % 2 ^ 64) 1152 32 [permR] → pa + 1152 ≤ hbmEnd → v / 2 ^ 16 % 2 = 0 → k ≠ s.cur →
          findParts .read (acqOf (s.value gs2)) (contextParts (w % 2 ^ 64)) s =
            .ok ((List.range 36).map (fun i => (.mem (pa + 32 * i), 32)), u) →
          (∀ i < 36, (u.readSpot (.mem (pa + 32 * i)) 32).poison = false) → u.slotStatus k g = 0 →
          ∃ t : State, exec (.ctxload la gd gs1 gs2) s = .next t ∧ (gd ≠ 0 → t.value gd = exactData 0) ∧ (t.slot k).st = (u.slot k).st ∧
            (∀ i, 0 < i → i < 32 → ((t.slot k).reg i).data.toNat = u.num (pa + 32 * i) 16) ∧
            (t.slot k).tpc.toNat = u.num (pa + 1024 + 32) 8 ∧ (t.slot k).pc = (u.slot k).pc) ∧
        (v / 2 ^ 16 % 2 = 1 → s.Readable 0 → s.slotStatus k g = 0 → k ≠ s.cur → ∃ t : State, exec (.ctxload la gd gs1 0) s = .next t ∧
          (t.slot k).st = .running ∧ (t.slot k).pc = sl.tpc ∧ (t.slot k).inh = false ∧ (t.slot k).regs = sl.regs)))

/-- R20, R49, R51, R87, R96, R140, R141, R152, R158, R220, R255, R466: a unit register keeps what its control program writes,
under its mask and its own rule; a write of another source changes nothing; an injected error strikes its place. -/
def Obligations.UnitRegisters : Prop :=
  ∀ (s : State) (src : Writer) (n m : Nat) (v : Word64) (w : BitVec 32),
    (∀ p ∈ ([(.ctxbaseWrite, .ctxbaseWrite src v, fun t => t.ctxbase, 0x00007FFFFFFF0000),
        (.eltabWrite, .eltabWrite src v, fun t => t.eltab, 0x00007FFFFFFFE000),
        (.rtabWrite, .rtabWrite src v, fun t => t.rtab, 0x7777777777777770)] :
        List (Instr × Event × (State → Word64) × Word64)), s.input = p.2.1 →
      if src = .control 0 then ∃ t : State, exec p.1 s = .next t ∧ p.2.2.1 t = v &&& p.2.2.2 ∧ t.mem = s.mem ∧ t.slots = s.slots
      else exec p.1 s = .next s) ∧
    (let ok : Prop := ((List.range 8).map fun c => v.toNat / 2 ^ (8 * c) % 256).sum ≤ 256
     (s.input = .sshareWrite src n v → if src = .control (4 * n) ∧ ok then
        ∃ t : State, exec .sshareWrite s = .next t ∧ look 0 t.sshare n = v else exec .sshareWrite s = .next s) ∧
     (s.input = .hshareWrite src n v → if src = .control (4 * (n / 3)) ∧ ok then
        ∃ t : State, exec .hshareWrite s = .next t ∧ look 0 t.hshare n = v else exec .hshareWrite s = .next s) ∧
     (s.input = .fshareWrite src n v → n < 32 → src = .control (portRegion n) →
        if ok then ∃ t : State, exec .fshareWrite s = .next t ∧ (t.port n).fshare = v
        else ∃ t : State, exec .fshareWrite s = .next t ∧ t.ports = s.ports ∧
          (look ({} : Source) t.sources (0x2000 + n)).next = ((look ({} : Source) s.sources (0x2000 + n)).next + 1) % 2 ^ 16)) ∧
    (s.input = .nrctlWrite src n w → if src ≠ .other then
        ∃ t : State, exec .nrctlWrite s = .next t ∧ (t.region n).nrctl.toNat % 2 ^ 16 = w.toNat % 2 ^ 16 ∧
          bits (t.region n).nrctl.toNat 20 20 = bits w.toNat 20 20 ∧ bits (t.region n).nrctl.toNat 19 16 = bits (s.region n).nrctl.toNat 19 16
      else exec .nrctlWrite s = .next s) ∧
    (s.input = .mqctlWrite src n w → if src ≠ .other then
        ∃ t : State, exec .mqctlWrite s = .next t ∧ (t.core n).mqwt = w.toNat % 16 ∧ (t.core n).muq = (s.core n).muq
      else exec .mqctlWrite s = .next s) ∧
    (s.input = .hlinWrite src n w → if src = .control 0 ∧ s.phase = .stepping 10 then
        ∃ t : State, exec .hlinWrite s = .next t ∧ look 0 t.hlin n = w &&& 0x3F else exec .hlinWrite s = .next s) ∧
    (s.input = .xctlWrite src n m w → if src = .control (regionOf (clusterCore n 0)) then
        ∃ t : State, exec .xctlWrite s = .next t ∧ (t.array n m).xctl = w &&& 0x1FFFF else exec .xctlWrite s = .next s) ∧
    (∀ en, s.input = .fpctlEn src n en → if src = .control (portRegion n) then
        ∃ t : State, exec .fpctlEn s = .next t ∧ (t.port n).fpctl.getLsbD 0 = en ∧
          (en = true → bits (s.port n).fpctl.toNat 3 2 = 0 ∨ bits (s.port n).fpctl.toNat 3 2 = 3 → bits (t.port n).fpctl.toNat 3 2 = 1) ∧
          (en = false → (s.port n).replay ≠ [] → (t.port n).finishing = true)
      else exec .fpctlEn s = .next s) ∧
    (s.input = .fpctlDown src n → if src = .control (portRegion n) then
        ∃ t : State, exec .fpctlDown s = .next t ∧ bits (t.port n).fpctl.toNat 3 2 = 0 ∧ (t.port n).fpctl.getLsbD 1 = true
      else exec .fpctlDown s = .next s) ∧
    (∀ (x : Word128), s.input = .registerWrite src 8 8 x → if src = .control 0 then ∃ t : State, exec .registerWrite s = .next t ∧
        t.ctxbase = x.setWidth 64 &&& 0x00007FFFFFFF0000 else exec .registerWrite s = .next s) ∧
    (∀ (la : Look) (gd gs1 : RegNo), levelOf s.cur = .s → s.Readable gs1 → s.Writable gd → (s.value gs1).tag ≠ .bounded →
      let x := (s.value gs1).data.toNat
      let pa := x % 2 ^ 47
      let b := x / 2 ^ 47 % 2 ^ 8
      let at_ : Store := if (look ({} : Line) s.lines (pa / 128)).valid.getLsbD (pa / 32 % 4) = true then .slice (pa / 32 * 32)
        else .memory (pa / 32 * 32)
      x < 2 ^ 63 → pa < hbmEnd → (∀ f ∈ s.flips, f.at_ ≠ at_) →
        (∃ t : State, exec (.finject la gd gs1 0) s = .next t ∧ (gd ≠ 0 → t.value gd = exactData 0) ∧
          ⟨at_, 1, [b]⟩ ∈ t.flips ∧ t.mem = s.mem) ∧
        (∃ t : State, exec (.finject la gd gs1 2) s = .next t ∧ (gd ≠ 0 → t.value gd = exactData 0) ∧ (t.granule pa).poison = true))

/-! ## The vector engine (spec/13_engines.md R263, R264, spec/20_isa_engines.md R427-R431, R443) -/

/-- R414, R427-R431, R443: a vector instruction puts its command, with the format, the mode and the rows that it finds at its
issue, at the end of its core's queue, and changes no register and no byte; a reduction leaves its destination outstanding. -/
def Obligations.VectorCommandsQueue : Prop :=
  ∀ (s : State) (la : Look) (gd gs1 gs2 : RegNo) (sat : BitVec 1) (fmt : BitVec 4), levelOf s.cur ∈ onCores →
    let c := coreOf s.cur
    let cfg := s.here.vcfg.toNat
    let rows := cfg / 2 ^ 8 % 2 ^ 8 + 1
    let f := (Fmt.ofCode (cfg % 16)).getD .fp32
    let off (r : RegNo) : Nat := (s.value r).data.toNat
    let row (r : RegNo) : Prop := s.Readable r ∧ (s.value r).tag ≠ .bounded ∧ off r < 2 ^ 18 ∧ off r % 128 = 0 ∧
      s.inScratch c (off r) (rows * 128) = true
    let issued (t : State) (v : VecCmd) : Prop := (t.core c).vq = (s.core c).vq ++ [v] ∧ v.fmt = f ∧ v.rows = rows ∧
      v.rmode = s.here.rmode ∧ v.sat = bit cfg 4 ∧ v.slot = s.cur ∧ v.car = none ∧ v.pc = s.here.pc.toNat ∧
      .vectorCommand c ∈ t.agenda ∧ (∀ r, t.value r = s.value r) ∧ t.here.pc = s.here.pc + 4 ∧ t.mem = s.mem
    (s.core c).vq.length < 8 →
    (∀ p ∈ [(Instr.vadd la gd gs1 gs2, VecOp.add), (.vsub la gd gs1 gs2, .sub), (.vmul la gd gs1 gs2, .mul), (.vfma la gd gs1 gs2, .fma),
        (.vmax la gd gs1 gs2, .max), (.vmin la gd gs1 gs2, .min), (.vsel la gd gs1 gs2, .sel), (.vcmplt la gd gs1 gs2, .cmplt),
        (.vand la gd gs1 gs2, .and), (.vor la gd gs1 gs2, .or), (.vxor la gd gs1 gs2, .xor)],
      row gd → row gs1 → row gs2 → (p.2 = .fma → f.isFloat = true) →
        ∃ (t : State) (v : VecCmd), exec p.1 s = .next t ∧ issued t v ∧ v.op = p.2 ∧ v.d = off gd ∧ v.a = off gs1 ∧ v.b = off gs2) ∧
    (∀ p ∈ [(Instr.vabs la gd gs1, VecOp.abs), (.vneg la gd gs1, .neg), (.vexp la gd gs1, .exp), (.vrcp la gd gs1, .rcp),
        (.vrsqrt la gd gs1, .rsqrt), (.vmov la gd gs1, .mov)],
      row gd → row gs1 → (p.2 = .exp ∨ p.2 = .rcp ∨ p.2 = .rsqrt → f.isFloat = true) →
        ∃ (t : State) (v : VecCmd), exec p.1 s = .next t ∧ issued t v ∧ v.op = p.2 ∧ v.d = off gd ∧ v.a = off gs1) ∧
    (fmt.toNat ≤ 6 → row gs1 → s.Readable gd → (s.value gd).tag ≠ .bounded → off gd < 2 ^ 18 → off gd % 128 = 0 →
      let dst := (Fmt.ofCode fmt.toNat).getD .fp32
      s.inScratch c (off gd) ((rows * (128 / f.bytes) * dst.bytes + 127) / 128 * 128) = true →
        ∃ (t : State) (v : VecCmd), exec (.vcvt la gd gs1 sat fmt) s = .next t ∧ issued t v ∧ v.op = .cvt dst (sat = 1) ∧ v.d = off gd ∧ v.a = off gs1) ∧
    (∀ p ∈ [(Instr.vadds la gd gs1 gs2, VecOp.adds), (.vmuls la gd gs1 gs2, .muls)], row gd → row gs1 → s.Readable gs2 →
      ∃ (t : State) (v : VecCmd), exec p.1 s = .next t ∧ issued t v ∧ v.op = p.2 ∧ v.d = off gd ∧ v.a = off gs1 ∧ v.scalar = s.value gs2) ∧
    (row gd → s.Readable gs2 → ∃ (t : State) (v : VecCmd), exec (.vfill la gd gs2) s = .next t ∧ issued t v ∧ v.op = .fill ∧ v.d = off gd ∧
      v.scalar = s.value gs2) ∧
    (∀ p ∈ [(Instr.vsum la gd gs1, VecOp.sum), (.vmaxr la gd gs1, .maxr), (.vargmax la gd gs1, .argmax)], s.Writable gd → gd ≠ 0 →
      row gs1 → ∃ (t : State) (v : VecCmd), exec p.1 s = .next t ∧ issued t v ∧ v.op = p.2 ∧ v.a = off gs1 ∧ v.gd = gd.toNat ∧
        t.outstanding s.cur gd.toNat = true) ∧
    (s.Readable gd → s.Readable gs1 → (s.value gd).tag ≠ .bounded → (s.value gs1).tag ≠ .bounded → off gs1 < 2 ^ 18 → off gs1 % 32 = 0 →
      let len := off gd % 2 ^ 64
      len % 32 = 0 → s.inScratch c (off gs1) len = true →
        ∃ (t : State) (v : VecCmd), exec (.acceptSp la gd gs1) s = .next t ∧ (t.core c).vq = (s.core c).vq ++ [v] ∧ v.op = .acceptSp ∧ v.d = off gs1 ∧
          v.len = len ∧ t.here.pc = s.here.pc + 4 ∧ t.mem = s.mem) ∧
    (s.Readable gs1 → s.Writable gd →
      (∃ (t : State) (u : _), exec (.accept la gd gs1) s = .next t ∧ u = (if (s.value gs1).tag = .bounded then s.count c 4 1 else s) ∧
        u.Wrote gd (if (s.value gs1).tag = .bounded then { s.value gs1 with tag := .exact } else s.value gs1) 0 t) ∧
      ((s.value gs1).tag ≠ .bounded → off gs1 % 16 ≤ 6 → ∃ t : State, exec (.vsetcfg la gd gs1) s = .next t ∧
        (s.onHere fun sl => { sl with vcfg := BitVec.ofNat 32 (off gs1 % 32 + off gs1 / 2 ^ 8 % 2 ^ 8 * 2 ^ 8) }).Wrote gd
          (exactData cfg) la.toNat t))

/-- R429-R431, R303, R306: the vector command at the head of its queue, once nothing issued before it claims its rows, writes each
result element, marks the granules that a bounded element reached, and leaves the queue; a reduction writes its register. -/
def Obligations.VectorCommandsRun : Prop :=
  ∀ (s : State) (c : Nat) (v : VecCmd) (rest : List VecCmd), s.input = .vectorCommand c → (s.core c).vq = v :: rest →
    s.flips = [] → s.mayTouch c v.seq v.reads v.writes = true → v.car = none → v.door = false →
    s.poisonedRead c (if v.op = .acceptSp then [] else v.reads) = none →
    let n := v.rows * (128 / v.fmt.bytes)
    let at_ (t : State) (f : Fmt) (off e : Nat) : Nat := t.num (windowPA c (off + e * f.bytes)) f.bytes
    let src (off e : Nat) : Nat := at_ s v.fmt off e
    let x (off e : Nat) : Value := v.fmt.value (src off e)
    let r (e : Nat) : Rounded := v.element (src v.d e) (src v.a e) (src v.b e)
    (v.op ∉ [VecOp.sum, .maxr, .argmax, .acceptSp] → v.d % 32 = 0 → v.d + v.dstBytes ≤ 0x30000 →
      ∃ t : State, exec .vectorCommand s = .next t ∧ (t.core c).vq = rest ∧
        (∀ e < n, at_ t v.outFmt v.d e = (r e).code % 2 ^ (8 * v.outFmt.bytes)) ∧
        (∀ q, q < windowPA c v.d ∨ windowPA c v.d + v.dstBytes ≤ q → t.byte q = s.byte q) ∧ t.slots = s.slots) ∧
    (∀ e, (v.op = .add → r e = v.round [x v.a e, x v.b e] ((x v.a e).add v.rmode (x v.b e))) ∧
      (v.op = .sub → r e = v.round [x v.a e, x v.b e] ((x v.a e).add v.rmode (x v.b e).negate)) ∧
      (v.op = .mul → r e = v.round [x v.a e, x v.b e] ((x v.a e).mul (x v.b e))) ∧
      (v.op = .fma → r e = v.round [x v.a e, x v.b e, x v.d e] (((x v.a e).mul (x v.b e)).add v.rmode (x v.d e))) ∧
      (v.op = .mov → (r e).code = src v.a e) ∧ (v.op = .sel → (r e).code = if src v.d e ≠ 0 then src v.a e else src v.b e) ∧
      (v.op = .and → (r e).code = src v.a e &&& src v.b e) ∧ (v.op = .or → (r e).code = src v.a e ||| src v.b e) ∧
      (v.op = .xor → (r e).code = src v.a e ^^^ src v.b e)) ∧
    (v.op ∈ [VecOp.sum, .maxr, .argmax] → 0 < v.gd → v.gd < 32 →
      ∃ t : State, exec .vectorCommand s = .next t ∧ (t.core c).vq = rest ∧ t.mem = s.mem ∧
        (t.slot v.slot).reg v.gd = ⟨BitVec.ofNat 128 (v.reduce ((List.range n).map (src v.a))).code,
          if s.anyGranule (windowPA c v.a) (v.rows * 128) (·.bnd) then .bounded else .exact⟩) ∧
    (v.op = .acceptSp → v.d % 32 = 0 → v.len % 32 = 0 → ∃ t : State, exec .vectorCommand s = .next t ∧ (t.core c).vq = rest ∧ t.mem = s.mem ∧
      ∀ q, windowPA c v.d ≤ q → q < windowPA c v.d + v.len → (t.granule q).bnd = false)

/-- R263, R416: a write to a doorbell issues the command that its shadow images describe, in the same queue, or is refused; the
operands of the vector, copy and matrix doorbells stand in their images. R256, R261, R263, R425: a drain whose writes are done
leaves its queue and sends its closing message where it names a class; a descriptor takes a window write only where the carousel
is idle and the new values are allowed. -/
def Obligations.DoorbellsAndDrains : Prop :=
  (
    ∀ (s : State) (c : Nat) (v : Word64), c < 16384 →
      (s.input = .vectorDoorbell c v → v.toNat % 64 = 0x30 → (s.core c).vq.length < 8 →
        let d := s.capAt (windowPA c 0x32200) true
        let io := s.doorIssuer c
        d.tag ≠ .bounded → d.data.toNat < 2 ^ 18 → d.data.toNat % 128 = 0 →
        s.inScratch c d.data.toNat ((io.vcfg / 2 ^ 8 % 2 ^ 8 + 1) * 128) = true →
        ∃ (t : State) (q : VecCmd), exec .vectorDoorbell s = .next t ∧ (t.core c).vq = (s.core c).vq ++ [q] ∧ q.op = .fill ∧ q.door = true ∧
          q.d = d.data.toNat ∧ q.scalar = s.capAt (windowPA c 0x32260) true ∧ t.mem = s.mem) ∧
      (s.input = .vectorDoorbell c v → v.toNat % 64 = 0x3F → exec .vectorDoorbell s =
        .next (s.onCore c fun k => { k with vecStatus := k.vecStatus ||| 0x10000 })) ∧
      (s.input = .muDoorbell c v → v.toNat % 64 = 0x3F → exec .muDoorbell s =
        .next (s.onCore c fun k => { k with muStatus := k.muStatus ||| 0x10000 })) ∧
      (s.input = .copyDoorbell c v → v.toNat % 64 = 0x3F → exec .copyDoorbell s =
        .next (s.onCore c fun k => { k with copyStatus := k.copyStatus ||| 0x10000 }))) ∧
  (
    ∀ (s : State) (c i : Nat) (m : MuCmd) (rest : List MuCmd) (d : Drain) (v : BitVec 256),
      (s.input = .drainClose c → (s.core c).muq = m :: rest → m.op = .drain d → m.closing = true → m.door = false →
        ∃ t : State, exec .drainClose s = .next t ∧ (t.core c).muq = rest ∧ t.mem = s.mem ∧
          (d.cls ≠ 0 → ∀ target, s.gridCore m.grid d.x d.y = some target → ∃ q, .messageArrival target q ∈ t.coming ∧ q.kind = 3 ∧
            q.cls = d.cls ∧ q.prio = m.prio ∧ q.args = [⟨d.tag, .exact⟩])) ∧
      (s.input = .carouselDescriptorWrite c i v →
        let k := s.carousel c i
        let base := v.toNat % 2 ^ 32
        let size := v.toNat / 2 ^ 32 % 2 ^ 8
        let cnt := v.toNat / 2 ^ 40 % 2 ^ 8
        if k.rsv = 0 ∧ s.carouselOk c base size cnt = true then
          ∃ t : State, exec .carouselDescriptorWrite s = .next t ∧ t.carousel c i = { k with base := base, size := size, cnt := cnt } ∧
            t.mem = s.mem
        else exec .carouselDescriptorWrite s = .next s) ∧
      (∀ w : Word64, s.input = .muDoorbell c w → w.toNat % 64 = 6 → c < 16384 → (s.core c).muq.length < 8 →
        let n := (s.capAt (windowPA c 0x32000) true).data.toNat % 32
        n ≤ 1 → ∃ (t : State) (q : MuCmd), exec .muDoorbell s = .next t ∧ (t.core c).muq = (s.core c).muq ++ [q] ∧ q.op = .zero ∧ q.acc = n ∧ q.door = true))

/-! ## The matrix unit and the carousels (spec/13_engines.md R252-R262, spec/20_isa_engines.md R417-R426) -/

/-- R256, R417-R419, R422, R426: the carousel instructions change or read their descriptor at issue, `mrload` writes the
recurrence buffer, and `ewait` waits for the commands of the queues that it names. -/
def Obligations.CarouselInstructions : Prop :=
  ∀ (s : State) (la : Look) (gd gs1 : RegNo) (n sel : BitVec 3), levelOf s.cur ∈ onCores →
    let c := coreOf s.cur
    let k := s.carousel c n.toNat
    let w := (s.value gs1).data.toNat
    (s.Readable gs1 → (s.value gs1).tag ≠ .bounded → w / 2 ^ 48 % 2 ^ 16 = 0 →
      (k.rsv ≠ 0 → exec (.cvset la gs1 n) s = .next { s with waited := true }) ∧
      (k.rsv = 0 →
        let base := w % 2 ^ 32
        let size := w / 2 ^ 32 % 2 ^ 8
        let cnt := w / 2 ^ 40 % 2 ^ 8
        if base % 128 = 0 ∧ 1 ≤ cnt ∧ cnt ≤ 64 ∧ 1 ≤ size ∧ size ≤ 128 ∧
            (s.codeEnd c ≤ base ∧ base + 128 * size * cnt ≤ s.spadEnd c ∨ 0x40000 ≤ base ∧ base + 128 * size * cnt ≤ 0x48000) then
          ∃ t : State, exec (.cvset la gs1 n) s = .next t ∧ t.carousel c n.toNat = { base := base, size := size, cnt := cnt } ∧
            (∀ r, t.value r = s.value r) ∧ t.here.pc = s.here.pc + 4 ∧ t.mem = s.mem
        else exec (.cvset la gs1 n) s = .next (s.takeTrap { cause := .carousel, addr := 0x31000 + 32 * n.toNat } la.toNat))) ∧
    (s.Readable gs1 → (s.value gs1).tag ≠ .bounded → ∃ t : State, exec (.mrload la gs1) s = .next t ∧
      (t.core c).recbuf = (s.value gs1).data.setWidth 32 ∧ (∀ r, t.value r = s.value r) ∧ t.here.pc = s.here.pc + 4) ∧
    (s.here.since = none → k.claimed = 0 → k.full < k.cnt → ∃ t : State, exec (.cvpush la n) s = .next t ∧
      t.carousel c n.toNat = { k with tail := (k.tail + 1) % 2 ^ 32 } ∧ (∀ r, t.value r = s.value r) ∧ t.here.pc = s.here.pc + 4 ∧
      t.mem = s.mem) ∧
    (s.Writable gd → ∃ t : State, exec (.cvquery la gd n) s = .next t ∧ s.Wrote gd
      ⟨BitVec.ofNat 128 ((k.tail + 2 ^ 32 - k.head % 2 ^ 32) % 2 ^ 32 + k.head * 2 ^ 32 + k.tail * 2 ^ 64 + k.rsv * 2 ^ 96), .exact⟩
      la.toNat t) ∧
    (s.Writable gd → s.here.since = none →
      let mask := if sel = 0 then 7 else sel.toNat
      let busy : Prop := bit mask 0 = true ∧ (∃ m ∈ (s.core c).muq, m.seq < s.fresh) ∨ bit mask 1 = true ∧ (∃ v ∈ (s.core c).vq, v.seq < s.fresh) ∨
        bit mask 2 = true ∧ ∃ q ∈ (s.core c).cq, q.seq < s.fresh ∧ q.stopped = false ∧ q.foot = none
      (¬busy → ∃ t : State, exec (.ewait la gd sel) s = .next t ∧ t.here.pc = s.here.pc + 4 ∧ t.mem = s.mem ∧
        (gd ≠ 0 → (t.value gd = exactData 1 ↔ bit mask 2 = true ∧ ∃ q ∈ (s.core c).cq, q.stopped = true ∧ q.seq < s.fresh) ∧
          (t.value gd = exactData 0 ∨ t.value gd = exactData 1))) ∧
      (busy → exec (.ewait la gd sel) s = .next { (s.onHere fun sl => { sl with since := some s.fresh }) with waited := true }))

/-- R254, R298, R420-R425, R443: a matrix-unit instruction puts its command, with the slots that it takes from its carousels and
the mode that it finds at its issue, at the end of its core's queue, and changes no register and no byte. -/
def Obligations.MatrixCommandsQueue : Prop :=
  ∀ (s : State) (la : Look) (acc clr : BitVec 1) (fmt : BitVec 4) (ca cb km1 : BitVec 3) (gs1 gs2 gs3 : RegNo),
    levelOf s.cur ∈ onCores → (s.core (coreOf s.cur)).muq.length < 8 →
    let c := coreOf s.cur
    let queued (t : State) (m : MuCmd) : Prop := (t.core c).muq = (s.core c).muq ++ [m] ∧ m.acc = acc.toNat ∧
      m.rmode = s.here.rmode ∧ m.prio = s.here.prio ∧ m.slot = s.cur ∧ m.done = 0 ∧ m.door = false ∧
      (∀ r, t.value r = s.value r) ∧ t.here.pc = s.here.pc + 4 ∧ t.mem = s.mem
    let big (i : BitVec 3) (bytes : Nat) : Prop := (s.carousel c i.toNat).cnt ≠ 0 ∧ bytes ≤ (s.carousel c i.toNat).size * 128
    let slot (i : BitVec 3) (j : Nat) : Nat := let k := s.carousel c i.toNat
      k.base + (k.head + k.rsv + j) % 2 ^ 32 % k.cnt * (k.size * 128)
    let second := if ca = cb then 1 else 0
    let tiles (t : State) : Prop := (t.carousel c ca.toNat).rsv = (s.carousel c ca.toNat).rsv + 1 + second ∧
      (t.carousel c cb.toNat).rsv = (s.carousel c cb.toNat).rsv + 1 + second
    (s.Readable gs3 →
      (∀ p ∈ ([(.mmaE4e4 acc ca cb gs3, .float .e4m3 .e4m3, 4096, 4096), (.mmaE4e5 acc ca cb gs3, .float .e4m3 .e5m2, 4096, 4096),
          (.mmaE5e4 acc ca cb gs3, .float .e5m2 .e4m3, 4096, 4096), (.mmaE5e5 acc ca cb gs3, .float .e5m2 .e5m2, 4096, 4096),
          (.mmaH acc ca cb gs3, .float .fp16 .fp16, 8192, 8192), (.mmaB acc ca cb gs3, .float .bf16 .bf16, 8192, 8192),
          (.mmaS acc ca cb gs3, .float .fp32 .fp32, 16384, 16384), (.mmaI8 acc ca cb gs3, .int8, 4096, 4096)] :
          List (Instr × MmaForm × Nat × Nat)),
        big ca p.2.2.1 → big cb p.2.2.2 → ∃ (t : State) (m : MuCmd), exec p.1 s = .next t ∧ queued t m ∧ tiles t ∧
          m.op = .mma p.2.1 ca.toNat cb.toNat (slot ca 0) (slot cb second)
            (if gs3 = 0 then ⟨0x3F8000003F800000, .exact⟩ else s.value gs3)) ∧
      (km1 ≠ 0 → big ca (512 * (km1.toNat + 1)) → big cb 4096 → ∃ (t : State) (m : MuCmd), exec (.mmaNi acc km1 ca cb gs3) s = .next t ∧ queued t m ∧
        tiles t ∧ m.op = .mma (.ni (km1.toNat + 1)) ca.toNat cb.toNat (slot ca 0) (slot cb second)
          (if gs3 = 0 then ⟨0x3F8000003F800000, .exact⟩ else s.value gs3))) ∧
    (∀ f : Fmt, fmt.toNat ≤ 5 → Fmt.ofCode fmt.toNat = some f → recProgram (s.core c).recbuf ≠ none → big ca (4096 * f.bytes) →
      big cb (4096 * f.bytes) → ∃ (t : State) (m : MuCmd), exec (.mrec la acc fmt ca cb) s = .next t ∧ queued t m ∧ tiles t ∧
        m.op = .mrec f (s.core c).recbuf ca.toNat cb.toNat (slot ca 0) (slot cb second)) ∧
    (∃ (t : State) (m : MuCmd), exec (.mzero la acc) s = .next t ∧ queued t m ∧ m.op = .zero ∧ m.steps = 1) ∧
    (∃ (t : State) (m : MuCmd), exec (.acceptAcc la acc) s = .next t ∧ queued t m ∧ m.op = .accept ∧ m.steps = 1) ∧
    (∀ f : Fmt, levelOf s.cur ∈ inGrids → s.Readable gs1 → s.Readable gs2 → (s.value gs1).tag ≠ .bounded →
      (s.value gs2).tag ≠ .bounded →
      let w := (s.value gs1).data.toNat
      let off := w / 2 ^ 32 % 2 ^ 18
      w < 2 ^ 60 → off % 32 = 0 → Fmt.ofCode (w / 2 ^ 50 % 2 ^ 4) = some f → (bit w 59 = true → f.isFP8 = true) →
      (s.gridCore ((s.gridOf s.cur).getD 0xFFFF) (w % 2 ^ 16) (w / 2 ^ 16 % 2 ^ 16)).isSome = true →
      ∃ (t : State) (m : MuCmd), exec (.mdrain la acc clr gs1 gs2) s = .next t ∧ queued t m ∧ m.op = .drain ⟨w % 2 ^ 16, w / 2 ^ 16 % 2 ^ 16, off, f,
        w / 2 ^ 54 % 2 ^ 4, bit w 58, bit w 59, (s.value gs2).data, clr = 1⟩)

/-- R252-R262, R298-R302: a matrix unit that runs no step grants one to the queue whose turn it is; a granted step does the work of the command at the head of its queue; the products of
INT8 tiles are summed exactly and saturate once; a drain writes its tile and closes with its message. -/
def Obligations.MatrixCommandsRun : Prop :=
  ∀ (s : State) (cl unit c : Nat) (m : MuCmd) (rest : List MuCmd), s.input = .muStep cl unit → s.flips = [] →
    let turn (t : State) : Nat × Nat := if unit = 0 then (t.cluster cl).muTurn0 else (t.cluster cl).muTurn1
    let run (t : State) : Bool := if unit = 0 then (t.cluster cl).muRun0 else (t.cluster cl).muRun1
    (run s = false → ∀ next, s.muTurn cl unit (turn s) = some next → ∃ t : State, exec .muStep s = .next t ∧ turn t = next ∧
      run t = true ∧ t.mem = s.mem ∧ t.cores = s.cores ∧ t.slots = s.slots) ∧
    (run s = true → c = muCore cl unit (turn s).1 → (s.core c).muq = m :: rest → m.steps = 1 → m.done = 0 → m.door = false → m.acc < 2 → s.poisonedRead c m.consumed = none →
    let acc (t : State) (e : Nat) : Nat := t.num (windowPA c (0x40000 + 0x4000 * m.acc + 4 * e)) 4
    (m.op = .zero → ∃ t : State, exec .muStep s = .next t ∧ (t.core c).muq = rest ∧ (∀ e < 4096, acc t e = 0) ∧
      look false (t.core c).accMark m.acc = false ∧ look 0 (t.core c).accScale m.acc = 0x3F800000#32) ∧
    (m.op = .accept → ∃ t : State, exec .muStep s = .next t ∧ (t.core c).muq = rest ∧ t.mem = s.mem ∧
      look false (t.core c).accMark m.acc = false) ∧
    (∀ ca cb a b scale, m.op = .mma .int8 ca cb a b scale → scale.tag ≠ .bounded → bit scale.data.toNat 96 = false →
      (let x (row k : Nat) : Int := (BitVec.ofNat 8 (s.num (windowPA c (a + (64 * row + k))) 1)).toInt
       let y (k col : Nat) : Int := (BitVec.ofNat 8 (s.num (windowPA c (b + (64 * k + col))) 1)).toInt
       let sum (e : Nat) : Int := (BitVec.ofNat 32 (acc s e)).toInt + ((List.range 64).map fun k => x (e / 64) k * y k (e % 64)).sum
       ∃ t : State, exec .muStep s = .next t ∧ (t.core c).muq = rest ∧
        (∀ e < 4096, (BitVec.ofNat 32 (acc t e)).toInt = max (-2 ^ 31) (min (2 ^ 31 - 1) (sum e))) ∧
        (t.carousel c ca).head = ((s.carousel c ca).head + (if ca = cb then 2 else 1)) % 2 ^ 32)) ∧
    (∀ d target, m.op = .drain d → d.clear = false → s.gridCore m.grid d.x d.y = some target →
      s.inScratch target d.off d.bytes = true → d.off % 32 = 0 → .drainClose c ∉ s.agenda → (∀ k, d.fmt ≠ .ni k) →
      ∃ t : State, exec .muStep s = .next t ∧ .drainClose c ∈ t.agenda ∧ (t.core c).muq = { m with done := 1, closing := true } :: rest ∧
        ∀ e < 4096, t.num (windowPA target (d.off + e * d.fmt.bytes)) d.fmt.bytes =
          (((s.drainElems c m.acc m.rmode d).getD e ⟨0, {}⟩).code) % 2 ^ (8 * d.fmt.bytes)))

/-! ## The copy engine, the crossbar arrays and the bank units (spec/13_engines.md R265-R268, spec/20_isa_engines.md R432-R442,
spec/11_crossbar_arrays.md, spec/10_bank_units.md R199-R205) -/

/-- R432-R437: a copy instruction puts its command, as its words describe it, at the end of its core's queue, counts the bytes
that it will write for its barrier, and changes no register and no byte; a copy may go to a carousel or to a bound stream
register. -/
def Obligations.CopyCommandsQueue : Prop :=
  ∀ (s : State) (la : Look) (gs1 gs2 : RegNo) (n : BitVec 2), levelOf s.cur ∈ onCores →
    let c := coreOf s.cur
    let g (i : Nat) : Reg := s.value (gs1 + BitVec.ofNat 5 i)
    let w := (g 2).data.toNat
    let rs := w / 2 ^ 40 % 2 ^ 40
    let es := w / 2 ^ 85 % 2 ^ 3
    let rb := (g 4).data.toNat % 2 ^ 24
    let nr := (g 4).data.toNat / 2 ^ 24 % 2 ^ 24
    let ss := (g 4).data.toNat / 2 ^ 48 % 2 ^ 40
    let ds := (g 4).data.toNat / 2 ^ 88
    let covers (r : Reg) (m p : Nat) : Prop := r.tag = .cap ∧ inBounds r.data (capAddr r.data) m = true ∧
      hasPerm r.data p = true ∧ (isFabric (capAddr r.data) = true → hasPerm r.data permG = true)
    let may (r : Reg) (p : Nat) : Prop := r.tag = .cap ∧ hasPerm r.data p = true ∧
      (isFabric (capAddr r.data) = true → hasPerm r.data permG = true)
    let named (r : Reg) (p : Nat) : Prop := r = {} ∨ covers r 32 p ∧ capAddr r.data % 32 = 0
    let room : Prop := ((s.core c).cq.filter fun q => !q.stopped).length < 4 ∧ ∀ q ∈ (s.core c).cq, q.stopped = false
    let exact (first m : Nat) : Prop := ∀ i, first ≤ i → i < m → s.Readable (gs1 + BitVec.ofNat 5 i) ∧ (g i).tag ≠ .bounded
    let queued (t : State) (q : CopyCmd) (op : CopyOp) (total bytes : Nat) : Prop :=
      (t.core c).cq = (s.core c).cq ++ [q] ∧ q.op = op ∧ q.total = total ∧ q.pos = rs ∧ q.src = g 1 ∧ q.slot = s.cur ∧
      q.prio = s.here.prio ∧ q.record = (if g 3 = {} then 0 else capAddr (g 3).data) ∧ q.stopped = false ∧
      q.barrier = (if s.value gs2 = {} then none else some (capAddr (s.value gs2).data)) ∧
      (let count := if 2 ^ 30 < bytes then 1 else bytes
       s.value gs2 ≠ {} → q.counted = count ∧ (count ≠ 0 → ∃ r, .bpendadd r ∈ t.coming ∧ r.va = capAddr (s.value gs2).data ∧
        r.n = (count : Int))) ∧
      (∀ r, t.value r = s.value r) ∧ t.here.pc = s.here.pc + 4 ∧ t.mem = s.mem
    (s.Readable gs2 → (s.value gs2).tag ≠ .bounded → named (g 3) permW → named (s.value gs2) permOBJ → room →
      (w / 2 ^ 88 = 0 → w / 2 ^ 80 % 2 ^ 2 = 0 → exact 0 4 → covers (g 0) (w % 2 ^ 40) permW → covers (g 1) (w % 2 ^ 40) permR → rs ≤ w % 2 ^ 40 →
        ∃ (t : State) (q : CopyCmd), exec (.copy la gs1 gs2) s = .next t ∧ queued t q .copy (w % 2 ^ 40) (w % 2 ^ 40 - rs) ∧ q.dst = g 0 ∧
          q.car = none ∧ q.stream = none ∧ .copyChunk (clusterOf c) ∈ t.agenda) ∧
      (w / 2 ^ 88 = 0 → w / 2 ^ 80 % 2 ^ 2 = 0 → exact 0 1 → exact 2 4 → s.Readable (gs1 + 1) → covers (g 0) (w % 2 ^ 40) permW → rs ≤ w % 2 ^ 40 →
        ∃ (t : State) (q : CopyCmd), exec (.fill la gs1 gs2) s = .next t ∧ queued t q .fill (w % 2 ^ 40) (w % 2 ^ 40 - rs) ∧ q.dst = g 0 ∧
          .copyChunk (clusterOf c) ∈ t.agenda) ∧
      (w / 2 ^ 88 = 0 → w / 2 ^ 80 % 2 ^ 2 = 0 → w % 2 ^ 40 = 0 → exact 0 5 → rb ≠ 0 → nr ≠ 0 → covers (g 0) ((nr - 1) * ds + rb) permW →
        covers (g 1) ((nr - 1) * ss + rb) permR → rs ≤ rb * nr →
        ∃ (t : State) (q : CopyCmd), exec (.copy2d la gs1 gs2) s = .next t ∧ queued t q .copy2d (rb * nr) (rb * nr - rs) ∧ q.dst = g 0 ∧
          q.rb = rb ∧ q.nr = nr ∧ q.ss = ss ∧ q.ds = ds ∧ .copyChunk (clusterOf c) ∈ t.agenda) ∧
      (w / 2 ^ 88 = 0 → w / 2 ^ 80 % 2 ^ 2 = 0 → es ≤ 4 → exact 0 5 → covers (g 4) (4 * (w % 2 ^ 40)) permR → rs ≤ w % 2 ^ 40 →
        (covers (g 0) (w % 2 ^ 40 * 2 ^ es) permW → may (g 1) permR →
          ∃ (t : State) (q : CopyCmd), exec (.gather la gs1 gs2) s = .next t ∧ queued t q .gather (w % 2 ^ 40) ((w % 2 ^ 40 - rs) * 2 ^ es) ∧
            q.dst = g 0 ∧ q.es = es ∧ q.idx = g 4 ∧ .copyChunk (clusterOf c) ∈ t.agenda) ∧
        (may (g 0) permW → covers (g 1) (w % 2 ^ 40 * 2 ^ es) permR →
          ∃ (t : State) (q : CopyCmd), exec (.scatter la gs1 gs2) s = .next t ∧ queued t q .scatter (w % 2 ^ 40) ((w % 2 ^ 40 - rs) * 2 ^ es) ∧
            q.dst = g 0 ∧ q.es = es ∧ q.idx = g 4 ∧ .copyChunk (clusterOf c) ∈ t.agenda)) ∧
      (s.value gs2 = {} → exact 1 4 → covers (g 1) (w % 2 ^ 40) permR → rs ≤ w % 2 ^ 40 → w / 2 ^ 88 = 0 →
        let di := w / 2 ^ 82 % 2 ^ 3
        let k := s.carousel c di
        (w / 2 ^ 80 % 2 ^ 2 = 1 → k.cnt ≠ 0 → w % 2 ^ 40 ≤ k.size * 128 →
          ∃ (t : State) (q : CopyCmd), exec (.copy la gs1 gs2) s = .next t ∧ queued t q .copy (w % 2 ^ 40) (w % 2 ^ 40 - rs) ∧ q.car = some di ∧
            q.carOff = k.base + (k.tail + k.claimed) % 2 ^ 32 % k.cnt * (k.size * 128) ∧ .copyChunk (clusterOf c) ∈ t.agenda ∧
            (t.carousel c di).claimed = k.claimed + 1) ∧
        (w / 2 ^ 80 % 2 ^ 2 = 2 → di ≤ 3 → es ≤ 4 → w % 2 ^ 40 % 2 ^ es = 0 → s.here.stream (24 + di) ≠ none →
          ∃ (t : State) (q : CopyCmd), exec (.copy la gs1 gs2) s = .next t ∧ queued t q .copy (w % 2 ^ 40) (w % 2 ^ 40 - rs) ∧ q.stream = some di ∧
            q.es = es ∧ .streamElement s.cur di ∈ t.agenda))) ∧
    (s.here.stream (24 + n.toNat) = none → s.outstanding s.cur (24 + n.toNat) = false →
      ∃ t : State, exec (.sbind la n) s = .next t ∧ t.here.stream (24 + n.toNat) = some {} ∧ (∀ r, t.value r = s.value r) ∧
        t.here.pc = s.here.pc + 4 ∧ t.mem = s.mem) ∧
    (s.here.stream (24 + n.toNat) ≠ none → ∃ t : State, exec (.sbind la n) s = .next t ∧ s.Wrote 0 {} la.toNat t) ∧
    (∃ t : State, exec (.sunbind la n) s = .next t ∧ t.here.stream (24 + n.toNat) = none ∧ t.here.pc = s.here.pc + 4 ∧ t.mem = s.mem ∧
      (∀ r : RegNo, t.value r = if r.toNat = 24 + n.toNat then {} else s.value r) ∧
      ∀ q ∈ (s.core c).cq, q.slot = s.cur → q.stream = some n.toNat → ∃ p ∈ (t.core c).cq, p = { q with ending := some (3, 0, 0) })

/-- R265, R268, R433, R416: a granted chunk moves up to 4 KiB (here within the scratchpad of one core) and takes its command
forward; a copy bound to a stream register delivers its next element there; a write to the doorbell issues a command. -/
def Obligations.CopiesMoveBytes : Prop :=
  ∀ (s : State), s.flips = [] → (∀ e ∈ s.banks, e.2.rowop = none) →
    (∀ cl i c q, s.input = .copyChunk cl → i < 16 → c = clusterCore cl i → s.copyEnding cl = none →
      (∀ j < 16, j ≠ i → s.copyReady (clusterCore cl j) = none) → s.copyReady c = some q → q.pos < q.total → q.commandCount = false →
      (∀ a n, s.writePending q.seq a n = false ∧ s.readPending q.seq c a n = false) →
      q.foot = none → q.car = none → (s.core c).cq.Nodup → (∀ p ∈ (s.core c).cq, p.seq = q.seq → p = q) →
      let last := min q.total ((q.pos / 4096 + 1) * 4096)
      let moved (t : State) : Prop := ∃ p ∈ (t.core c).cq, p.seq = q.seq ∧ p.pos = last ∧ p.counted = q.counted - (last - q.pos)
      ∀ d, q.dstAt = localVA d → s.inScratch c (d + q.pos) (last - q.pos) = true →
        (∀ pa, windowPA c (d + q.pos) ≤ pa → pa < windowPA c (d + last) → (s.granule pa).ctype = 0) →
        (q.op = .fill → ∃ t : State, exec .copyChunk s = .next t ∧ moved t ∧
          (∀ i, q.pos ≤ i → i < last → t.byte (windowPA c (d + i)) = (bytesOf 16 q.src.data.toNat).getD (i % 16) 0) ∧
          ∀ pa, pa < windowPA c (d + q.pos) ∨ windowPA c (d + last) ≤ pa → t.byte pa = s.byte pa) ∧
        (∀ a, q.op = .copy → capAddr q.src.data = localVA a → s.inScratch c (a + q.pos) (last - q.pos) = true →
          ∃ t : State, exec .copyChunk s = .next t ∧ moved t ∧
            (∀ i, q.pos ≤ i → i < last → t.byte (windowPA c (d + i)) = s.byte (windowPA c (a + i))) ∧
            ∀ pa, pa < windowPA c (d + q.pos) ∨ windowPA c (d + last) ≤ pa → t.byte pa = s.byte pa)) ∧
    (∀ k n c q st a, s.input = .streamElement k n → c = coreOf k → (s.slot k).stream (24 + n) = some st →
      ((s.core c).cq.find? fun q => q.slot = k && q.stream == some n && q.ending.isNone) = some q → q.pos < q.total → q.asked = none →
      (∀ a n, s.writePending q.seq a n = false) →
      q.es ≤ 4 → (st.buffer.length + 1) * 2 ^ q.es ≤ 256 → capAddr q.src.data = localVA a → q.pos % 2 ^ q.es = 0 → a % 2 ^ q.es = 0 →
      s.inScratch c (a + q.pos) (2 ^ q.es) = true → (s.granule (windowPA c (a + q.pos))).poison = false →
      ∃ (t : State) (v : _), exec .streamElement s = .next t ∧ (t.slot k).stream (24 + n) = some { st with buffer := st.buffer ++ [v] } ∧
        v.1.toNat = s.num (windowPA c (a + q.pos)) (2 ^ q.es) ∧ v.2 = (s.granule (windowPA c (a + q.pos))).bnd ∧ t.mem = s.mem ∧
        ∃ p ∈ (t.core c).cq, p.seq = q.seq ∧ p.pos = q.pos + 2 ^ q.es) ∧
    (∀ c (v : Word64), s.input = .copyDoorbell c v → v.toNat % 64 = 0x0C → c < 16384 → (s.core c).cq = [] →
      let g (i : Nat) : Reg := s.shadow c 1 i
      let n := (g 3).data.toNat
      n < 2 ^ 40 → (∀ i ∈ [1, 3, 4, 6], (g i).tag ≠ .bounded) → capOk (g 1) (capAddr (g 1).data) n [permW] = true →
      isFabric (capAddr (g 1).data) = false → g 4 = {} → g 6 = {} →
      ∃ (t : State) (q : CopyCmd), exec .copyDoorbell s = .next t ∧ (t.core c).cq = [q] ∧ q.op = .fill ∧ q.dst = g 1 ∧ q.src = g 2 ∧ q.total = n ∧
        q.door = true ∧ t.mem = s.mem)

/-- R438-R442, R220: a command of the owner of an array enters the queue of its array; a product leaves its slot waiting for the
evaluation; `xwait` completes with `xstat` when no command of its mask is queued. -/
def Obligations.CrossbarCommandsQueue : Prop :=
  ∀ (s : State) (la : Look) (gd gs1 gs2 : RegNo) (sel : BitVec 4), levelOf s.cur ∈ inGrids →
    let c := coreOf s.cur
    let w := (s.value gs1).data.toNat
    let array := w % 4
    let row0 := w / 2 ^ 2 % 2 ^ 9
    let n := w / 2 ^ 11 % 2 ^ 9 + 1
    let k := w / 2 ^ 20 % 2 ^ 4
    let op := w / 2 ^ 24
    let src := (s.value gs2).data.toNat % 2 ^ 18
    let dst := (s.value gd).data.toNat % 2 ^ 18
    let plain (r : RegNo) : Prop := s.Readable r ∧ (s.value r).tag ≠ .bounded
    let offset (r : RegNo) : Prop := plain r ∧ (s.value r).data.toNat / 2 ^ 21 % 2 ^ 11 = 0
    let owner (a : Nat) : Prop := let x := (s.array (clusterOf c) a).xctl.toNat; bit x 16 = true ∧ x % 2 ^ 16 = s.ctxOf s.cur
    let queued (t : State) (f : XuOp) : Prop := ∃ x : XuCmd, (t.core c).xq = (s.core c).xq ++ [x] ∧ x.array = array ∧ x.op = f ∧ x.step = 0 ∧
      x.fails = 0 ∧ x.slot = s.cur ∧ x.pc = s.here.pc.toNat ∧ (∀ r, t.value r = s.value r) ∧ t.mem = s.mem
    (plain gs1 → offset gs2 → owner array → ((s.core c).xq.filter fun x => x.array = array).length < 2 →
      (s.Writable gd → op = 0 → k = 0 → row0 + n ≤ 512 → src % 128 = 0 → s.inScratch c src (256 * n) = true →
        ∃ t : State, exec (.xprog la gd gs1 gs2) s = .next t ∧ queued t (.prog gd.toNat row0 n src) ∧ t.here.pc = s.here.pc + 4) ∧
      (k = 0 → w / 2 ^ 2 % 2 ^ 18 = 0 → op ≤ 2 → (op = 0 → gs2 = 0) →
        (op ≠ 0 → src % 32 = 0 ∧ s.inScratch c src 2208 = true) →
        ∃ t : State, exec (.xcal la gs1 gs2) s = .next t ∧ t.here.pc = s.here.pc + 4 ∧
          queued t (if op = 0 then .cal else if op = 1 then .save src else .load src)) ∧
      (offset gd → op = 0 → 1 ≤ k → k ≤ 8 → row0 + n ≤ 512 → src % 32 = 0 → s.inScratch c src (64 * k) = true → dst % 32 = 0 →
        s.inScratch c dst 1024 = true →
        ∃ t : State, exec (.xmvm la gd gs1 gs2) s = .next t ∧ queued t (.product row0 n k src dst) ∧ t.here.pc = s.here.pc ∧
          t.here.await = some (.product array la.toNat))) ∧
    (s.Writable gd →
      let arrays := (List.range 4).filter fun a => sel = 0 ∨ bit sel.toNat a = true
      (∀ a ∈ arrays, owner a) → (∀ x ∈ (s.core c).xq, x.array ∈ arrays → ∃ b, s.here.since = some b ∧ b ≤ x.seq) →
        ∃ t : State, exec (.xwait la gd sel) s = .next t ∧ t.here.pc = s.here.pc + 4 ∧ t.mem = s.mem ∧ t.here.since = none ∧
          (∀ r, r ≠ gd → t.value r = s.value r) ∧ ∀ a ∈ arrays, (∀ b ∈ arrays, a ≤ b) → gd ≠ 0 → (t.value gd).tag = .exact ∧
            let x := s.array (clusterOf c) a
            bit (t.value gd).data.toNat 0 = x.valid ∧ bit (t.value gd).data.toNat 1 = x.drift ∧
              (t.value gd).data.toNat / 2 ^ 3 % 2 ^ 10 = x.failed.length % 2 ^ 10)

/-- R208-R217: an array in which no step is in progress begins one for the core whose turn it is; a step programs one row, which is failed or holds its bytes; ends a calibration with valid set and
drift cleared, or saves the image; and evaluates a product, which traps or delivers sums within the bound B(n, k) of the exact
ones. -/
def Obligations.CrossbarStepsRun : Prop :=
  ∀ (s : State) (cl array c : Nat) (x : XuCmd), s.flips = [] →
    let a := s.array cl array
    (a.run = false → s.xuNext cl array = some (c, x) → s.input = x.event cl →
      ∀ i ∈ [Instr.xprogRow, .xcalStep, .xuProduct], i = (x.event cl).instr → ∃ t : State, exec i s = .next t ∧
        (t.array cl array).run = true ∧ (t.array cl array).turn = coreInCluster c ∧ t.mem = s.mem ∧ t.cores = s.cores) ∧
    (a.run = true → c = clusterCore cl a.turn → cl < 1024 → a.turn < 16 → x.array = array →
    ((s.core c).xq.find? fun y => y.array = array && y.event cl = s.input) = some x →
    let gone (t : State) : Prop := ∀ y ∈ (t.core c).xq, y.seq ≠ x.seq
    (∀ gd row0 n off, s.input = .xprogRow cl array → x.op = .prog gd row0 n off → s.poisonedRead c [(off + 256 * x.step, 256)] = none →
      (∀ i < 256, badWeight (s.byte (windowPA c (off + 256 * x.step + i))) = false) → look 0 a.writes (row0 + x.step) < 1000000 →
      ∃ t : State, exec .xprogRow s = .next t ∧ t.mem = s.mem ∧
        let b := t.array cl array
        let row := row0 + x.step
        look 0 b.writes row = look 0 a.writes row + 1 ∧ (∀ r, r ≠ row → look 0 b.writes r = look 0 a.writes r ∧ (r ∈ b.failed ↔ r ∈ a.failed)) ∧
          (row ∈ b.failed ∨ ∀ i < 256, look 0 b.weights (256 * row + i) = s.byte (windowPA c (off + 256 * x.step + i))) ∧
          (∀ r, r ≠ row → ∀ i < 256, look 0 b.weights (256 * r + i) = look 0 a.weights (256 * r + i)) ∧ (x.step + 1 = n → gone t)) ∧
    (s.input = .xcalStep cl array →
      (x.op = .cal → x.step = 16 → ∃ t : State, exec .xcalStep s = .next t ∧ gone t ∧ (t.array cl array).valid = true ∧
        (t.array cl array).drift = false ∧ t.mem = s.mem ∧ (t.array cl array).calNum 8 8 = s.time % 2 ^ 64) ∧
      (x.op = .cal → x.step < 16 → (s.core c).xq = [x] → ∃ t : State, exec .xcalStep s = .next t ∧ (t.core c).xq = [{ x with step := x.step + 1 }] ∧
        t.mem = s.mem) ∧
      (∀ off, x.op = .save off → ∃ t : State, exec .xcalStep s = .next t ∧ gone t ∧ t.bytes (windowPA c off) 2208 = a.image) ∧
      (∀ off, x.op = .load off → s.poisonedRead c [(off, 2208)] = none →
        let im := s.bytes (windowPA c off) 2208
        ∃ t : State, exec .xcalStep s = .next t ∧ gone t ∧ t.mem = s.mem ∧
          if field im 0 1 = 0x10 ∧ field im 16 8 = Config.serial % 2 ^ 64 ∧ field im 4 4 = 0 ∧ field im 24 40 = 0 then
            (∀ p < 520, (t.array cl array).gain p = field im (128 + 4 * p) 2) ∧
              ∀ r < 512, r ∈ (t.array cl array).failed ↔ bit (field im (64 + r / 8) 1) (r % 8) = true
          else (t.array cl array).valid = false)) ∧
    (∀ row0 n k src dst la, s.input = .xuProduct cl array → x.op = .product row0 n k src dst → 1 ≤ k → k ≤ 8 → row0 + n ≤ 512 →
      s.poisonedRead c [(src, 64 * k)] = none → (s.slot x.slot).await = some (.product array la) →
      let sum (col : Nat) : Int := ((List.range n).map fun i => s.inputValue c src k i * weightOf (look 0 a.weights (256 * (row0 + i) + col))).sum
      ∃ t : State, exec .xuProduct s = .next t ∧ gone t ∧ (t.slot x.slot).await = none ∧
        ((t.slot x.slot).pc = (s.slot x.slot).pc + 4 ∧ a.valid = true ∧ (∀ r ∈ a.failed, r < row0 ∨ row0 + n ≤ r) ∧
            (∀ col < 256, ((BitVec.ofNat 32 (t.num (windowPA c (dst + 4 * col)) 4)).toInt - sum col).natAbs ≤ productBound n k) ∧
            (∀ pa, pa < windowPA c dst ∨ windowPA c dst + 1024 ≤ pa → t.byte pa = s.byte pa) ∨
          ∃ (info : TrapInfo) (v : State), info.cause = .recalibrate ∧ info.addr % 4 = array % 4 ∧ (a.valid = false → info.addr / 4 % 4 = 1) ∧
            v.mem = s.mem ∧ v.cur = x.slot ∧ t.slots = (v.takeTrap info la).slots ∧ t.mem = (v.takeTrap info la).mem)))

/-- R199-R205: a row operation that passes its checks begins, or answers its refusal; when it completes, each destination row
holds the copy, the zeros, the complement, the majority, the sum or the product of its source rows. -/
def Obligations.RowOperationsRun : Prop :=
  (∀ (s : State) (la : Look) (gd gs1 gs2 : RegNo) (ds as_ bs : List (Leaf × Nat)) (u1 u2 u3 : State), levelOf s.cur = .b →
    s.Readable gd → s.Readable gs1 → s.Readable gs2 → s.Writable gd → (s.value gd).tag ≠ .bounded →
    let w := (s.value gd).data.toNat
    let op := w % 2 ^ 4
    let n := rowCount w
    let two := op = 2 ∨ op = 4 ∨ op = 5
    let names (r : RegNo) (p : Nat) : Prop := (s.value r).tag = .cap ∧ inBounds (s.value r).data (capAddr (s.value r).data) (1024 * n) = true ∧
      hasPerm (s.value r).data p = true ∧ capAddr (s.value r).data % 1024 = 0
    op ≤ 6 → w < 2 ^ 15 → (op = 5 → w / 2 ^ 4 % 2 ^ 5 ≤ 15) → names gs1 permW → names gs2 permR →
    (two → gs2 ≠ 0 ∧ gs2 ≠ 31 ∧ s.Readable (gs2 + 1) ∧ names (gs2 + 1) permR) →
    rowsFind (acqOf (s.value gs1)) .write (rowVAs (s.value gs1) n) s = .ok (ds, u1) →
    (if op = 1 then as_ = [] ∧ u2 = u1 else rowsFind (acqOf (s.value gs2)) .read (rowVAs (s.value gs2) n) u1 = .ok (as_, u2)) →
    (if two then rowsFind (acqOf (s.value (gs2 + 1))) .read (rowVAs (s.value (gs2 + 1)) n) u2 = .ok (bs, u3) else bs = [] ∧ u3 = u2) →
    (∀ r ∈ ds ++ as_ ++ bs, r.1.rl = true ∧ r.1.cm = false ∧ r.1.el = false ∧ u3.bankOfPA r.2 = bankOf s.cur) →
    (∀ r ∈ ds, u3.mustWait s.cur 0 (.mem r.2) 1024 true = false) → (∀ r ∈ as_ ++ bs, u3.mustWait s.cur 0 (.mem r.2) 1024 false = false) →
    (u3.bank (bankOf s.cur)).rowop = none → u3.flips = [] →
    let d := ds.map (·.2)
    let a := as_.map (·.2)
    let b := bs.map (·.2)
    (∀ r ∈ (if 2 ≤ op ∧ op ≤ 5 then a ++ b else []) ++ (if op = 2 then d else []), u3.rowPoisoned r = false) →
    if u3.rowStatus op d a b = 0 then
      ∃ (t : State) (r : RowOp), exec (.rowop la gd gs1 gs2) s = .next t ∧ (t.bank (bankOf s.cur)).rowop = some r ∧ r.op = op ∧ r.d = d ∧ r.a = a ∧ r.b = b ∧
        r.slot = s.cur ∧ t.here.await = some (.rowop gd.toNat la.toNat) ∧ t.mem = u3.mem ∧ .rowOpComplete (bankOf s.cur) ∈ t.agenda
    else ∃ t : State, exec (.rowop la gd gs1 gs2) s = .next t ∧ u3.Wrote gd (exactData (u3.rowStatus op d a b)) la.toNat t) ∧
  (∀ (s : State) (bank gd la : Nat) (r : RowOp), s.input = .rowOpComplete bank → (s.bank bank).rowop = some r →
    (s.slot r.slot).await = some (.rowop gd la) → r.d.Nodup → (∀ p ∈ r.d ++ r.a ++ r.b, p % 1024 = 0) → r.d ≠ [] → r.op ≤ 6 →
    (r.op ≠ 5 → (r.op ≠ 1 → r.a.length = r.d.length) ∧ (r.op = 2 ∨ r.op = 4 → r.b.length = r.d.length) ∧
      ∀ i j : Nat, r.d[i]? ≠ none → (r.d[i]? = r.a[j]? ∨ r.d[i]? = r.b[j]?) → j ≤ i) →
    ∃ t : State, exec .rowOpComplete s = .next t ∧ (t.bank bank).rowop = none ∧ (t.slot r.slot).await = none ∧
      (t.slot r.slot).pc = (s.slot r.slot).pc + 4 ∧
      (∀ pa, (∀ p ∈ r.d, pa < p ∨ p + 1024 ≤ pa) → t.byte pa = s.byte pa) ∧
      (∀ i < r.d.length, ∀ j < 1024,
        let z := t.byte (r.d.getD i 0 + j)
        let x := s.byte (r.a.getD i 0 + j)
        let y := s.byte (r.b.getD i 0 + j)
        (r.op = 0 ∨ r.op = 6 → z = x) ∧ (r.op = 1 → z = 0) ∧ (r.op = 3 → z = ~~~x) ∧
          (r.op = 2 → z = (x &&& y) ||| (x &&& s.byte (r.d.getD i 0 + j)) ||| (y &&& s.byte (r.d.getD i 0 + j)))) ∧
      (let elem (v : State) (rows : List Nat) (e : Nat) : Nat :=
         (rows.zipIdx.map fun p => if bit (v.byte (p.1 + e / 8)).toNat (e % 8) = true then 2 ^ p.2 else 0).sum
       ∀ e < 8192, (r.op = 4 → elem t r.d e = (elem s r.a e + elem s r.b e) % 2 ^ r.d.length) ∧
        (r.op = 5 → elem t r.d e = elem s r.a e * elem s r.b e % 2 ^ r.d.length)))

/-! ## The host (spec/02_links.md R33-R39, spec/03_start.md R56-R63, spec/04_host_interface.md) -/

/-- R33-R39, R46, R64, R65: a request that arrives is refused when the device does not serve it or it is malformed, else it takes
its place in its stream; the stream whose turn it is issues its oldest request: a memory request reads or writes the bytes that it
names, a cell request is answered by its Desk, a control message becomes a task of its service core; a cancel ends the hold of its
stream. -/
def Obligations.HostRequestsServed : Prop :=
  ∀ (s : State) (r : HostReq), (s.port 32).state = 2 →
    (∀ p ∈ ([(.memoryRead, .memoryRead r, 0), (.memoryWrite, .memoryWrite r, 1), (.cellRequest, .cellRequest r, 2),
        (.hostCancel, .hostCancel r, 3)] : List (Instr × Event × Nat)), s.input = p.2.1 → r.kind = p.2.2 →
      (s.serves r = false → exec p.1 s = .next (s.hostReply r 2 0)) ∧
      (s.serves r = true → r.ok s.ubgen = false → exec p.1 s = .next (s.hostReply r 1 0)) ∧
      (r.kind ≠ 3 → s.serves r = true → r.ok s.ubgen = true → ∃ t : State, exec p.1 s = .next t ∧ t.mem = s.mem ∧ t.toHost = s.toHost ∧
        (t.hostStream r.stream).waiting = (s.hostStream r.stream).waiting ++ [r] ∧ (∀ m, m ≠ r.stream → t.hostStream m = s.hostStream m) ∧
        ((s.hostStream r.stream).held = none → (s.hostStream r.stream).relaxed = [] → ∃ m < 16, .streamRequestIssue m ∈ t.agenda))) ∧
    (s.input = .unsupportedRequest r → r.ok s.ubgen = false →
      exec .unsupportedRequest s = .next (s.hostReply r (if s.serves r = true then 1 else 2) 0)) ∧
    (s.input = .hostCancel r → r.kind = 3 → s.serves r = true → r.ok s.ubgen = true →
      match (s.hostStream r.stream).held with
      | none => exec .hostCancel s = .next s
      | some h => h.holds = true → h.parked = false → h.cell < untranslated →
        exec .hostCancel s = .next (s.cancelHold h.cell ⟨thisDevice, 3, 0, r.stream, 0, 0⟩ h.seq)) ∧
    (∀ n rest, s.input = .streamRequestIssue n → (s.hostStream n).parkedOnes = [] → s.nextStream = some n →
      (s.hostStream n).waiting = r :: rest →
      let w := (({ s with lastStream := n } : State).onHostStream n fun h => { h with waiting := rest }).drawn
      let late := (s.hostStream n).relaxes r
      let fails (t u : State) (c : Cause) : Prop := t.mem = u.mem ∧
        t.toHost = (u.hostReply r (if isFabric r.addr = true then 8 else 9) c.code).toHost
      (match w.serve late r with
      | (true, u) => ∃ t : State, exec .streamRequestIssue s = .next t ∧ t.toHost = u.toHost ∧ t.mem = u.mem ∧ t.hostStream n = u.hostStream n
      | (false, u) => ∃ t : State, exec .streamRequestIssue s = .next t ∧ t.mem = u.mem ∧ .streamRequestIssue n ∈ t.agenda ∧
          ∃ h, (late = false → (t.hostStream n).held = some h) ∧ (late = true → h ∈ (t.hostStream n).relaxed) ∧ h.req = r ∧ h.parked = true) ∧
      (r.kind = 0 → r.away = false → ∀ parts u, w.ownFabricParts r.agent .read true (sectors 9 r.here r.len) = (.ok (some parts), u) →
        let got := (u.readParts (u.hostQos r.stream) parts).1
        let v := (u.readParts (u.hostQos r.stream) parts).2
        ∃ t : State, exec .streamRequestIssue s = .next t ∧ (got.poison = true → fails t v .poison) ∧
          (got.poison = false → t.mem = v.mem ∧ t.toHost = (v.hostReply r 0 0 got.bytes).toHost)) ∧
      (r.kind = 1 → r.away = false → ∀ parts u, w.ownFabricParts r.agent .write true (sectors 9 r.here r.len) = (.ok (some parts), u) →
        (parts.any (fun p => u.typedAt p.1 p.2) = false →
          let v := u.writeParts (u.hostQos r.stream) .other none .plain parts r.data
          ∃ t : State, exec .streamRequestIssue s = .next t ∧ t.mem = v.mem ∧
            t.toHost = v.toHost ++ [{ kind := 9, stream := r.stream, tag := r.tag }]) ∧
        (parts.any (fun p => u.typedAt p.1 p.2) = true → ∃ t : State, exec .streamRequestIssue s = .next t ∧ fails t u .type)) ∧
      (∀ u c, r.kind = 0 ∨ r.kind = 1 → r.away = false →
        w.ownFabricParts r.agent (if r.kind = 0 then .read else .write) true (sectors 9 r.here r.len) = (.error c, u) →
        ∃ t : State, exec .streamRequestIssue s = .next t ∧ fails t u c) ∧
      (r.kind = 2 → r.away = false → ∀ op pa u, deskOpOf r.op = some op → op ≠ .vwait →
        w.findCell r.agent r.here op = (.cell pa, u) → (u.granule pa).poison = false →
        match (u.drawn.enterSlice (u.hostQos r.stream) pa 32).desk op
            { r.desk op with pa := pa, seq := u.fresh, prio := u.hostPrio r.stream, qos := u.hostQos r.stream } with
        | (.done st val elem, v) => ∃ t : State, exec .streamRequestIssue s = .next t ∧ t.mem = v.mem ∧ t.toHost = (v.hostReply r
            (hostStatus st) (if hostStatus st = 10 then st else 0) (if st = 0 then hostCellData op val elem else [])).toHost
        | (.held, v) => ∃ (t : State) (h : HostHeld), exec .streamRequestIssue s = .next t ∧ t.mem = v.mem ∧ t.toHost = v.toHost ∧
            (t.hostStream r.stream).held = some h ∧ h.req = r ∧ h.seq = u.fresh ∧ h.cell = pa
        | (.park, _) => True) ∧
      (r.kind = 4 → ∃ t : State, exec .streamRequestIssue s = .next t ∧ t.mem = s.mem ∧ t.toHost = s.toHost ∧
        (t.region r.stream).tasks = (s.region r.stream).tasks ++ [r]))

/-- R34, R59, R62-R64, R66, R67, R71, R73, R469, R470: a control message takes its place in its stream, and once it is the first
task of its service core it has its effect and its reply. -/
def Obligations.ControlMessages : Prop :=
  ∀ (s : State) (r : HostReq), r.kind = 4 →
    (∀ p ∈ ([(.attachQueue, .attachQueue r, 1), (.detachQueue, .detachQueue r, 2), (.resetQueue, .resetQueue r, 3), (.setStream, .setStream r, 4),
        (.negotiate, .negotiate r, 5), (.readCap, .readCap r, 6), (.readStart, .readStart r, 7), (.clearStart, .clearStart r, 8),
        (.selectSlot, .selectSlot r, 9), (.attest, .attest r, 10), (.relocate, .relocate r, 11), (.setSetup, .setSetup r, 12)] :
        List (Instr × Event × Nat)), s.input = p.2.1 → r.control = p.2.2 → (s.port 32).state = 2 → r.stream < 16 →
      (s.serves r = false → exec p.1 s = .next (s.hostReply r 2 0)) ∧
      (s.serves r = true → r.ok s.ubgen = false → exec p.1 s = .next (s.hostReply r 1 0)) ∧
      (s.serves r = true → r.ok s.ubgen = true → ∃ t : State, exec p.1 s = .next t ∧ t.mem = s.mem ∧ t.toHost = s.toHost ∧ t.regions = s.regions ∧
        (t.hostStream r.stream).waiting = (s.hostStream r.stream).waiting ++ [r])) ∧
    (∀ rest, (s.region r.stream).tasks = r :: rest →
    let due : HostReq := { r with stream := r.stream + 16 }
    let agent (ctx : Nat) : Agent := { ctx := ctx, die := r.stream / 4 }
    let answers (i : Instr) (status : Nat) (data : List Byte) (p : State → Prop) : Prop :=
      ∃ t : State, exec i s = .next t ∧ t.toHost = (s.hostReply r status 0 data).toHost ∧ t.mem = s.mem ∧ (t.region r.stream).tasks = rest ∧ p t
    let version (i : Nat) : Nat := if s.negotiated = [] then 0x10 else s.negotiated.getD i 0
    (∀ pa u, s.input = .attachQueue due → r.control = 1 → version 0 ≠ 0 → r.arg 11 1 ≤ 7 → (s.region r.stream).queues.length < 16 →
      isFabric (r.arg 1 8) = false → ({ s with attachSeen := true } : State).findCell (agent (r.arg 9 2)) (r.arg 1 8) .query = (.cell pa, u) →
      (u.granule pa).poison = false → (∀ e ∈ u.regions, ∀ q ∈ e.2.queues, q.2.pa ≠ pa) → u.regions = s.regions → pa < untranslated →
      u.cellType pa = 4 → imageElement (setBits (u.image pa) 226 224 4) = 3 →
      ∃ (t : State) (i : Nat) (q : Queue), exec .attachQueue s = .next t ∧ i < 16 ∧ t.queue r.stream i = some q ∧ s.queue r.stream i = none ∧
        q.cell = r.arg 1 8 ∧ q.pa = pa ∧ q.ctx = r.arg 9 2 ∧ q.prio = r.arg 11 1 ∧ q.stopped = false ∧ t.toHost = (u.hostReply r 0 0).toHost ∧
        .queueAgentPop (16 * r.stream + i) ∈ t.agenda ∧ t.attachSeen = true ∧ (t.region r.stream).tasks = rest) ∧
    (s.input = .detachQueue due → r.control = 2 →
      (s.queueAt r.stream (r.arg 1 8) = none → answers .detachQueue 0 [] fun t => ∀ j, t.queue r.stream j = s.queue r.stream j) ∧
      (∀ i q, s.queueAt r.stream (r.arg 1 8) = some (i, q) → s.queue r.stream i = some q → answers .detachQueue 0 [] fun t =>
        (∀ j, j ≠ i → t.queue r.stream j = s.queue r.stream j) ∧
        (t.queue r.stream i = if q.popping = none ∧ q.pending = [] ∧ (q.stopped = true ∨ q.taken = none ∧ q.starting = none) then none
          else some { q with detaching := true }) ∧
        ∀ seq, q.popping = some seq → q.pa < untranslated → .cancel q.pa ⟨thisDevice, 6, 0, r.stream, i, 0⟩ seq ∈ t.coming)) ∧
    (∀ i q pa v u val elem, s.input = .resetQueue due → r.control = 3 → s.queueAt r.stream (r.arg 1 8) = some (i, q) → q.pa < untranslated →
      s.findCell (agent q.ctx) q.address .init = (.cell pa, v) →
      v.desk .init { q.initReq ⟨thisDevice, 6, 0, r.stream, i, 0⟩ with pa := pa } = (.done 0 val elem, u) → u.queue r.stream i = some q →
      ∃ t : State, exec .resetQueue s = .next t ∧ t.toHost = (u.hostReply r 0 0).toHost ∧ t.mem = u.mem ∧ t.queue r.stream i = some { q with
        stopped := false, popping := none, taken := none, starting := none, resetting := none } ∧ .queueAgentPop (16 * r.stream + i) ∈ t.agenda) ∧
    (s.input = .setStream due → r.control = 4 →
      if r.arg 1 1 ≤ 15 then answers .setStream 0 [] fun t => (t.hostStream (r.arg 1 1)).hstream = BitVec.ofNat 32 (r.arg 2 4 % 2 ^ 7)
      else answers .setStream 1 [] fun _ => True) ∧
    (s.input = .negotiate due → r.control = 5 →
      let common (i lo hi : Nat) : Nat := if max (r.arg (1 + 2 * i) 1) lo ≤ min (r.arg (2 + 2 * i) 1) hi then min (r.arg (2 + 2 * i) 1) hi else 0
      let vs := [common 0 0x10 0x11, common 1 0x10 0x10, common 2 0x10 0x12, common 3 0x10 0x11, common 4 0x10 0x10]
      if s.attachSeen = true then answers .negotiate 5 [] fun t => t.negotiated = s.negotiated
      else (s.phase ≠ .up → answers .negotiate 0 (vs.map (BitVec.ofNat 8)) fun t => t.negotiated = vs) ∧
        ∃ (t : State) (m : HostMsg), exec .negotiate s = .next t ∧ t.negotiated = vs ∧ t.mem = s.mem ∧ t.toHost.getLast? = some m ∧ m.kind = 8 ∧
          m.stream = r.stream ∧ m.tag = r.tag ∧ m.status = 0 ∧ m.data = vs.map (BitVec.ofNat 8)) ∧
    (s.input = .readCap due → r.control = 6 → version 3 ≠ 0 → answers .readCap 0 (s.capImage (version 3)) fun _ => True) ∧
    (s.input = .readStart due → r.control = 7 → answers .readStart 0 s.startRec.image fun _ => True) ∧
    (s.input = .clearStart due → r.control = 8 → s.startRec.seq + 1 < 2 ^ 32 → answers .clearStart 0 [] fun t => t.startRec.steps = [] ∧
      t.startRec.seq = s.startRec.seq + 1) ∧
    (s.input = .selectSlot due → r.control = 9 → if r.arg 1 1 ≤ 1 then answers .selectSlot 0 [] fun t => t.bootSlot = r.arg 1 1
      else answers .selectSlot 1 [] fun t => t.bootSlot = s.bootSlot) ∧
    (s.input = .attest due → r.control = 10 → version 4 ≠ 0 →
      let body := s.report (r.data.drop 1)
      answers .attest 0 (body ++ (Config.sign (s.identity.getD ([], [])).2 (shake256 body)).take 1280) fun _ => True) ∧
    (∀ e u parts w, s.input = .relocate due → r.control = 11 → r.arg 11 4 = 1 →
      s.controlRead (agent (r.arg 1 2)) (r.arg 3 8) 48 = (.ok (some e), u) →
      let slot := field e 0 8
      field e 34 1 ≤ 1 → field e 35 13 = 0 → field e 24 8 ≤ 2 ^ 63 → slot + 16 ≤ 2 ^ 56 → slot % 16 = 0 →
      u.ownFabricParts (agent (r.arg 1 2)) .write true [(slot, 16)] = (.ok (some parts), w) → parts.any (fun p => w.typedAt p.1 p.2) = false →
      let cap := relocated (field e 8 8) (field e 16 8) (field e 24 8) (field e 32 2) (field e 34 1)
      let v := w.writeParts 0 .other none (.cap cap.tag) parts (bytesOf 16 cap.data.toNat)
      ∃ t : State, exec .relocate s = .next t ∧ t.mem = v.mem ∧ t.toHost = (v.hostReply r 0 0 (bytesOf 4 1)).toHost) ∧
    (s.input = .setSetup due → r.control = 12 → answers .setSetup 0 [] fun t => look 0 t.setups (r.arg 1 2) = r.arg 3 8 ∧
      ∀ c, c ≠ r.arg 1 2 → look 0 t.setups c = look 0 s.setups c))

/-- R68-R71, R73, R74: a queue agent pops its queue and its service core takes the command that is next; a command has its effect
and completes, or waits for its cell; an event record goes to the host. -/
def Obligations.QueueCommandsRun : Prop :=
  ∀ (s : State) (n : Nat) (cmd : List Byte) (q : Queue),
    let queue (t : State) : Option Queue := t.queue (n / 16) (n % 16)
    let control : Agent := { ctx := q.ctx, die := n / 16 / 4 }
    (s.input = .queueAgentPop n → queue s = some q →
      (∀ e, q.taken = some cmd → (s.region (n / 16)).nextQueue = some (n % 16, q) → commandEvent n cmd = some e →
        ∃ t : State, exec .queueAgentPop s = .next t ∧ queue t = some { q with taken := none, starting := some cmd } ∧ e ∈ t.agenda ∧
          t.mem = s.mem) ∧
      (q.stopped = false → q.popping = none → q.taken = none → q.detaching = false → q.resetting = none → q.pa < untranslated → ∀ pa v,
        s.drawn.findCell control q.address .qpop = (.cell pa, v) → (v.granule pa).poison = false →
        let agent : Waiter := ⟨thisDevice, 6, 0, n / 16, n % 16, 0⟩
        let pop : DeskReq := { pa := pa, va := q.cell, ctx := q.ctx, who := agent, seq := s.fresh, prio := q.prio, elen := 64 }
        let found : Queue := { q with pa := pa }
        match (v.onQueue (n / 16) (n % 16) fun p => ({ p with pa := pa } : Queue)).desk .qpop pop with
        | (.held, u) => queue u = some found → (u.region (n / 16)).nextQueue = none →
            ∃ t : State, exec .queueAgentPop s = .next t ∧ queue t = some { found with popping := some s.fresh } ∧ t.mem = u.mem
        | (.done 0 _ c, u) => queue u = some found →
            ((u.onQueue (n / 16) (n % 16) (fun p => ({ p with taken := some c } : Queue))).region (n / 16)).nextQueue = none →
            ∃ t : State, exec .queueAgentPop s = .next t ∧ queue t = some { found with taken := some c } ∧ t.mem = u.mem
        | _ => True)) ∧
    (s.startingAt n cmd = some q → s.headerOk cmd = true →
      let va := field cmd 8 8
      let ended (t : State) : Prop := ∃ p, queue t = some p ∧ p.starting = none ∧ p.pending = q.pending ∧ p.running = q.running ∧ p.stopped = false
      let kept : Prop := q.detaching = false
      let cellOf (i : Instr) (op : DeskOp) (amount : Int) : Prop := isFabric va = false → ∀ pa u, s.findCell control va op = (.cell pa, u) →
        (u.granule pa).poison = false → queue u = some q →
        let agent : Waiter := ⟨thisDevice, 6, 0, n / 16, n % 16, 0⟩
        let ask : DeskReq := { va := va, pa := pa, ctx := q.ctx, who := agent, seq := s.fresh, prio := q.prio, n := amount }
        match u.drawn.desk op ask with
        | (.held, w) => queue w = some q → ∃ (t : State) (p : Queue), exec i s = .next t ∧ queue t = some p ∧ p.pending = (s.fresh, cmd) :: q.pending ∧ p.starting = none ∧
            p.running = q.running + 1 ∧ t.mem = w.mem
        | (.done st _ _, w) => deskFault st = none → queue w = some q → ∃ t : State, exec i s = .next t ∧ ended t ∧ t.mem = w.mem
        | (.park, _) => ∃ (t : State) (e : _), exec i s = .next t ∧ e ∈ t.agenda ∧ queue t = some q
      kept →
      (s.input = .nop n cmd → cmdKind cmd = 0 → (∀ i, 8 ≤ i → i < 64 → cmd.getD i 0 = 0) → ∃ t : State, exec .nop s = .next t ∧ ended t ∧ t.mem = s.mem) ∧
      (s.input = .event n cmd → cmdKind cmd = 5 → (∀ i, 8 ≤ i → i < 64 → cmd.getD i 0 = 0) →
        let source := sourceOfService (n / 16)
        (look ({} : Source) s.sources source).buffer.length < 16 → ∃ (t : State) (x : _), exec .event s = .next t ∧ ended t ∧ t.mem = s.mem ∧
          x ∈ (look ({} : Source) t.sources source).buffer ∧ x.kind = 1 ∧ x.tag = field cmd 4 4 ∧ x.payload = q.cell) ∧
      (s.input = .wait n cmd → cmdKind cmd = 2 → (∀ i, 16 ≤ i → i < 64 → cmd.getD i 0 = 0) → cellOf .wait .cwait 0) ∧
      (s.input = .signal n cmd → cmdKind cmd = 3 → (∀ i, 20 ≤ i → i < 64 → cmd.getD i 0 = 0) →
        cellOf .signal .cadd (BitVec.ofNat 32 (field cmd 16 4)).toInt) ∧
      (s.input = .write n cmd → cmdKind cmd = 4 → (∀ i, 17 ≤ i → i < 32 → cmd.getD i 0 = 0) → 1 ≤ field cmd 16 1 → field cmd 16 1 ≤ 32 →
        isFabric va = false → ∀ parts u, s.ownFabricParts control .write true (partsOf va (field cmd 16 1)) = (.ok (some parts), u) →
        queue u = some q → parts.any (fun p => u.typedAt p.1 p.2) = false →
        ∃ t : State, exec .write s = .next t ∧ ended t ∧ t.mem = (u.writeParts 0 .other none .plain parts ((cmd.drop 32).take (field cmd 16 1))).mem)) ∧
    (∀ source e rest, s.input = .eventRecordSend source → (look ({} : Source) s.sources source).buffer = e :: rest → s.phase = .up →
      (s.port 32).state = 2 → s.version 2 ≠ 0 →
      ∃ (t : State) (m : _), exec .eventRecordSend s = .next t ∧ t.toHost = s.toHost ++ [m] ∧ m.kind = 0xA ∧ m.data.length = 32 ∧
        field m.data 0 1 = (if e.early then 0x10 else s.version 2) % 2 ^ 8 ∧ field m.data 2 2 = e.kind % 2 ^ 16 ∧ field m.data 4 2 = e.source % 2 ^ 16 ∧
        field m.data 6 2 = e.seq % 2 ^ 16 ∧ field m.data 16 4 = e.tag % 2 ^ 32 ∧ field m.data 24 8 = e.payload % 2 ^ 64 ∧
        (look ({} : Source) t.sources source).buffer = rest ∧ t.mem = s.mem)

/-! ## Grids (spec/05_scheduling.md R75-R83, spec/04_host_interface.md R72, spec/14_traps_and_preemption.md R279-R283,
spec/21_isa_system.md R468, R469) -/

/-- R75-R79, R82, R469: a node record that passes its checks becomes a launch; a ready launch enters Placing, or ends as its
predecessors or its count say; a placed grid has its cores; its set-up leads to the dealing of its tasks in their order. -/
def Obligations.LaunchesProceed : Prop :=
  (∀ (s u : State) (n : Nat) (cmd : List Byte) (q : Queue) (gs : List Got), s.input = .launch n cmd → s.startingAt n cmd = some q →
    s.headerOk cmd = true → cmdKind cmd = 1 → (∀ i, 34 ≤ i → i < 64 → cmd.getD i 0 = 0) →
    let va := field cmd 8 8
    let ctx := field cmd 32 2
    va % 64 = 0 → (∀ e ∈ s.grids, ¬(e.2.ctx = ctx ∧ e.2.addr = va)) → s.schedGranules (n / 16) ctx va 16 = (.ok (some gs), u) →
    u.queue (n / 16) (n % 16) = some q → q.detaching = false → u.grids.length < 65535 →
    (nodeOk gs = false → ∃ (t : State) (p : Queue), exec .launch s = .next t ∧ t.queue (n / 16) (n % 16) = some p ∧ p.stopped = true ∧ t.grids = u.grids) ∧
    (nodeOk gs = true → (nodeOf gs).pred = 0 → ∃ (t : State) (p : Queue) (g : _) (x : Grid), exec .launch s = .next t ∧ t.queue (n / 16) (n % 16) = some p ∧
      p.starting = none ∧ p.running = q.running + 1 ∧ u.grid g = none ∧ t.grid g = some x ∧ x.st = .ready ∧ x.node = nodeOf gs ∧
      x.addr = va ∧ x.ctx = ctx ∧ x.counter = field cmd 16 8 ∧ x.errAddr = field cmd 24 8 ∧ x.tag = field cmd 4 4 ∧
      .launchReady g ∈ t.agenda ∧ t.mem = u.mem)) ∧
  (∀ (s : State) (g : Nat) (x : Grid), s.grid g = some x →
    (∀ u f, s.input = .launchReady g → x.st = .ready → x.ended = none → s.schedNum x.region x.ctx (x.addr + 1) 1 = (.ok (some f), u) → u.grid g = some x →
      let fails (t : State) (c : Cause) : Prop := ∃ y, t.grid g = some y ∧ y.st = .ending ∧ y.ended = some { status := 1, cause := c.code }
      let places (t : State) (w : Nat) : Prop := .placeGrid g ∈ t.agenda ∧ ∃ y, t.grid g = some y ∧ y.st = .placing ∧ y.gw = w
      ∃ t : State, exec .launchReady s = .next t ∧
        if bit f 7 = true ∧ x.node.runafter = false then fails t .predFault
        else if x.node.indirect = false then places t x.node.gw
        else ∀ w v, u.schedNum x.region x.ctx x.node.icount 4 = (.ok (some w), v) → v.grid g = some x →
          if w = 0 then ∃ y, t.grid g = some y ∧ y.st = .ending ∧ y.ended = none
          else if w % x.node.stages ≠ 0 ∨ 16368 < w * x.node.gh then fails t .launchShape else places t w) ∧
    (∀ rs, s.input = .placeGrid g → x.st = .placing → s.limiter.preempted = false → s.nextToPlace g x = true → x.resuming = false →
      s.findPlace x false = some rs → 0 < x.gw →
      ∃ (t : State) (y : Grid), exec .placeGrid s = .next t ∧ t.grid g = some y ∧ y.st = .dealing ∧ y.rects = rs ∧ .coreSetup g ∈ t.agenda ∧
        ∀ b r, rs[b]? = some r → ∀ i < x.node.bw * x.node.bh,
          let n := coreAt (r.1 + i % x.node.bw) (r.2 + i / x.node.bw)
          s.isHole n = false → (s.core n).grid = none ∧ (t.core n).grid = some g ∧ (t.core n).bay = b ∧
            (t.core n).gx = b % x.gw * x.node.bw + i % x.node.bw ∧ (t.core n).gy = b / x.gw * x.node.bh + i / x.node.bw) ∧
    (s.input = .placeGrid g → x.st = .placing → s.limiter.preempted = false → s.nextToPlace g x = true → x.resuming = false → x.ended = none →
      s.findPlace x false = none → s.findPlace x true = none →
      ∃ (t : State) (y : Grid), exec .placeGrid s = .next t ∧ t.grid g = some y ∧ y.st = .ending ∧ y.ended = some { status := 1, cause := Cause.placement.code }) ∧
    (s.input = .coreSetup g → x.st = .dealing → x.trig = 0 →
      (x.setUp = none → x.node.setup = 0 → look 0 s.setups x.ctx = 0 → ∃ (t : State) (y : Grid), exec .coreSetup s = .next t ∧ t.grid g = some y ∧
        y.setUp = some {} ∧ .coreSetup g ∈ t.agenda) ∧
      (∀ u, x.setUp = some u → (∀ e ∈ s.coresOf g, ∀ q ∈ e.2.cq, q.foot ≠ some codeFoot) →
        let v := ((s.coresOf g).map (·.1)).foldl (fun s n => s.applySetUp u n) s
        v.feetFit g x = true → ∃ (t : State) (y : Grid), exec .coreSetup s = .next t ∧ t.grid g = some y ∧ y.undealt = v.dealList g x ∧
          y.trig = y.undealt.length ∧ y.st = .dealing ∧ .dealTask g ∈ t.agenda)) ∧
    (∀ task rest, s.input = .dealTask g → x.st = .dealing → x.undealt = task :: rest →
      let n := task.inbox.getD 0
      (s.core n).runq.length < 64 → (s.core n).inbox = [] → ∃ (t : State) (y : Grid) (k : Task), exec .dealTask s = .next t ∧ t.grid g = some y ∧ y.undealt = rest ∧
        (t.core n).runq = (s.core n).runq ++ [k] ∧ k.entry = task.entry ∧ k.args = task.args ∧ k.dealt = task.dealt ∧
        (if rest = [] then y.st ≠ .dealing else y.st = .dealing ∧ .dealTask g ∈ t.agenda) ∧
        (if x.node.foots = [] then k.age ≠ 0 ∧ .taskSelect n ∈ t.agenda else k.age = 0 ∧ .footprintCopy g n (task.dealt.getD 0) ∈ t.agenda)) ∧
    (∀ n l task, s.input = .footprintCopy g n l → l ≠ codeFoot → x.st = .dealing ∨ x.st = .running → (∀ q ∈ (s.core n).cq, q.foot ≠ some l) →
      ((s.core n).runq.find? fun t => t.dealt = some l && t.age = 0) = some task →
      (task.pins ≠ [] → ∃ (t : State) (k : Task), exec .footprintCopy s = .next t ∧ k ∈ (t.core n).runq ∧ k.dealt = some l ∧ k.age ≠ 0 ∧ .taskSelect n ∈ t.agenda) ∧
      (task.pins = [] → (∀ f ∈ x.node.foots, inBounds f.handle.data (f.source l) f.len = true) →
        (∀ r ∈ x.node.foots.map (fun f => (f.dst, f.len)), ∀ p ∈ s.pinned n l, pinMeets r p = false) →
        ∃ (t : State) (qs : _), exec .footprintCopy s = .next t ∧ (t.core n).cq = (s.core n).cq ++ qs ∧ qs.length = x.node.foots.length ∧
          ∀ (i : Nat) (f : Foot) (q : CopyCmd), x.node.foots[i]? = some f → qs[i]? = some q → q.op = .copy ∧ q.total = f.len ∧ q.foot = some l ∧
            q.src = ⟨withAddr f.handle.data (f.source l), .cap⟩ ∧ q.dst = exactData (localVA f.dst))))

/-- R72, R81, R83, R279-R283, R468: a grid whose tasks have triggered releases its successors; a grid in Ending writes its status,
decrements its counter, lets its queue advance, releases its successors and returns its cores; a grid at its boundary is saved. -/
def Obligations.GridsEndAndSave : Prop :=
  ∀ (s : State) (g : Nat) (x : Grid), s.grid g = some x →
    let moves (t : State) (n : Nat) : Prop := .completionRelease g ∈ t.agenda ∧ ∃ y, t.grid g = some y ∧ y.stage = n
    let counts (s : State) (va : Nat) (tag : Nat) (p : State → Prop) : Prop := isFabric va = false → ∀ pa u,
      s.findCell x.agent va .cadd = (.cell pa, u) → (u.granule pa).poison = false →
      u.cutOff (clusterOf (serviceCore x.region)) (u.homeCluster pa) = false →
      let who : Waiter := ⟨thisDevice, 6, 0, x.region, 16, 0⟩
      let ask : DeskReq := { va := va, pa := pa, ctx := x.ctx, who := who, seq := tag, prio := x.node.prio, qos := x.node.qos, n := -1 }
      ∀ st v e w, u.desk .cadd ask = (.done st v e, w) → w.grid g = some x → p w
    (s.input = .triggerRelease g → x.released = false → x.st ≠ .ending → s.postedLeft g x = false → x.succAt = 0 →
      (x.node.succ = 0 → ∃ (t : State) (y : Grid), exec .triggerRelease s = .next t ∧ t.grid g = some y ∧ y.released = true ∧ t.mem = s.mem) ∧
      (∀ node pred u1 u2, x.node.succ = 1 → s.schedNum x.region x.ctx x.node.slist 8 = (.ok (some node), u1) →
        u1.schedNum x.region x.ctx (node + 64) 8 = (.ok (some pred), u2) → pred ≠ 0 → counts u2.drawn pred u2.fresh fun w =>
          ∃ (t : State) (y : Grid), exec .triggerRelease s = .next t ∧ t.grid g = some y ∧ y.released = true ∧ t.mem = w.mem)) ∧
    (s.input = .completionRelease g → x.st = .ending →
      (x.stage = 0 → x.waitSeq = 0 → (∀ h ∈ s.holds, h.who.kind ≠ 1) → s.settled g x = true → ∃ t : State, exec .completionRelease s = .next t ∧ moves t 1 ∧
        t.mem = s.mem) ∧
      (∀ ps u, x.stage = 1 → isFabric x.errAddr = false → s.ownFabricParts x.agent .write true (sectors 3 x.errAddr 64) = (.ok (some ps), u) →
        ps.any (fun p => u.typedAt p.1 p.2) = false → u.beyond x.region ps = false → u.grid g = some x →
        ∃ t : State, exec .completionRelease s = .next t ∧ moves t 2 ∧ t.mem = (u.writeParts x.node.qos .other none .plain ps (s.statusRecord x)).mem) ∧
      (x.stage = 2 → x.waitSeq = 0 → counts s.drawn x.counter s.fresh fun w => ∃ t : State, exec .completionRelease s = .next t ∧ moves t 3 ∧
        t.mem = w.mem) ∧
      (∀ q, x.stage = 3 → x.waitSeq = 0 → s.queue x.region (x.queue % 16) = some q → q.num = x.attach → q.detaching = false →
        let failed : Prop := ∃ e, x.ended = some e ∧ e.status ≠ 0
        ∃ (t : State) (p : Queue), exec .completionRelease s = .next t ∧ moves t 4 ∧ t.mem = s.mem ∧ t.queue x.region (x.queue % 16) = some p ∧
          p.running = q.running - 1 ∧ (p.stopped = true ↔ q.stopped = true ∨ failed ∧ bit x.flags 2 = true) ∧ .queueAgentPop x.queue ∈ t.agenda) ∧
      (x.stage = 4 → x.released = true → ∃ t : State, exec .completionRelease s = .next t ∧ moves t 5 ∧ t.mem = s.mem) ∧
      (∀ u, x.stage = 5 → isFabric (x.addr + 1) = false → s.rewriteFlags x.agent (x.addr + 1) false = (.ok (some ()), u) → u.cores = s.cores →
        ∃ t : State, exec .completionRelease s = .next t ∧ t.grid g = none ∧ ∀ n, (s.core n).grid = some g → t.core n = {})) ∧
    (s.input = .preemptBoundary g → x.st = .stopping → s.unsettled g = false →
      (x.node.save ≠ 0 → ∃ (t : State) (y : Grid), exec .preemptBoundary s = .next t ∧ t.grid g = some y ∧ y.st = .saving ∧ .saveComplete g ∈ t.agenda) ∧
      (x.node.save = 0 → x.ended = none → x.thermal = false → ∃ (t : State) (y : Grid) (e : EndCause), exec .preemptBoundary s = .next t ∧ t.grid g = some y ∧ y.st = .ending ∧
        y.ended = some e ∧ e.status = 1 ∧ e.cause = Cause.saveFault.code ∧ .completionRelease g ∈ t.agenda)) ∧
    (s.input = .saveComplete g → x.st = .saving →
      (x.node.save % 0x10000 ≠ 0 → x.ended = none → x.thermal = false → ∃ (t : State) (y : Grid) (e : EndCause), exec .saveComplete s = .next t ∧ t.grid g = some y ∧
        y.st = .ending ∧ y.ended = some e ∧ e.cause = Cause.saveFault.code) ∧
      (∀ places u, x.node.save % 0x10000 = 0 → x.ended = none → x.thermal = false →
        s.findAreas x.agent .write (s.saveAreas g x 1) = (.ok (some places), u) → (∀ l ∈ places, ∀ p ∈ l, u.typedAt p.1 p.2 = false) →
        u.grids = s.grids → u.cores = s.cores →
        ∃ (t : State) (y : Grid), exec .saveComplete s = .next t ∧ t.grid g = some y ∧ y.st = .saved ∧ y.rects = [] ∧ y.last = x.rects ∧
          y.saved.length = (s.coresOf g).length ∧ (∀ n, (s.core n).grid = some g → (t.core n).grid = none) ∧
          t.mem = ((List.range (s.saveAreas g x 1).length).foldl (fun v i =>
            v.writePacked (places.getD i []) ((s.saveAreas g x 1).getD i (0, [])).2) u.drawn).mem))

/-! ## Links, packets and replies (spec/02_links.md R29-R31, R42-R48, spec/18_isa_memory.md R363, R366,
spec/19_isa_sync_tasks_remote.md R402-R404, spec/08_memory_and_translation.md R144, R158) -/

/-- R29-R31, R44-R46, R122: a group in order is accepted and its acknowledgement empties the replay buffer; a bad one is counted, and
the eighth failure of one group makes the port retrain; a packet that has not been accepted before goes on in the mesh, and where it
arrives it is performed once and answered. -/
def Obligations.LinksAndPackets : Prop :=
  (∀ (s : State) (p : Nat),
    let q := s.port p
    (∀ (seq : BitVec 12) data (crc : BitVec 32) (ack : BitVec 12) (again : Bool), s.input = .groupReceive p seq data crc ack again → q.state = 2 →
      let bad : Prop := data.length ≠ 256 ∨ crc32c data ≠ crc.toNat
      let due : Prop := seq.toNat = q.rxSeq
      let left := if ack.toNat = q.txSeq then [] else q.replay.dropWhile fun g => g.num != ack.toNat
      (bad → ∃ t : State, exec .groupReceive s = .next t ∧ (t.port p).rxSeq = q.rxSeq ∧
        bits (t.port p).fpctl.toNat 31 24 = min 255 (bits q.fpctl.toNat 31 24 + 1) ∧
        if due ∧ 8 ≤ q.run + 1 then (t.port p).state = 1 ∧ (t.port p).run = 0 ∧ (t.port p).replay.map (·.num) = q.replay.map (·.num) ∧
          bits (t.port p).fpctl.toNat 15 12 = min 15 (bits q.fpctl.toNat 15 12 + 1)
        else (t.port p).state = 2 ∧ (t.port p).replay = q.replay ∧ (t.port p).run = if due then q.run + 1 else q.run) ∧
      (¬bad → q.queue = [] → q.hostQueue = [] →
        (again = false → q.finishing = false → ∃ t : State, exec .groupReceive s = .next t ∧ (t.port p).state = 2 ∧
          (t.port p).rxSeq = (if due then (q.rxSeq + 1) % 4096 else q.rxSeq) ∧
          (due → (t.port p).acked = q.rxSeq ∧ (t.port p).run = 0 ∧ (t.port p).received = q.received + 1) ∧
          (t.port p).replay = if ack.toNat ≠ q.txSeq ∧ left = [] then q.replay else left) ∧
        (∀ g rest, again = true → q.replay = g :: rest → ack.toNat = g.num → g.num ≠ q.txSeq → ∃ t : State, exec .groupReceive s = .next t ∧
          if 8 ≤ g.fails + 1 then (t.port p).state = 1 else (t.port p).state = 2 ∧ (t.port p).replay = { g with fails := g.fails + 1 } :: rest))) ∧
    (∀ failed, s.input = .laneLockLoss p failed → ∃ t : State, exec .laneLockLoss s = .next t ∧
      (t.port p).state = if q.state = 0 ∨ q.state = 3 then q.state else if failed = true then 0 else 1) ∧
    (∀ ok lo hi, s.input = .retrainEnd p ok lo hi → q.state = 1 →
      let low := max lo 0x10
      let high := min hi (if p = 32 then 0x12 else 0x11)
      high < 256 → ∃ t : State, exec .retrainEnd s = .next t ∧
        (ok = true → low ≤ high → (t.port p).state = 2 ∧ bits (t.port p).fpctl.toNat 11 4 = high ∧ (p = 32 → t.ubgen = high)) ∧
        (ok = true → high < low → (t.port p).state = 0) ∧
        (ok = false → (t.port p).state = if 2 ≤ (q.failTimes.filter fun f => s.time < f + 1200000000).length then 3 else 1))) ∧
  (∀ (s : State) (p : Packet), s.input = .fabricPacket p → s.phase = .up →
    (p.port < 64 →
      (p.dst ≠ thisDevice ∨ (s.port p.port).state ≠ 2 ∨ (p.src, p.num) ∈ s.fabricSeen → exec .fabricPacket s = .next s) ∧
      (p.dst = thisDevice → (s.port p.port).state = 2 → (p.src, p.num) ∉ s.fabricSeen → ∃ t : State, exec .fabricPacket s = .next t ∧
        .fabricPacket { p with port := p.port + 64 } ∈ t.coming ∧ (p.src, p.num) ∈ t.fabricSeen ∧ t.mem = s.mem ∧ t.toFabric = s.toFabric)) ∧
    (64 ≤ p.port →
      let agent : Agent := { ctx := p.ctx, die := p.port % 64 / 8 }
      let back (t u : State) (op : FabricOp) : Prop := u.upPorts ≠ [] → ∃ q, t.toFabric = u.toFabric ++ [q] ∧
        q.dst = p.src ∧ q.entry = p.entry ∧ q.core = p.core ∧ q.qos = p.qos ∧ q.op = op
      (∀ n parts u, p.op = .load n → s.ownFabricParts agent .read p.acq (partsOf p.addr n) = (.ok (some parts), u) →
        let got := (u.readParts p.qos parts).1
        let w := (u.readParts p.qos parts).2
        ∃ t : State, exec .fabricPacket s = .next t ∧ t.mem = w.mem ∧ back t w (if got.poison = true then .refusal .poison
          else .loadReply (ofBytes got.bytes) (if got.bnd = true then .bounded else .exact) 0)) ∧
      (∀ bs barrier parts u, p.op = .store bs false false false barrier →
        s.ownFabricParts agent .write p.acq (partsOf p.addr bs.length) = (.ok (some parts), u) →
        if parts.any (fun x => u.typedAt x.1 x.2) = true then
          ∃ t : State, exec .fabricPacket s = .next t ∧ t.mem = u.mem ∧ back t u (.refusal .type)
        else
          let w := u.writeParts p.qos .other none .plain parts bs
          ∃ t : State, exec .fabricPacket s = .next t ∧ t.mem = w.mem ∧ back t w .storeAck ∧
            ∀ dev addr, barrier = some (dev, addr) → ∃ r, .bpendsub r ∈ t.coming ∧ r.n = (bs.length : Int) ∧ r.ctx = p.ctx ∧
              r.va = if dev = thisDevice then addr else 2 ^ 63 + dev * 2 ^ 50 + addr) ∧
      (∀ n c u, p.op = .load n → s.ownFabricParts agent .read p.acq (partsOf p.addr n) = (.error c, u) →
        ∃ t : State, exec .fabricPacket s = .next t ∧ t.mem = u.mem ∧ back t u (.refusal c)) ∧
      (∀ n u, p.op = .load n → s.ownFabricParts agent .read p.acq (partsOf p.addr n) = (.ok none, u) →
        exec .fabricPacket s = .next (u.emit (.fabricPacket p))) ∧
      (∀ a, p.op = .answer a → a.st ≠ 11 → exec .fabricPacket s = .next (s.answered a)) ∧
      (p.op = .storeAck → exec .fabricPacket s = .next (s.replyArrived ⟨p.core, p.entry, .none, .none, p.src, [], []⟩))))

/-- R46-R48, R144, R158, R276, R366, R403, R404: a reply writes the registers of its entry or marks them; an acknowledgement ends
a posted access, and a refusal or a lapse of time ends its grid; an elided page is filled before its first write; a register image
is written. -/
def Obligations.RepliesArrive : Prop :=
  ∀ (s : State) (n : Nat),
    (∀ (r : Reply) (b : Board) (i : Instr), (s.input = .memoryReply r ∧ i = .memoryReply ∨ s.input = .rcallReply r ∧ i = .rcallReply) →
      s.boardOf r.entry = some (n, b) →
      let gone (t : State) : Prop := (∀ x ∈ (t.core n).board, x.seq ≠ b.seq) ∧ t.mem = s.mem
      (∀ size sgn capLoad, b.kind = .load size sgn capLoad → r.status = .none → b.reg ≠ 0 →
        let v := r.vals.getD 0 {}
        let tag := if v.tag = .bounded then .bounded else if capLoad = true then v.tag else .exact
        ∃ t : State, exec i s = .next t ∧ gone t ∧ (t.slot b.slot).reg b.reg = ⟨extend sgn size v.data.toNat, tag⟩ ∧
          (t.slot b.slot).pc = (s.slot b.slot).pc ∧ ∀ x, x ≠ b.reg → (t.slot b.slot).reg x = (s.slot b.slot).reg x) ∧
      (b.kind = .call → r.status = .none → b.reg ≠ 0 → ∃ t : State, exec i s = .next t ∧ gone t ∧
        (∀ j < b.count, (t.slot b.slot).reg (b.reg + j) = r.vals.getD j {}) ∧
        ∀ x, x < b.reg ∨ b.reg + b.count ≤ x → (t.slot b.slot).reg x = (s.slot b.slot).reg x) ∧
      (b.kind ≠ .element → r.status ≠ .none → ∃ t : State, exec i s = .next t ∧ gone t ∧ ∀ j < b.count, b.reg + j ≠ 0 →
        (b.reg + j, (⟨r.status, r.rcode, r.dev, b.addr⟩ : Mark)) ∈ (t.slot b.slot).marks)) ∧
    (∀ (r : Reply) (p : Posted), s.input = .storeAck r → s.boardOf r.entry = none → s.postedOf r.entry = some (n, p) →
      (r.status = .none → ∃ t : State, exec .storeAck s = .next t ∧ (∀ x ∈ (t.core n).posted, x.tag ≠ p.tag) ∧ t.slots = s.slots ∧ t.mem = s.mem) ∧
      (∀ x, r.status ≠ .none → p.grid ≠ 0xFFFF → s.grid p.grid = some x → x.st = .running → x.ended = none → x.rects ≠ [] →
        ∃ (t : State) (y : Grid) (e : EndCause), exec .storeAck s = .next t ∧ (∀ x ∈ (t.core n).posted, x.tag ≠ p.tag) ∧ t.grid p.grid = some y ∧ y.st = .stopping ∧
          y.ended = some e ∧ e.status = 1 ∧ e.cause = r.status.code ∧ e.taddr = p.addr)) ∧
    (∀ core tag b, s.input = .replyDeadline core tag → s.boardOf tag = some (n, b) → b.kind ≠ .element →
      (s.time < b.due → ∃ t : State, exec .replyDeadline s = .next t ∧ .replyDeadline core tag ∈ t.agenda ∧ t.cores = s.cores ∧ t.slots = s.slots) ∧
      (b.due ≤ s.time → ∃ t : State, exec .replyDeadline s = .next t ∧ (∀ x ∈ (t.core n).board, x.seq ≠ b.seq) ∧ ∀ j < b.count, b.reg + j ≠ 0 →
        (b.reg + j, (⟨.replyLost, .none, 0, b.addr⟩ : Mark)) ∈ (t.slot b.slot).marks)) ∧
    (∀ core tag p x, s.input = .postedTimeout core tag → s.postedOf tag = some (n, p) →
      (s.time < p.due → ∃ t : State, exec .postedTimeout s = .next t ∧ .postedTimeout core tag ∈ t.agenda ∧ t.cores = s.cores) ∧
      (p.due ≤ s.time → p.grid ≠ 0xFFFF → s.grid p.grid = some x → x.st = .running → x.ended = none → x.rects ≠ [] →
        ∃ (t : State) (y : Grid) (e : EndCause), exec .postedTimeout s = .next t ∧ t.grid p.grid = some y ∧ y.st = .stopping ∧ y.ended = some e ∧ e.status = 1 ∧
          e.cause = Cause.postedTimeout.code ∧ e.taddr = p.addr)) ∧
    (∀ ctx va, s.input = .elMaterialise ctx va →
      (s.draining ctx va = true → exec .elMaterialise s = .next (s.emit (.elMaterialise ctx va))) ∧
      (∀ l e, s.draining ctx va = false → s.walk ctx va = .leaf l e → l.el = true → bit l.word 3 = true → l.size % 32 = 0 →
        (e + 8 ≤ l.frame ∨ l.frame + l.size ≤ e) → l.frame % 32 = 0 →
        ∃ t : State, exec .elMaterialise s = .next t ∧
          (∀ i < l.size, t.byte (l.frame + i) = s.byte (bits s.eltab.toNat 46 13 * 8192 + 32 * l.pat + i % 32)) ∧
          bit (t.num e 8) 7 = false ∧ ∀ pa, (pa < l.frame ∨ l.frame + l.size ≤ pa) → (pa < e ∨ e + 8 ≤ pa) → t.byte pa = s.byte pa)) ∧
    (∀ slot reg v, s.input = .registerImageWrite slot reg v →
      ((s.slot slot).st = .lent → exec .registerImageWrite s = .next s) ∧
      ((s.slot slot).st ≠ .lent → ∃ t : State, exec .registerImageWrite s = .next t ∧ (reg ≠ 0 → (t.slot slot).reg reg = v) ∧
        (∀ x, x ≠ reg → (t.slot slot).reg x = (s.slot slot).reg x) ∧ t.mem = s.mem))

/-! ## The package and the start (spec/01_package.md R17-R28, spec/03_start.md R53-R60, spec/05_scheduling.md R88,
spec/06_network_and_slices.md R94) -/

/-- R17-R25, R88, R94: a governor's window moves its region by one level; the power limiter and the thermal limits enter and leave
their stages; a scrub finds the soft errors of its part; a failed crossing ends every grid and stops the device; a window of the
bandwidth shares begins afresh. -/
def Obligations.PackageEvents : Prop :=
  ∀ (s : State),
    (∀ r occupied capacity, s.input = .governorWindow r occupied capacity → (s.region r).target = none →
      let g := s.region r
      let high := bits g.nrctl.toNat 11 8
      let low := bits g.nrctl.toNat 15 12
      let under : Prop := low < high ∧ 8 * occupied < low * capacity
      let want := if high * capacity < 8 * occupied then g.cur + 1 else if under ∧ g.low = 3 then g.cur - 1 else g.cur
      let want := if g.pinned = true then g.ceiling else max g.floor_ (min g.ceiling want)
      let next := if g.cur < want then g.cur + 1 else g.cur - 1
      g.low ≤ 3 → ∃ t : State, exec .governorWindow s = .next t ∧ (t.region r).low = (if under ∧ g.low < 3 then g.low + 1 else 0) ∧
        if want = g.cur then (t.region r).target = none ∧ (t.region r).cur = g.cur
        else (t.region r).target = some next ∧ (t.region r).cur = min g.cur next ∧ .levelStepDone r ∈ t.agenda) ∧
    (∀ r n, s.input = .levelStepDone r → (s.region r).target = some n → n < 16 →
      ∃ t : State, exec .levelStepDone s = .next t ∧ (t.region r).cur = n ∧ (t.region r).target = none) ∧
    (∀ watts average burst, s.input = .limiterSample watts average burst → s.limiter.thermal = false →
      let above : Prop := 2600 < watts ∨ 2300 < average ∨ 2300 < watts ∧ 10000 < burst
      let st := s.limiter.stage
      let new := if above then (if st < 2 then st + 1 else if st = 2 ∧ (List.range 16).all (fun r => (s.region r).ceiling == 0) = true then 3 else st) else st - 1
      ∃ t : State, exec .limiterSample s = .next t ∧ t.limiter.stage = new ∧ t.mem = s.mem ∧
        (above → 2 ≤ new → ∀ r < 16, (t.region r).limit = (s.region r).ceiling - 1) ∧ (new < 2 → ∀ r < 16, (t.region r).limit = 8)) ∧
    (∀ die temp, s.input = .thermalLimit die temp → if 95 ≤ temp ∧ s.limiter.thermal = false then ∃ t : State, exec .thermalLimit s = .next t ∧
        t.limiter = { s.limiter with thermal := true } ∧ ∀ r < 16, (t.region r).limit = (s.region r).ceiling - 1
      else exec .thermalLimit s = .next s) ∧
    (∀ die temp, s.input = .thermalLimitExit die temp → if temp < 92 ∧ s.limiter.thermal = true then ∃ t : State, exec .thermalLimitExit s = .next t ∧
        t.limiter = { s.limiter with thermal := false } ∧ (s.limiter.stage < 2 → ∀ r < 16, (t.region r).limit = 8)
      else exec .thermalLimitExit s = .next s) ∧
    (∀ die temp, s.input = .thermalPreempt die temp → if 105 ≤ temp ∧ s.limiter.preempted = false then
        ∃ t : State, exec .thermalPreempt s = .next t ∧ t.limiter = { s.limiter with preempted := true } ∧
          ∀ g x, s.grid g = some x → x.st = .running → ∃ y, t.grid g = some y ∧ y.st = .stopping ∧ y.thermal = true ∧ .preemptBoundary g ∈ t.agenda
      else exec .thermalPreempt s = .next s) ∧
    (s.input = .thermalClear → if s.limiter.preempted = true then ∃ t : State, exec .thermalClear s = .next t ∧
        t.limiter = { s.limiter with preempted := false } ∧ ∀ g x, s.grid g = some x →
          (x.st = .placing ∨ x.st = .saved ∧ x.thermal = true) → .placeGrid g ∈ t.agenda ∧ ∃ y, t.grid g = some y ∧ y.st = .placing
      else exec .thermalClear s = .next s) ∧
    (∀ cluster row, s.input = .sliceScrub cluster row → ∃ t : State, exec .sliceScrub s = .next t ∧ t.mem = s.mem ∧ ∀ f ∈ t.flips, f ∈ s.flips ∧
      ∀ q, f.at_ = .slice q → ¬(s.homeCluster q = cluster ∧ bits q 16 7 = row)) ∧
    (∀ bank row, s.input = .hbmRowScrub bank row → ∃ t : State, exec .hbmRowScrub s = .next t ∧ t.mem = s.mem ∧ ∀ f ∈ t.flips, f ∈ s.flips ∧
      ∀ q, f.at_ = .memory q → ¬(q < hbmEnd ∧ s.bankOfPA q = bank ∧ (s.channel q).2 / 1024 = row)) ∧
    (∀ place n, s.input = .softError place n → 1 ≤ n →
      (∀ pa, place = .memory pa → ∃ (t : State) (f : Flip), exec .softError s = .next t ∧ f ∈ t.flips ∧
        f.at_ = .memory (if pa < hbmEnd then pa / 32 * 32 else pa / 8 * 8) ∧ n ≤ f.bits ∧ t.mem = s.mem) ∧
      (∀ pa, place = .slice pa → ∃ (t : State) (f : Flip), exec .softError s = .next t ∧ f ∈ t.flips ∧ f.at_ = .slice (pa / 32 * 32) ∧ n ≤ f.bits ∧
        t.mem = s.mem) ∧
      (∀ k r w, place = .register k r w ∨ place = .calibration k r w → ∃ (t : State) (f : Flip), exec .softError s = .next t ∧ f ∈ t.flips ∧ f.at_ = place ∧ n ≤ f.bits) ∧
      (∀ r, place = .serviceCore r → 2 ≤ n → ∃ t : State, exec .softError s = .next t ∧ t.phase = .stopped) ∧
      (∀ c, place = .instructionBuffer c → exec .softError s = .next s)) ∧
    (∀ h lost, s.input = .crossingFail h lost →
      if lost = true ∨ 2 ≤ ((look [] s.crossingFails h).filter fun t => s.time < t + 1200000000).length then
      ∃ t : State, exec .crossingFail s = .next t ∧ t.crossingDown = some (h % 4) ∧ t.phase = .stopped ∧ ∀ g x, s.grid g = some x → x.st = .running → x.ended = none → x.rects ≠ [] →
        ∃ y e, t.grid g = some y ∧ y.st = .stopping ∧ y.ended = some e ∧ e.status = 1 ∧ e.cause = Cause.crossingDown.code
      else ∃ t : State, exec .crossingFail s = .next t ∧ t.phase = s.phase ∧ t.crossingDown = s.crossingDown ∧ t.grids = s.grids ∧ t.mem = s.mem) ∧
    (s.input = .enforcementWindow → ∃ t : State, exec .enforcementWindow s = .next t ∧ t.mem = s.mem ∧
      ∀ c, c ∈ t.charges ↔ c ∈ s.charges ∧ c.window = s.time / 4096)

/-- R23, R53-R57, R60: power-on, a reset from the carrier and a watchdog begin a start with its first step, with the image that the
host has written if there is one; a step that passes is recorded and the next one follows; a required step that fails holds the
start; without power everything but the flash, the fuses and the arrays is lost. -/
def Obligations.StartsAndStops : Prop :=
  ∀ (s : State),
    let kept (t : State) : Prop := t.flashA = s.flashA ∧ t.flashB = s.flashB ∧ t.bootSlot = s.bootSlot ∧ t.images = s.images
    let lost (t : State) : Prop := t.mem = [] ∧ t.slots = [] ∧ t.cores = [] ∧ t.grids = [] ∧ t.granules = [] ∧ t.cur = State.reset.cur ∧
      t.fuses = s.fuses
    let begins (i : Instr) (env : StartEnv) (p : State → Prop) : Prop := ∃ t : State, exec i s = .next t ∧ lost t ∧ t.phase = .stepping 1 ∧
      .powerOn env 1 ∈ t.agenda ∧ t.powered = true ∧ (env.newImage = none → p t) ∧
      ∀ image, env.newImage = some image → t.bootSlot = 1 - s.startRec.slot % 2 ∧ t.imageIn t.bootSlot = image
    (∀ env, s.input = .powerOn env 0 → begins .powerOn env kept) ∧
    (∀ env, s.input = .carrierReset env → begins .carrierReset env kept) ∧
    (∀ n env, s.input = .startWatchdog n env →
      (s.phase ≠ .stepping n → exec .startWatchdog s = .next s) ∧
      (s.phase = .stepping n → s.stepDue n = false → begins .startWatchdog env kept) ∧
      (s.phase = .stepping n → s.stepDue n = true → s.startRec.seq + 3 < 2 ^ 32 → entryFails (s.startRec.entry n) = 0 →
        env.newImage = none →
        if entryBegun (s.startRec.entry n) = true ∧ entryDone (s.startRec.entry n) = false ∧ stepHasAlternate n = false then
          exec .startWatchdog s = .next s
        else ∃ t : State, exec .startWatchdog s = .next t ∧ lost t ∧ t.phase = .stepping 1 ∧ .powerOn env 1 ∈ t.agenda ∧
          entryBegun (t.startRec.entry n) = true ∧ entryDone (t.startRec.entry n) = false)) ∧
    (∀ env n, s.input = .powerOn env n → 1 ≤ n → s.phase = .stepping n → s.startRec.seq + 3 < 2 ^ 32 →
      let e := s.startRec.entry n
      (entryBegun e = false ∨ entryDone e = true) → entryMethod e ≠ 2 →
      (s.stepResult env n false = .pass → n < 16 → ∃ t : State, exec .powerOn s = .next t ∧ t.phase = .stepping (n + 1) ∧ .powerOn env (n + 1) ∈ t.agenda ∧
        entryBegun (t.startRec.entry n) = true ∧ entryDone (t.startRec.entry n) = true ∧ entryMethod (t.startRec.entry n) = 0 ∧
        ∀ m, m ≠ n → t.startRec.entry m = s.startRec.entry m) ∧
      (s.stepResult env n false = .pass → n = 16 → ∃ t : State, exec .powerOn s = .next t ∧ t.phase = .up ∧ s.fuses ≤ t.fuses) ∧
      (s.stepResult env n false = .hang → ∃ t : State, exec .powerOn s = .next t ∧ t.phase = .stepping n ∧ entryBegun (t.startRec.entry n) = true ∧
        entryDone (t.startRec.entry n) = false) ∧
      (∀ c, s.stepResult env n false = .fail c → n = 5 ∨ n = 10 ∨ n = 14 ∨ n = 15 ∨ n = 16 → ∃ t : State, exec .powerOn s = .next t ∧ t.phase = .held ∧
        (∀ lo hi, env.range 32 = some (lo, hi) → lo ≤ 0x10 → 0x10 ≤ hi → t.ubgen = 0x10 ∧ (t.port 32).state = 2) ∧
        entryCause (t.startRec.entry n) = c % 2 ^ 16 ∧ entryBegun (t.startRec.entry n) = true ∧ entryDone (t.startRec.entry n) = false) ∧
      (∀ c, s.stepResult env n false = .fail c → n = 2 → ∃ t : State, exec .powerOn s = .next t ∧ t.phase = .dead)) ∧
    (∀ writing, s.input = .powerLoss writing → ∃ t : State, exec .powerLoss s = .next t ∧ lost t ∧ t.powered = false ∧
      (writing = false → kept t) ∧
      (writing = true → if s.writesA = true then t.flashA.valid = false ∧ t.flashB = s.flashB else t.flashB.valid = false ∧ t.flashA = s.flashA)) ∧
    (s.input = .thermalShutdown → ∃ t : State, exec .thermalShutdown s = .next t ∧ kept t ∧ lost t ∧ t.powered = false)
end

