-- ==== Sys2Proof/Laws/Maps.lean ====
section
/-! SUPPORT. What is read from a table after a key has been written, changed or removed. -/

namespace Sys2Proof.Machine

theorem look_put {α : Type} (d : α) (m : List (Nat × α)) (i j : Nat) (x : α) :
    look d (put m i x) j = if i = j then x else look d m j := by
  induction m with
  | nil => simp [put, look]
  | cons e m ih =>
    obtain ⟨k, v⟩ := e
    by_cases h : k = i
    · subst h
      by_cases hj : k = j <;> simp [put, look, hj]
    · by_cases hl : i < k
      · by_cases hj : i = j
        · subst hj
          simp [put, look, h, hl]
        · simp [put, look, h, hl, hj]
      · by_cases hk : k = j
        · subst hk
          simp [put, look, h, hl, Ne.symm h]
        · simp [put, look, h, hl, hk, ih]

@[simp] theorem look_put_same {α : Type} (d : α) (m : List (Nat × α)) (i : Nat) (x : α) : look d (put m i x) i = x := by
  simp [look_put]

theorem look_put_ne {α : Type} (d : α) (m : List (Nat × α)) {i j : Nat} (x : α) (h : i ≠ j) :
    look d (put m i x) j = look d m j := by
  simp [look_put, h]

theorem look_change {α : Type} (d : α) (m : List (Nat × α)) (i j : Nat) (f : α → α) :
    look d (change d m i f) j = if i = j then f (look d m i) else look d m j := by
  simp [change, look_put]

@[simp] theorem look_change_same {α : Type} (d : α) (m : List (Nat × α)) (i : Nat) (f : α → α) :
    look d (change d m i f) i = f (look d m i) := by
  simp [look_change]

theorem look_change_ne {α : Type} (d : α) (m : List (Nat × α)) {i j : Nat} (f : α → α) (h : i ≠ j) :
    look d (change d m i f) j = look d m j := by
  simp [look_change, h]

theorem look_without {α : Type} (d : α) (m : List (Nat × α)) (i j : Nat) :
    look d (without m i) j = if i = j then d else look d m j := by
  induction m with
  | nil => simp [without, look]
  | cons e m ih =>
    obtain ⟨k, v⟩ := e
    rw [without] at ih
    by_cases h : k = i
    · subst h
      by_cases hj : k = j
      · subst hj
        simpa [without, look] using ih
      · simpa [without, look, hj] using ih
    · by_cases hj : k = j
      · subst hj
        simp [without, look, h, Ne.symm h]
      · simpa [without, look, h, hj] using ih

end Sys2Proof.Machine
end

