-- ==== Sys2Proof/Laws/State.lean ====
section
/-! SUPPORT. What each change of a part of the state leaves as it was, field by field, and what the changed part then
reads as. -/

namespace Sys2Proof.Machine

open Sys2Proof

@[simp] theorem State.setSlot_fresh (s : State) (k : Nat) (x : Slot) : (s.setSlot k x).fresh = s.fresh := rfl
@[simp] theorem State.setSlot_agenda (s : State) (k : Nat) (x : Slot) : (s.setSlot k x).agenda = s.agenda := rfl
@[simp] theorem State.setSlot_input (s : State) (k : Nat) (x : Slot) : (s.setSlot k x).input = s.input := rfl
@[simp] theorem State.setSlot_cur (s : State) (k : Nat) (x : Slot) : (s.setSlot k x).cur = s.cur := rfl
@[simp] theorem State.setSlot_next (s : State) (k : Nat) (x : Slot) : (s.setSlot k x).next = s.next := rfl
@[simp] theorem State.setSlot_time (s : State) (k : Nat) (x : Slot) : (s.setSlot k x).time = s.time := rfl
@[simp] theorem State.setSlot_phase (s : State) (k : Nat) (x : Slot) : (s.setSlot k x).phase = s.phase := rfl
@[simp] theorem State.setSlot_limiter (s : State) (k : Nat) (x : Slot) : (s.setSlot k x).limiter = s.limiter := rfl
@[simp] theorem State.setSlot_mem (s : State) (k : Nat) (x : Slot) : (s.setSlot k x).mem = s.mem := rfl
@[simp] theorem State.setSlot_granules (s : State) (k : Nat) (x : Slot) : (s.setSlot k x).granules = s.granules := rfl
@[simp] theorem State.setSlot_lines (s : State) (k : Nat) (x : Slot) : (s.setSlot k x).lines = s.lines := rfl
@[simp] theorem State.setSlot_tlb (s : State) (k : Nat) (x : Slot) : (s.setSlot k x).tlb = s.tlb := rfl
@[simp] theorem State.setSlot_drains (s : State) (k : Nat) (x : Slot) : (s.setSlot k x).drains = s.drains := rfl
@[simp] theorem State.setSlot_cores (s : State) (k : Nat) (x : Slot) : (s.setSlot k x).cores = s.cores := rfl
@[simp] theorem State.setSlot_clusters (s : State) (k : Nat) (x : Slot) : (s.setSlot k x).clusters = s.clusters := rfl
@[simp] theorem State.setSlot_banks (s : State) (k : Nat) (x : Slot) : (s.setSlot k x).banks = s.banks := rfl
@[simp] theorem State.setSlot_regions (s : State) (k : Nat) (x : Slot) : (s.setSlot k x).regions = s.regions := rfl
@[simp] theorem State.setSlot_ports (s : State) (k : Nat) (x : Slot) : (s.setSlot k x).ports = s.ports := rfl
@[simp] theorem State.setSlot_streams (s : State) (k : Nat) (x : Slot) : (s.setSlot k x).streams = s.streams := rfl
@[simp] theorem State.setSlot_rtab (s : State) (k : Nat) (x : Slot) : (s.setSlot k x).rtab = s.rtab := rfl
@[simp] theorem State.setSlot_ctxbase (s : State) (k : Nat) (x : Slot) : (s.setSlot k x).ctxbase = s.ctxbase := rfl
@[simp] theorem State.setSlot_eltab (s : State) (k : Nat) (x : Slot) : (s.setSlot k x).eltab = s.eltab := rfl
@[simp] theorem State.setSlot_holds (s : State) (k : Nat) (x : Slot) : (s.setSlot k x).holds = s.holds := rfl
@[simp] theorem State.setSlot_censuses (s : State) (k : Nat) (x : Slot) : (s.setSlot k x).censuses = s.censuses := rfl
@[simp] theorem State.setSlot_boosts (s : State) (k : Nat) (x : Slot) : (s.setSlot k x).boosts = s.boosts := rfl
@[simp] theorem State.setSlot_grids (s : State) (k : Nat) (x : Slot) : (s.setSlot k x).grids = s.grids := rfl
@[simp] theorem State.setSlot_flips (s : State) (k : Nat) (x : Slot) : (s.setSlot k x).flips = s.flips := rfl
@[simp] theorem State.setSlot_toHost (s : State) (k : Nat) (x : Slot) : (s.setSlot k x).toHost = s.toHost := rfl
@[simp] theorem State.setSlot_toFabric (s : State) (k : Nat) (x : Slot) : (s.setSlot k x).toFabric = s.toFabric := rfl
@[simp] theorem State.setSlot_sources (s : State) (k : Nat) (x : Slot) : (s.setSlot k x).sources = s.sources := rfl

@[simp] theorem State.onSlot_fresh (s : State) (k : Nat) (f : Slot → Slot) : (s.onSlot k f).fresh = s.fresh := rfl
@[simp] theorem State.onSlot_agenda (s : State) (k : Nat) (f : Slot → Slot) : (s.onSlot k f).agenda = s.agenda := rfl
@[simp] theorem State.onSlot_input (s : State) (k : Nat) (f : Slot → Slot) : (s.onSlot k f).input = s.input := rfl
@[simp] theorem State.onSlot_cur (s : State) (k : Nat) (f : Slot → Slot) : (s.onSlot k f).cur = s.cur := rfl
@[simp] theorem State.onSlot_next (s : State) (k : Nat) (f : Slot → Slot) : (s.onSlot k f).next = s.next := rfl
@[simp] theorem State.onSlot_time (s : State) (k : Nat) (f : Slot → Slot) : (s.onSlot k f).time = s.time := rfl
@[simp] theorem State.onSlot_phase (s : State) (k : Nat) (f : Slot → Slot) : (s.onSlot k f).phase = s.phase := rfl
@[simp] theorem State.onSlot_limiter (s : State) (k : Nat) (f : Slot → Slot) : (s.onSlot k f).limiter = s.limiter := rfl
@[simp] theorem State.onSlot_mem (s : State) (k : Nat) (f : Slot → Slot) : (s.onSlot k f).mem = s.mem := rfl
@[simp] theorem State.onSlot_granules (s : State) (k : Nat) (f : Slot → Slot) : (s.onSlot k f).granules = s.granules := rfl
@[simp] theorem State.onSlot_lines (s : State) (k : Nat) (f : Slot → Slot) : (s.onSlot k f).lines = s.lines := rfl
@[simp] theorem State.onSlot_tlb (s : State) (k : Nat) (f : Slot → Slot) : (s.onSlot k f).tlb = s.tlb := rfl
@[simp] theorem State.onSlot_drains (s : State) (k : Nat) (f : Slot → Slot) : (s.onSlot k f).drains = s.drains := rfl
@[simp] theorem State.onSlot_cores (s : State) (k : Nat) (f : Slot → Slot) : (s.onSlot k f).cores = s.cores := rfl
@[simp] theorem State.onSlot_clusters (s : State) (k : Nat) (f : Slot → Slot) : (s.onSlot k f).clusters = s.clusters := rfl
@[simp] theorem State.onSlot_banks (s : State) (k : Nat) (f : Slot → Slot) : (s.onSlot k f).banks = s.banks := rfl
@[simp] theorem State.onSlot_regions (s : State) (k : Nat) (f : Slot → Slot) : (s.onSlot k f).regions = s.regions := rfl
@[simp] theorem State.onSlot_ports (s : State) (k : Nat) (f : Slot → Slot) : (s.onSlot k f).ports = s.ports := rfl
@[simp] theorem State.onSlot_streams (s : State) (k : Nat) (f : Slot → Slot) : (s.onSlot k f).streams = s.streams := rfl
@[simp] theorem State.onSlot_rtab (s : State) (k : Nat) (f : Slot → Slot) : (s.onSlot k f).rtab = s.rtab := rfl
@[simp] theorem State.onSlot_ctxbase (s : State) (k : Nat) (f : Slot → Slot) : (s.onSlot k f).ctxbase = s.ctxbase := rfl
@[simp] theorem State.onSlot_eltab (s : State) (k : Nat) (f : Slot → Slot) : (s.onSlot k f).eltab = s.eltab := rfl
@[simp] theorem State.onSlot_holds (s : State) (k : Nat) (f : Slot → Slot) : (s.onSlot k f).holds = s.holds := rfl
@[simp] theorem State.onSlot_censuses (s : State) (k : Nat) (f : Slot → Slot) : (s.onSlot k f).censuses = s.censuses := rfl
@[simp] theorem State.onSlot_boosts (s : State) (k : Nat) (f : Slot → Slot) : (s.onSlot k f).boosts = s.boosts := rfl
@[simp] theorem State.onSlot_grids (s : State) (k : Nat) (f : Slot → Slot) : (s.onSlot k f).grids = s.grids := rfl
@[simp] theorem State.onSlot_flips (s : State) (k : Nat) (f : Slot → Slot) : (s.onSlot k f).flips = s.flips := rfl
@[simp] theorem State.onSlot_toHost (s : State) (k : Nat) (f : Slot → Slot) : (s.onSlot k f).toHost = s.toHost := rfl
@[simp] theorem State.onSlot_toFabric (s : State) (k : Nat) (f : Slot → Slot) : (s.onSlot k f).toFabric = s.toFabric := rfl
@[simp] theorem State.onSlot_sources (s : State) (k : Nat) (f : Slot → Slot) : (s.onSlot k f).sources = s.sources := rfl

@[simp] theorem State.onHere_fresh (s : State) (f : Slot → Slot) : (s.onHere f).fresh = s.fresh := rfl
@[simp] theorem State.onHere_agenda (s : State) (f : Slot → Slot) : (s.onHere f).agenda = s.agenda := rfl
@[simp] theorem State.onHere_input (s : State) (f : Slot → Slot) : (s.onHere f).input = s.input := rfl
@[simp] theorem State.onHere_cur (s : State) (f : Slot → Slot) : (s.onHere f).cur = s.cur := rfl
@[simp] theorem State.onHere_next (s : State) (f : Slot → Slot) : (s.onHere f).next = s.next := rfl
@[simp] theorem State.onHere_time (s : State) (f : Slot → Slot) : (s.onHere f).time = s.time := rfl
@[simp] theorem State.onHere_phase (s : State) (f : Slot → Slot) : (s.onHere f).phase = s.phase := rfl
@[simp] theorem State.onHere_limiter (s : State) (f : Slot → Slot) : (s.onHere f).limiter = s.limiter := rfl
@[simp] theorem State.onHere_mem (s : State) (f : Slot → Slot) : (s.onHere f).mem = s.mem := rfl
@[simp] theorem State.onHere_granules (s : State) (f : Slot → Slot) : (s.onHere f).granules = s.granules := rfl
@[simp] theorem State.onHere_lines (s : State) (f : Slot → Slot) : (s.onHere f).lines = s.lines := rfl
@[simp] theorem State.onHere_tlb (s : State) (f : Slot → Slot) : (s.onHere f).tlb = s.tlb := rfl
@[simp] theorem State.onHere_drains (s : State) (f : Slot → Slot) : (s.onHere f).drains = s.drains := rfl
@[simp] theorem State.onHere_cores (s : State) (f : Slot → Slot) : (s.onHere f).cores = s.cores := rfl
@[simp] theorem State.onHere_clusters (s : State) (f : Slot → Slot) : (s.onHere f).clusters = s.clusters := rfl
@[simp] theorem State.onHere_banks (s : State) (f : Slot → Slot) : (s.onHere f).banks = s.banks := rfl
@[simp] theorem State.onHere_regions (s : State) (f : Slot → Slot) : (s.onHere f).regions = s.regions := rfl
@[simp] theorem State.onHere_ports (s : State) (f : Slot → Slot) : (s.onHere f).ports = s.ports := rfl
@[simp] theorem State.onHere_streams (s : State) (f : Slot → Slot) : (s.onHere f).streams = s.streams := rfl
@[simp] theorem State.onHere_rtab (s : State) (f : Slot → Slot) : (s.onHere f).rtab = s.rtab := rfl
@[simp] theorem State.onHere_ctxbase (s : State) (f : Slot → Slot) : (s.onHere f).ctxbase = s.ctxbase := rfl
@[simp] theorem State.onHere_eltab (s : State) (f : Slot → Slot) : (s.onHere f).eltab = s.eltab := rfl
@[simp] theorem State.onHere_holds (s : State) (f : Slot → Slot) : (s.onHere f).holds = s.holds := rfl
@[simp] theorem State.onHere_censuses (s : State) (f : Slot → Slot) : (s.onHere f).censuses = s.censuses := rfl
@[simp] theorem State.onHere_boosts (s : State) (f : Slot → Slot) : (s.onHere f).boosts = s.boosts := rfl
@[simp] theorem State.onHere_grids (s : State) (f : Slot → Slot) : (s.onHere f).grids = s.grids := rfl
@[simp] theorem State.onHere_flips (s : State) (f : Slot → Slot) : (s.onHere f).flips = s.flips := rfl
@[simp] theorem State.onHere_toHost (s : State) (f : Slot → Slot) : (s.onHere f).toHost = s.toHost := rfl
@[simp] theorem State.onHere_toFabric (s : State) (f : Slot → Slot) : (s.onHere f).toFabric = s.toFabric := rfl
@[simp] theorem State.onHere_sources (s : State) (f : Slot → Slot) : (s.onHere f).sources = s.sources := rfl

@[simp] theorem State.onCore_fresh (s : State) (n : Nat) (f : Core → Core) : (s.onCore n f).fresh = s.fresh := rfl
@[simp] theorem State.onCore_agenda (s : State) (n : Nat) (f : Core → Core) : (s.onCore n f).agenda = s.agenda := rfl
@[simp] theorem State.onCore_input (s : State) (n : Nat) (f : Core → Core) : (s.onCore n f).input = s.input := rfl
@[simp] theorem State.onCore_cur (s : State) (n : Nat) (f : Core → Core) : (s.onCore n f).cur = s.cur := rfl
@[simp] theorem State.onCore_next (s : State) (n : Nat) (f : Core → Core) : (s.onCore n f).next = s.next := rfl
@[simp] theorem State.onCore_time (s : State) (n : Nat) (f : Core → Core) : (s.onCore n f).time = s.time := rfl
@[simp] theorem State.onCore_phase (s : State) (n : Nat) (f : Core → Core) : (s.onCore n f).phase = s.phase := rfl
@[simp] theorem State.onCore_limiter (s : State) (n : Nat) (f : Core → Core) : (s.onCore n f).limiter = s.limiter := rfl
@[simp] theorem State.onCore_mem (s : State) (n : Nat) (f : Core → Core) : (s.onCore n f).mem = s.mem := rfl
@[simp] theorem State.onCore_granules (s : State) (n : Nat) (f : Core → Core) : (s.onCore n f).granules = s.granules := rfl
@[simp] theorem State.onCore_lines (s : State) (n : Nat) (f : Core → Core) : (s.onCore n f).lines = s.lines := rfl
@[simp] theorem State.onCore_tlb (s : State) (n : Nat) (f : Core → Core) : (s.onCore n f).tlb = s.tlb := rfl
@[simp] theorem State.onCore_drains (s : State) (n : Nat) (f : Core → Core) : (s.onCore n f).drains = s.drains := rfl
@[simp] theorem State.onCore_slots (s : State) (n : Nat) (f : Core → Core) : (s.onCore n f).slots = s.slots := rfl
@[simp] theorem State.onCore_clusters (s : State) (n : Nat) (f : Core → Core) : (s.onCore n f).clusters = s.clusters := rfl
@[simp] theorem State.onCore_banks (s : State) (n : Nat) (f : Core → Core) : (s.onCore n f).banks = s.banks := rfl
@[simp] theorem State.onCore_regions (s : State) (n : Nat) (f : Core → Core) : (s.onCore n f).regions = s.regions := rfl
@[simp] theorem State.onCore_ports (s : State) (n : Nat) (f : Core → Core) : (s.onCore n f).ports = s.ports := rfl
@[simp] theorem State.onCore_streams (s : State) (n : Nat) (f : Core → Core) : (s.onCore n f).streams = s.streams := rfl
@[simp] theorem State.onCore_rtab (s : State) (n : Nat) (f : Core → Core) : (s.onCore n f).rtab = s.rtab := rfl
@[simp] theorem State.onCore_ctxbase (s : State) (n : Nat) (f : Core → Core) : (s.onCore n f).ctxbase = s.ctxbase := rfl
@[simp] theorem State.onCore_eltab (s : State) (n : Nat) (f : Core → Core) : (s.onCore n f).eltab = s.eltab := rfl
@[simp] theorem State.onCore_holds (s : State) (n : Nat) (f : Core → Core) : (s.onCore n f).holds = s.holds := rfl
@[simp] theorem State.onCore_censuses (s : State) (n : Nat) (f : Core → Core) : (s.onCore n f).censuses = s.censuses := rfl
@[simp] theorem State.onCore_boosts (s : State) (n : Nat) (f : Core → Core) : (s.onCore n f).boosts = s.boosts := rfl
@[simp] theorem State.onCore_grids (s : State) (n : Nat) (f : Core → Core) : (s.onCore n f).grids = s.grids := rfl
@[simp] theorem State.onCore_flips (s : State) (n : Nat) (f : Core → Core) : (s.onCore n f).flips = s.flips := rfl
@[simp] theorem State.onCore_toHost (s : State) (n : Nat) (f : Core → Core) : (s.onCore n f).toHost = s.toHost := rfl
@[simp] theorem State.onCore_toFabric (s : State) (n : Nat) (f : Core → Core) : (s.onCore n f).toFabric = s.toFabric := rfl
@[simp] theorem State.onCore_sources (s : State) (n : Nat) (f : Core → Core) : (s.onCore n f).sources = s.sources := rfl

@[simp] theorem State.onHereCore_fresh (s : State) (f : Core → Core) : (s.onHereCore f).fresh = s.fresh := rfl
@[simp] theorem State.onHereCore_agenda (s : State) (f : Core → Core) : (s.onHereCore f).agenda = s.agenda := rfl
@[simp] theorem State.onHereCore_input (s : State) (f : Core → Core) : (s.onHereCore f).input = s.input := rfl
@[simp] theorem State.onHereCore_cur (s : State) (f : Core → Core) : (s.onHereCore f).cur = s.cur := rfl
@[simp] theorem State.onHereCore_next (s : State) (f : Core → Core) : (s.onHereCore f).next = s.next := rfl
@[simp] theorem State.onHereCore_time (s : State) (f : Core → Core) : (s.onHereCore f).time = s.time := rfl
@[simp] theorem State.onHereCore_phase (s : State) (f : Core → Core) : (s.onHereCore f).phase = s.phase := rfl
@[simp] theorem State.onHereCore_limiter (s : State) (f : Core → Core) : (s.onHereCore f).limiter = s.limiter := rfl
@[simp] theorem State.onHereCore_mem (s : State) (f : Core → Core) : (s.onHereCore f).mem = s.mem := rfl
@[simp] theorem State.onHereCore_granules (s : State) (f : Core → Core) : (s.onHereCore f).granules = s.granules := rfl
@[simp] theorem State.onHereCore_lines (s : State) (f : Core → Core) : (s.onHereCore f).lines = s.lines := rfl
@[simp] theorem State.onHereCore_tlb (s : State) (f : Core → Core) : (s.onHereCore f).tlb = s.tlb := rfl
@[simp] theorem State.onHereCore_drains (s : State) (f : Core → Core) : (s.onHereCore f).drains = s.drains := rfl
@[simp] theorem State.onHereCore_slots (s : State) (f : Core → Core) : (s.onHereCore f).slots = s.slots := rfl
@[simp] theorem State.onHereCore_clusters (s : State) (f : Core → Core) : (s.onHereCore f).clusters = s.clusters := rfl
@[simp] theorem State.onHereCore_banks (s : State) (f : Core → Core) : (s.onHereCore f).banks = s.banks := rfl
@[simp] theorem State.onHereCore_regions (s : State) (f : Core → Core) : (s.onHereCore f).regions = s.regions := rfl
@[simp] theorem State.onHereCore_ports (s : State) (f : Core → Core) : (s.onHereCore f).ports = s.ports := rfl
@[simp] theorem State.onHereCore_streams (s : State) (f : Core → Core) : (s.onHereCore f).streams = s.streams := rfl
@[simp] theorem State.onHereCore_rtab (s : State) (f : Core → Core) : (s.onHereCore f).rtab = s.rtab := rfl
@[simp] theorem State.onHereCore_ctxbase (s : State) (f : Core → Core) : (s.onHereCore f).ctxbase = s.ctxbase := rfl
@[simp] theorem State.onHereCore_eltab (s : State) (f : Core → Core) : (s.onHereCore f).eltab = s.eltab := rfl
@[simp] theorem State.onHereCore_holds (s : State) (f : Core → Core) : (s.onHereCore f).holds = s.holds := rfl
@[simp] theorem State.onHereCore_censuses (s : State) (f : Core → Core) : (s.onHereCore f).censuses = s.censuses := rfl
@[simp] theorem State.onHereCore_boosts (s : State) (f : Core → Core) : (s.onHereCore f).boosts = s.boosts := rfl
@[simp] theorem State.onHereCore_grids (s : State) (f : Core → Core) : (s.onHereCore f).grids = s.grids := rfl
@[simp] theorem State.onHereCore_flips (s : State) (f : Core → Core) : (s.onHereCore f).flips = s.flips := rfl
@[simp] theorem State.onHereCore_toHost (s : State) (f : Core → Core) : (s.onHereCore f).toHost = s.toHost := rfl
@[simp] theorem State.onHereCore_toFabric (s : State) (f : Core → Core) : (s.onHereCore f).toFabric = s.toFabric := rfl
@[simp] theorem State.onHereCore_sources (s : State) (f : Core → Core) : (s.onHereCore f).sources = s.sources := rfl

@[simp] theorem State.onCluster_fresh (s : State) (n : Nat) (f : Cluster → Cluster) : (s.onCluster n f).fresh = s.fresh := rfl
@[simp] theorem State.onCluster_agenda (s : State) (n : Nat) (f : Cluster → Cluster) : (s.onCluster n f).agenda = s.agenda := rfl
@[simp] theorem State.onCluster_input (s : State) (n : Nat) (f : Cluster → Cluster) : (s.onCluster n f).input = s.input := rfl
@[simp] theorem State.onCluster_cur (s : State) (n : Nat) (f : Cluster → Cluster) : (s.onCluster n f).cur = s.cur := rfl
@[simp] theorem State.onCluster_next (s : State) (n : Nat) (f : Cluster → Cluster) : (s.onCluster n f).next = s.next := rfl
@[simp] theorem State.onCluster_time (s : State) (n : Nat) (f : Cluster → Cluster) : (s.onCluster n f).time = s.time := rfl
@[simp] theorem State.onCluster_phase (s : State) (n : Nat) (f : Cluster → Cluster) : (s.onCluster n f).phase = s.phase := rfl
@[simp] theorem State.onCluster_limiter (s : State) (n : Nat) (f : Cluster → Cluster) : (s.onCluster n f).limiter = s.limiter := rfl
@[simp] theorem State.onCluster_mem (s : State) (n : Nat) (f : Cluster → Cluster) : (s.onCluster n f).mem = s.mem := rfl
@[simp] theorem State.onCluster_granules (s : State) (n : Nat) (f : Cluster → Cluster) : (s.onCluster n f).granules = s.granules := rfl
@[simp] theorem State.onCluster_lines (s : State) (n : Nat) (f : Cluster → Cluster) : (s.onCluster n f).lines = s.lines := rfl
@[simp] theorem State.onCluster_tlb (s : State) (n : Nat) (f : Cluster → Cluster) : (s.onCluster n f).tlb = s.tlb := rfl
@[simp] theorem State.onCluster_drains (s : State) (n : Nat) (f : Cluster → Cluster) : (s.onCluster n f).drains = s.drains := rfl
@[simp] theorem State.onCluster_slots (s : State) (n : Nat) (f : Cluster → Cluster) : (s.onCluster n f).slots = s.slots := rfl
@[simp] theorem State.onCluster_cores (s : State) (n : Nat) (f : Cluster → Cluster) : (s.onCluster n f).cores = s.cores := rfl
@[simp] theorem State.onCluster_banks (s : State) (n : Nat) (f : Cluster → Cluster) : (s.onCluster n f).banks = s.banks := rfl
@[simp] theorem State.onCluster_regions (s : State) (n : Nat) (f : Cluster → Cluster) : (s.onCluster n f).regions = s.regions := rfl
@[simp] theorem State.onCluster_ports (s : State) (n : Nat) (f : Cluster → Cluster) : (s.onCluster n f).ports = s.ports := rfl
@[simp] theorem State.onCluster_streams (s : State) (n : Nat) (f : Cluster → Cluster) : (s.onCluster n f).streams = s.streams := rfl
@[simp] theorem State.onCluster_rtab (s : State) (n : Nat) (f : Cluster → Cluster) : (s.onCluster n f).rtab = s.rtab := rfl
@[simp] theorem State.onCluster_ctxbase (s : State) (n : Nat) (f : Cluster → Cluster) : (s.onCluster n f).ctxbase = s.ctxbase := rfl
@[simp] theorem State.onCluster_eltab (s : State) (n : Nat) (f : Cluster → Cluster) : (s.onCluster n f).eltab = s.eltab := rfl
@[simp] theorem State.onCluster_holds (s : State) (n : Nat) (f : Cluster → Cluster) : (s.onCluster n f).holds = s.holds := rfl
@[simp] theorem State.onCluster_censuses (s : State) (n : Nat) (f : Cluster → Cluster) : (s.onCluster n f).censuses = s.censuses := rfl
@[simp] theorem State.onCluster_boosts (s : State) (n : Nat) (f : Cluster → Cluster) : (s.onCluster n f).boosts = s.boosts := rfl
@[simp] theorem State.onCluster_grids (s : State) (n : Nat) (f : Cluster → Cluster) : (s.onCluster n f).grids = s.grids := rfl
@[simp] theorem State.onCluster_flips (s : State) (n : Nat) (f : Cluster → Cluster) : (s.onCluster n f).flips = s.flips := rfl
@[simp] theorem State.onCluster_toHost (s : State) (n : Nat) (f : Cluster → Cluster) : (s.onCluster n f).toHost = s.toHost := rfl
@[simp] theorem State.onCluster_toFabric (s : State) (n : Nat) (f : Cluster → Cluster) : (s.onCluster n f).toFabric = s.toFabric := rfl
@[simp] theorem State.onCluster_sources (s : State) (n : Nat) (f : Cluster → Cluster) : (s.onCluster n f).sources = s.sources := rfl

@[simp] theorem State.onBank_fresh (s : State) (n : Nat) (f : Bank → Bank) : (s.onBank n f).fresh = s.fresh := rfl
@[simp] theorem State.onBank_agenda (s : State) (n : Nat) (f : Bank → Bank) : (s.onBank n f).agenda = s.agenda := rfl
@[simp] theorem State.onBank_input (s : State) (n : Nat) (f : Bank → Bank) : (s.onBank n f).input = s.input := rfl
@[simp] theorem State.onBank_cur (s : State) (n : Nat) (f : Bank → Bank) : (s.onBank n f).cur = s.cur := rfl
@[simp] theorem State.onBank_next (s : State) (n : Nat) (f : Bank → Bank) : (s.onBank n f).next = s.next := rfl
@[simp] theorem State.onBank_time (s : State) (n : Nat) (f : Bank → Bank) : (s.onBank n f).time = s.time := rfl
@[simp] theorem State.onBank_phase (s : State) (n : Nat) (f : Bank → Bank) : (s.onBank n f).phase = s.phase := rfl
@[simp] theorem State.onBank_limiter (s : State) (n : Nat) (f : Bank → Bank) : (s.onBank n f).limiter = s.limiter := rfl
@[simp] theorem State.onBank_mem (s : State) (n : Nat) (f : Bank → Bank) : (s.onBank n f).mem = s.mem := rfl
@[simp] theorem State.onBank_granules (s : State) (n : Nat) (f : Bank → Bank) : (s.onBank n f).granules = s.granules := rfl
@[simp] theorem State.onBank_lines (s : State) (n : Nat) (f : Bank → Bank) : (s.onBank n f).lines = s.lines := rfl
@[simp] theorem State.onBank_tlb (s : State) (n : Nat) (f : Bank → Bank) : (s.onBank n f).tlb = s.tlb := rfl
@[simp] theorem State.onBank_drains (s : State) (n : Nat) (f : Bank → Bank) : (s.onBank n f).drains = s.drains := rfl
@[simp] theorem State.onBank_slots (s : State) (n : Nat) (f : Bank → Bank) : (s.onBank n f).slots = s.slots := rfl
@[simp] theorem State.onBank_cores (s : State) (n : Nat) (f : Bank → Bank) : (s.onBank n f).cores = s.cores := rfl
@[simp] theorem State.onBank_clusters (s : State) (n : Nat) (f : Bank → Bank) : (s.onBank n f).clusters = s.clusters := rfl
@[simp] theorem State.onBank_regions (s : State) (n : Nat) (f : Bank → Bank) : (s.onBank n f).regions = s.regions := rfl
@[simp] theorem State.onBank_ports (s : State) (n : Nat) (f : Bank → Bank) : (s.onBank n f).ports = s.ports := rfl
@[simp] theorem State.onBank_streams (s : State) (n : Nat) (f : Bank → Bank) : (s.onBank n f).streams = s.streams := rfl
@[simp] theorem State.onBank_rtab (s : State) (n : Nat) (f : Bank → Bank) : (s.onBank n f).rtab = s.rtab := rfl
@[simp] theorem State.onBank_ctxbase (s : State) (n : Nat) (f : Bank → Bank) : (s.onBank n f).ctxbase = s.ctxbase := rfl
@[simp] theorem State.onBank_eltab (s : State) (n : Nat) (f : Bank → Bank) : (s.onBank n f).eltab = s.eltab := rfl
@[simp] theorem State.onBank_holds (s : State) (n : Nat) (f : Bank → Bank) : (s.onBank n f).holds = s.holds := rfl
@[simp] theorem State.onBank_censuses (s : State) (n : Nat) (f : Bank → Bank) : (s.onBank n f).censuses = s.censuses := rfl
@[simp] theorem State.onBank_boosts (s : State) (n : Nat) (f : Bank → Bank) : (s.onBank n f).boosts = s.boosts := rfl
@[simp] theorem State.onBank_grids (s : State) (n : Nat) (f : Bank → Bank) : (s.onBank n f).grids = s.grids := rfl
@[simp] theorem State.onBank_flips (s : State) (n : Nat) (f : Bank → Bank) : (s.onBank n f).flips = s.flips := rfl
@[simp] theorem State.onBank_toHost (s : State) (n : Nat) (f : Bank → Bank) : (s.onBank n f).toHost = s.toHost := rfl
@[simp] theorem State.onBank_toFabric (s : State) (n : Nat) (f : Bank → Bank) : (s.onBank n f).toFabric = s.toFabric := rfl
@[simp] theorem State.onBank_sources (s : State) (n : Nat) (f : Bank → Bank) : (s.onBank n f).sources = s.sources := rfl

@[simp] theorem State.onRegion_fresh (s : State) (n : Nat) (f : Region → Region) : (s.onRegion n f).fresh = s.fresh := rfl
@[simp] theorem State.onRegion_agenda (s : State) (n : Nat) (f : Region → Region) : (s.onRegion n f).agenda = s.agenda := rfl
@[simp] theorem State.onRegion_input (s : State) (n : Nat) (f : Region → Region) : (s.onRegion n f).input = s.input := rfl
@[simp] theorem State.onRegion_cur (s : State) (n : Nat) (f : Region → Region) : (s.onRegion n f).cur = s.cur := rfl
@[simp] theorem State.onRegion_next (s : State) (n : Nat) (f : Region → Region) : (s.onRegion n f).next = s.next := rfl
@[simp] theorem State.onRegion_time (s : State) (n : Nat) (f : Region → Region) : (s.onRegion n f).time = s.time := rfl
@[simp] theorem State.onRegion_phase (s : State) (n : Nat) (f : Region → Region) : (s.onRegion n f).phase = s.phase := rfl
@[simp] theorem State.onRegion_limiter (s : State) (n : Nat) (f : Region → Region) : (s.onRegion n f).limiter = s.limiter := rfl
@[simp] theorem State.onRegion_mem (s : State) (n : Nat) (f : Region → Region) : (s.onRegion n f).mem = s.mem := rfl
@[simp] theorem State.onRegion_granules (s : State) (n : Nat) (f : Region → Region) : (s.onRegion n f).granules = s.granules := rfl
@[simp] theorem State.onRegion_lines (s : State) (n : Nat) (f : Region → Region) : (s.onRegion n f).lines = s.lines := rfl
@[simp] theorem State.onRegion_tlb (s : State) (n : Nat) (f : Region → Region) : (s.onRegion n f).tlb = s.tlb := rfl
@[simp] theorem State.onRegion_drains (s : State) (n : Nat) (f : Region → Region) : (s.onRegion n f).drains = s.drains := rfl
@[simp] theorem State.onRegion_slots (s : State) (n : Nat) (f : Region → Region) : (s.onRegion n f).slots = s.slots := rfl
@[simp] theorem State.onRegion_cores (s : State) (n : Nat) (f : Region → Region) : (s.onRegion n f).cores = s.cores := rfl
@[simp] theorem State.onRegion_clusters (s : State) (n : Nat) (f : Region → Region) : (s.onRegion n f).clusters = s.clusters := rfl
@[simp] theorem State.onRegion_banks (s : State) (n : Nat) (f : Region → Region) : (s.onRegion n f).banks = s.banks := rfl
@[simp] theorem State.onRegion_ports (s : State) (n : Nat) (f : Region → Region) : (s.onRegion n f).ports = s.ports := rfl
@[simp] theorem State.onRegion_streams (s : State) (n : Nat) (f : Region → Region) : (s.onRegion n f).streams = s.streams := rfl
@[simp] theorem State.onRegion_rtab (s : State) (n : Nat) (f : Region → Region) : (s.onRegion n f).rtab = s.rtab := rfl
@[simp] theorem State.onRegion_ctxbase (s : State) (n : Nat) (f : Region → Region) : (s.onRegion n f).ctxbase = s.ctxbase := rfl
@[simp] theorem State.onRegion_eltab (s : State) (n : Nat) (f : Region → Region) : (s.onRegion n f).eltab = s.eltab := rfl
@[simp] theorem State.onRegion_holds (s : State) (n : Nat) (f : Region → Region) : (s.onRegion n f).holds = s.holds := rfl
@[simp] theorem State.onRegion_censuses (s : State) (n : Nat) (f : Region → Region) : (s.onRegion n f).censuses = s.censuses := rfl
@[simp] theorem State.onRegion_boosts (s : State) (n : Nat) (f : Region → Region) : (s.onRegion n f).boosts = s.boosts := rfl
@[simp] theorem State.onRegion_grids (s : State) (n : Nat) (f : Region → Region) : (s.onRegion n f).grids = s.grids := rfl
@[simp] theorem State.onRegion_flips (s : State) (n : Nat) (f : Region → Region) : (s.onRegion n f).flips = s.flips := rfl
@[simp] theorem State.onRegion_toHost (s : State) (n : Nat) (f : Region → Region) : (s.onRegion n f).toHost = s.toHost := rfl
@[simp] theorem State.onRegion_toFabric (s : State) (n : Nat) (f : Region → Region) : (s.onRegion n f).toFabric = s.toFabric := rfl
@[simp] theorem State.onRegion_sources (s : State) (n : Nat) (f : Region → Region) : (s.onRegion n f).sources = s.sources := rfl

@[simp] theorem State.onPort_fresh (s : State) (n : Nat) (f : Port → Port) : (s.onPort n f).fresh = s.fresh := rfl
@[simp] theorem State.onPort_agenda (s : State) (n : Nat) (f : Port → Port) : (s.onPort n f).agenda = s.agenda := rfl
@[simp] theorem State.onPort_input (s : State) (n : Nat) (f : Port → Port) : (s.onPort n f).input = s.input := rfl
@[simp] theorem State.onPort_cur (s : State) (n : Nat) (f : Port → Port) : (s.onPort n f).cur = s.cur := rfl
@[simp] theorem State.onPort_next (s : State) (n : Nat) (f : Port → Port) : (s.onPort n f).next = s.next := rfl
@[simp] theorem State.onPort_time (s : State) (n : Nat) (f : Port → Port) : (s.onPort n f).time = s.time := rfl
@[simp] theorem State.onPort_phase (s : State) (n : Nat) (f : Port → Port) : (s.onPort n f).phase = s.phase := rfl
@[simp] theorem State.onPort_limiter (s : State) (n : Nat) (f : Port → Port) : (s.onPort n f).limiter = s.limiter := rfl
@[simp] theorem State.onPort_mem (s : State) (n : Nat) (f : Port → Port) : (s.onPort n f).mem = s.mem := rfl
@[simp] theorem State.onPort_granules (s : State) (n : Nat) (f : Port → Port) : (s.onPort n f).granules = s.granules := rfl
@[simp] theorem State.onPort_lines (s : State) (n : Nat) (f : Port → Port) : (s.onPort n f).lines = s.lines := rfl
@[simp] theorem State.onPort_tlb (s : State) (n : Nat) (f : Port → Port) : (s.onPort n f).tlb = s.tlb := rfl
@[simp] theorem State.onPort_drains (s : State) (n : Nat) (f : Port → Port) : (s.onPort n f).drains = s.drains := rfl
@[simp] theorem State.onPort_slots (s : State) (n : Nat) (f : Port → Port) : (s.onPort n f).slots = s.slots := rfl
@[simp] theorem State.onPort_cores (s : State) (n : Nat) (f : Port → Port) : (s.onPort n f).cores = s.cores := rfl
@[simp] theorem State.onPort_clusters (s : State) (n : Nat) (f : Port → Port) : (s.onPort n f).clusters = s.clusters := rfl
@[simp] theorem State.onPort_banks (s : State) (n : Nat) (f : Port → Port) : (s.onPort n f).banks = s.banks := rfl
@[simp] theorem State.onPort_regions (s : State) (n : Nat) (f : Port → Port) : (s.onPort n f).regions = s.regions := rfl
@[simp] theorem State.onPort_streams (s : State) (n : Nat) (f : Port → Port) : (s.onPort n f).streams = s.streams := rfl
@[simp] theorem State.onPort_rtab (s : State) (n : Nat) (f : Port → Port) : (s.onPort n f).rtab = s.rtab := rfl
@[simp] theorem State.onPort_ctxbase (s : State) (n : Nat) (f : Port → Port) : (s.onPort n f).ctxbase = s.ctxbase := rfl
@[simp] theorem State.onPort_eltab (s : State) (n : Nat) (f : Port → Port) : (s.onPort n f).eltab = s.eltab := rfl
@[simp] theorem State.onPort_holds (s : State) (n : Nat) (f : Port → Port) : (s.onPort n f).holds = s.holds := rfl
@[simp] theorem State.onPort_censuses (s : State) (n : Nat) (f : Port → Port) : (s.onPort n f).censuses = s.censuses := rfl
@[simp] theorem State.onPort_boosts (s : State) (n : Nat) (f : Port → Port) : (s.onPort n f).boosts = s.boosts := rfl
@[simp] theorem State.onPort_grids (s : State) (n : Nat) (f : Port → Port) : (s.onPort n f).grids = s.grids := rfl
@[simp] theorem State.onPort_flips (s : State) (n : Nat) (f : Port → Port) : (s.onPort n f).flips = s.flips := rfl
@[simp] theorem State.onPort_toHost (s : State) (n : Nat) (f : Port → Port) : (s.onPort n f).toHost = s.toHost := rfl
@[simp] theorem State.onPort_toFabric (s : State) (n : Nat) (f : Port → Port) : (s.onPort n f).toFabric = s.toFabric := rfl
@[simp] theorem State.onPort_sources (s : State) (n : Nat) (f : Port → Port) : (s.onPort n f).sources = s.sources := rfl

@[simp] theorem State.onGrid_fresh (s : State) (n : Nat) (f : Grid → Grid) : (s.onGrid n f).fresh = s.fresh := rfl
@[simp] theorem State.onGrid_agenda (s : State) (n : Nat) (f : Grid → Grid) : (s.onGrid n f).agenda = s.agenda := rfl
@[simp] theorem State.onGrid_input (s : State) (n : Nat) (f : Grid → Grid) : (s.onGrid n f).input = s.input := rfl
@[simp] theorem State.onGrid_cur (s : State) (n : Nat) (f : Grid → Grid) : (s.onGrid n f).cur = s.cur := rfl
@[simp] theorem State.onGrid_next (s : State) (n : Nat) (f : Grid → Grid) : (s.onGrid n f).next = s.next := rfl
@[simp] theorem State.onGrid_time (s : State) (n : Nat) (f : Grid → Grid) : (s.onGrid n f).time = s.time := rfl
@[simp] theorem State.onGrid_phase (s : State) (n : Nat) (f : Grid → Grid) : (s.onGrid n f).phase = s.phase := rfl
@[simp] theorem State.onGrid_limiter (s : State) (n : Nat) (f : Grid → Grid) : (s.onGrid n f).limiter = s.limiter := rfl
@[simp] theorem State.onGrid_mem (s : State) (n : Nat) (f : Grid → Grid) : (s.onGrid n f).mem = s.mem := rfl
@[simp] theorem State.onGrid_granules (s : State) (n : Nat) (f : Grid → Grid) : (s.onGrid n f).granules = s.granules := rfl
@[simp] theorem State.onGrid_lines (s : State) (n : Nat) (f : Grid → Grid) : (s.onGrid n f).lines = s.lines := rfl
@[simp] theorem State.onGrid_tlb (s : State) (n : Nat) (f : Grid → Grid) : (s.onGrid n f).tlb = s.tlb := rfl
@[simp] theorem State.onGrid_drains (s : State) (n : Nat) (f : Grid → Grid) : (s.onGrid n f).drains = s.drains := rfl
@[simp] theorem State.onGrid_slots (s : State) (n : Nat) (f : Grid → Grid) : (s.onGrid n f).slots = s.slots := rfl
@[simp] theorem State.onGrid_cores (s : State) (n : Nat) (f : Grid → Grid) : (s.onGrid n f).cores = s.cores := rfl
@[simp] theorem State.onGrid_clusters (s : State) (n : Nat) (f : Grid → Grid) : (s.onGrid n f).clusters = s.clusters := rfl
@[simp] theorem State.onGrid_banks (s : State) (n : Nat) (f : Grid → Grid) : (s.onGrid n f).banks = s.banks := rfl
@[simp] theorem State.onGrid_regions (s : State) (n : Nat) (f : Grid → Grid) : (s.onGrid n f).regions = s.regions := rfl
@[simp] theorem State.onGrid_ports (s : State) (n : Nat) (f : Grid → Grid) : (s.onGrid n f).ports = s.ports := rfl
@[simp] theorem State.onGrid_streams (s : State) (n : Nat) (f : Grid → Grid) : (s.onGrid n f).streams = s.streams := rfl
@[simp] theorem State.onGrid_rtab (s : State) (n : Nat) (f : Grid → Grid) : (s.onGrid n f).rtab = s.rtab := rfl
@[simp] theorem State.onGrid_ctxbase (s : State) (n : Nat) (f : Grid → Grid) : (s.onGrid n f).ctxbase = s.ctxbase := rfl
@[simp] theorem State.onGrid_eltab (s : State) (n : Nat) (f : Grid → Grid) : (s.onGrid n f).eltab = s.eltab := rfl
@[simp] theorem State.onGrid_holds (s : State) (n : Nat) (f : Grid → Grid) : (s.onGrid n f).holds = s.holds := rfl
@[simp] theorem State.onGrid_censuses (s : State) (n : Nat) (f : Grid → Grid) : (s.onGrid n f).censuses = s.censuses := rfl
@[simp] theorem State.onGrid_boosts (s : State) (n : Nat) (f : Grid → Grid) : (s.onGrid n f).boosts = s.boosts := rfl
@[simp] theorem State.onGrid_flips (s : State) (n : Nat) (f : Grid → Grid) : (s.onGrid n f).flips = s.flips := rfl
@[simp] theorem State.onGrid_toHost (s : State) (n : Nat) (f : Grid → Grid) : (s.onGrid n f).toHost = s.toHost := rfl
@[simp] theorem State.onGrid_toFabric (s : State) (n : Nat) (f : Grid → Grid) : (s.onGrid n f).toFabric = s.toFabric := rfl
@[simp] theorem State.onGrid_sources (s : State) (n : Nat) (f : Grid → Grid) : (s.onGrid n f).sources = s.sources := rfl

@[simp] theorem State.emit_fresh (s : State) (e : Event) : (s.emit e).fresh = s.fresh := rfl
@[simp] theorem State.emit_input (s : State) (e : Event) : (s.emit e).input = s.input := rfl
@[simp] theorem State.emit_cur (s : State) (e : Event) : (s.emit e).cur = s.cur := rfl
@[simp] theorem State.emit_next (s : State) (e : Event) : (s.emit e).next = s.next := rfl
@[simp] theorem State.emit_time (s : State) (e : Event) : (s.emit e).time = s.time := rfl
@[simp] theorem State.emit_phase (s : State) (e : Event) : (s.emit e).phase = s.phase := rfl
@[simp] theorem State.emit_limiter (s : State) (e : Event) : (s.emit e).limiter = s.limiter := rfl
@[simp] theorem State.emit_mem (s : State) (e : Event) : (s.emit e).mem = s.mem := rfl
@[simp] theorem State.emit_granules (s : State) (e : Event) : (s.emit e).granules = s.granules := rfl
@[simp] theorem State.emit_lines (s : State) (e : Event) : (s.emit e).lines = s.lines := rfl
@[simp] theorem State.emit_tlb (s : State) (e : Event) : (s.emit e).tlb = s.tlb := rfl
@[simp] theorem State.emit_drains (s : State) (e : Event) : (s.emit e).drains = s.drains := rfl
@[simp] theorem State.emit_slots (s : State) (e : Event) : (s.emit e).slots = s.slots := rfl
@[simp] theorem State.emit_cores (s : State) (e : Event) : (s.emit e).cores = s.cores := rfl
@[simp] theorem State.emit_clusters (s : State) (e : Event) : (s.emit e).clusters = s.clusters := rfl
@[simp] theorem State.emit_banks (s : State) (e : Event) : (s.emit e).banks = s.banks := rfl
@[simp] theorem State.emit_regions (s : State) (e : Event) : (s.emit e).regions = s.regions := rfl
@[simp] theorem State.emit_ports (s : State) (e : Event) : (s.emit e).ports = s.ports := rfl
@[simp] theorem State.emit_streams (s : State) (e : Event) : (s.emit e).streams = s.streams := rfl
@[simp] theorem State.emit_rtab (s : State) (e : Event) : (s.emit e).rtab = s.rtab := rfl
@[simp] theorem State.emit_ctxbase (s : State) (e : Event) : (s.emit e).ctxbase = s.ctxbase := rfl
@[simp] theorem State.emit_eltab (s : State) (e : Event) : (s.emit e).eltab = s.eltab := rfl
@[simp] theorem State.emit_holds (s : State) (e : Event) : (s.emit e).holds = s.holds := rfl
@[simp] theorem State.emit_censuses (s : State) (e : Event) : (s.emit e).censuses = s.censuses := rfl
@[simp] theorem State.emit_boosts (s : State) (e : Event) : (s.emit e).boosts = s.boosts := rfl
@[simp] theorem State.emit_grids (s : State) (e : Event) : (s.emit e).grids = s.grids := rfl
@[simp] theorem State.emit_flips (s : State) (e : Event) : (s.emit e).flips = s.flips := rfl
@[simp] theorem State.emit_toHost (s : State) (e : Event) : (s.emit e).toHost = s.toHost := rfl
@[simp] theorem State.emit_toFabric (s : State) (e : Event) : (s.emit e).toFabric = s.toFabric := rfl
@[simp] theorem State.emit_sources (s : State) (e : Event) : (s.emit e).sources = s.sources := rfl

@[simp] theorem State.emits_fresh (s : State) (es : List Event) : (s.emits es).fresh = s.fresh := rfl
@[simp] theorem State.emits_input (s : State) (es : List Event) : (s.emits es).input = s.input := rfl
@[simp] theorem State.emits_cur (s : State) (es : List Event) : (s.emits es).cur = s.cur := rfl
@[simp] theorem State.emits_next (s : State) (es : List Event) : (s.emits es).next = s.next := rfl
@[simp] theorem State.emits_time (s : State) (es : List Event) : (s.emits es).time = s.time := rfl
@[simp] theorem State.emits_phase (s : State) (es : List Event) : (s.emits es).phase = s.phase := rfl
@[simp] theorem State.emits_limiter (s : State) (es : List Event) : (s.emits es).limiter = s.limiter := rfl
@[simp] theorem State.emits_mem (s : State) (es : List Event) : (s.emits es).mem = s.mem := rfl
@[simp] theorem State.emits_granules (s : State) (es : List Event) : (s.emits es).granules = s.granules := rfl
@[simp] theorem State.emits_lines (s : State) (es : List Event) : (s.emits es).lines = s.lines := rfl
@[simp] theorem State.emits_tlb (s : State) (es : List Event) : (s.emits es).tlb = s.tlb := rfl
@[simp] theorem State.emits_drains (s : State) (es : List Event) : (s.emits es).drains = s.drains := rfl
@[simp] theorem State.emits_slots (s : State) (es : List Event) : (s.emits es).slots = s.slots := rfl
@[simp] theorem State.emits_cores (s : State) (es : List Event) : (s.emits es).cores = s.cores := rfl
@[simp] theorem State.emits_clusters (s : State) (es : List Event) : (s.emits es).clusters = s.clusters := rfl
@[simp] theorem State.emits_banks (s : State) (es : List Event) : (s.emits es).banks = s.banks := rfl
@[simp] theorem State.emits_regions (s : State) (es : List Event) : (s.emits es).regions = s.regions := rfl
@[simp] theorem State.emits_ports (s : State) (es : List Event) : (s.emits es).ports = s.ports := rfl
@[simp] theorem State.emits_streams (s : State) (es : List Event) : (s.emits es).streams = s.streams := rfl
@[simp] theorem State.emits_rtab (s : State) (es : List Event) : (s.emits es).rtab = s.rtab := rfl
@[simp] theorem State.emits_ctxbase (s : State) (es : List Event) : (s.emits es).ctxbase = s.ctxbase := rfl
@[simp] theorem State.emits_eltab (s : State) (es : List Event) : (s.emits es).eltab = s.eltab := rfl
@[simp] theorem State.emits_holds (s : State) (es : List Event) : (s.emits es).holds = s.holds := rfl
@[simp] theorem State.emits_censuses (s : State) (es : List Event) : (s.emits es).censuses = s.censuses := rfl
@[simp] theorem State.emits_boosts (s : State) (es : List Event) : (s.emits es).boosts = s.boosts := rfl
@[simp] theorem State.emits_grids (s : State) (es : List Event) : (s.emits es).grids = s.grids := rfl
@[simp] theorem State.emits_flips (s : State) (es : List Event) : (s.emits es).flips = s.flips := rfl
@[simp] theorem State.emits_toHost (s : State) (es : List Event) : (s.emits es).toHost = s.toHost := rfl
@[simp] theorem State.emits_toFabric (s : State) (es : List Event) : (s.emits es).toFabric = s.toFabric := rfl
@[simp] theorem State.emits_sources (s : State) (es : List Event) : (s.emits es).sources = s.sources := rfl

@[simp] theorem State.drawn_agenda (s : State) : (s.drawn).agenda = s.agenda := rfl
@[simp] theorem State.drawn_input (s : State) : (s.drawn).input = s.input := rfl
@[simp] theorem State.drawn_cur (s : State) : (s.drawn).cur = s.cur := rfl
@[simp] theorem State.drawn_next (s : State) : (s.drawn).next = s.next := rfl
@[simp] theorem State.drawn_time (s : State) : (s.drawn).time = s.time := rfl
@[simp] theorem State.drawn_phase (s : State) : (s.drawn).phase = s.phase := rfl
@[simp] theorem State.drawn_limiter (s : State) : (s.drawn).limiter = s.limiter := rfl
@[simp] theorem State.drawn_mem (s : State) : (s.drawn).mem = s.mem := rfl
@[simp] theorem State.drawn_granules (s : State) : (s.drawn).granules = s.granules := rfl
@[simp] theorem State.drawn_lines (s : State) : (s.drawn).lines = s.lines := rfl
@[simp] theorem State.drawn_tlb (s : State) : (s.drawn).tlb = s.tlb := rfl
@[simp] theorem State.drawn_drains (s : State) : (s.drawn).drains = s.drains := rfl
@[simp] theorem State.drawn_slots (s : State) : (s.drawn).slots = s.slots := rfl
@[simp] theorem State.drawn_cores (s : State) : (s.drawn).cores = s.cores := rfl
@[simp] theorem State.drawn_clusters (s : State) : (s.drawn).clusters = s.clusters := rfl
@[simp] theorem State.drawn_banks (s : State) : (s.drawn).banks = s.banks := rfl
@[simp] theorem State.drawn_regions (s : State) : (s.drawn).regions = s.regions := rfl
@[simp] theorem State.drawn_ports (s : State) : (s.drawn).ports = s.ports := rfl
@[simp] theorem State.drawn_streams (s : State) : (s.drawn).streams = s.streams := rfl
@[simp] theorem State.drawn_rtab (s : State) : (s.drawn).rtab = s.rtab := rfl
@[simp] theorem State.drawn_ctxbase (s : State) : (s.drawn).ctxbase = s.ctxbase := rfl
@[simp] theorem State.drawn_eltab (s : State) : (s.drawn).eltab = s.eltab := rfl
@[simp] theorem State.drawn_holds (s : State) : (s.drawn).holds = s.holds := rfl
@[simp] theorem State.drawn_censuses (s : State) : (s.drawn).censuses = s.censuses := rfl
@[simp] theorem State.drawn_boosts (s : State) : (s.drawn).boosts = s.boosts := rfl
@[simp] theorem State.drawn_grids (s : State) : (s.drawn).grids = s.grids := rfl
@[simp] theorem State.drawn_flips (s : State) : (s.drawn).flips = s.flips := rfl
@[simp] theorem State.drawn_toHost (s : State) : (s.drawn).toHost = s.toHost := rfl
@[simp] theorem State.drawn_toFabric (s : State) : (s.drawn).toFabric = s.toFabric := rfl
@[simp] theorem State.drawn_sources (s : State) : (s.drawn).sources = s.sources := rfl

@[simp] theorem State.store_fresh (s : State) (a : Nat) (bs : List Byte) : (s.store a bs).fresh = s.fresh := rfl
@[simp] theorem State.store_agenda (s : State) (a : Nat) (bs : List Byte) : (s.store a bs).agenda = s.agenda := rfl
@[simp] theorem State.store_input (s : State) (a : Nat) (bs : List Byte) : (s.store a bs).input = s.input := rfl
@[simp] theorem State.store_cur (s : State) (a : Nat) (bs : List Byte) : (s.store a bs).cur = s.cur := rfl
@[simp] theorem State.store_next (s : State) (a : Nat) (bs : List Byte) : (s.store a bs).next = s.next := rfl
@[simp] theorem State.store_time (s : State) (a : Nat) (bs : List Byte) : (s.store a bs).time = s.time := rfl
@[simp] theorem State.store_phase (s : State) (a : Nat) (bs : List Byte) : (s.store a bs).phase = s.phase := rfl
@[simp] theorem State.store_limiter (s : State) (a : Nat) (bs : List Byte) : (s.store a bs).limiter = s.limiter := rfl
@[simp] theorem State.store_granules (s : State) (a : Nat) (bs : List Byte) : (s.store a bs).granules = s.granules := rfl
@[simp] theorem State.store_lines (s : State) (a : Nat) (bs : List Byte) : (s.store a bs).lines = s.lines := rfl
@[simp] theorem State.store_tlb (s : State) (a : Nat) (bs : List Byte) : (s.store a bs).tlb = s.tlb := rfl
@[simp] theorem State.store_drains (s : State) (a : Nat) (bs : List Byte) : (s.store a bs).drains = s.drains := rfl
@[simp] theorem State.store_slots (s : State) (a : Nat) (bs : List Byte) : (s.store a bs).slots = s.slots := rfl
@[simp] theorem State.store_cores (s : State) (a : Nat) (bs : List Byte) : (s.store a bs).cores = s.cores := rfl
@[simp] theorem State.store_clusters (s : State) (a : Nat) (bs : List Byte) : (s.store a bs).clusters = s.clusters := rfl
@[simp] theorem State.store_banks (s : State) (a : Nat) (bs : List Byte) : (s.store a bs).banks = s.banks := rfl
@[simp] theorem State.store_regions (s : State) (a : Nat) (bs : List Byte) : (s.store a bs).regions = s.regions := rfl
@[simp] theorem State.store_ports (s : State) (a : Nat) (bs : List Byte) : (s.store a bs).ports = s.ports := rfl
@[simp] theorem State.store_streams (s : State) (a : Nat) (bs : List Byte) : (s.store a bs).streams = s.streams := rfl
@[simp] theorem State.store_rtab (s : State) (a : Nat) (bs : List Byte) : (s.store a bs).rtab = s.rtab := rfl
@[simp] theorem State.store_ctxbase (s : State) (a : Nat) (bs : List Byte) : (s.store a bs).ctxbase = s.ctxbase := rfl
@[simp] theorem State.store_eltab (s : State) (a : Nat) (bs : List Byte) : (s.store a bs).eltab = s.eltab := rfl
@[simp] theorem State.store_holds (s : State) (a : Nat) (bs : List Byte) : (s.store a bs).holds = s.holds := rfl
@[simp] theorem State.store_censuses (s : State) (a : Nat) (bs : List Byte) : (s.store a bs).censuses = s.censuses := rfl
@[simp] theorem State.store_boosts (s : State) (a : Nat) (bs : List Byte) : (s.store a bs).boosts = s.boosts := rfl
@[simp] theorem State.store_grids (s : State) (a : Nat) (bs : List Byte) : (s.store a bs).grids = s.grids := rfl
@[simp] theorem State.store_flips (s : State) (a : Nat) (bs : List Byte) : (s.store a bs).flips = s.flips := rfl
@[simp] theorem State.store_toHost (s : State) (a : Nat) (bs : List Byte) : (s.store a bs).toHost = s.toHost := rfl
@[simp] theorem State.store_toFabric (s : State) (a : Nat) (bs : List Byte) : (s.store a bs).toFabric = s.toFabric := rfl
@[simp] theorem State.store_sources (s : State) (a : Nat) (bs : List Byte) : (s.store a bs).sources = s.sources := rfl

@[simp] theorem State.onGranule_fresh (s : State) (a : Nat) (f : Granule → Granule) : (s.onGranule a f).fresh = s.fresh := rfl
@[simp] theorem State.onGranule_agenda (s : State) (a : Nat) (f : Granule → Granule) : (s.onGranule a f).agenda = s.agenda := rfl
@[simp] theorem State.onGranule_input (s : State) (a : Nat) (f : Granule → Granule) : (s.onGranule a f).input = s.input := rfl
@[simp] theorem State.onGranule_cur (s : State) (a : Nat) (f : Granule → Granule) : (s.onGranule a f).cur = s.cur := rfl
@[simp] theorem State.onGranule_next (s : State) (a : Nat) (f : Granule → Granule) : (s.onGranule a f).next = s.next := rfl
@[simp] theorem State.onGranule_time (s : State) (a : Nat) (f : Granule → Granule) : (s.onGranule a f).time = s.time := rfl
@[simp] theorem State.onGranule_phase (s : State) (a : Nat) (f : Granule → Granule) : (s.onGranule a f).phase = s.phase := rfl
@[simp] theorem State.onGranule_limiter (s : State) (a : Nat) (f : Granule → Granule) : (s.onGranule a f).limiter = s.limiter := rfl
@[simp] theorem State.onGranule_mem (s : State) (a : Nat) (f : Granule → Granule) : (s.onGranule a f).mem = s.mem := rfl
@[simp] theorem State.onGranule_lines (s : State) (a : Nat) (f : Granule → Granule) : (s.onGranule a f).lines = s.lines := rfl
@[simp] theorem State.onGranule_tlb (s : State) (a : Nat) (f : Granule → Granule) : (s.onGranule a f).tlb = s.tlb := rfl
@[simp] theorem State.onGranule_drains (s : State) (a : Nat) (f : Granule → Granule) : (s.onGranule a f).drains = s.drains := rfl
@[simp] theorem State.onGranule_slots (s : State) (a : Nat) (f : Granule → Granule) : (s.onGranule a f).slots = s.slots := rfl
@[simp] theorem State.onGranule_cores (s : State) (a : Nat) (f : Granule → Granule) : (s.onGranule a f).cores = s.cores := rfl
@[simp] theorem State.onGranule_clusters (s : State) (a : Nat) (f : Granule → Granule) : (s.onGranule a f).clusters = s.clusters := rfl
@[simp] theorem State.onGranule_banks (s : State) (a : Nat) (f : Granule → Granule) : (s.onGranule a f).banks = s.banks := rfl
@[simp] theorem State.onGranule_regions (s : State) (a : Nat) (f : Granule → Granule) : (s.onGranule a f).regions = s.regions := rfl
@[simp] theorem State.onGranule_ports (s : State) (a : Nat) (f : Granule → Granule) : (s.onGranule a f).ports = s.ports := rfl
@[simp] theorem State.onGranule_streams (s : State) (a : Nat) (f : Granule → Granule) : (s.onGranule a f).streams = s.streams := rfl
@[simp] theorem State.onGranule_rtab (s : State) (a : Nat) (f : Granule → Granule) : (s.onGranule a f).rtab = s.rtab := rfl
@[simp] theorem State.onGranule_ctxbase (s : State) (a : Nat) (f : Granule → Granule) : (s.onGranule a f).ctxbase = s.ctxbase := rfl
@[simp] theorem State.onGranule_eltab (s : State) (a : Nat) (f : Granule → Granule) : (s.onGranule a f).eltab = s.eltab := rfl
@[simp] theorem State.onGranule_holds (s : State) (a : Nat) (f : Granule → Granule) : (s.onGranule a f).holds = s.holds := rfl
@[simp] theorem State.onGranule_censuses (s : State) (a : Nat) (f : Granule → Granule) : (s.onGranule a f).censuses = s.censuses := rfl
@[simp] theorem State.onGranule_boosts (s : State) (a : Nat) (f : Granule → Granule) : (s.onGranule a f).boosts = s.boosts := rfl
@[simp] theorem State.onGranule_grids (s : State) (a : Nat) (f : Granule → Granule) : (s.onGranule a f).grids = s.grids := rfl
@[simp] theorem State.onGranule_flips (s : State) (a : Nat) (f : Granule → Granule) : (s.onGranule a f).flips = s.flips := rfl
@[simp] theorem State.onGranule_toHost (s : State) (a : Nat) (f : Granule → Granule) : (s.onGranule a f).toHost = s.toHost := rfl
@[simp] theorem State.onGranule_toFabric (s : State) (a : Nat) (f : Granule → Granule) : (s.onGranule a f).toFabric = s.toFabric := rfl
@[simp] theorem State.onGranule_sources (s : State) (a : Nat) (f : Granule → Granule) : (s.onGranule a f).sources = s.sources := rfl

@[simp] theorem State.count_fresh (s : State) (c n amount : Nat) : (s.count c n amount).fresh = s.fresh := by unfold State.count; split <;> rfl
@[simp] theorem State.count_agenda (s : State) (c n amount : Nat) : (s.count c n amount).agenda = s.agenda := by unfold State.count; split <;> rfl
@[simp] theorem State.count_input (s : State) (c n amount : Nat) : (s.count c n amount).input = s.input := by unfold State.count; split <;> rfl
@[simp] theorem State.count_cur (s : State) (c n amount : Nat) : (s.count c n amount).cur = s.cur := by unfold State.count; split <;> rfl
@[simp] theorem State.count_next (s : State) (c n amount : Nat) : (s.count c n amount).next = s.next := by unfold State.count; split <;> rfl
@[simp] theorem State.count_time (s : State) (c n amount : Nat) : (s.count c n amount).time = s.time := by unfold State.count; split <;> rfl
@[simp] theorem State.count_phase (s : State) (c n amount : Nat) : (s.count c n amount).phase = s.phase := by unfold State.count; split <;> rfl
@[simp] theorem State.count_limiter (s : State) (c n amount : Nat) : (s.count c n amount).limiter = s.limiter := by unfold State.count; split <;> rfl
@[simp] theorem State.count_mem (s : State) (c n amount : Nat) : (s.count c n amount).mem = s.mem := by unfold State.count; split <;> rfl
@[simp] theorem State.count_granules (s : State) (c n amount : Nat) : (s.count c n amount).granules = s.granules := by unfold State.count; split <;> rfl
@[simp] theorem State.count_lines (s : State) (c n amount : Nat) : (s.count c n amount).lines = s.lines := by unfold State.count; split <;> rfl
@[simp] theorem State.count_tlb (s : State) (c n amount : Nat) : (s.count c n amount).tlb = s.tlb := by unfold State.count; split <;> rfl
@[simp] theorem State.count_drains (s : State) (c n amount : Nat) : (s.count c n amount).drains = s.drains := by unfold State.count; split <;> rfl
@[simp] theorem State.count_slots (s : State) (c n amount : Nat) : (s.count c n amount).slots = s.slots := by unfold State.count; split <;> rfl
@[simp] theorem State.count_clusters (s : State) (c n amount : Nat) : (s.count c n amount).clusters = s.clusters := by unfold State.count; split <;> rfl
@[simp] theorem State.count_banks (s : State) (c n amount : Nat) : (s.count c n amount).banks = s.banks := by unfold State.count; split <;> rfl
@[simp] theorem State.count_regions (s : State) (c n amount : Nat) : (s.count c n amount).regions = s.regions := by unfold State.count; split <;> rfl
@[simp] theorem State.count_ports (s : State) (c n amount : Nat) : (s.count c n amount).ports = s.ports := by unfold State.count; split <;> rfl
@[simp] theorem State.count_streams (s : State) (c n amount : Nat) : (s.count c n amount).streams = s.streams := by unfold State.count; split <;> rfl
@[simp] theorem State.count_rtab (s : State) (c n amount : Nat) : (s.count c n amount).rtab = s.rtab := by unfold State.count; split <;> rfl
@[simp] theorem State.count_ctxbase (s : State) (c n amount : Nat) : (s.count c n amount).ctxbase = s.ctxbase := by unfold State.count; split <;> rfl
@[simp] theorem State.count_eltab (s : State) (c n amount : Nat) : (s.count c n amount).eltab = s.eltab := by unfold State.count; split <;> rfl
@[simp] theorem State.count_holds (s : State) (c n amount : Nat) : (s.count c n amount).holds = s.holds := by unfold State.count; split <;> rfl
@[simp] theorem State.count_censuses (s : State) (c n amount : Nat) : (s.count c n amount).censuses = s.censuses := by unfold State.count; split <;> rfl
@[simp] theorem State.count_boosts (s : State) (c n amount : Nat) : (s.count c n amount).boosts = s.boosts := by unfold State.count; split <;> rfl
@[simp] theorem State.count_grids (s : State) (c n amount : Nat) : (s.count c n amount).grids = s.grids := by unfold State.count; split <;> rfl
@[simp] theorem State.count_flips (s : State) (c n amount : Nat) : (s.count c n amount).flips = s.flips := by unfold State.count; split <;> rfl
@[simp] theorem State.count_toHost (s : State) (c n amount : Nat) : (s.count c n amount).toHost = s.toHost := by unfold State.count; split <;> rfl
@[simp] theorem State.count_toFabric (s : State) (c n amount : Nat) : (s.count c n amount).toFabric = s.toFabric := by unfold State.count; split <;> rfl
@[simp] theorem State.count_sources (s : State) (c n amount : Nat) : (s.count c n amount).sources = s.sources := by unfold State.count; split <;> rfl

@[simp] theorem State.writeReg_fresh (s : State) (k r : Nat) (v : Reg) : (s.writeReg k r v).fresh = s.fresh := by unfold State.writeReg; split <;> rfl
@[simp] theorem State.writeReg_agenda (s : State) (k r : Nat) (v : Reg) : (s.writeReg k r v).agenda = s.agenda := by unfold State.writeReg; split <;> rfl
@[simp] theorem State.writeReg_input (s : State) (k r : Nat) (v : Reg) : (s.writeReg k r v).input = s.input := by unfold State.writeReg; split <;> rfl
@[simp] theorem State.writeReg_cur (s : State) (k r : Nat) (v : Reg) : (s.writeReg k r v).cur = s.cur := by unfold State.writeReg; split <;> rfl
@[simp] theorem State.writeReg_next (s : State) (k r : Nat) (v : Reg) : (s.writeReg k r v).next = s.next := by unfold State.writeReg; split <;> rfl
@[simp] theorem State.writeReg_time (s : State) (k r : Nat) (v : Reg) : (s.writeReg k r v).time = s.time := by unfold State.writeReg; split <;> rfl
@[simp] theorem State.writeReg_phase (s : State) (k r : Nat) (v : Reg) : (s.writeReg k r v).phase = s.phase := by unfold State.writeReg; split <;> rfl
@[simp] theorem State.writeReg_limiter (s : State) (k r : Nat) (v : Reg) : (s.writeReg k r v).limiter = s.limiter := by unfold State.writeReg; split <;> rfl
@[simp] theorem State.writeReg_mem (s : State) (k r : Nat) (v : Reg) : (s.writeReg k r v).mem = s.mem := by unfold State.writeReg; split <;> rfl
@[simp] theorem State.writeReg_granules (s : State) (k r : Nat) (v : Reg) : (s.writeReg k r v).granules = s.granules := by unfold State.writeReg; split <;> rfl
@[simp] theorem State.writeReg_lines (s : State) (k r : Nat) (v : Reg) : (s.writeReg k r v).lines = s.lines := by unfold State.writeReg; split <;> rfl
@[simp] theorem State.writeReg_tlb (s : State) (k r : Nat) (v : Reg) : (s.writeReg k r v).tlb = s.tlb := by unfold State.writeReg; split <;> rfl
@[simp] theorem State.writeReg_drains (s : State) (k r : Nat) (v : Reg) : (s.writeReg k r v).drains = s.drains := by unfold State.writeReg; split <;> rfl
@[simp] theorem State.writeReg_cores (s : State) (k r : Nat) (v : Reg) : (s.writeReg k r v).cores = s.cores := by unfold State.writeReg; split <;> rfl
@[simp] theorem State.writeReg_clusters (s : State) (k r : Nat) (v : Reg) : (s.writeReg k r v).clusters = s.clusters := by unfold State.writeReg; split <;> rfl
@[simp] theorem State.writeReg_banks (s : State) (k r : Nat) (v : Reg) : (s.writeReg k r v).banks = s.banks := by unfold State.writeReg; split <;> rfl
@[simp] theorem State.writeReg_regions (s : State) (k r : Nat) (v : Reg) : (s.writeReg k r v).regions = s.regions := by unfold State.writeReg; split <;> rfl
@[simp] theorem State.writeReg_ports (s : State) (k r : Nat) (v : Reg) : (s.writeReg k r v).ports = s.ports := by unfold State.writeReg; split <;> rfl
@[simp] theorem State.writeReg_streams (s : State) (k r : Nat) (v : Reg) : (s.writeReg k r v).streams = s.streams := by unfold State.writeReg; split <;> rfl
@[simp] theorem State.writeReg_rtab (s : State) (k r : Nat) (v : Reg) : (s.writeReg k r v).rtab = s.rtab := by unfold State.writeReg; split <;> rfl
@[simp] theorem State.writeReg_ctxbase (s : State) (k r : Nat) (v : Reg) : (s.writeReg k r v).ctxbase = s.ctxbase := by unfold State.writeReg; split <;> rfl
@[simp] theorem State.writeReg_eltab (s : State) (k r : Nat) (v : Reg) : (s.writeReg k r v).eltab = s.eltab := by unfold State.writeReg; split <;> rfl
@[simp] theorem State.writeReg_holds (s : State) (k r : Nat) (v : Reg) : (s.writeReg k r v).holds = s.holds := by unfold State.writeReg; split <;> rfl
@[simp] theorem State.writeReg_censuses (s : State) (k r : Nat) (v : Reg) : (s.writeReg k r v).censuses = s.censuses := by unfold State.writeReg; split <;> rfl
@[simp] theorem State.writeReg_boosts (s : State) (k r : Nat) (v : Reg) : (s.writeReg k r v).boosts = s.boosts := by unfold State.writeReg; split <;> rfl
@[simp] theorem State.writeReg_grids (s : State) (k r : Nat) (v : Reg) : (s.writeReg k r v).grids = s.grids := by unfold State.writeReg; split <;> rfl
@[simp] theorem State.writeReg_toHost (s : State) (k r : Nat) (v : Reg) : (s.writeReg k r v).toHost = s.toHost := by unfold State.writeReg; split <;> rfl
@[simp] theorem State.writeReg_toFabric (s : State) (k r : Nat) (v : Reg) : (s.writeReg k r v).toFabric = s.toFabric := by unfold State.writeReg; split <;> rfl
@[simp] theorem State.writeReg_sources (s : State) (k r : Nat) (v : Reg) : (s.writeReg k r v).sources = s.sources := by unfold State.writeReg; split <;> rfl

@[simp] theorem State.retired_fresh (s : State) : (s.retired).fresh = s.fresh := by unfold State.retired; split <;> simp
@[simp] theorem State.retired_agenda (s : State) : (s.retired).agenda = s.agenda := by unfold State.retired; split <;> simp
@[simp] theorem State.retired_input (s : State) : (s.retired).input = s.input := by unfold State.retired; split <;> simp
@[simp] theorem State.retired_cur (s : State) : (s.retired).cur = s.cur := by unfold State.retired; split <;> simp
@[simp] theorem State.retired_next (s : State) : (s.retired).next = s.next := by unfold State.retired; split <;> simp
@[simp] theorem State.retired_time (s : State) : (s.retired).time = s.time := by unfold State.retired; split <;> simp
@[simp] theorem State.retired_phase (s : State) : (s.retired).phase = s.phase := by unfold State.retired; split <;> simp
@[simp] theorem State.retired_limiter (s : State) : (s.retired).limiter = s.limiter := by unfold State.retired; split <;> simp
@[simp] theorem State.retired_mem (s : State) : (s.retired).mem = s.mem := by unfold State.retired; split <;> simp
@[simp] theorem State.retired_granules (s : State) : (s.retired).granules = s.granules := by unfold State.retired; split <;> simp
@[simp] theorem State.retired_lines (s : State) : (s.retired).lines = s.lines := by unfold State.retired; split <;> simp
@[simp] theorem State.retired_tlb (s : State) : (s.retired).tlb = s.tlb := by unfold State.retired; split <;> simp
@[simp] theorem State.retired_drains (s : State) : (s.retired).drains = s.drains := by unfold State.retired; split <;> simp
@[simp] theorem State.retired_slots (s : State) : (s.retired).slots = s.slots := by unfold State.retired; split <;> simp
@[simp] theorem State.retired_clusters (s : State) : (s.retired).clusters = s.clusters := by unfold State.retired; split <;> simp
@[simp] theorem State.retired_banks (s : State) : (s.retired).banks = s.banks := by unfold State.retired; split <;> simp
@[simp] theorem State.retired_regions (s : State) : (s.retired).regions = s.regions := by unfold State.retired; split <;> simp
@[simp] theorem State.retired_ports (s : State) : (s.retired).ports = s.ports := by unfold State.retired; split <;> simp
@[simp] theorem State.retired_streams (s : State) : (s.retired).streams = s.streams := by unfold State.retired; split <;> simp
@[simp] theorem State.retired_rtab (s : State) : (s.retired).rtab = s.rtab := by unfold State.retired; split <;> simp
@[simp] theorem State.retired_ctxbase (s : State) : (s.retired).ctxbase = s.ctxbase := by unfold State.retired; split <;> simp
@[simp] theorem State.retired_eltab (s : State) : (s.retired).eltab = s.eltab := by unfold State.retired; split <;> simp
@[simp] theorem State.retired_holds (s : State) : (s.retired).holds = s.holds := by unfold State.retired; split <;> simp
@[simp] theorem State.retired_censuses (s : State) : (s.retired).censuses = s.censuses := by unfold State.retired; split <;> simp
@[simp] theorem State.retired_boosts (s : State) : (s.retired).boosts = s.boosts := by unfold State.retired; split <;> simp
@[simp] theorem State.retired_grids (s : State) : (s.retired).grids = s.grids := by unfold State.retired; split <;> simp
@[simp] theorem State.retired_flips (s : State) : (s.retired).flips = s.flips := by unfold State.retired; split <;> simp
@[simp] theorem State.retired_toHost (s : State) : (s.retired).toHost = s.toHost := by unfold State.retired; split <;> simp
@[simp] theorem State.retired_toFabric (s : State) : (s.retired).toFabric = s.toFabric := by unfold State.retired; split <;> simp
@[simp] theorem State.retired_sources (s : State) : (s.retired).sources = s.sources := by unfold State.retired; split <;> simp

@[simp] theorem State.retire_fresh (s : State) (la : Nat) : (s.retire la).fresh = s.fresh := by simp [State.retire]
@[simp] theorem State.retire_agenda (s : State) (la : Nat) : (s.retire la).agenda = s.agenda := by simp [State.retire]
@[simp] theorem State.retire_input (s : State) (la : Nat) : (s.retire la).input = s.input := by simp [State.retire]
@[simp] theorem State.retire_cur (s : State) (la : Nat) : (s.retire la).cur = s.cur := by simp [State.retire]
@[simp] theorem State.retire_next (s : State) (la : Nat) : (s.retire la).next = s.next := by simp [State.retire]
@[simp] theorem State.retire_time (s : State) (la : Nat) : (s.retire la).time = s.time := by simp [State.retire]
@[simp] theorem State.retire_phase (s : State) (la : Nat) : (s.retire la).phase = s.phase := by simp [State.retire]
@[simp] theorem State.retire_limiter (s : State) (la : Nat) : (s.retire la).limiter = s.limiter := by simp [State.retire]
@[simp] theorem State.retire_mem (s : State) (la : Nat) : (s.retire la).mem = s.mem := by simp [State.retire]
@[simp] theorem State.retire_granules (s : State) (la : Nat) : (s.retire la).granules = s.granules := by simp [State.retire]
@[simp] theorem State.retire_lines (s : State) (la : Nat) : (s.retire la).lines = s.lines := by simp [State.retire]
@[simp] theorem State.retire_tlb (s : State) (la : Nat) : (s.retire la).tlb = s.tlb := by simp [State.retire]
@[simp] theorem State.retire_drains (s : State) (la : Nat) : (s.retire la).drains = s.drains := by simp [State.retire]
@[simp] theorem State.retire_clusters (s : State) (la : Nat) : (s.retire la).clusters = s.clusters := by simp [State.retire]
@[simp] theorem State.retire_banks (s : State) (la : Nat) : (s.retire la).banks = s.banks := by simp [State.retire]
@[simp] theorem State.retire_regions (s : State) (la : Nat) : (s.retire la).regions = s.regions := by simp [State.retire]
@[simp] theorem State.retire_ports (s : State) (la : Nat) : (s.retire la).ports = s.ports := by simp [State.retire]
@[simp] theorem State.retire_streams (s : State) (la : Nat) : (s.retire la).streams = s.streams := by simp [State.retire]
@[simp] theorem State.retire_rtab (s : State) (la : Nat) : (s.retire la).rtab = s.rtab := by simp [State.retire]
@[simp] theorem State.retire_ctxbase (s : State) (la : Nat) : (s.retire la).ctxbase = s.ctxbase := by simp [State.retire]
@[simp] theorem State.retire_eltab (s : State) (la : Nat) : (s.retire la).eltab = s.eltab := by simp [State.retire]
@[simp] theorem State.retire_holds (s : State) (la : Nat) : (s.retire la).holds = s.holds := by simp [State.retire]
@[simp] theorem State.retire_censuses (s : State) (la : Nat) : (s.retire la).censuses = s.censuses := by simp [State.retire]
@[simp] theorem State.retire_boosts (s : State) (la : Nat) : (s.retire la).boosts = s.boosts := by simp [State.retire]
@[simp] theorem State.retire_grids (s : State) (la : Nat) : (s.retire la).grids = s.grids := by simp [State.retire]
@[simp] theorem State.retire_flips (s : State) (la : Nat) : (s.retire la).flips = s.flips := by simp [State.retire]
@[simp] theorem State.retire_toHost (s : State) (la : Nat) : (s.retire la).toHost = s.toHost := by simp [State.retire]
@[simp] theorem State.retire_toFabric (s : State) (la : Nat) : (s.retire la).toFabric = s.toFabric := by simp [State.retire]
@[simp] theorem State.retire_sources (s : State) (la : Nat) : (s.retire la).sources = s.sources := by simp [State.retire]

/-! ## The changed part -/

theorem State.slot_setSlot (s : State) (k j : Nat) (x : Slot) : (s.setSlot k x).slot j = if k = j then x else s.slot j :=
  look_put ..

@[simp] theorem State.slot_setSlot_same (s : State) (k : Nat) (x : Slot) : (s.setSlot k x).slot k = x := look_put_same ..

theorem State.slot_onSlot (s : State) (k j : Nat) (f : Slot → Slot) :
    (s.onSlot k f).slot j = if k = j then f (s.slot k) else s.slot j := look_put ..

@[simp] theorem State.slot_onSlot_same (s : State) (k : Nat) (f : Slot → Slot) : (s.onSlot k f).slot k = f (s.slot k) :=
  look_put_same ..

theorem State.slot_onSlot_ne (s : State) {k j : Nat} (f : Slot → Slot) (h : k ≠ j) : (s.onSlot k f).slot j = s.slot j :=
  look_put_ne _ _ _ h

theorem State.core_onCore (s : State) (n m : Nat) (f : Core → Core) :
    (s.onCore n f).core m = if n = m then f (s.core n) else s.core m := look_change ..

@[simp] theorem State.core_onCore_same (s : State) (n : Nat) (f : Core → Core) : (s.onCore n f).core n = f (s.core n) :=
  look_change_same ..

theorem State.bank_onBank (s : State) (n m : Nat) (f : Bank → Bank) :
    (s.onBank n f).bank m = if n = m then f (s.bank n) else s.bank m := look_change ..

@[simp] theorem State.bank_onBank_same (s : State) (n : Nat) (f : Bank → Bank) : (s.onBank n f).bank n = f (s.bank n) :=
  look_change_same ..

@[simp] theorem State.cluster_onCluster_same (s : State) (n : Nat) (f : Cluster → Cluster) :
    (s.onCluster n f).cluster n = f (s.cluster n) := look_change_same ..

@[simp] theorem State.region_onRegion_same (s : State) (n : Nat) (f : Region → Region) :
    (s.onRegion n f).region n = f (s.region n) := look_change_same ..

@[simp] theorem State.port_onPort_same (s : State) (n : Nat) (f : Port → Port) : (s.onPort n f).port n = f (s.port n) :=
  look_change_same ..

theorem State.granule_onGranule (s : State) (a b : Nat) (f : Granule → Granule) :
    (s.onGranule a f).granule b = if a / 32 = b / 32 then f (s.granule a) else s.granule b := by
  unfold State.onGranule State.granule
  dsimp only
  split
  · rename_i h
    rw [look_without]
    split
    · exact h.symm
    · rfl
  · rw [look_put]

/-! ## A part read after another part has changed -/

@[simp] theorem State.core_setSlot (s : State) (k : Nat) (x : Slot) (m : Nat) : (s.setSlot k x).core m = s.core m := rfl
@[simp] theorem State.bank_setSlot (s : State) (k : Nat) (x : Slot) (m : Nat) : (s.setSlot k x).bank m = s.bank m := rfl
@[simp] theorem State.cluster_setSlot (s : State) (k : Nat) (x : Slot) (m : Nat) : (s.setSlot k x).cluster m = s.cluster m := rfl
@[simp] theorem State.grid_setSlot (s : State) (k : Nat) (x : Slot) (m : Nat) : (s.setSlot k x).grid m = s.grid m := rfl
@[simp] theorem State.byte_setSlot (s : State) (k : Nat) (x : Slot) (q : Nat) : (s.setSlot k x).byte q = s.byte q := rfl
@[simp] theorem State.granule_setSlot (s : State) (k : Nat) (x : Slot) (q : Nat) : (s.setSlot k x).granule q = s.granule q := rfl
@[simp] theorem State.core_onSlot (s : State) (k : Nat) (f : Slot → Slot) (m : Nat) : (s.onSlot k f).core m = s.core m := rfl
@[simp] theorem State.bank_onSlot (s : State) (k : Nat) (f : Slot → Slot) (m : Nat) : (s.onSlot k f).bank m = s.bank m := rfl
@[simp] theorem State.cluster_onSlot (s : State) (k : Nat) (f : Slot → Slot) (m : Nat) : (s.onSlot k f).cluster m = s.cluster m := rfl
@[simp] theorem State.grid_onSlot (s : State) (k : Nat) (f : Slot → Slot) (m : Nat) : (s.onSlot k f).grid m = s.grid m := rfl
@[simp] theorem State.byte_onSlot (s : State) (k : Nat) (f : Slot → Slot) (q : Nat) : (s.onSlot k f).byte q = s.byte q := rfl
@[simp] theorem State.granule_onSlot (s : State) (k : Nat) (f : Slot → Slot) (q : Nat) : (s.onSlot k f).granule q = s.granule q := rfl
@[simp] theorem State.core_onHere (s : State) (f : Slot → Slot) (m : Nat) : (s.onHere f).core m = s.core m := rfl
@[simp] theorem State.bank_onHere (s : State) (f : Slot → Slot) (m : Nat) : (s.onHere f).bank m = s.bank m := rfl
@[simp] theorem State.cluster_onHere (s : State) (f : Slot → Slot) (m : Nat) : (s.onHere f).cluster m = s.cluster m := rfl
@[simp] theorem State.grid_onHere (s : State) (f : Slot → Slot) (m : Nat) : (s.onHere f).grid m = s.grid m := rfl
@[simp] theorem State.byte_onHere (s : State) (f : Slot → Slot) (q : Nat) : (s.onHere f).byte q = s.byte q := rfl
@[simp] theorem State.granule_onHere (s : State) (f : Slot → Slot) (q : Nat) : (s.onHere f).granule q = s.granule q := rfl
@[simp] theorem State.slot_onCore (s : State) (n : Nat) (f : Core → Core) (j : Nat) : (s.onCore n f).slot j = s.slot j := rfl
@[simp] theorem State.bank_onCore (s : State) (n : Nat) (f : Core → Core) (m : Nat) : (s.onCore n f).bank m = s.bank m := rfl
@[simp] theorem State.cluster_onCore (s : State) (n : Nat) (f : Core → Core) (m : Nat) : (s.onCore n f).cluster m = s.cluster m := rfl
@[simp] theorem State.grid_onCore (s : State) (n : Nat) (f : Core → Core) (m : Nat) : (s.onCore n f).grid m = s.grid m := rfl
@[simp] theorem State.byte_onCore (s : State) (n : Nat) (f : Core → Core) (q : Nat) : (s.onCore n f).byte q = s.byte q := rfl
@[simp] theorem State.granule_onCore (s : State) (n : Nat) (f : Core → Core) (q : Nat) : (s.onCore n f).granule q = s.granule q := rfl
@[simp] theorem State.slot_onHereCore (s : State) (f : Core → Core) (j : Nat) : (s.onHereCore f).slot j = s.slot j := rfl
@[simp] theorem State.bank_onHereCore (s : State) (f : Core → Core) (m : Nat) : (s.onHereCore f).bank m = s.bank m := rfl
@[simp] theorem State.cluster_onHereCore (s : State) (f : Core → Core) (m : Nat) : (s.onHereCore f).cluster m = s.cluster m := rfl
@[simp] theorem State.grid_onHereCore (s : State) (f : Core → Core) (m : Nat) : (s.onHereCore f).grid m = s.grid m := rfl
@[simp] theorem State.byte_onHereCore (s : State) (f : Core → Core) (q : Nat) : (s.onHereCore f).byte q = s.byte q := rfl
@[simp] theorem State.granule_onHereCore (s : State) (f : Core → Core) (q : Nat) : (s.onHereCore f).granule q = s.granule q := rfl
@[simp] theorem State.slot_onCluster (s : State) (n : Nat) (f : Cluster → Cluster) (j : Nat) : (s.onCluster n f).slot j = s.slot j := rfl
@[simp] theorem State.core_onCluster (s : State) (n : Nat) (f : Cluster → Cluster) (m : Nat) : (s.onCluster n f).core m = s.core m := rfl
@[simp] theorem State.bank_onCluster (s : State) (n : Nat) (f : Cluster → Cluster) (m : Nat) : (s.onCluster n f).bank m = s.bank m := rfl
@[simp] theorem State.grid_onCluster (s : State) (n : Nat) (f : Cluster → Cluster) (m : Nat) : (s.onCluster n f).grid m = s.grid m := rfl
@[simp] theorem State.byte_onCluster (s : State) (n : Nat) (f : Cluster → Cluster) (q : Nat) : (s.onCluster n f).byte q = s.byte q := rfl
@[simp] theorem State.granule_onCluster (s : State) (n : Nat) (f : Cluster → Cluster) (q : Nat) : (s.onCluster n f).granule q = s.granule q := rfl
@[simp] theorem State.slot_onBank (s : State) (n : Nat) (f : Bank → Bank) (j : Nat) : (s.onBank n f).slot j = s.slot j := rfl
@[simp] theorem State.core_onBank (s : State) (n : Nat) (f : Bank → Bank) (m : Nat) : (s.onBank n f).core m = s.core m := rfl
@[simp] theorem State.cluster_onBank (s : State) (n : Nat) (f : Bank → Bank) (m : Nat) : (s.onBank n f).cluster m = s.cluster m := rfl
@[simp] theorem State.grid_onBank (s : State) (n : Nat) (f : Bank → Bank) (m : Nat) : (s.onBank n f).grid m = s.grid m := rfl
@[simp] theorem State.byte_onBank (s : State) (n : Nat) (f : Bank → Bank) (q : Nat) : (s.onBank n f).byte q = s.byte q := rfl
@[simp] theorem State.granule_onBank (s : State) (n : Nat) (f : Bank → Bank) (q : Nat) : (s.onBank n f).granule q = s.granule q := rfl
@[simp] theorem State.slot_onRegion (s : State) (n : Nat) (f : Region → Region) (j : Nat) : (s.onRegion n f).slot j = s.slot j := rfl
@[simp] theorem State.core_onRegion (s : State) (n : Nat) (f : Region → Region) (m : Nat) : (s.onRegion n f).core m = s.core m := rfl
@[simp] theorem State.bank_onRegion (s : State) (n : Nat) (f : Region → Region) (m : Nat) : (s.onRegion n f).bank m = s.bank m := rfl
@[simp] theorem State.cluster_onRegion (s : State) (n : Nat) (f : Region → Region) (m : Nat) : (s.onRegion n f).cluster m = s.cluster m := rfl
@[simp] theorem State.grid_onRegion (s : State) (n : Nat) (f : Region → Region) (m : Nat) : (s.onRegion n f).grid m = s.grid m := rfl
@[simp] theorem State.byte_onRegion (s : State) (n : Nat) (f : Region → Region) (q : Nat) : (s.onRegion n f).byte q = s.byte q := rfl
@[simp] theorem State.granule_onRegion (s : State) (n : Nat) (f : Region → Region) (q : Nat) : (s.onRegion n f).granule q = s.granule q := rfl
@[simp] theorem State.slot_onPort (s : State) (n : Nat) (f : Port → Port) (j : Nat) : (s.onPort n f).slot j = s.slot j := rfl
@[simp] theorem State.core_onPort (s : State) (n : Nat) (f : Port → Port) (m : Nat) : (s.onPort n f).core m = s.core m := rfl
@[simp] theorem State.bank_onPort (s : State) (n : Nat) (f : Port → Port) (m : Nat) : (s.onPort n f).bank m = s.bank m := rfl
@[simp] theorem State.cluster_onPort (s : State) (n : Nat) (f : Port → Port) (m : Nat) : (s.onPort n f).cluster m = s.cluster m := rfl
@[simp] theorem State.grid_onPort (s : State) (n : Nat) (f : Port → Port) (m : Nat) : (s.onPort n f).grid m = s.grid m := rfl
@[simp] theorem State.byte_onPort (s : State) (n : Nat) (f : Port → Port) (q : Nat) : (s.onPort n f).byte q = s.byte q := rfl
@[simp] theorem State.granule_onPort (s : State) (n : Nat) (f : Port → Port) (q : Nat) : (s.onPort n f).granule q = s.granule q := rfl
@[simp] theorem State.slot_onGrid (s : State) (n : Nat) (f : Grid → Grid) (j : Nat) : (s.onGrid n f).slot j = s.slot j := rfl
@[simp] theorem State.core_onGrid (s : State) (n : Nat) (f : Grid → Grid) (m : Nat) : (s.onGrid n f).core m = s.core m := rfl
@[simp] theorem State.bank_onGrid (s : State) (n : Nat) (f : Grid → Grid) (m : Nat) : (s.onGrid n f).bank m = s.bank m := rfl
@[simp] theorem State.cluster_onGrid (s : State) (n : Nat) (f : Grid → Grid) (m : Nat) : (s.onGrid n f).cluster m = s.cluster m := rfl
@[simp] theorem State.byte_onGrid (s : State) (n : Nat) (f : Grid → Grid) (q : Nat) : (s.onGrid n f).byte q = s.byte q := rfl
@[simp] theorem State.granule_onGrid (s : State) (n : Nat) (f : Grid → Grid) (q : Nat) : (s.onGrid n f).granule q = s.granule q := rfl
@[simp] theorem State.slot_emit (s : State) (e : Event) (j : Nat) : (s.emit e).slot j = s.slot j := rfl
@[simp] theorem State.core_emit (s : State) (e : Event) (m : Nat) : (s.emit e).core m = s.core m := rfl
@[simp] theorem State.bank_emit (s : State) (e : Event) (m : Nat) : (s.emit e).bank m = s.bank m := rfl
@[simp] theorem State.cluster_emit (s : State) (e : Event) (m : Nat) : (s.emit e).cluster m = s.cluster m := rfl
@[simp] theorem State.grid_emit (s : State) (e : Event) (m : Nat) : (s.emit e).grid m = s.grid m := rfl
@[simp] theorem State.byte_emit (s : State) (e : Event) (q : Nat) : (s.emit e).byte q = s.byte q := rfl
@[simp] theorem State.granule_emit (s : State) (e : Event) (q : Nat) : (s.emit e).granule q = s.granule q := rfl
@[simp] theorem State.slot_emits (s : State) (es : List Event) (j : Nat) : (s.emits es).slot j = s.slot j := rfl
@[simp] theorem State.core_emits (s : State) (es : List Event) (m : Nat) : (s.emits es).core m = s.core m := rfl
@[simp] theorem State.bank_emits (s : State) (es : List Event) (m : Nat) : (s.emits es).bank m = s.bank m := rfl
@[simp] theorem State.cluster_emits (s : State) (es : List Event) (m : Nat) : (s.emits es).cluster m = s.cluster m := rfl
@[simp] theorem State.grid_emits (s : State) (es : List Event) (m : Nat) : (s.emits es).grid m = s.grid m := rfl
@[simp] theorem State.byte_emits (s : State) (es : List Event) (q : Nat) : (s.emits es).byte q = s.byte q := rfl
@[simp] theorem State.granule_emits (s : State) (es : List Event) (q : Nat) : (s.emits es).granule q = s.granule q := rfl
@[simp] theorem State.slot_drawn (s : State) (j : Nat) : (s.drawn).slot j = s.slot j := rfl
@[simp] theorem State.core_drawn (s : State) (m : Nat) : (s.drawn).core m = s.core m := rfl
@[simp] theorem State.bank_drawn (s : State) (m : Nat) : (s.drawn).bank m = s.bank m := rfl
@[simp] theorem State.cluster_drawn (s : State) (m : Nat) : (s.drawn).cluster m = s.cluster m := rfl
@[simp] theorem State.grid_drawn (s : State) (m : Nat) : (s.drawn).grid m = s.grid m := rfl
@[simp] theorem State.byte_drawn (s : State) (q : Nat) : (s.drawn).byte q = s.byte q := rfl
@[simp] theorem State.granule_drawn (s : State) (q : Nat) : (s.drawn).granule q = s.granule q := rfl
@[simp] theorem State.slot_store (s : State) (a : Nat) (bs : List Byte) (j : Nat) : (s.store a bs).slot j = s.slot j := rfl
@[simp] theorem State.core_store (s : State) (a : Nat) (bs : List Byte) (m : Nat) : (s.store a bs).core m = s.core m := rfl
@[simp] theorem State.bank_store (s : State) (a : Nat) (bs : List Byte) (m : Nat) : (s.store a bs).bank m = s.bank m := rfl
@[simp] theorem State.cluster_store (s : State) (a : Nat) (bs : List Byte) (m : Nat) : (s.store a bs).cluster m = s.cluster m := rfl
@[simp] theorem State.grid_store (s : State) (a : Nat) (bs : List Byte) (m : Nat) : (s.store a bs).grid m = s.grid m := rfl
@[simp] theorem State.granule_store (s : State) (a : Nat) (bs : List Byte) (q : Nat) : (s.store a bs).granule q = s.granule q := rfl
@[simp] theorem State.slot_onGranule (s : State) (a : Nat) (f : Granule → Granule) (j : Nat) : (s.onGranule a f).slot j = s.slot j := rfl
@[simp] theorem State.core_onGranule (s : State) (a : Nat) (f : Granule → Granule) (m : Nat) : (s.onGranule a f).core m = s.core m := rfl
@[simp] theorem State.bank_onGranule (s : State) (a : Nat) (f : Granule → Granule) (m : Nat) : (s.onGranule a f).bank m = s.bank m := rfl
@[simp] theorem State.cluster_onGranule (s : State) (a : Nat) (f : Granule → Granule) (m : Nat) : (s.onGranule a f).cluster m = s.cluster m := rfl
@[simp] theorem State.grid_onGranule (s : State) (a : Nat) (f : Granule → Granule) (m : Nat) : (s.onGranule a f).grid m = s.grid m := rfl
@[simp] theorem State.byte_onGranule (s : State) (a : Nat) (f : Granule → Granule) (q : Nat) : (s.onGranule a f).byte q = s.byte q := rfl
@[simp] theorem State.slot_count (s : State) (c n amount : Nat) (j : Nat) : (s.count c n amount).slot j = s.slot j := by simp only [State.slot, State.count_slots]
@[simp] theorem State.bank_count (s : State) (c n amount : Nat) (m : Nat) : (s.count c n amount).bank m = s.bank m := by simp only [State.bank, State.count_banks]
@[simp] theorem State.cluster_count (s : State) (c n amount : Nat) (m : Nat) : (s.count c n amount).cluster m = s.cluster m := by simp only [State.cluster, State.count_clusters]
@[simp] theorem State.grid_count (s : State) (c n amount : Nat) (m : Nat) : (s.count c n amount).grid m = s.grid m := by simp only [State.grid, State.count_grids]
@[simp] theorem State.byte_count (s : State) (c n amount : Nat) (q : Nat) : (s.count c n amount).byte q = s.byte q := by simp only [State.byte, State.count_mem]
@[simp] theorem State.granule_count (s : State) (c n amount : Nat) (q : Nat) : (s.count c n amount).granule q = s.granule q := by simp only [State.granule, State.count_granules]
@[simp] theorem State.core_writeReg (s : State) (k r : Nat) (v : Reg) (m : Nat) : (s.writeReg k r v).core m = s.core m := by simp only [State.core, State.writeReg_cores]
@[simp] theorem State.bank_writeReg (s : State) (k r : Nat) (v : Reg) (m : Nat) : (s.writeReg k r v).bank m = s.bank m := by simp only [State.bank, State.writeReg_banks]
@[simp] theorem State.cluster_writeReg (s : State) (k r : Nat) (v : Reg) (m : Nat) : (s.writeReg k r v).cluster m = s.cluster m := by simp only [State.cluster, State.writeReg_clusters]
@[simp] theorem State.grid_writeReg (s : State) (k r : Nat) (v : Reg) (m : Nat) : (s.writeReg k r v).grid m = s.grid m := by simp only [State.grid, State.writeReg_grids]
@[simp] theorem State.byte_writeReg (s : State) (k r : Nat) (v : Reg) (q : Nat) : (s.writeReg k r v).byte q = s.byte q := by simp only [State.byte, State.writeReg_mem]
@[simp] theorem State.granule_writeReg (s : State) (k r : Nat) (v : Reg) (q : Nat) : (s.writeReg k r v).granule q = s.granule q := by simp only [State.granule, State.writeReg_granules]
@[simp] theorem State.slot_retired (s : State) (j : Nat) : (s.retired).slot j = s.slot j := by simp only [State.slot, State.retired_slots]
@[simp] theorem State.bank_retired (s : State) (m : Nat) : (s.retired).bank m = s.bank m := by simp only [State.bank, State.retired_banks]
@[simp] theorem State.cluster_retired (s : State) (m : Nat) : (s.retired).cluster m = s.cluster m := by simp only [State.cluster, State.retired_clusters]
@[simp] theorem State.grid_retired (s : State) (m : Nat) : (s.retired).grid m = s.grid m := by simp only [State.grid, State.retired_grids]
@[simp] theorem State.byte_retired (s : State) (q : Nat) : (s.retired).byte q = s.byte q := by simp only [State.byte, State.retired_mem]
@[simp] theorem State.granule_retired (s : State) (q : Nat) : (s.retired).granule q = s.granule q := by simp only [State.granule, State.retired_granules]

end Sys2Proof.Machine
end

