-- ==== Sys2Proof/Laws/Acts.lean ====
section
/-! SUPPORT. The shared acts of the instructions, each said once. -/

namespace Sys2Proof.Machine

open Sys2Proof

/-! ## Running acts -/

theorem Act.bind_apply {α β : Type} (a : Act α) (f : α → Act β) (s : State) :
    (a >>= f) s = match a s with
      | .ok (x, t) => f x t
      | .error e => .error e := by
  show (StateT.bind a f s) = _
  unfold StateT.bind
  cases a s <;> rfl

theorem Act.bind_ok {α β : Type} {a : Act α} {f : α → Act β} {s t : State} {x : α} (h : a s = .ok (x, t)) :
    (a >>= f) s = f x t := by rw [Act.bind_apply, h]

theorem Act.bind_error {α β : Type} {a : Act α} {f : α → Act β} {s : State} {e : Stop} (h : a s = .error e) :
    (a >>= f) s = .error e := by rw [Act.bind_apply, h]

@[simp] theorem Act.pure_apply {α : Type} (x : α) (s : State) : (pure x : Act α) s = .ok (x, s) := rfl
@[simp] theorem Act.get_apply (s : State) : (get : Act State) s = .ok (s, s) := rfl
@[simp] theorem Act.set_apply (s t : State) : (set t : Act Unit) s = .ok ((), t) := rfl
@[simp] theorem Act.modify_apply (f : State → State) (s : State) : (modify f : Act Unit) s = .ok ((), f s) := rfl
@[simp] theorem Act.throw_apply {α : Type} (e : Stop) (s : State) : (throw e : Act α) s = .error e := rfl
@[simp] theorem Act.trap_apply {α : Type} (c : Cause) (a : Nat) (s : State) :
    (trap c a : Act α) s = .error (.trap { cause := c, addr := a } s) := rfl
@[simp] theorem Act.raise_apply {α : Type} (t : TrapInfo) (s : State) : (raise t : Act α) s = .error (.trap t s) := rfl
@[simp] theorem Act.waitHere_apply {α : Type} (s : State) : (waitHere : Act α) s = .error .wait := rfl
@[simp] theorem Act.waitAfter_apply {α : Type} (f : State → State) (s : State) :
    (waitAfter f : Act α) s = .error (.again f) := rfl
@[simp] theorem Act.finishWith_apply {α : Type} (t s : State) : (finishWith t : Act α) s = .error (.done t) := rfl
@[simp] theorem Act.result_apply (r : RegNo) (v : Reg) (s : State) :
    result r v s = .ok ((), s.writeReg s.cur r.toNat v) := rfl
@[simp] theorem Act.retire_apply (la : Look) (s : State) : retire la s = .ok ((), s.retire la.toNat) := rfl
@[simp] theorem Act.jumpTo_apply (pc : Word64) (s : State) : jumpTo pc s = .ok ((), s.jumpTo pc) := rfl

theorem settle_ok {la : Nat} {a : Act Unit} {s t : State} (h : a s = .ok ((), t)) : settle la a s = .next t := by
  rw [settle, h]

theorem settle_trap {la : Nat} {a : Act Unit} {s u : State} {t : TrapInfo} (h : a s = .error (.trap t u)) :
    settle la a s = .next (u.takeTrap t la) := by
  rw [settle, h]

theorem settle_wait {la : Nat} {a : Act Unit} {s : State} (h : a s = .error .wait) :
    settle la a s = .next { s with waited := true } := by
  rw [settle, h]

theorem settle_again {la : Nat} {a : Act Unit} {s : State} {f : State → State} (h : a s = .error (.again f)) :
    settle la a s = .next { f s with waited := true } := by
  rw [settle, h]

theorem settle_done {la : Nat} {a : Act Unit} {s t : State} (h : a s = .error (.done t)) : settle la a s = .next t := by
  rw [settle, h]

/-- Whatever an instruction's acts do, it answers a next state. -/
theorem settle_next (la : Nat) (a : Act Unit) (s : State) : ∃ t, settle la a s = .next t := by
  unfold settle
  split <;> exact ⟨_, rfl⟩

/-! ## Entering an instruction and reading its sources -/

theorem atLevels_ok {allowed : List Level} {s : State} (h : levelOf s.cur ∈ allowed) : atLevels allowed s = .ok ((), s) := by
  simp [atLevels, Act.bind_apply, h]

theorem everywhere_any (k : Nat) : levelOf k ∈ everywhere := by
  cases levelOf k <;> decide

theorem Slot.firstMark_none {sl : Slot} {rs : List Nat} (h : ∀ r ∈ rs, (sl.marks.find? fun e => e.1 = r) = none) :
    sl.firstMark rs = none := by
  induction rs with
  | nil => rfl
  | cons r rs ih =>
    rw [Slot.firstMark, h r (by simp)]
    exact ih fun q hq => h q (by simp [hq])

theorem enter_ready {allowed : List Level} {srcs dsts : List RegNo} {s : State} (hl : levelOf s.cur ∈ allowed)
    (hs : ∀ r ∈ srcs, s.Readable r) (hd : ∀ r ∈ dsts, s.Writable r) : enter allowed srcs dsts s = .ok ((), s) := by
  have h1 : (dsts.map BitVec.toNat).any (fun r => (s.here.stream r).isSome) = false := by
    simp only [List.any_eq_false, List.mem_map, forall_exists_index, and_imp]
    rintro _ r hr rfl
    simp [(hd r hr).1]
  have h2 : (srcs.map BitVec.toNat ++ dsts.map BitVec.toNat).any (fun r => s.outstanding s.cur r) = false := by
    simp only [List.any_eq_false, List.mem_append, List.mem_map]
    rintro _ (⟨r, hr, rfl⟩ | ⟨r, hr, rfl⟩)
    · simp [(hs r hr).2.1]
    · simp [(hd r hr).2]
  have h3 : s.here.firstMark (srcs.map BitVec.toNat) = none := by
    apply Slot.firstMark_none
    simp only [List.mem_map]
    rintro _ ⟨r, hr, rfl⟩
    exact (hs r hr).2.2.1
  simp only [enter, Act.bind_apply, atLevels_ok hl, Act.get_apply, h1, h2, h3, Bool.false_eq_true, if_false]
  generalize hr : List.find? _ (srcs.map BitVec.toNat) = o
  cases o with
  | none => rfl
  | some r =>
    have hm := List.mem_of_find?_eq_some hr
    have hp := List.find?_some hr
    obtain ⟨q, hq, rfl⟩ := List.mem_map.mp hm
    rw [(hs q hq).1] at hp
    exact absurd hp (by simp)

theorem source_ready {r : RegNo} {s : State} (h : s.Readable r) : source r s = .ok (s.here.reg r.toNat, s) := by
  have hf : (s.flips.filter fun f => f.at_.isRegister s.cur r.toNat) = [] := by
    rw [List.filter_eq_nil_iff]
    exact fun f hm => by simp [h.2.2.2 f hm]
  simp [source, Act.bind_apply, h.1, hf]

theorem exactSource_ready {r : RegNo} {s : State} (h : s.Readable r) (hb : (s.here.reg r.toNat).tag ≠ .bounded) :
    exactSource r s = .ok (s.here.reg r.toNat, s) := by
  simp [exactSource, Act.bind_apply, source_ready h, hb]

theorem exactSource_bounded {r : RegNo} {s : State} (h : s.Readable r) (hb : (s.here.reg r.toNat).tag = .bounded) :
    exactSource r s = .error (.trap { cause := .boundedValue } s) := by
  simp [exactSource, Act.bind_apply, source_ready h, hb]

theorem refuseBounded_ok {v : Reg} (h : v.tag ≠ .bounded) (s : State) : refuseBounded v s = .ok ((), s) := by
  rw [refuseBounded, if_neg h]
  rfl

theorem refuseBounded_trap {v : Reg} (h : v.tag = .bounded) (s : State) :
    refuseBounded v s = .error (.trap { cause := .boundedValue } s) := by
  rw [refuseBounded, if_pos h]
  rfl

theorem checkTarget_ok {t : Word64} (h : ¬t.getLsbD 1 = true) (s : State) : checkTarget t s = .ok ((), s) := by
  rw [checkTarget, if_neg h]
  rfl

theorem checkTarget_trap {t : Word64} (h : t.getLsbD 1 = true) (s : State) :
    checkTarget t s = .error (.trap { cause := .alignment, addr := t.toNat } s) := by
  rw [checkTarget, if_pos h]
  rfl

/-! ## The end of an instruction -/

theorem Slot.reg_setReg (sl : Slot) (r q : Nat) (v : Reg) :
    (sl.setReg r v).reg q = if r = q ∧ r ≠ 0 then v else sl.reg q := by
  unfold Slot.setReg Slot.reg
  by_cases hr : r = 0
  · simp [hr]
  · by_cases hq : q = 0
    · simp [hq, hr]
    · by_cases h : r = q <;> simp [hr, hq, h, look_put]

theorem State.slot_writeReg (s : State) (k j r : Nat) (v : Reg) :
    (s.writeReg k r v).slot j = if k = j then (s.slot k).setReg r v else s.slot j := by
  unfold State.writeReg
  by_cases hr : r = 0
  · simp only [hr, if_true, Slot.setReg]
    split
    · rename_i h
      rw [h]
    · rfl
  · rw [if_neg hr]
    exact State.slot_onSlot s k j fun sl => sl.setReg r v

theorem State.core_count (s : State) (c n amount m : Nat) :
    (s.count c n amount).core m = { s.core m with ev := ((s.count c n amount).core m).ev } := by
  unfold State.count
  split
  · rw [State.core_onCore]
    split
    · rename_i h
      rw [h]
    · rfl
  · rfl

theorem State.ev_count (s : State) (c n amount m e : Nat) (h : e ≠ n) :
    look 0 ((s.count c n amount).core m).ev e = look 0 (s.core m).ev e := by
  unfold State.count
  split
  · rw [State.core_onCore]
    split
    · rename_i hm
      rw [← hm]
      exact look_change_ne 0 (s.core c).ev (fun v => min (v + amount) 0xFFFFFFFF) (Ne.symm h)
    · rfl
  · rfl

theorem State.core_retired (s : State) (m : Nat) : s.retired.core m = { s.core m with ev := (s.retired.core m).ev } := by
  unfold State.retired
  split
  · rfl
  · exact State.core_count ..

theorem State.ev_retired (s : State) (m e : Nat) (h : e ≠ 7) :
    look 0 (s.retired.core m).ev e = look 0 (s.core m).ev e := by
  unfold State.retired
  split
  · rfl
  · exact State.ev_count _ _ _ _ _ _ h

theorem State.count_eta (s : State) (c n amount : Nat) :
    s.count c n amount = { s with cores := (s.count c n amount).cores } := by
  unfold State.count
  split <;> rfl

theorem State.retired_eta (s : State) : s.retired = { s with cores := s.retired.cores } := by
  unfold State.retired
  split
  · rfl
  · exact State.count_eta ..

theorem State.writeReg_eta (s : State) (k r : Nat) (v : Reg) :
    s.writeReg k r v = { s with slots := (s.writeReg k r v).slots, flips := (s.writeReg k r v).flips } := by
  unfold State.writeReg
  split <;> rfl

theorem State.retire_slot (s : State) (la k : Nat) :
    (s.retire la).slot k = if s.cur = k then { s.here with
      pc := s.here.pc + 4, window := if s.here.window = 0 then la else s.here.window - 1 } else s.slot k := by
  unfold State.retire
  rw [State.slot_retired]
  exact State.slot_onSlot ..

theorem State.retire_onlyHere (s : State) (la : Nat) : s.OnlyHere (s.retire la) := by
  refine ⟨?_, fun k hk => ?_, fun n => ?_, fun n e he => ?_⟩
  · unfold State.retire State.retired
    split
    · rfl
    · unfold State.count
      split <;> rfl
  · rw [State.retire_slot, if_neg (Ne.symm hk)]
  · exact State.core_retired ..
  · exact State.ev_retired _ _ _ he

/-- An instruction that writes a result and retires leaves the state that `Wrote` describes. -/
theorem State.wrote_retire (s : State) (rd : RegNo) (v : Reg) (la : Nat) :
    s.Wrote rd v la ((s.writeReg s.cur rd.toNat v).retire la) := by
  obtain ⟨h1, h2, h3, h4⟩ := (s.writeReg s.cur rd.toNat v).retire_onlyHere la
  have hh : ((s.writeReg s.cur rd.toNat v).retire la).here = { s.here.setReg rd.toNat v with
      pc := s.here.pc + 4, window := if s.here.window = 0 then la else s.here.window - 1 } := by
    have e : (s.writeReg s.cur rd.toNat v).here = s.here.setReg rd.toNat v := by
      unfold State.here
      rw [State.writeReg_cur, State.slot_writeReg, if_pos rfl]
    have e2 : (s.here.setReg rd.toNat v).pc = s.here.pc ∧ (s.here.setReg rd.toNat v).window = s.here.window := by
      unfold Slot.setReg
      split <;> exact ⟨rfl, rfl⟩
    rw [State.here, State.retire_slot, State.retire_cur, if_pos rfl, e, e2.1, e2.2]
  refine ⟨⟨?_, fun k hk => ?_, fun n => ?_, fun n e he => ?_⟩, ?_, fun r => ?_, ?_, ?_⟩
  · rw [h1]
    unfold State.writeReg
    split <;> rfl
  · rw [h2 k (by simpa using hk), State.slot_writeReg, if_neg (Ne.symm hk)]
  · rw [h3 n, State.core_writeReg]
  · rw [h4 n e he, State.core_writeReg]
  · rw [Slot.SameButRegs, hh]
    unfold Slot.setReg
    split <;> rfl
  · have e : (s.here.setReg rd.toNat v).reg r.toNat = if r = rd ∧ rd ≠ 0 then v else s.here.reg r.toNat := by
      rw [Slot.reg_setReg]
      have i1 : rd.toNat = r.toNat ↔ r = rd := ⟨fun h => (BitVec.eq_of_toNat_eq h).symm, fun h => by rw [h]⟩
      have i2 : rd.toNat ≠ 0 ↔ rd ≠ 0 := not_congr ⟨fun h => BitVec.eq_of_toNat_eq h, fun h => by rw [h]; rfl⟩
      simp only [i1, i2]
    rw [State.value, hh]
    exact e
  · rw [hh]
  · rw [hh]

/-- An instruction that writes nothing and retires. -/
theorem State.wrote_nothing (s : State) (v : Reg) (la : Nat) : s.Wrote 0 v la (s.retire la) := s.wrote_retire 0 v la

theorem State.jumpTo_slot (s : State) (pc : Word64) (h : isBankSlot s.cur = false ∨ pc ≠ 0) (k : Nat) :
    (s.jumpTo pc).slot k = if s.cur = k then { s.here with pc := pc, window := 0, skip := none } else s.slot k := by
  have hb : ((isBankSlot s.cur && pc = 0) : Bool) = false := by
    rcases h with h | h
    · simp [h]
    · simpa using fun _ => h
  unfold State.jumpTo
  simp only [State.retired_cur, State.onHere_cur, hb, Bool.false_eq_true, if_false, State.slot_retired]
  exact State.slot_onSlot ..

/-- A transfer of control that does not end a bank-unit task leaves the state that `WentTo` describes. -/
theorem State.wentTo_jump (s : State) (rd : RegNo) (v : Reg) (pc : Word64) (h : isBankSlot s.cur = false ∨ pc ≠ 0) :
    s.WentTo rd v pc ((s.writeReg s.cur rd.toNat v).jumpTo pc) := by
  have h' : isBankSlot (s.writeReg s.cur rd.toNat v).cur = false ∨ pc ≠ 0 := by simpa using h
  have hs := (s.writeReg s.cur rd.toNat v).jumpTo_slot pc h'
  have hj : (s.writeReg s.cur rd.toNat v).jumpTo pc = ((s.writeReg s.cur rd.toNat v).onHere
      fun sl => { sl with pc := pc, window := 0, skip := none }).retired := by
    unfold State.jumpTo
    rw [if_neg]
    rcases h with h | h
    · simp [h]
    · simpa using fun _ => h
  have hh : ((s.writeReg s.cur rd.toNat v).jumpTo pc).here =
      { s.here.setReg rd.toNat v with pc := pc, window := 0, skip := none } := by
    have hc : ((s.writeReg s.cur rd.toNat v).jumpTo pc).cur = s.cur := by rw [hj]; simp
    rw [State.here, hc, hs, if_pos (by simp), State.here, State.writeReg_cur, State.slot_writeReg, if_pos rfl]
    rfl
  refine ⟨⟨?_, fun k hk => ?_, fun n => ?_, fun n e he => ?_⟩, ?_, fun r => ?_⟩
  · rw [hj]
    by_cases hr : rd.toNat = 0
    · simp only [State.writeReg, if_pos hr]
      unfold State.retired
      split
      · rfl
      · unfold State.count
        split <;> rfl
    · simp only [State.writeReg, if_neg hr]
      unfold State.retired
      split
      · rfl
      · unfold State.count
        split <;> rfl
  · rw [hs, if_neg (by simpa using Ne.symm hk), State.slot_writeReg, if_neg (Ne.symm hk)]
  · rw [hj, State.core_retired, State.core_onHere, State.core_writeReg]
  · rw [hj, State.ev_retired _ _ _ he, State.core_onHere, State.core_writeReg]
  · rw [hh]
    unfold Slot.setReg
    split <;> rfl
  · have e : (s.here.setReg rd.toNat v).reg r.toNat = if r = rd ∧ rd ≠ 0 then v else s.here.reg r.toNat := by
      rw [Slot.reg_setReg]
      have i1 : rd.toNat = r.toNat ↔ r = rd := ⟨fun h => (BitVec.eq_of_toNat_eq h).symm, fun h => by rw [h]⟩
      have i2 : rd.toNat ≠ 0 ↔ rd ≠ 0 := not_congr ⟨fun h => BitVec.eq_of_toNat_eq h, fun h => by rw [h]; rfl⟩
      simp only [i1, i2]
    rw [State.value, hh]
    exact e

end Sys2Proof.Machine
end

