-- ==== Sys2Proof/Laws/Integer.lean ====
section
/-! SUPPORT. The shared bodies of integer computation complete, and each operation has the value that the specification
states in integers. -/

namespace Sys2Proof.Machine

open Sys2Proof

theorem tagOf_one (a : Reg) : tagOf [a] = if a.tag = .bounded then .bounded else .exact := by
  simp [tagOf]

theorem tagOf_two (a b : Reg) : tagOf [a, b] = if a.tag = .bounded ∨ b.tag = .bounded then .bounded else .exact := by
  simp [tagOf]

theorem registerOp_ready {s : State} {gd gs1 gs2 : RegNo} (h1 : s.Readable gs1) (h2 : s.Readable gs2) (hd : s.Writable gd)
    (f : Word64 → Word64 → Word64) :
    ∃ t, settle 0 (registerOp gd gs1 gs2 f) s = .next t ∧
      s.Wrote gd ⟨(f ((s.value gs1).data.setWidth 64) ((s.value gs2).data.setWidth 64)).setWidth 128,
        if (s.value gs1).tag = .bounded ∨ (s.value gs2).tag = .bounded then .bounded else .exact⟩ 0 t := by
  have he := enter_ready (srcs := [gs1, gs2]) (dsts := [gd]) (everywhere_any s.cur) (by simp [h1, h2]) (by simp [hd])
  refine ⟨_, settle_ok ?_, s.wrote_retire gd _ 0⟩
  simp only [registerOp, Act.bind_ok he, Act.bind_ok (source_ready h1), Act.bind_ok (source_ready h2), Act.bind_apply,
    Act.result_apply, Act.retire_apply, tagOf_two]
  rfl

theorem immediateOp_ready {s : State} {rd rs1 : RegNo} (h : rd ≠ 0 → s.Readable rs1 ∧ s.Writable rd) (b : Word64)
    (f : Word64 → Word64 → Word64) :
    ∃ t, settle 0 (immediateOp rd rs1 b f) s = .next t ∧
      s.Wrote rd ⟨(f ((s.value rs1).data.setWidth 64) b).setWidth 128,
        if (s.value rs1).tag = .bounded then .bounded else .exact⟩ 0 t := by
  by_cases hz : rd = 0
  · subst hz
    exact ⟨_, settle_ok rfl, s.wrote_nothing _ 0⟩
  · have h1 := (h hz).1
    have he := enter_ready (srcs := [rs1]) (dsts := [rd]) (everywhere_any s.cur) (by simp [h1]) (by simp [(h hz).2])
    refine ⟨_, settle_ok ?_, s.wrote_retire rd _ 0⟩
    simp only [immediateOp, if_neg hz, Act.bind_ok he, Act.bind_ok (source_ready h1), Act.bind_apply,
      Act.result_apply, Act.retire_apply, tagOf_one]
    rfl

theorem upperOp_ready {s : State} {rd : RegNo} (h : rd ≠ 0 → s.Writable rd) (v : State → Word64) :
    ∃ t, settle 0 (upperOp rd v) s = .next t ∧ s.Wrote rd ⟨(v s).setWidth 128, .exact⟩ 0 t := by
  by_cases hz : rd = 0
  · subst hz
    exact ⟨_, settle_ok rfl, s.wrote_nothing _ 0⟩
  · have he := enter_ready (srcs := []) (dsts := [rd]) (everywhere_any s.cur) (by simp) (by simp [h hz])
    refine ⟨_, settle_ok ?_, s.wrote_retire rd _ 0⟩
    simp only [upperOp, if_neg hz, Act.bind_ok he, Act.bind_apply, Act.get_apply, Act.result_apply, Act.retire_apply]
    rfl

/-! ## The operations in integers (R346 Table 2, R348 Table 4) -/

variable (a b : Word64)

theorem add_value : a + b = BitVec.ofNat 64 (a.toNat + b.toNat) := by
  apply BitVec.eq_of_toNat_eq
  simp

theorem sub_value : a - b = BitVec.ofInt 64 (a.toInt - b.toInt) := by
  apply BitVec.eq_of_toInt_eq
  simp

theorem shl64_value : shl64 a b = BitVec.ofNat 64 (a.toNat * 2 ^ (b.toNat % 64)) := by
  apply BitVec.eq_of_toNat_eq
  simp [shl64, Nat.shiftLeft_eq]

theorem slt_value : ofBool64 (a.slt b) = if a.toInt < b.toInt then 1 else 0 := by
  simp [ofBool64, BitVec.slt]

theorem sltu_value : ofBool64 (a.ult b) = if a.toNat < b.toNat then 1 else 0 := by
  simp [ofBool64, BitVec.ult]

theorem shr64_value : shr64 a b = BitVec.ofNat 64 (a.toNat / 2 ^ (b.toNat % 64)) := by
  apply BitVec.eq_of_toNat_eq
  have h : a.toNat / 2 ^ (b.toNat % 64) < 2 ^ 64 := lt_of_le_of_lt (Nat.div_le_self _ _) a.isLt
  rw [BitVec.toNat_ofNat, Nat.mod_eq_of_lt h]
  simp [shr64, Nat.shiftRight_eq_div_pow]

theorem sshiftRight_value {w : Nat} (x : BitVec w) (n : Nat) : x.sshiftRight n = BitVec.ofInt w (x.toInt / 2 ^ n) := by
  simp [BitVec.sshiftRight, Int.shiftRight_eq_div_pow]

theorem sar64_value : sar64 a b = BitVec.ofInt 64 (a.toInt / 2 ^ (b.toNat % 64)) := sshiftRight_value ..

theorem mul_value : a * b = BitVec.ofNat 64 (a.toNat * b.toNat) := by
  apply BitVec.eq_of_toNat_eq
  simp

theorem high_half_value (z : Int) (x : Word128) (h : x = BitVec.ofInt 128 z) : (x >>> 64).setWidth 64 = BitVec.ofInt 64 (z / 2 ^ 64) := by
  subst h
  apply BitVec.eq_of_toNat_eq
  simp only [BitVec.toNat_setWidth, BitVec.toNat_ushiftRight, BitVec.toNat_ofInt, Nat.shiftRight_eq_div_pow]
  omega

theorem mulHigh_signed : mulHigh true true a b = BitVec.ofInt 64 (a.toInt * b.toInt / 2 ^ 64) := by
  apply high_half_value
  apply BitVec.eq_of_toInt_eq
  simp only [if_true, BitVec.toInt_mul, BitVec.toInt_ofInt]
  rw [BitVec.toInt_signExtend_of_le (by omega), BitVec.toInt_signExtend_of_le (by omega)]

theorem setWidth_toInt : (a.setWidth 128).toInt = a.toNat := by
  have := a.isLt
  rw [BitVec.toInt_eq_toNat_of_lt] <;> rw [BitVec.toNat_setWidth_of_le (by omega)]
  omega

theorem mulHigh_signed_unsigned : mulHigh true false a b = BitVec.ofInt 64 (a.toInt * b.toNat / 2 ^ 64) := by
  apply high_half_value
  apply BitVec.eq_of_toInt_eq
  simp only [if_true, Bool.false_eq_true, if_false, BitVec.toInt_mul, BitVec.toInt_ofInt, setWidth_toInt]
  rw [BitVec.toInt_signExtend_of_le (by omega)]

theorem mulHigh_unsigned : mulHigh false false a b = BitVec.ofNat 64 (a.toNat * b.toNat / 2 ^ 64) := by
  have := high_half_value (a.toNat * b.toNat) (a.setWidth 128 * b.setWidth 128) (by
    apply BitVec.eq_of_toInt_eq
    simp only [BitVec.toInt_mul, BitVec.toInt_ofInt, setWidth_toInt])
  unfold mulHigh
  simp only [Bool.false_eq_true, if_false]
  rw [this]
  norm_cast

theorem quotS_value {w : Nat} (x y : BitVec w) : quotS x y = if y = 0 then BitVec.allOnes w else BitVec.ofInt w (x.toInt.tdiv y.toInt) := by
  unfold quotS
  split
  · rfl
  · apply BitVec.eq_of_toInt_eq
    rw [BitVec.toInt_sdiv, BitVec.toInt_ofInt]

theorem quotU_value {w : Nat} (x y : BitVec w) : quotU x y = if y = 0 then BitVec.allOnes w else BitVec.ofNat w (x.toNat / y.toNat) := by
  unfold quotU
  split
  · rfl
  · apply BitVec.eq_of_toNat_eq
    have h : x.toNat / y.toNat < 2 ^ w := lt_of_le_of_lt (Nat.div_le_self _ _) x.isLt
    simp [Nat.mod_eq_of_lt h]

theorem remS_value {w : Nat} (x y : BitVec w) : remS x y = if y = 0 then x else BitVec.ofInt w (x.toInt.tmod y.toInt) := by
  unfold remS
  split
  · rfl
  · apply BitVec.eq_of_toInt_eq
    rw [BitVec.toInt_srem, BitVec.toInt_ofInt]
    symm
    have h1 := BitVec.toInt_srem x y
    rw [← h1]
    exact BitVec.toInt_bmod_cancel _

theorem remU_value {w : Nat} (x y : BitVec w) : remU x y = if y = 0 then x else BitVec.ofNat w (x.toNat % y.toNat) := by
  unfold remU
  split
  · rfl
  · apply BitVec.eq_of_toNat_eq
    have h : x.toNat % y.toNat < 2 ^ w := lt_of_le_of_lt (Nat.mod_le _ _) x.isLt
    simp [Nat.mod_eq_of_lt h]

theorem addw_value : sx32 (a + b) = (BitVec.ofNat 32 ((a.setWidth 32).toNat + (b.setWidth 32).toNat)).signExtend 64 := by
  unfold sx32
  congr 1
  apply BitVec.eq_of_toNat_eq
  simp only [BitVec.toNat_setWidth, BitVec.toNat_add, BitVec.toNat_ofNat]
  omega

theorem subw_value : sx32 (a - b) =
    (BitVec.ofInt 32 ((a.setWidth 32).toInt - (b.setWidth 32).toInt)).signExtend 64 := by
  have h : (a - b).setWidth 32 = a.setWidth 32 - b.setWidth 32 := by
    apply BitVec.eq_of_toNat_eq
    simp only [BitVec.toNat_setWidth, BitVec.toNat_sub]
    omega
  unfold sx32
  congr 1
  rw [h]
  apply BitVec.eq_of_toInt_eq
  simp only [BitVec.toInt_sub, BitVec.toInt_ofInt]

/-! ## The 32-bit operations -/

theorem low32_toNat : (a.setWidth 32).toNat = a.toNat % 2 ^ 32 := BitVec.toNat_setWidth ..

theorem shl32_value : shl32 a b =
    (BitVec.ofNat 32 ((a.setWidth 32).toNat * 2 ^ ((b.setWidth 32).toNat % 32))).signExtend 64 := by
  unfold shl32
  congr 1
  apply BitVec.eq_of_toNat_eq
  rw [low32_toNat b]
  simp [Nat.shiftLeft_eq]

theorem shr32_value : shr32 a b =
    (BitVec.ofNat 32 ((a.setWidth 32).toNat / 2 ^ ((b.setWidth 32).toNat % 32))).signExtend 64 := by
  unfold shr32
  congr 1
  apply BitVec.eq_of_toNat_eq
  have h : (a.setWidth 32).toNat / 2 ^ ((b.setWidth 32).toNat % 32) < 2 ^ 32 :=
    lt_of_le_of_lt (Nat.div_le_self _ _) (a.setWidth 32).isLt
  rw [BitVec.toNat_ofNat, Nat.mod_eq_of_lt h, low32_toNat b, BitVec.toNat_ushiftRight, Nat.shiftRight_eq_div_pow]
  congr 2
  omega

theorem sar32_value : sar32 a b =
    (BitVec.ofInt 32 ((a.setWidth 32).toInt / 2 ^ ((b.setWidth 32).toNat % 32))).signExtend 64 := by
  unfold sar32
  rw [sshiftRight_value]
  congr 4
  rw [low32_toNat b]
  omega

theorem mulw_value : op32 (· * ·) a b =
    (BitVec.ofNat 32 ((a.setWidth 32).toNat * (b.setWidth 32).toNat)).signExtend 64 := by
  rfl

theorem divw_value : op32 quotS a b = (if b.setWidth 32 = 0 then BitVec.allOnes 32
    else BitVec.ofInt 32 ((a.setWidth 32).toInt.tdiv (b.setWidth 32).toInt)).signExtend 64 := by
  rw [op32, quotS_value]

theorem divuw_value : op32 quotU a b = (if b.setWidth 32 = 0 then BitVec.allOnes 32
    else BitVec.ofNat 32 ((a.setWidth 32).toNat / (b.setWidth 32).toNat)).signExtend 64 := by
  rw [op32, quotU_value]

theorem remw_value : op32 remS a b = (if b.setWidth 32 = 0 then a.setWidth 32
    else BitVec.ofInt 32 ((a.setWidth 32).toInt.tmod (b.setWidth 32).toInt)).signExtend 64 := by
  rw [op32, remS_value]

theorem remuw_value : op32 remU a b = (if b.setWidth 32 = 0 then a.setWidth 32
    else BitVec.ofNat 32 ((a.setWidth 32).toNat % (b.setWidth 32).toNat)).signExtend 64 := by
  rw [op32, remU_value]

end Sys2Proof.Machine
end

