-- ==== Sys2Proof/Laws/Control.lean ====
section
/-! SUPPORT. What branches, jumps and the checks of capability sources answer (R350-R354). -/

namespace Sys2Proof.Machine

open Sys2Proof

theorem immB_value (off : BitVec 12) : immB off = BitVec.ofInt 64 (2 * off.toInt) := by
  unfold immB
  apply BitVec.eq_of_toInt_eq
  rw [BitVec.toInt_signExtend_of_le (by omega), BitVec.toInt_ofInt]
  have := off.isLt
  rw [BitVec.toInt_eq_toNat_bmod, BitVec.toInt_eq_toNat_bmod, BitVec.toNat_append]
  simp only [Nat.shiftLeft_eq, Int.bmod]
  simp
  omega

theorem immJ_value (off : BitVec 20) : immJ off = BitVec.ofInt 64 (2 * off.toInt) := by
  unfold immJ
  apply BitVec.eq_of_toInt_eq
  rw [BitVec.toInt_signExtend_of_le (by omega), BitVec.toInt_ofInt]
  have := off.isLt
  rw [BitVec.toInt_eq_toNat_bmod, BitVec.toInt_eq_toNat_bmod, BitVec.toNat_append]
  simp only [Nat.shiftLeft_eq, Int.bmod]
  simp
  omega

/-- A conditional branch whose sources can be read: it traps on a bounded source and on a misaligned target that is taken,
and goes to its target or to the next word otherwise. -/
theorem branch_ready {s : State} {rs1 rs2 : RegNo} (h1 : s.Readable rs1) (h2 : s.Readable rs2) (c : Cond) (off : BitVec 12) :
    settle 0 (branch c rs1 rs2 off) s =
      if (s.value rs1).tag = .bounded ∨ (s.value rs2).tag = .bounded then .next (s.takeTrap { cause := .boundedValue } 0)
      else if c.holds (lo64 (s.value rs1).data) (lo64 (s.value rs2).data) = true then
        if (s.here.pc + immB off).getLsbD 1 = true then
          .next (s.takeTrap { cause := .alignment, addr := (s.here.pc + immB off).toNat } 0)
        else .next (s.jumpTo (s.here.pc + immB off))
      else .next (s.jumpTo (s.here.pc + 4)) := by
  have he := enter_ready (srcs := [rs1, rs2]) (dsts := []) (everywhere_any s.cur) (by simp [h1, h2]) (by simp)
  unfold branch
  by_cases t1 : (s.value rs1).tag = .bounded
  · rw [if_pos (Or.inl t1)]
    apply settle_trap
    simp only [Act.bind_ok he, Act.bind_ok (source_ready h1), Act.bind_ok (source_ready h2)]
    exact Act.bind_error (refuseBounded_trap t1 s)
  · by_cases t2 : (s.value rs2).tag = .bounded
    · rw [if_pos (Or.inr t2)]
      apply settle_trap
      simp only [Act.bind_ok he, Act.bind_ok (source_ready h1), Act.bind_ok (source_ready h2)]
      exact (Act.bind_ok (refuseBounded_ok t1 s)).trans (Act.bind_error (refuseBounded_trap t2 s))
    · rw [if_neg (by simp [t1, t2])]
      by_cases hc : c.holds (lo64 (s.value rs1).data) (lo64 (s.value rs2).data) = true
      · have hc' : c.holds (lo64 (s.here.reg rs1.toNat).data) (lo64 (s.here.reg rs2.toNat).data) = true := hc
        rw [if_pos hc]
        split
        · rename_i ha
          apply settle_trap
          simp only [Act.bind_ok he, Act.bind_ok (source_ready h1), Act.bind_ok (source_ready h2)]
          refine (Act.bind_ok (refuseBounded_ok t1 s)).trans ((Act.bind_ok (refuseBounded_ok t2 s)).trans ?_)
          simp only [Act.bind_ok (Act.get_apply s), if_pos hc']
          exact Act.bind_error (checkTarget_trap ha s)
        · rename_i ha
          apply settle_ok
          simp only [Act.bind_ok he, Act.bind_ok (source_ready h1), Act.bind_ok (source_ready h2)]
          refine (Act.bind_ok (refuseBounded_ok t1 s)).trans ((Act.bind_ok (refuseBounded_ok t2 s)).trans ?_)
          simp only [Act.bind_ok (Act.get_apply s), if_pos hc']
          exact Act.bind_ok (checkTarget_ok ha s)
      · have hc' : ¬c.holds (lo64 (s.here.reg rs1.toNat).data) (lo64 (s.here.reg rs2.toNat).data) = true := hc
        rw [if_neg hc]
        apply settle_ok
        simp only [Act.bind_ok he, Act.bind_ok (source_ready h1), Act.bind_ok (source_ready h2)]
        refine (Act.bind_ok (refuseBounded_ok t1 s)).trans ((Act.bind_ok (refuseBounded_ok t2 s)).trans ?_)
        simp only [Act.bind_ok (Act.get_apply s), if_neg hc']
        rfl

theorem capSource_ok {r : RegNo} {s : State} (h : s.Readable r) (h1 : (s.value r).tag ≠ .sealed)
    (h2 : (s.value r).tag ≠ .bounded) : capSource r s = .ok (s.value r, s) := by
  unfold capSource
  simp only [Act.bind_ok (source_ready h)]
  rw [State.value] at h1 h2
  simp only [if_neg h1]
  exact Act.bind_ok (refuseBounded_ok h2 s)

theorem capSource_sealed {r : RegNo} {s : State} (h : s.Readable r) (h1 : (s.value r).tag = .sealed) :
    capSource r s = .error (.trap { cause := .capability, addr := capAddr (s.value r).data } s) := by
  unfold capSource
  simp only [Act.bind_ok (source_ready h)]
  rw [State.value] at h1
  simp only [if_pos h1]
  rfl

theorem capSource_bounded {r : RegNo} {s : State} (h : s.Readable r) (h1 : (s.value r).tag = .bounded) :
    capSource r s = .error (.trap { cause := .boundedValue } s) := by
  unfold capSource
  simp only [Act.bind_ok (source_ready h)]
  have h2 : ¬(s.here.reg r.toNat).tag = .sealed := fun h2 => by
    rw [State.value, h2] at h1
    cases h1
  simp only [if_neg h2]
  exact Act.bind_error (refuseBounded_trap h1 s)

end Sys2Proof.Machine
end

