-- ==== Sys2Proof/Laws/LoadStore.lean ====
section
/-! SUPPORT. The shared bodies of loads and stores outside the fabric window (R361-R371). -/

namespace Sys2Proof.Machine

open Sys2Proof

theorem regionOfVA_not_fabric {ea : Nat} (h : isFabric ea = false) (d a : Nat) : regionOfVA ea ≠ .fabric d a := by
  have h' : ¬ea / 2 ^ 63 % 2 = 1 := by simpa [isFabric, bit] using h
  unfold regionOfVA
  rw [if_neg h']
  split
  · simp
  · split
    · simp
    · split <;> simp

theorem checkBase_ok {s : State} {r : RegNo} {ea n align : Nat} {perms : List Nat} (h : s.BaseOk r ea n align perms) :
    checkBase (s.value r) ea n align perms s = .ok ((), s) := by
  obtain ⟨h1, h2, h3, h4, h5⟩ := h
  have hb : (s.value r).tag ≠ .bounded := by rw [h1]; simp
  have hp : (withG perms ea).all (hasPerm (s.value r).data) = true := by
    unfold withG
    split
    · rename_i hf
      simpa using ⟨h4 hf, h3⟩
    · simpa using h3
  have hc : capOk (s.value r) ea n (withG perms ea) = true := by
    unfold capOk
    rw [h1, h2, hp]
    rfl
  have ha : (align != 0 && ea % align != 0) = false := by
    by_cases hz : align = 0
    · simp [hz]
    · simp [h5 hz]
  unfold checkBase
  refine (Act.bind_ok (refuseBounded_ok hb s)).trans ?_
  simp only [hc, ha, Bool.not_true, Bool.false_eq_true, if_false]
  rfl

/-- A read through a base that passes the checks, whose parts are found outside the fabric window. -/
theorem fetch_found {s u : State} {r : RegNo} {ea n align : Nat} {perms : List Nat} {use : Use}
    {parts : List (Spot × Nat)} (hb : s.BaseOk r ea n align perms) (hf : s.Finds use r ea n parts u) :
    fetch (s.value r) ea n align perms use s =
      if (u.readParts u.here.qos parts).1.poison = true then .error (.trap { cause := .poison, addr := ea } (u.readParts u.here.qos parts).2)
      else .ok (.got (u.readParts u.here.qos parts).1, (u.readParts u.here.qos parts).2) := by
  unfold fetch
  refine (Act.bind_ok (checkBase_ok hb)).trans ?_
  simp only [Act.bind_ok (Act.get_apply s)]
  have key : (do
      let parts ← findParts use (acqOf (s.value r)) (partsOf ea n)
      let s ← get
      let (g, s) := s.readParts s.here.qos parts
      set s
      if g.poison then trap .poison ea
      pure (.got g) : Act Fetched) s =
      if (u.readParts u.here.qos parts).1.poison = true then .error (.trap { cause := .poison, addr := ea } (u.readParts u.here.qos parts).2)
      else .ok (.got (u.readParts u.here.qos parts).1, (u.readParts u.here.qos parts).2) := by
    refine (Act.bind_ok hf.2).trans ?_
    simp only [Act.bind_ok (Act.get_apply u)]
    refine (Act.bind_ok (Act.set_apply _ _)).trans ?_
    split
    · rfl
    · rfl
  have hr := regionOfVA_not_fabric hf.1
  cases hreg : regionOfVA ea with
  | fabric d a => exact absurd hreg (hr d a)
  | translated => exact key
  | grid x y o => exact key
  | own o => exact key
  | none => exact key

/-! ## Cache portions -/

theorem State.sameButPortions_refl (s : State) : s.SameButPortions s := ⟨rfl, fun _ => rfl⟩

theorem State.SameButPortions.trans {s t u : State} (h : s.SameButPortions t) (g : t.SameButPortions u) :
    s.SameButPortions u := by
  refine ⟨?_, fun n => ?_⟩
  · rw [g.1, h.1]
  · rw [g.2 n, h.2 n]

theorem State.sameButPortions_drawn (s : State) : s.SameButPortions s.drawn := ⟨rfl, fun _ => rfl⟩

theorem State.sameButPortions_onCore (s : State) (n : Nat) (f : Core → Core)
    (hf : ∀ c, f c = { c with lines := (f c).lines, pooled := (f c).pooled }) : s.SameButPortions (s.onCore n f) := by
  refine ⟨rfl, fun m => ?_⟩
  rw [State.core_onCore]
  split
  · rename_i h
    rw [← h]
    exact hf _
  · rfl

theorem State.sameButPortions_evictLine (s : State) (n : Nat) : s.SameButPortions (s.evictLine n) := by
  unfold State.evictLine
  dsimp only
  split
  · exact s.sameButPortions_refl
  · split
    · exact s.sameButPortions_refl
    · rename_i l _
      have h := s.sameButPortions_drawn.trans (s.drawn.sameButPortions_onCore n
        (fun c => { c with lines := c.lines.erase l, pooled := c.pooled.erase l }) fun _ => rfl)
      split
      · rename_i m _
        exact (h.trans (State.sameButPortions_drawn _)).trans
          (State.sameButPortions_onCore _ _ (fun c => { c with pooled := l :: c.pooled }) fun _ => rfl)
      · exact h.trans (State.sameButPortions_drawn _)

/-- A load's line entering the cache portion changes nothing but the portions. -/
theorem State.sameButPortions_fillPortion (s : State) (k ea : Nat) : s.SameButPortions (s.fillPortion k ea) := by
  unfold State.fillPortion
  split
  · exact s.sameButPortions_refl
  · split
    · dsimp only
      split
      · exact s.sameButPortions_refl
      · exact (s.sameButPortions_evictLine _).trans (State.sameButPortions_onCore _ _ _ fun _ => rfl)
    · exact s.sameButPortions_refl

theorem State.SameButPortions.onHere {s t : State} (h : s.SameButPortions t) (f : Slot → Slot) :
    (s.onHere f).SameButPortions (t.onHere f) := by
  refine ⟨?_, h.2⟩
  rw [h.1]
  rfl

theorem State.SameButPortions.count {s t : State} (h : s.SameButPortions t) (c e a : Nat) :
    (s.count c e a).SameButPortions (t.count c e a) := by
  have he : (t.core c).evctl = (s.core c).evctl := by rw [h.2 c]
  unfold State.count
  rw [he]
  split
  · refine ⟨?_, fun m => ?_⟩
    · rw [h.1]
      rfl
    · simp only [State.core_onCore]
      split
      · rename_i hm
        rw [h.2 c]
      · exact h.2 m
  · exact h

theorem State.SameButPortions.retire {s t : State} (h : s.SameButPortions t) (la : Nat) :
    (s.retire la).SameButPortions (t.retire la) := by
  have hc : t.cur = s.cur := by rw [h.1]
  unfold State.retire State.retired
  rw [State.onHere_cur, State.onHere_cur, hc]
  split
  · exact h.onHere _
  · exact (h.onHere _).count _ _ _

/-- A load through a base that passes the checks, whose parts are found outside the fabric window. -/
theorem load_found {s u : State} {la la' : Look} {gd base : RegNo} {off : Word64} {n align : Nat} {sgn : Bool}
    {parts : List (Spot × Nat)} (h1 : s.Readable base) (hd : s.Writable gd)
    (hb : s.BaseOk base (s.address base off) n align [permR]) (hf : s.Finds .read base (s.address base off) n parts u) :
    if (u.readParts u.here.qos parts).1.poison = true then
      settle la'.toNat (load la gd base off n align sgn) s =
        .next ((u.readParts u.here.qos parts).2.takeTrap { cause := .poison, addr := s.address base off } la'.toNat)
    else ∃ t v, settle la'.toNat (load la gd base off n align sgn) s = .next t ∧
      (u.readParts u.here.qos parts).2.Wrote gd ⟨extend sgn n (ofBytes (u.readParts u.here.qos parts).1.bytes), (u.readParts u.here.qos parts).1.dataTag⟩
        la.toNat v ∧ v.SameButPortions t := by
  have he := enter_ready (srcs := [base]) (dsts := [gd]) (everywhere_any s.cur) (by simp [h1]) (by simp [hd])
  have hft := fetch_found hb hf
  have ha : effective (s.here.reg base.toNat) off = s.address base off := rfl
  split
  · rename_i hp
    rw [if_pos hp] at hft
    apply settle_trap
    unfold load
    simp only [Act.bind_ok he, Act.bind_ok (source_ready h1), ha]
    exact Act.bind_error hft
  · rename_i hp
    rw [if_neg hp] at hft
    generalize (u.readParts u.here.qos parts).1 = g at *
    generalize (u.readParts u.here.qos parts).2 = r at *
    have hrun : load la gd base off n align sgn s = .ok ((), ((if regionOfVA (s.address base off) = .translated then
        (r.writeReg r.cur gd.toNat ⟨extend sgn n (ofBytes g.bytes), g.dataTag⟩).fillPortion r.cur (s.address base off)
        else r.writeReg r.cur gd.toNat ⟨extend sgn n (ofBytes g.bytes), g.dataTag⟩) : State).retire la.toNat) := by
      unfold load
      simp only [Act.bind_ok he, Act.bind_ok (source_ready h1), ha]
      refine (Act.bind_ok hft).trans ?_
      simp only [Act.bind_apply, Act.result_apply, Act.modify_apply, Act.retire_apply]
      split <;> simp
    refine ⟨_, _, settle_ok hrun, r.wrote_retire gd _ la.toNat, ?_⟩
    split
    · exact (State.sameButPortions_fillPortion _ _ _).retire _
    · exact State.sameButPortions_refl _

/-- A store through a base that passes the checks, whose parts are found outside the fabric window. -/
theorem storeAt_found {s u : State} {base : RegNo} {ea : Nat} {bs : List Byte} {kind : StoreKind} {align : Nat}
    {perms : List Nat} {parts : List (Spot × Nat)} (hb : s.BaseOk base ea bs.length align perms)
    (hf : s.Finds .write base ea bs.length parts u) :
    storeAt (s.value base) ea bs kind align perms true s =
      if parts.any (fun p => u.typedAt p.1 p.2) = true then .error (.trap { cause := .type, addr := ea } u)
      else .ok ((), if s.counts s.cur ea = true then
          ((u.writeParts u.here.qos (u.agentOf u.cur).writer (some (coreOf u.cur)) kind parts bs).countStore
            (u.writeParts u.here.qos (u.agentOf u.cur).writer (some (coreOf u.cur)) kind parts bs).cur bs.length).visibleAt
            (u.writeParts u.here.qos (u.agentOf u.cur).writer (some (coreOf u.cur)) kind parts bs).cur bs.length parts
        else u.writeParts u.here.qos (u.agentOf u.cur).writer (some (coreOf u.cur)) kind parts bs) := by
  unfold storeAt
  refine (Act.bind_ok (checkBase_ok hb)).trans ?_
  simp only [Act.bind_ok (Act.get_apply s), Bool.true_and]
  generalize s.counts s.cur ea = counted
  have key : (do
      let parts ← findParts .write (acqOf (s.value base)) (partsOf ea bs.length)
      let s ← get
      if parts.any fun p => s.typedAt p.1 p.2 then trap .type ea
      let s := s.writeParts s.here.qos (s.agentOf s.cur).writer (some (coreOf s.cur)) kind parts bs
      set (if counted then (s.countStore s.cur bs.length).visibleAt s.cur bs.length parts else s) : Act Unit) s =
      if parts.any (fun p => u.typedAt p.1 p.2) = true then .error (.trap { cause := .type, addr := ea } u)
      else .ok ((), if counted = true then
          ((u.writeParts u.here.qos (u.agentOf u.cur).writer (some (coreOf u.cur)) kind parts bs).countStore
            (u.writeParts u.here.qos (u.agentOf u.cur).writer (some (coreOf u.cur)) kind parts bs).cur bs.length).visibleAt
            (u.writeParts u.here.qos (u.agentOf u.cur).writer (some (coreOf u.cur)) kind parts bs).cur bs.length parts
        else u.writeParts u.here.qos (u.agentOf u.cur).writer (some (coreOf u.cur)) kind parts bs) := by
    refine (Act.bind_ok hf.2).trans ?_
    simp only [Act.bind_ok (Act.get_apply u)]
    by_cases ht : parts.any (fun p => u.typedAt p.1 p.2) = true
    · simp only [ht, if_true]
      rfl
    · simp only [ht, Bool.false_eq_true, if_false]
      rfl
  have hr := regionOfVA_not_fabric hf.1
  cases hreg : regionOfVA ea with
  | fabric d a => exact absurd hreg (hr d a)
  | translated => exact key
  | grid x y o => exact key
  | own o => exact key
  | none => exact key

end Sys2Proof.Machine
end

