-- ==== Sys2Proof/Laws/Float.lean ====
section
/-! SUPPORT. The shared body of the scalar floating-point instructions completes, and counting events commutes with
writing a register. -/

namespace Sys2Proof.Machine

open Sys2Proof

theorem State.count_writeReg (s : State) (k r : Nat) (v : Reg) (c n a : Nat) :
    (s.writeReg k r v).count c n a = (s.count c n a).writeReg k r v := by
  by_cases hr : r = 0
  · simp only [State.writeReg, if_pos hr]
  · unfold State.count
    rw [State.core_writeReg]
    split
    · simp only [State.writeReg, if_neg hr]
      rfl
    · rfl

theorem State.tally_writeReg (s : State) (k r : Nat) (v : Reg) (c : Nat) (t : Tally) :
    (s.writeReg k r v).tally c t = (s.tally c t).writeReg k r v := by
  simp only [State.tally, State.count_writeReg]

@[simp] theorem State.tally_cur (s : State) (c : Nat) (t : Tally) : (s.tally c t).cur = s.cur := by
  simp [State.tally]

theorem sources_ready {s : State} {srcs : List RegNo} (hs : ∀ r ∈ srcs, s.Readable r) :
    sources srcs s = .ok (srcs.map s.value, s) := by
  induction srcs with
  | nil => rfl
  | cons r rs ih =>
    unfold sources
    simp only [Act.bind_ok (source_ready (hs r (by simp))), Act.bind_ok (ih fun q hq => hs q (by simp [hq]))]
    rfl

theorem floatOp_ready {s : State} {gd : RegNo} {srcs : List RegNo} (f : Nat → List Value → Rounded)
    (hl : levelOf s.cur ∈ onCores) (hs : ∀ r ∈ srcs, s.Readable r) (hd : s.Writable gd) :
    let r := f s.here.rmode ((srcs.map s.value).map Reg.single)
    ∃ t, settle 0 (floatOp gd srcs f) s = .next t ∧
      (s.tally (coreOf s.cur) r.tally).Wrote gd ⟨BitVec.ofNat 128 r.code, tagOf (srcs.map s.value)⟩ 0 t := by
  intro r
  have he := enter_ready hl hs (dsts := [gd]) (by simp [hd])
  refine ⟨_, settle_ok ?_, (s.tally (coreOf s.cur) r.tally).wrote_retire gd _ 0⟩
  unfold floatOp
  simp only [Act.bind_ok he, Act.bind_ok (sources_ready hs), Act.bind_ok (Act.get_apply s)]
  simp only [Act.bind_apply, Act.result_apply, Act.modify_apply, Act.retire_apply, State.writeReg_cur, State.tally_cur,
    ← State.tally_writeReg]
  rfl

end Sys2Proof.Machine
end

