-- ==== Sys2Proof/Laws/Memory.lean ====
section
/-! SUPPORT. Memory: what a byte reads as after a write, and that the canonical form is kept (notes/assumptions/5.md). -/

namespace Sys2Proof.Machine

open Sys2Proof

/-- The canonical form, cell by cell. -/
theorem Memory.wf_cons (c : Host.Cell) (m : List Host.Cell) :
    Memory.wf (c :: m) = true ↔ c.2 ≠ 0 ∧ (∀ d ∈ m, c.1 < d.1) ∧ Memory.wf m = true := by
  induction m generalizing c with
  | nil => simp [Memory.wf]
  | cons d m ih =>
    simp only [Memory.wf, Bool.and_eq_true, bne_iff_ne, decide_eq_true_eq, List.forall_mem_cons]
    rw [ih]
    constructor
    · rintro ⟨⟨h0, h1⟩, h2, h3, h4⟩
      exact ⟨h0, ⟨h1, fun e he => lt_trans h1 (h3 e he)⟩, h2, h3, h4⟩
    · rintro ⟨h0, ⟨h1, -⟩, h2, h3, h4⟩
      exact ⟨⟨h0, h1⟩, h2, h3, h4⟩

theorem Memory.wf_filter (p : Host.Cell → Bool) (m : List Host.Cell) (h : Memory.wf m = true) :
    Memory.wf (m.filter p) = true := by
  induction m with
  | nil => rfl
  | cons c m ih =>
    obtain ⟨h0, h1, h2⟩ := (Memory.wf_cons c m).mp h
    rw [List.filter_cons]
    split
    · exact (Memory.wf_cons _ _).mpr ⟨h0, fun d hd => h1 d (List.mem_of_mem_filter hd), ih h2⟩
    · exact ih h2

theorem Memory.wf_append (l m : List Host.Cell) (hl : Memory.wf l = true) (hm : Memory.wf m = true)
    (h : ∀ c ∈ l, ∀ d ∈ m, c.1 < d.1) : Memory.wf (l ++ m) = true := by
  induction l with
  | nil => exact hm
  | cons c l ih =>
    obtain ⟨h0, h1, h2⟩ := (Memory.wf_cons c l).mp hl
    refine (Memory.wf_cons _ _).mpr ⟨h0, fun d hd => ?_, ih h2 fun e he => h e (by simp [he])⟩
    rcases List.mem_append.mp hd with hd | hd
    · exact h1 d hd
    · exact h c (by simp) d hd

theorem mem_cellsFrom {a : Nat} {bs : List Byte} {c : Host.Cell} (h : c ∈ cellsFrom a bs) :
    a ≤ c.1 ∧ c.1 < a + bs.length := by
  induction bs generalizing a with
  | nil => simp [cellsFrom] at h
  | cons b bs ih =>
    simp only [cellsFrom] at h
    have rest (h : c ∈ cellsFrom (a + 1) bs) : a ≤ c.1 ∧ c.1 < a + (b :: bs).length := by
      have := ih h
      simp only [List.length_cons]
      omega
    split at h
    · exact rest h
    · rcases List.mem_cons.mp h with rfl | h
      · simp
      · exact rest h

theorem wf_cellsFrom (a : Nat) (bs : List Byte) : Memory.wf (cellsFrom a bs) = true := by
  induction bs generalizing a with
  | nil => rfl
  | cons b bs ih =>
    simp only [cellsFrom]
    split
    · exact ih _
    · rename_i hb
      refine (Memory.wf_cons _ _).mpr ⟨hb, fun d hd => ?_, ih _⟩
      have := mem_cellsFrom hd
      show a < d.1
      omega

/-- A write keeps the canonical form. -/
theorem Memory.wf_write (m : List Host.Cell) (a : Nat) (bs : List Byte) (h : Memory.wf m = true) :
    Memory.wf (Memory.write m a bs) = true := by
  unfold Memory.write
  have lo (c : Host.Cell) (hc : c ∈ m.filter fun c => c.1 < a) : c.1 < a := by
    simpa using (List.mem_filter.mp hc).2
  have hi (c : Host.Cell) (hc : c ∈ m.filter fun c => a + bs.length ≤ c.1) : a + bs.length ≤ c.1 := by
    simpa using (List.mem_filter.mp hc).2
  refine Memory.wf_append _ _ (Memory.wf_append _ _ (Memory.wf_filter _ _ h) (wf_cellsFrom a bs) ?_)
    (Memory.wf_filter _ _ h) ?_
  · intro c hc d hd
    exact lt_of_lt_of_le (lo c hc) (mem_cellsFrom hd).1
  · intro c hc d hd
    rcases List.mem_append.mp hc with hc | hc
    · have := lo c hc
      have := hi d hd
      omega
    · exact lt_of_lt_of_le (mem_cellsFrom hc).2 (hi d hd)

theorem look_append {α : Type} (d : α) (l m : List (Nat × α)) (i : Nat) :
    look d (l ++ m) i = if l.any (fun e => e.1 == i) then look d l i else look d m i := by
  induction l with
  | nil => simp
  | cons e l ih =>
    obtain ⟨k, v⟩ := e
    by_cases h : k = i
    · simp [look, h]
    · have hb : (k == i) = false := by simpa using h
      simp only [List.cons_append, look, if_neg h, ih, List.any_cons, hb, Bool.false_or]

theorem look_filter {α : Type} (d : α) (m : List (Nat × α)) (p : Nat → Bool) (i : Nat) :
    look d (m.filter fun e => p e.1) i = if p i then look d m i else d := by
  induction m with
  | nil => simp [look]
  | cons e m ih =>
    obtain ⟨k, v⟩ := e
    by_cases h : k = i
    · subst h
      by_cases hp : p k
      · simp [look, hp]
      · simpa [List.filter_cons, look, hp] using ih
    · by_cases hp : p k
      · simp [look, hp, h, ih]
      · simp [look, hp, h, ih]

theorem look_of_not_any {α : Type} (d : α) (m : List (Nat × α)) (i : Nat) (h : m.any (fun e => e.1 == i) = false) :
    look d m i = d := by
  induction m with
  | nil => rfl
  | cons e m ih =>
    obtain ⟨k, v⟩ := e
    simp only [List.any_cons, Bool.or_eq_false_iff, beq_eq_false_iff_ne] at h
    simp [look, h.1, ih h.2]

theorem look_append' {α : Type} (d : α) (l m : List (Nat × α)) (i : Nat) (h : ∀ e ∈ l, e.1 ≠ i) :
    look d (l ++ m) i = look d m i := by
  rw [look_append, if_neg]
  rw [List.any_eq_true]
  rintro ⟨e, he, h1⟩
  exact h e he (by simpa using h1)

theorem read_cellsFrom (a : Nat) (bs : List Byte) (q : Nat) :
    look 0 (cellsFrom a bs) q = if a ≤ q ∧ q < a + bs.length then bs.getD (q - a) 0 else 0 := by
  induction bs generalizing a with
  | nil =>
    have : ¬(a ≤ q ∧ q < a + 0) := by omega
    simp [cellsFrom, look]
  | cons b bs ih =>
    have tail : look 0 (cellsFrom (a + 1) bs) q =
        if a + 1 ≤ q ∧ q < a + 1 + bs.length then bs.getD (q - (a + 1)) 0 else 0 := ih (a + 1)
    by_cases hq : a = q
    · subst hq
      have hn : look 0 (cellsFrom (a + 1) bs) a = 0 := by
        rw [tail, if_neg (by omega)]
      rw [if_pos ⟨le_refl _, by simp only [List.length_cons]; omega⟩, Nat.sub_self, List.getD_cons_zero, cellsFrom]
      by_cases hb : b = 0
      · rw [if_pos hb, hn, hb]
      · rw [if_neg hb, look, if_pos rfl]
    · have step : look 0 (cellsFrom a (b :: bs)) q = look 0 (cellsFrom (a + 1) bs) q := by
        rw [cellsFrom]
        by_cases hb : b = 0
        · rw [if_pos hb]
        · rw [if_neg hb, look, if_neg hq]
      rw [step, tail]
      by_cases hin : a + 1 ≤ q ∧ q < a + 1 + bs.length
      · obtain ⟨k, rfl⟩ : ∃ k, q = a + 1 + k := ⟨q - (a + 1), by omega⟩
        rw [if_pos hin, if_pos (by simp only [List.length_cons]; omega)]
        have e1 : a + 1 + k - a = k + 1 := by omega
        have e2 : a + 1 + k - (a + 1) = k := by omega
        rw [e1, e2, List.getD_cons_succ]
      · rw [if_neg hin, if_neg (by simp only [List.length_cons]; omega)]

/-- What a byte reads as after a write. -/
theorem Memory.read_write (m : List Host.Cell) (a : Nat) (bs : List Byte) (q : Nat) :
    Memory.read (Memory.write m a bs) q =
      if a ≤ q ∧ q < a + bs.length then bs.getD (q - a) 0 else Memory.read m q := by
  unfold Memory.read Memory.write
  by_cases h1 : q < a
  · rw [if_neg (by omega)]
    have keep : look 0 (m.filter fun c => decide (c.1 < a)) q = look 0 m q := by
      rw [look_filter 0 m (fun k => decide (k < a)) q]
      simp [h1]
    rw [List.append_assoc, look_append]
    split
    · exact keep
    · rename_i hno
      rw [look_append' _ _ _ _ fun e he => by have := (mem_cellsFrom he).1; omega,
        look_filter 0 m (fun k => decide (a + bs.length ≤ k)) q, if_neg (by simp; omega),
        ← keep, look_of_not_any _ _ _ (Bool.eq_false_iff.mpr hno)]
  · have hno : ∀ e ∈ m.filter (fun c => decide (c.1 < a)), e.1 ≠ q := by
      intro e he
      have : e.1 < a := by simpa using (List.mem_filter.mp he).2
      omega
    rw [List.append_assoc, look_append' _ _ _ _ hno]
    by_cases h2 : q < a + bs.length
    · rw [if_pos ⟨by omega, h2⟩, look_append]
      split
      · rw [read_cellsFrom, if_pos ⟨by omega, h2⟩]
      · rename_i hn
        have e0 : look 0 (cellsFrom a bs) q = 0 := look_of_not_any _ _ _ (Bool.eq_false_iff.mpr hn)
        rw [read_cellsFrom, if_pos ⟨by omega, h2⟩] at e0
        rw [e0, look_filter 0 m (fun k => decide (a + bs.length ≤ k)) q, if_neg (by simp; omega)]
    · rw [if_neg (by omega), look_append' _ _ _ _ fun e he => by have := (mem_cellsFrom he).2; omega,
        look_filter 0 m (fun k => decide (a + bs.length ≤ k)) q, if_pos (by simp; omega)]

end Sys2Proof.Machine
end

