-- ==== Sys2Proof/Laws/Words.lean ====
section
/-! SUPPORT. A word and its fields determine each other, and each format gives back the immediate that it was made from. -/

namespace Sys2Proof

theorem cut_toNat {n : Nat} (w : BitVec n) (lo len : Nat) : (cut w lo len).toNat = w.toNat / 2 ^ lo % 2 ^ len := by
  simp [cut]

theorem cat_toNat {a b : Nat} (hi : BitVec a) (lo : BitVec b) (c : Nat) :
    (cat hi lo c).toNat = (hi.toNat * 2 ^ b + lo.toNat) % 2 ^ c := by
  simp [cat]

theorem cat_toNat_lt {a b c : Nat} (hi : BitVec a) (lo : BitVec b) (h : a + b ≤ c) :
    (cat hi lo c).toNat = hi.toNat * 2 ^ b + lo.toNat ∧ hi.toNat * 2 ^ b + lo.toNat < 2 ^ (a + b) := by
  have h1 := hi.isLt
  have h2 := lo.isLt
  have h3 : hi.toNat * 2 ^ b + lo.toNat < 2 ^ (a + b) := by
    calc hi.toNat * 2 ^ b + lo.toNat < hi.toNat * 2 ^ b + 2 ^ b := by omega
      _ = (hi.toNat + 1) * 2 ^ b := by ring
      _ ≤ 2 ^ a * 2 ^ b := Nat.mul_le_mul_right _ h1
      _ = 2 ^ (a + b) := (pow_add 2 a b).symm
  exact ⟨by rw [cat_toNat, Nat.mod_eq_of_lt (lt_of_lt_of_le h3 (Nat.pow_le_pow_right (by omega) h))], h3⟩

/-- The upper of two fields placed side by side is read back. -/
theorem cat_hi {a b c : Nat} (hi : BitVec a) (lo : BitVec b) (h : a + b ≤ c) : cut (cat hi lo c) b a = hi := by
  apply BitVec.eq_of_toNat_eq
  rw [cut_toNat, (cat_toNat_lt hi lo h).1, Nat.add_comm, Nat.add_mul_div_right _ _ (Nat.two_pow_pos b),
    Nat.div_eq_of_lt lo.isLt, Nat.zero_add, Nat.mod_eq_of_lt hi.isLt]

/-- The lower of two fields placed side by side is read back. -/
theorem cat_lo {a b c : Nat} (hi : BitVec a) (lo : BitVec b) (h : a + b ≤ c) : cut (cat hi lo c) 0 b = lo := by
  apply BitVec.eq_of_toNat_eq
  rw [cut_toNat, (cat_toNat_lt hi lo h).1, pow_zero, Nat.div_one, Nat.add_comm, Nat.add_mul_mod_self_right,
    Nat.mod_eq_of_lt lo.isLt]

/-- Two fields placed side by side stay within their joint range. -/
theorem cat_lt {a b c : Nat} (hi : BitVec a) (lo : BitVec b) (h : a + b ≤ c) : (cat hi lo c).toNat < 2 ^ (a + b) := by
  rw [(cat_toNat_lt hi lo h).1]
  exact (cat_toNat_lt hi lo h).2

/-- A narrow field placed in a wider one is within its range. -/
theorem narrow_lt {n m : Nat} (x : BitVec n) (h : n ≤ m) : (x.setWidth m).toNat < 2 ^ n := by
  rw [BitVec.toNat_setWidth_of_le h]
  exact x.isLt

/-- A narrow field placed in a wider one is read back from it. -/
theorem cut_narrow {n m : Nat} (x : BitVec n) (h : n ≤ m) : cut (x.setWidth m) 0 n = x := by
  apply BitVec.eq_of_toNat_eq
  rw [cut_toNat, BitVec.toNat_setWidth_of_le h, pow_zero, Nat.div_one, Nat.mod_eq_of_lt x.isLt]

/-- Taking the fields of the word made from fields gives them back. -/
theorem Fields.ofWord_word (f : Fields) : Fields.ofWord f.word = f := by
  obtain ⟨la, t, s2, gs2, gs1, f3, gd, op⟩ := f
  simp only [Fields.ofWord, Fields.word, Fields.mk.injEq]
  have h1 := la.isLt; have h2 := t.isLt; have h3 := s2.isLt; have h4 := gs2.isLt; have h5 := gs1.isLt
  have h6 := f3.isLt; have h7 := gd.isLt; have h8 := op.isLt
  refine ⟨?_, ?_, ?_, ?_, ?_, ?_, ?_, ?_⟩ <;> apply BitVec.eq_of_toNat_eq <;>
    simp only [cut_toNat, BitVec.toNat_ofNat] <;> omega

/-- The word made from the fields of a word is that word. -/
theorem Fields.word_ofWord (w : Word32) : (Fields.ofWord w).word = w := by
  have h := w.isLt
  apply BitVec.eq_of_toNat_eq
  simp only [Fields.ofWord, Fields.word, cut_toNat, BitVec.toNat_ofNat]
  omega

@[simp] theorem encI_immI (op f3 : Nat) (rd rs1 : RegNo) (imm : BitVec 12) : (encI op f3 rd rs1 imm).immI = imm := by
  have h := imm.isLt
  apply BitVec.eq_of_toNat_eq
  simp only [encI, Fields.immI, cut_toNat, BitVec.toNat_ofNat]
  omega

@[simp] theorem encS_immS (op f3 : Nat) (rs2 rs1 : RegNo) (imm : BitVec 12) : (encS op f3 rs2 rs1 imm).immS = imm := by
  have h := imm.isLt
  apply BitVec.eq_of_toNat_eq
  simp only [encS, Fields.immS, cut_toNat, BitVec.toNat_ofNat]
  omega

@[simp] theorem encU_immU (op : Nat) (rd : RegNo) (imm : BitVec 20) : (encU op rd imm).immU = imm := by
  have h := imm.isLt
  apply BitVec.eq_of_toNat_eq
  simp only [encU, Fields.immU, cut_toNat, BitVec.toNat_ofNat]
  omega

@[simp] theorem encB_immB (op f3 : Nat) (rs1 rs2 : RegNo) (off : BitVec 12) : (encB op f3 rs1 rs2 off).immB = off := by
  have h := off.isLt
  apply BitVec.eq_of_toNat_eq
  simp only [encB, Fields.immB, cut_toNat, cat_toNat, BitVec.toNat_ofNat]
  have p (x y : Nat) : (x % 2 ^ 1 * 2 ^ 3 + y % 2 ^ 3) % 2 ^ 4 / 8 = x % 2 := by omega
  have q (x y : Nat) : (x % 2 ^ 1 * 2 ^ 3 + y % 2 ^ 3) % 2 ^ 4 % 8 = y % 8 := by omega
  have r (x y : Nat) : (x % 2 ^ 4 * 2 ^ 1 + y % 2 ^ 1) % 2 ^ 5 % 2 = y % 2 := by omega
  have u (x y : Nat) : (x % 2 ^ 4 * 2 ^ 1 + y % 2 ^ 1) % 2 ^ 5 / 2 = x % 16 := by omega
  rw [p, q, r, u]
  omega

@[simp] theorem encJ_immJ (op : Nat) (rd : RegNo) (off : BitVec 20) : (encJ op rd off).immJ = off := by
  have h := off.isLt
  apply BitVec.eq_of_toNat_eq
  simp only [encJ, Fields.immJ, cut_toNat, cat_toNat, BitVec.toNat_ofNat]
  have p (x y : Nat) : (x % 2 ^ 1 * 2 ^ 3 + y % 2 ^ 3) % 2 ^ 4 / 8 = x % 2 := by omega
  have q (x y : Nat) : (x % 2 ^ 1 * 2 ^ 3 + y % 2 ^ 3) % 2 ^ 4 % 8 = y % 8 := by omega
  have r (x y : Nat) : (x % 2 ^ 4 * 2 ^ 1 + y % 2 ^ 1) % 2 ^ 5 % 2 = y % 2 := by omega
  have u (x y : Nat) : (x % 2 ^ 4 * 2 ^ 1 + y % 2 ^ 1) % 2 ^ 5 / 2 = x % 16 := by omega
  rw [p, q, r, u]
  generalize off.toNat = n at h
  have h1 : n / 2 ^ 6 = n / 2 ^ 4 / 4 := (Nat.div_div_eq_div_mul n 16 4).symm
  have h2 : n / 2 ^ 7 = n / 2 ^ 6 / 2 := (Nat.div_div_eq_div_mul n 64 2).symm
  have h3 : n / 2 ^ 10 = n / 2 ^ 7 / 8 := (Nat.div_div_eq_div_mul n 128 8).symm
  have h4 : n / 2 ^ 11 = n / 2 ^ 10 / 2 := (Nat.div_div_eq_div_mul n 1024 2).symm
  have h5 : n / 2 ^ 14 = n / 2 ^ 11 / 8 := (Nat.div_div_eq_div_mul n 2048 8).symm
  have h6 : n / 2 ^ 19 = n / 2 ^ 14 / 32 := (Nat.div_div_eq_div_mul n 16384 32).symm
  rw [h6, h5, h4, h3, h2, h1]
  generalize hm : n / 2 ^ 4 = m
  have : n = 16 * m + n % 16 := by omega
  omega

@[simp] theorem encT_gs3 (sub : Nat) (gd gs1 gs2 gs3 : BitVec 5) : (encT sub gd gs1 gs2 gs3).gs3 = gs3 := by
  have h := gs3.isLt
  apply BitVec.eq_of_toNat_eq
  simp only [encT, Fields.gs3, cut_toNat, cat_toNat]
  omega

/-- A shift amount read from the immediate that it was placed in. -/
theorem cut_shift (base : Nat) (hb : base % 64 = 0) (sh : BitVec 6) :
    cut (BitVec.ofNat 12 (base + sh.toNat)) 0 6 = sh := by
  have h := sh.isLt
  apply BitVec.eq_of_toNat_eq
  simp only [cut_toNat, BitVec.toNat_ofNat]
  omega

end Sys2Proof
end

