-- ==== Sys2Proof/Laws/PerInstr.lean ====
section
/-! SUPPORT. For each instruction: the fields that it is encoded in choose that instruction again. -/

namespace Sys2Proof.Laws.Encoding

open Sys2Proof

/-- The fields of the instruction decode to it where it is well formed (R317, R330). -/
def Statement (i : Instr) : Prop := ∀ f, encodeFields i = some f → i.wellFormed = true → decodeFields f = .ok i

theorem lui (rd : RegNo) (imm : BitVec 20) : Statement (.lui rd imm) := by
  rintro _ ⟨⟩ _
  exact congrArg (fun x => Except.ok (Instr.lui rd x)) (encU_immU 0x37 rd imm)
theorem auipc (rd : RegNo) (imm : BitVec 20) : Statement (.auipc rd imm) := by
  rintro _ ⟨⟩ _
  exact congrArg (fun x => Except.ok (Instr.auipc rd x)) (encU_immU 0x17 rd imm)
theorem jal (rd : RegNo) (off : BitVec 20) : Statement (.jal rd off) := by
  rintro _ ⟨⟩ _
  exact congrArg (fun x => Except.ok (Instr.jal rd x)) (encJ_immJ 0x6f rd off)
theorem jalr (rd rs1 : RegNo) (imm : BitVec 12) : Statement (.jalr rd rs1 imm) := by
  rintro _ ⟨⟩ _
  exact congrArg (fun x => Except.ok (Instr.jalr rd rs1 x)) (encI_immI 0x67 0 rd rs1 imm)
theorem beq (rs1 rs2 : RegNo) (off : BitVec 12) : Statement (.beq rs1 rs2 off) := by
  rintro _ ⟨⟩ _
  exact congrArg (fun x => Except.ok (Instr.beq rs1 rs2 x)) (encB_immB 0x63 0 rs1 rs2 off)
theorem bne (rs1 rs2 : RegNo) (off : BitVec 12) : Statement (.bne rs1 rs2 off) := by
  rintro _ ⟨⟩ _
  exact congrArg (fun x => Except.ok (Instr.bne rs1 rs2 x)) (encB_immB 0x63 1 rs1 rs2 off)
theorem blt (rs1 rs2 : RegNo) (off : BitVec 12) : Statement (.blt rs1 rs2 off) := by
  rintro _ ⟨⟩ _
  exact congrArg (fun x => Except.ok (Instr.blt rs1 rs2 x)) (encB_immB 0x63 4 rs1 rs2 off)
theorem bge (rs1 rs2 : RegNo) (off : BitVec 12) : Statement (.bge rs1 rs2 off) := by
  rintro _ ⟨⟩ _
  exact congrArg (fun x => Except.ok (Instr.bge rs1 rs2 x)) (encB_immB 0x63 5 rs1 rs2 off)
theorem bltu (rs1 rs2 : RegNo) (off : BitVec 12) : Statement (.bltu rs1 rs2 off) := by
  rintro _ ⟨⟩ _
  exact congrArg (fun x => Except.ok (Instr.bltu rs1 rs2 x)) (encB_immB 0x63 6 rs1 rs2 off)
theorem bgeu (rs1 rs2 : RegNo) (off : BitVec 12) : Statement (.bgeu rs1 rs2 off) := by
  rintro _ ⟨⟩ _
  exact congrArg (fun x => Except.ok (Instr.bgeu rs1 rs2 x)) (encB_immB 0x63 7 rs1 rs2 off)
theorem ldI8 (rd rs1 : RegNo) (imm : BitVec 12) : Statement (.ldI8 rd rs1 imm) := by
  rintro _ ⟨⟩ _
  exact congrArg (fun x => Except.ok (Instr.ldI8 rd rs1 x)) (encI_immI 0x3 0 rd rs1 imm)
theorem ldI16 (rd rs1 : RegNo) (imm : BitVec 12) : Statement (.ldI16 rd rs1 imm) := by
  rintro _ ⟨⟩ _
  exact congrArg (fun x => Except.ok (Instr.ldI16 rd rs1 x)) (encI_immI 0x3 1 rd rs1 imm)
theorem ldI32 (rd rs1 : RegNo) (imm : BitVec 12) : Statement (.ldI32 rd rs1 imm) := by
  rintro _ ⟨⟩ _
  exact congrArg (fun x => Except.ok (Instr.ldI32 rd rs1 x)) (encI_immI 0x3 2 rd rs1 imm)
theorem ldI64 (rd rs1 : RegNo) (imm : BitVec 12) : Statement (.ldI64 rd rs1 imm) := by
  rintro _ ⟨⟩ _
  exact congrArg (fun x => Except.ok (Instr.ldI64 rd rs1 x)) (encI_immI 0x3 3 rd rs1 imm)
theorem ldN8 (rd rs1 : RegNo) (imm : BitVec 12) : Statement (.ldN8 rd rs1 imm) := by
  rintro _ ⟨⟩ _
  exact congrArg (fun x => Except.ok (Instr.ldN8 rd rs1 x)) (encI_immI 0x3 4 rd rs1 imm)
theorem ldN16 (rd rs1 : RegNo) (imm : BitVec 12) : Statement (.ldN16 rd rs1 imm) := by
  rintro _ ⟨⟩ _
  exact congrArg (fun x => Except.ok (Instr.ldN16 rd rs1 x)) (encI_immI 0x3 5 rd rs1 imm)
theorem ldN32 (rd rs1 : RegNo) (imm : BitVec 12) : Statement (.ldN32 rd rs1 imm) := by
  rintro _ ⟨⟩ _
  exact congrArg (fun x => Except.ok (Instr.ldN32 rd rs1 x)) (encI_immI 0x3 6 rd rs1 imm)
theorem stI8 (rs2 rs1 : RegNo) (imm : BitVec 12) : Statement (.stI8 rs2 rs1 imm) := by
  rintro _ ⟨⟩ _
  exact congrArg (fun x => Except.ok (Instr.stI8 rs2 rs1 x)) (encS_immS 0x23 0 rs2 rs1 imm)
theorem stI16 (rs2 rs1 : RegNo) (imm : BitVec 12) : Statement (.stI16 rs2 rs1 imm) := by
  rintro _ ⟨⟩ _
  exact congrArg (fun x => Except.ok (Instr.stI16 rs2 rs1 x)) (encS_immS 0x23 1 rs2 rs1 imm)
theorem stI32 (rs2 rs1 : RegNo) (imm : BitVec 12) : Statement (.stI32 rs2 rs1 imm) := by
  rintro _ ⟨⟩ _
  exact congrArg (fun x => Except.ok (Instr.stI32 rs2 rs1 x)) (encS_immS 0x23 2 rs2 rs1 imm)
theorem stI64 (rs2 rs1 : RegNo) (imm : BitVec 12) : Statement (.stI64 rs2 rs1 imm) := by
  rintro _ ⟨⟩ _
  exact congrArg (fun x => Except.ok (Instr.stI64 rs2 rs1 x)) (encS_immS 0x23 3 rs2 rs1 imm)
theorem addi (rd rs1 : RegNo) (imm : BitVec 12) : Statement (.addi rd rs1 imm) := by
  rintro _ ⟨⟩ _
  exact congrArg (fun x => Except.ok (Instr.addi rd rs1 x)) (encI_immI 0x13 0 rd rs1 imm)
theorem slti (rd rs1 : RegNo) (imm : BitVec 12) : Statement (.slti rd rs1 imm) := by
  rintro _ ⟨⟩ _
  exact congrArg (fun x => Except.ok (Instr.slti rd rs1 x)) (encI_immI 0x13 2 rd rs1 imm)
theorem sltiu (rd rs1 : RegNo) (imm : BitVec 12) : Statement (.sltiu rd rs1 imm) := by
  rintro _ ⟨⟩ _
  exact congrArg (fun x => Except.ok (Instr.sltiu rd rs1 x)) (encI_immI 0x13 3 rd rs1 imm)
theorem xori (rd rs1 : RegNo) (imm : BitVec 12) : Statement (.xori rd rs1 imm) := by
  rintro _ ⟨⟩ _
  exact congrArg (fun x => Except.ok (Instr.xori rd rs1 x)) (encI_immI 0x13 4 rd rs1 imm)
theorem ori (rd rs1 : RegNo) (imm : BitVec 12) : Statement (.ori rd rs1 imm) := by
  rintro _ ⟨⟩ _
  exact congrArg (fun x => Except.ok (Instr.ori rd rs1 x)) (encI_immI 0x13 6 rd rs1 imm)
theorem andi (rd rs1 : RegNo) (imm : BitVec 12) : Statement (.andi rd rs1 imm) := by
  rintro _ ⟨⟩ _
  exact congrArg (fun x => Except.ok (Instr.andi rd rs1 x)) (encI_immI 0x13 7 rd rs1 imm)
/-- A shift amount of up to 63 leaves bits [11:6] of the immediate at their base. -/
theorem shift_hi (base : Nat) (hb : base ≤ 1024) (sh : BitVec 6) :
    (BitVec.ofNat 12 (base + sh.toNat)).toNat = base + sh.toNat := by
  have h := sh.isLt
  simp only [BitVec.toNat_ofNat]
  omega

theorem shift_slli (rd rs1 : RegNo) (sh : BitVec 6) :
    decodeFields (encI 0x13 1 rd rs1 (BitVec.ofNat 12 (0 + sh.toNat))) = .ok (.slli rd rs1 sh) := by
  have h := sh.isLt
  show (if _ then Except.ok (Instr.slli rd rs1 _) else _) = _
  rw [encI_immI, shift_hi 0 (by omega) sh, if_pos (by omega), cut_shift 0 rfl]

theorem shift_srli (rd rs1 : RegNo) (sh : BitVec 6) :
    decodeFields (encI 0x13 5 rd rs1 (BitVec.ofNat 12 (0 + sh.toNat))) = .ok (.srli rd rs1 sh) := by
  have h := sh.isLt
  show (if _ then Except.ok (Instr.srli rd rs1 _) else _) = _
  rw [encI_immI, shift_hi 0 (by omega) sh, if_pos (by omega), cut_shift 0 rfl]

theorem shift_srai (rd rs1 : RegNo) (sh : BitVec 6) :
    decodeFields (encI 0x13 5 rd rs1 (BitVec.ofNat 12 (1024 + sh.toNat))) = .ok (.srai rd rs1 sh) := by
  have h := sh.isLt
  show (if _ then _ else if _ then Except.ok (Instr.srai rd rs1 _) else _) = _
  rw [encI_immI, shift_hi 1024 (by omega) sh, if_neg (by omega), if_pos (by omega), cut_shift 1024 rfl]

theorem slli (rd rs1 : RegNo) (sh : BitVec 6) : Statement (.slli rd rs1 sh) := by
  rintro _ ⟨⟩ _
  exact shift_slli rd rs1 sh
theorem srli (rd rs1 : RegNo) (sh : BitVec 6) : Statement (.srli rd rs1 sh) := by
  rintro _ ⟨⟩ _
  exact shift_srli rd rs1 sh
theorem srai (rd rs1 : RegNo) (sh : BitVec 6) : Statement (.srai rd rs1 sh) := by
  rintro _ ⟨⟩ _
  exact shift_srai rd rs1 sh
theorem addiw (rd rs1 : RegNo) (imm : BitVec 12) : Statement (.addiw rd rs1 imm) := by
  rintro _ ⟨⟩ _
  exact congrArg (fun x => Except.ok (Instr.addiw rd rs1 x)) (encI_immI 0x1b 0 rd rs1 imm)
theorem slliw (rd rs1 : RegNo) (sh : BitVec 5) : Statement (.slliw rd rs1 sh) := by
  rintro _ ⟨⟩ _
  rfl
theorem srliw (rd rs1 : RegNo) (sh : BitVec 5) : Statement (.srliw rd rs1 sh) := by
  rintro _ ⟨⟩ _
  rfl
theorem sraiw (rd rs1 : RegNo) (sh : BitVec 5) : Statement (.sraiw rd rs1 sh) := by
  rintro _ ⟨⟩ _
  rfl
theorem add (gd gs1 gs2 : RegNo) : Statement (.add gd gs1 gs2) := by
  rintro _ ⟨⟩ _
  rfl
theorem sub (gd gs1 gs2 : RegNo) : Statement (.sub gd gs1 gs2) := by
  rintro _ ⟨⟩ _
  rfl
theorem sll (gd gs1 gs2 : RegNo) : Statement (.sll gd gs1 gs2) := by
  rintro _ ⟨⟩ _
  rfl
theorem slt (gd gs1 gs2 : RegNo) : Statement (.slt gd gs1 gs2) := by
  rintro _ ⟨⟩ _
  rfl
theorem sltu (gd gs1 gs2 : RegNo) : Statement (.sltu gd gs1 gs2) := by
  rintro _ ⟨⟩ _
  rfl
theorem xor (gd gs1 gs2 : RegNo) : Statement (.xor gd gs1 gs2) := by
  rintro _ ⟨⟩ _
  rfl
theorem srl (gd gs1 gs2 : RegNo) : Statement (.srl gd gs1 gs2) := by
  rintro _ ⟨⟩ _
  rfl
theorem sra (gd gs1 gs2 : RegNo) : Statement (.sra gd gs1 gs2) := by
  rintro _ ⟨⟩ _
  rfl
theorem or (gd gs1 gs2 : RegNo) : Statement (.or gd gs1 gs2) := by
  rintro _ ⟨⟩ _
  rfl
theorem and (gd gs1 gs2 : RegNo) : Statement (.and gd gs1 gs2) := by
  rintro _ ⟨⟩ _
  rfl
theorem addw (gd gs1 gs2 : RegNo) : Statement (.addw gd gs1 gs2) := by
  rintro _ ⟨⟩ _
  rfl
theorem subw (gd gs1 gs2 : RegNo) : Statement (.subw gd gs1 gs2) := by
  rintro _ ⟨⟩ _
  rfl
theorem sllw (gd gs1 gs2 : RegNo) : Statement (.sllw gd gs1 gs2) := by
  rintro _ ⟨⟩ _
  rfl
theorem srlw (gd gs1 gs2 : RegNo) : Statement (.srlw gd gs1 gs2) := by
  rintro _ ⟨⟩ _
  rfl
theorem sraw (gd gs1 gs2 : RegNo) : Statement (.sraw gd gs1 gs2) := by
  rintro _ ⟨⟩ _
  rfl
theorem mul (gd gs1 gs2 : RegNo) : Statement (.mul gd gs1 gs2) := by
  rintro _ ⟨⟩ _
  rfl
theorem mulh (gd gs1 gs2 : RegNo) : Statement (.mulh gd gs1 gs2) := by
  rintro _ ⟨⟩ _
  rfl
theorem mulhsu (gd gs1 gs2 : RegNo) : Statement (.mulhsu gd gs1 gs2) := by
  rintro _ ⟨⟩ _
  rfl
theorem mulhu (gd gs1 gs2 : RegNo) : Statement (.mulhu gd gs1 gs2) := by
  rintro _ ⟨⟩ _
  rfl
theorem div (gd gs1 gs2 : RegNo) : Statement (.div gd gs1 gs2) := by
  rintro _ ⟨⟩ _
  rfl
theorem divu (gd gs1 gs2 : RegNo) : Statement (.divu gd gs1 gs2) := by
  rintro _ ⟨⟩ _
  rfl
theorem rem (gd gs1 gs2 : RegNo) : Statement (.rem gd gs1 gs2) := by
  rintro _ ⟨⟩ _
  rfl
theorem remu (gd gs1 gs2 : RegNo) : Statement (.remu gd gs1 gs2) := by
  rintro _ ⟨⟩ _
  rfl
theorem mulw (gd gs1 gs2 : RegNo) : Statement (.mulw gd gs1 gs2) := by
  rintro _ ⟨⟩ _
  rfl
theorem divw (gd gs1 gs2 : RegNo) : Statement (.divw gd gs1 gs2) := by
  rintro _ ⟨⟩ _
  rfl
theorem divuw (gd gs1 gs2 : RegNo) : Statement (.divuw gd gs1 gs2) := by
  rintro _ ⟨⟩ _
  rfl
theorem remw (gd gs1 gs2 : RegNo) : Statement (.remw gd gs1 gs2) := by
  rintro _ ⟨⟩ _
  rfl
theorem remuw (gd gs1 gs2 : RegNo) : Statement (.remuw gd gs1 gs2) := by
  rintro _ ⟨⟩ _
  rfl
theorem fence (imm : BitVec 12) (rs1 rd : RegNo) : Statement (.fence imm rs1 rd) := by
  rintro _ ⟨⟩ _
  exact congrArg (fun x => Except.ok (Instr.fence x rs1 rd)) (encI_immI 0xf 0 rd rs1 imm)
theorem ecall : Statement (.ecall) := by
  rintro _ ⟨⟩ _
  rfl
theorem ebreak : Statement (.ebreak) := by
  rintro _ ⟨⟩ _
  rfl
theorem ldlI8 (la : Look) (gd gs1 : RegNo) (off : BitVec 5) : Statement (.ldlI8 la gd gs1 off) := by
  rintro _ ⟨⟩ _
  rfl
theorem ldlN8 (la : Look) (gd gs1 : RegNo) (off : BitVec 5) : Statement (.ldlN8 la gd gs1 off) := by
  rintro _ ⟨⟩ _
  rfl
theorem ldlI16 (la : Look) (gd gs1 : RegNo) (off : BitVec 5) : Statement (.ldlI16 la gd gs1 off) := by
  rintro _ ⟨⟩ _
  rfl
theorem ldlN16 (la : Look) (gd gs1 : RegNo) (off : BitVec 5) : Statement (.ldlN16 la gd gs1 off) := by
  rintro _ ⟨⟩ _
  rfl
theorem ldlI32 (la : Look) (gd gs1 : RegNo) (off : BitVec 5) : Statement (.ldlI32 la gd gs1 off) := by
  rintro _ ⟨⟩ _
  rfl
theorem ldlN32 (la : Look) (gd gs1 : RegNo) (off : BitVec 5) : Statement (.ldlN32 la gd gs1 off) := by
  rintro _ ⟨⟩ _
  rfl
theorem ldlI64 (la : Look) (gd gs1 : RegNo) (off : BitVec 5) : Statement (.ldlI64 la gd gs1 off) := by
  rintro _ ⟨⟩ _
  rfl
theorem ldq (la : Look) (gd gs1 : RegNo) (off : BitVec 5) : Statement (.ldq la gd gs1 off) := by
  rintro _ ⟨⟩ _
  rfl
theorem stlI8 (la : Look) (gs1 gs2 : RegNo) (off : BitVec 5) : Statement (.stlI8 la gs1 gs2 off) := by
  rintro _ ⟨⟩ _
  rfl
theorem stlI16 (la : Look) (gs1 gs2 : RegNo) (off : BitVec 5) : Statement (.stlI16 la gs1 gs2 off) := by
  rintro _ ⟨⟩ _
  rfl
theorem stlI32 (la : Look) (gs1 gs2 : RegNo) (off : BitVec 5) : Statement (.stlI32 la gs1 gs2 off) := by
  rintro _ ⟨⟩ _
  rfl
theorem stlI64 (la : Look) (gs1 gs2 : RegNo) (off : BitVec 5) : Statement (.stlI64 la gs1 gs2 off) := by
  rintro _ ⟨⟩ _
  rfl
theorem stq (la : Look) (gs1 gs2 : RegNo) (off : BitVec 5) : Statement (.stq la gs1 gs2 off) := by
  rintro _ ⟨⟩ _
  rfl
theorem sbB (la : Look) (gs1 gs2 : RegNo) (off : BitVec 5) : Statement (.sbB la gs1 gs2 off) := by
  rintro _ ⟨⟩ _
  rfl
theorem cld (la : Look) (gd gs1 : RegNo) (off : BitVec 5) : Statement (.cld la gd gs1 off) := by
  rintro _ ⟨⟩ _
  rfl
theorem cst (la : Look) (gs1 gs2 : RegNo) (off : BitVec 5) : Statement (.cst la gs1 gs2 off) := by
  rintro _ ⟨⟩ _
  rfl
theorem ldacqI64 (la : Look) (gd gs1 : RegNo) (off : BitVec 5) : Statement (.ldacqI64 la gd gs1 off) := by
  rintro _ ⟨⟩ _
  rfl
theorem ldacqQ (la : Look) (gd gs1 : RegNo) (off : BitVec 5) : Statement (.ldacqQ la gd gs1 off) := by
  rintro _ ⟨⟩ _
  rfl
theorem strelI64 (la : Look) (gs1 gs2 : RegNo) (off : BitVec 5) : Statement (.strelI64 la gs1 gs2 off) := by
  rintro _ ⟨⟩ _
  rfl
theorem strelQ (la : Look) (gs1 gs2 : RegNo) (off : BitVec 5) : Statement (.strelQ la gs1 gs2 off) := by
  rintro _ ⟨⟩ _
  rfl
theorem fenceRel (la : Look) (gs1 : RegNo) : Statement (.fenceRel la gs1) := by
  rintro _ ⟨⟩ _
  rfl
theorem fenceAcq (la : Look) (gs1 : RegNo) : Statement (.fenceAcq la gs1) := by
  rintro _ ⟨⟩ _
  rfl
theorem fenceFull (la : Look) (gs1 : RegNo) : Statement (.fenceFull la gs1) := by
  rintro _ ⟨⟩ _
  rfl
theorem pref (la : Look) (gs1 : RegNo) (off hint : BitVec 5) : Statement (.pref la gs1 off hint) := by
  rintro _ ⟨⟩ _
  rfl
theorem pin (la : Look) (gd gs1 : RegNo) (off : BitVec 5) : Statement (.pin la gd gs1 off) := by
  rintro _ ⟨⟩ _
  rfl
theorem unpin (la : Look) (gd gs1 : RegNo) (off : BitVec 5) : Statement (.unpin la gd gs1 off) := by
  rintro _ ⟨⟩ _
  rfl
theorem afadd (ord wd : BitVec 2) (gd gs1 gs2 : RegNo) : Statement (.afadd ord wd gd gs1 gs2) := by
  rintro _ ⟨⟩ _
  show Except.ok (Instr.afadd (cut (cat ord wd 4) 2 2) (cut (cat ord wd 4) 0 2) gd gs1 gs2) = _
  rw [cat_hi _ _ (by omega), cat_lo _ _ (by omega)]
theorem aswap (ord wd : BitVec 2) (gd gs1 gs2 : RegNo) : Statement (.aswap ord wd gd gs1 gs2) := by
  rintro _ ⟨⟩ _
  show Except.ok (Instr.aswap (cut (cat ord wd 4) 2 2) (cut (cat ord wd 4) 0 2) gd gs1 gs2) = _
  rw [cat_hi _ _ (by omega), cat_lo _ _ (by omega)]
theorem acas64 (ord : BitVec 2) (gd gs1 gs2 : RegNo) : Statement (.acas64 ord gd gs1 gs2) := by
  rintro _ ⟨⟩ _
  show (if cut (cat ord 0#2 4) 0 2 = 0#2 then Except.ok (Instr.acas64 (cut (cat ord 0#2 4) 2 2) gd gs1 gs2) else _) = _
  rw [cat_lo _ _ (by omega), if_pos rfl, cat_hi _ _ (by omega)]
theorem acas128 (ord : BitVec 2) (gd gs1 gs2 : RegNo) : Statement (.acas128 ord gd gs1 gs2) := by
  rintro _ ⟨⟩ _
  show (if cut (cat ord 0#2 4) 0 2 = 0#2 then Except.ok (Instr.acas128 (cut (cat ord 0#2 4) 2 2) gd gs1 gs2) else _) = _
  rw [cat_lo _ _ (by omega), if_pos rfl, cat_hi _ _ (by omega)]
theorem amax (ord wd : BitVec 2) (gd gs1 gs2 : RegNo) : Statement (.amax ord wd gd gs1 gs2) := by
  rintro _ ⟨⟩ _
  show Except.ok (Instr.amax (cut (cat ord wd 4) 2 2) (cut (cat ord wd 4) 0 2) gd gs1 gs2) = _
  rw [cat_hi _ _ (by omega), cat_lo _ _ (by omega)]
theorem amin (ord wd : BitVec 2) (gd gs1 gs2 : RegNo) : Statement (.amin ord wd gd gs1 gs2) := by
  rintro _ ⟨⟩ _
  show Except.ok (Instr.amin (cut (cat ord wd 4) 2 2) (cut (cat ord wd 4) 0 2) gd gs1 gs2) = _
  rw [cat_hi _ _ (by omega), cat_lo _ _ (by omega)]
theorem aand (ord wd : BitVec 2) (gd gs1 gs2 : RegNo) : Statement (.aand ord wd gd gs1 gs2) := by
  rintro _ ⟨⟩ _
  show Except.ok (Instr.aand (cut (cat ord wd 4) 2 2) (cut (cat ord wd 4) 0 2) gd gs1 gs2) = _
  rw [cat_hi _ _ (by omega), cat_lo _ _ (by omega)]
theorem aor (ord wd : BitVec 2) (gd gs1 gs2 : RegNo) : Statement (.aor ord wd gd gs1 gs2) := by
  rintro _ ⟨⟩ _
  show Except.ok (Instr.aor (cut (cat ord wd 4) 2 2) (cut (cat ord wd 4) 0 2) gd gs1 gs2) = _
  rw [cat_hi _ _ (by omega), cat_lo _ _ (by omega)]
theorem axor (ord wd : BitVec 2) (gd gs1 gs2 : RegNo) : Statement (.axor ord wd gd gs1 gs2) := by
  rintro _ ⟨⟩ _
  show Except.ok (Instr.axor (cut (cat ord wd 4) 2 2) (cut (cat ord wd 4) 0 2) gd gs1 gs2) = _
  rw [cat_hi _ _ (by omega), cat_lo _ _ (by omega)]
theorem cflush (la : Look) (gs1 : RegNo) (off : BitVec 5) : Statement (.cflush la gs1 off) := by
  rintro _ ⟨⟩ _
  rfl
theorem cmov (la : Look) (gd gs1 : RegNo) : Statement (.cmov la gd gs1) := by
  rintro _ ⟨⟩ _
  rfl
theorem csetaddr (la : Look) (gd gs1 gs2 : RegNo) : Statement (.csetaddr la gd gs1 gs2) := by
  rintro _ ⟨⟩ _
  rfl
theorem cincaddr (la : Look) (gd gs1 gs2 : RegNo) : Statement (.cincaddr la gd gs1 gs2) := by
  rintro _ ⟨⟩ _
  rfl
theorem cincaddri (la : Look) (gd gs1 : RegNo) (imm : BitVec 5) : Statement (.cincaddri la gd gs1 imm) := by
  rintro _ ⟨⟩ _
  rfl
theorem csetbnd (la : Look) (gd gs1 gs2 : RegNo) : Statement (.csetbnd la gd gs1 gs2) := by
  rintro _ ⟨⟩ _
  rfl
theorem candperm (la : Look) (gd gs1 gs2 : RegNo) : Statement (.candperm la gd gs1 gs2) := by
  rintro _ ⟨⟩ _
  rfl
theorem cseal (la : Look) (gd gs1 : RegNo) : Statement (.cseal la gd gs1) := by
  rintro _ ⟨⟩ _
  rfl
theorem cget (la : Look) (gd gs1 : RegNo) (sel : BitVec 5) : Statement (.cget la gd gs1 sel) := by
  rintro _ ⟨⟩ _
  rfl
theorem cellFree (gd gs1 : RegNo) : Statement (.cellFree gd gs1) := by
  rintro _ ⟨⟩ _
  rfl
theorem cntInit (gd gs1 gs2 : RegNo) : Statement (.cntInit gd gs1 gs2) := by
  rintro _ ⟨⟩ _
  rfl
theorem barInit (gd gs1 gs2 : RegNo) : Statement (.barInit gd gs1 gs2) := by
  rintro _ ⟨⟩ _
  rfl
theorem lckInit (gd gs1 : RegNo) : Statement (.lckInit gd gs1) := by
  rintro _ ⟨⟩ _
  rfl
theorem queInit (gd gs1 gs2 : RegNo) : Statement (.queInit gd gs1 gs2) := by
  rintro _ ⟨⟩ _
  rfl
theorem cndInit (gd gs1 : RegNo) : Statement (.cndInit gd gs1) := by
  rintro _ ⟨⟩ _
  rfl
theorem cellQuery (la : Look) (gd gs1 : RegNo) (sel : BitVec 5) : Statement (.cellQuery la gd gs1 sel) := by
  rintro _ ⟨⟩ _
  rfl
theorem cntAdd (la : Look) (gd gs1 gs2 : RegNo) : Statement (.cntAdd la gd gs1 gs2) := by
  rintro _ ⟨⟩ _
  rfl
theorem cntWait (la : Look) (gd gs1 : RegNo) : Statement (.cntWait la gd gs1) := by
  rintro _ ⟨⟩ _
  rfl
theorem cntArm (la : Look) (gd gs1 gs2 : RegNo) : Statement (.cntArm la gd gs1 gs2) := by
  rintro _ ⟨⟩ _
  rfl
theorem cntDisarm (la : Look) (gd gs1 : RegNo) : Statement (.cntDisarm la gd gs1) := by
  rintro _ ⟨⟩ _
  rfl
theorem barArrive (la : Look) (gd gs1 : RegNo) : Statement (.barArrive la gd gs1) := by
  rintro _ ⟨⟩ _
  rfl
theorem barWait (la : Look) (gd gs1 gs2 : RegNo) : Statement (.barWait la gd gs1 gs2) := by
  rintro _ ⟨⟩ _
  rfl
theorem barSync (la : Look) (gd gs1 : RegNo) : Statement (.barSync la gd gs1) := by
  rintro _ ⟨⟩ _
  rfl
theorem lckAcq (la : Look) (gd gs1 : RegNo) : Statement (.lckAcq la gd gs1) := by
  rintro _ ⟨⟩ _
  rfl
theorem lckTry (la : Look) (gd gs1 : RegNo) : Statement (.lckTry la gd gs1) := by
  rintro _ ⟨⟩ _
  rfl
theorem lckRel (la : Look) (gd gs1 : RegNo) : Statement (.lckRel la gd gs1) := by
  rintro _ ⟨⟩ _
  rfl
theorem quePush (la : Look) (gd gs1 gs2 : RegNo) : Statement (.quePush la gd gs1 gs2) := by
  rintro _ ⟨⟩ _
  rfl
theorem quePop (la : Look) (gd gs1 gs2 : RegNo) : Statement (.quePop la gd gs1 gs2) := by
  rintro _ ⟨⟩ _
  rfl
theorem queTrypush (la : Look) (gd gs1 gs2 : RegNo) : Statement (.queTrypush la gd gs1 gs2) := by
  rintro _ ⟨⟩ _
  rfl
theorem queTrypop (la : Look) (gd gs1 gs2 : RegNo) : Statement (.queTrypop la gd gs1 gs2) := by
  rintro _ ⟨⟩ _
  rfl
theorem cndWait (la : Look) (gd gs1 gs2 : RegNo) : Statement (.cndWait la gd gs1 gs2) := by
  rintro _ ⟨⟩ _
  rfl
theorem cndSignal (la : Look) (gd gs1 : RegNo) : Statement (.cndSignal la gd gs1) := by
  rintro _ ⟨⟩ _
  rfl
theorem cndBcast (la : Look) (gd gs1 : RegNo) : Statement (.cndBcast la gd gs1) := by
  rintro _ ⟨⟩ _
  rfl
theorem rowop (la : Look) (gd gs1 gs2 : RegNo) : Statement (.rowop la gd gs1 gs2) := by
  rintro _ ⟨⟩ _
  rfl
/-- The check and the operands of an `mma`, read from the fields that hold them (R420). -/
theorem mma_fields (con : BitVec 1 → BitVec 3 → BitVec 3 → RegNo → Instr) (n : Nat) (acc : BitVec 1) (ca cb : BitVec 3)
    (gs3 : RegNo) :
    (if (encT n (acc.setWidth 5) (ca.setWidth 5) (cb.setWidth 5) gs3).gd.toNat < 2 ∧
        (encT n (acc.setWidth 5) (ca.setWidth 5) (cb.setWidth 5) gs3).gs1.toNat < 8 ∧
        (encT n (acc.setWidth 5) (ca.setWidth 5) (cb.setWidth 5) gs3).gs2.toNat < 8 then
      Except.ok (con (cut (encT n (acc.setWidth 5) (ca.setWidth 5) (cb.setWidth 5) gs3).gd 0 1)
        (cut (encT n (acc.setWidth 5) (ca.setWidth 5) (cb.setWidth 5) gs3).gs1 0 3)
        (cut (encT n (acc.setWidth 5) (ca.setWidth 5) (cb.setWidth 5) gs3).gs2 0 3)
        (encT n (acc.setWidth 5) (ca.setWidth 5) (cb.setWidth 5) gs3).gs3)
     else Except.error Reject.fieldValue) = Except.ok (con acc ca cb gs3) := by
  rw [if_pos ⟨narrow_lt acc (by omega), narrow_lt ca (by omega), narrow_lt cb (by omega)⟩, encT_gs3]
  simp only [encT, cut_narrow acc (by omega : 1 ≤ 5), cut_narrow ca (by omega : 3 ≤ 5), cut_narrow cb (by omega : 3 ≤ 5)]

theorem mmaNi_fields (acc : BitVec 1) (km1 ca cb : BitVec 3) (gs3 : RegNo) :
    decodeFields (encT 8 (cat km1 acc 5) (ca.setWidth 5) (cb.setWidth 5) gs3) = .ok (.mmaNi acc km1 ca cb gs3) := by
  show (if _ then Except.ok (Instr.mmaNi (cut (cat km1 acc 5) 0 1) (cut (cat km1 acc 5) 1 3) (cut (ca.setWidth 5) 0 3)
    (cut (cb.setWidth 5) 0 3) _) else _) = _
  rw [if_pos ⟨cat_lt km1 acc (by omega), narrow_lt ca (by omega), narrow_lt cb (by omega)⟩, encT_gs3,
    cat_lo _ _ (by omega), cat_hi _ _ (by omega), cut_narrow ca (by omega), cut_narrow cb (by omega)]

theorem cvset (la : Look) (gs1 : RegNo) (n : BitVec 3) : Statement (.cvset la gs1 n) := by
  rintro _ ⟨⟩ _
  show (if _ then Except.ok (Instr.cvset la gs1 (cut (n.setWidth 5) 0 3)) else _) = _
  rw [if_pos ⟨narrow_lt n (by omega), rfl⟩, cut_narrow n (by omega)]
theorem cvpush (la : Look) (n : BitVec 3) : Statement (.cvpush la n) := by
  rintro _ ⟨⟩ _
  show (if _ then Except.ok (Instr.cvpush la (cut (n.setWidth 5) 0 3)) else _) = _
  rw [if_pos ⟨narrow_lt n (by omega), rfl, rfl⟩, cut_narrow n (by omega)]
theorem cvquery (la : Look) (gd : RegNo) (n : BitVec 3) : Statement (.cvquery la gd n) := by
  rintro _ ⟨⟩ _
  show (if _ then Except.ok (Instr.cvquery la gd (cut (n.setWidth 5) 0 3)) else _) = _
  rw [if_pos ⟨narrow_lt n (by omega), rfl⟩, cut_narrow n (by omega)]
theorem mrec (la : Look) (acc : BitVec 1) (fmt : BitVec 4) (ca cb : BitVec 3) : Statement (.mrec la acc fmt ca cb) := by
  rintro _ ⟨⟩ _
  show (if _ then Except.ok (Instr.mrec la (cut (cat fmt acc 5) 0 1) (cut (cat fmt acc 5) 1 4) (cut (ca.setWidth 5) 0 3)
    (cut (cb.setWidth 5) 0 3)) else _) = _
  rw [if_pos ⟨narrow_lt ca (by omega), narrow_lt cb (by omega)⟩, cat_lo _ _ (by omega), cat_hi _ _ (by omega),
    cut_narrow ca (by omega), cut_narrow cb (by omega)]
theorem mrload (la : Look) (gs1 : RegNo) : Statement (.mrload la gs1) := by
  rintro _ ⟨⟩ _
  rfl
theorem mdrain (la : Look) (acc clr : BitVec 1) (gs1 gs2 : RegNo) : Statement (.mdrain la acc clr gs1 gs2) := by
  rintro _ ⟨⟩ _
  show (if _ then Except.ok (Instr.mdrain la (cut (cat clr acc 5) 0 1) (cut (cat clr acc 5) 1 1) gs1 gs2) else _) = _
  refine (if_pos (cat_lt clr acc (by omega))).trans ?_
  rw [cat_hi _ _ (by omega), cat_lo _ _ (by omega)]
theorem mzero (la : Look) (n : BitVec 1) : Statement (.mzero la n) := by
  rintro _ ⟨⟩ _
  show (if _ then Except.ok (Instr.mzero la (cut (n.setWidth 5) 0 1)) else _) = _
  rw [if_pos ⟨narrow_lt n (by omega), rfl, rfl⟩, cut_narrow n (by omega)]
theorem ewait (la : Look) (gd : RegNo) (sel : BitVec 3) : Statement (.ewait la gd sel) := by
  rintro _ ⟨⟩ _
  show (if _ then Except.ok (Instr.ewait la gd (cut (sel.setWidth 5) 0 3)) else _) = _
  rw [if_pos ⟨narrow_lt sel (by omega), rfl⟩, cut_narrow sel (by omega)]
theorem copy (la : Look) (gs1 gs2 : RegNo) : Statement (.copy la gs1 gs2) := by
  rintro _ ⟨⟩ _
  rfl
theorem copy2d (la : Look) (gs1 gs2 : RegNo) : Statement (.copy2d la gs1 gs2) := by
  rintro _ ⟨⟩ _
  rfl
theorem gather (la : Look) (gs1 gs2 : RegNo) : Statement (.gather la gs1 gs2) := by
  rintro _ ⟨⟩ _
  rfl
theorem scatter (la : Look) (gs1 gs2 : RegNo) : Statement (.scatter la gs1 gs2) := by
  rintro _ ⟨⟩ _
  rfl
theorem fill (la : Look) (gs1 gs2 : RegNo) : Statement (.fill la gs1 gs2) := by
  rintro _ ⟨⟩ _
  rfl
theorem sbind (la : Look) (n : BitVec 2) : Statement (.sbind la n) := by
  rintro _ ⟨⟩ _
  show (if _ then Except.ok (Instr.sbind la (cut (n.setWidth 5) 0 2)) else _) = _
  rw [if_pos ⟨narrow_lt n (by omega), rfl, rfl⟩, cut_narrow n (by omega)]
theorem sunbind (la : Look) (n : BitVec 2) : Statement (.sunbind la n) := by
  rintro _ ⟨⟩ _
  show (if _ then Except.ok (Instr.sunbind la (cut (n.setWidth 5) 0 2)) else _) = _
  rw [if_pos ⟨narrow_lt n (by omega), rfl, rfl⟩, cut_narrow n (by omega)]
theorem xprog (la : Look) (gd gs1 gs2 : RegNo) : Statement (.xprog la gd gs1 gs2) := by
  rintro _ ⟨⟩ _
  rfl
theorem xcal (la : Look) (gs1 gs2 : RegNo) : Statement (.xcal la gs1 gs2) := by
  rintro _ ⟨⟩ _
  rfl
theorem xmvm (la : Look) (gd gs1 gs2 : RegNo) : Statement (.xmvm la gd gs1 gs2) := by
  rintro _ ⟨⟩ _
  rfl
theorem xwait (la : Look) (gd : RegNo) (sel : BitVec 4) : Statement (.xwait la gd sel) := by
  rintro _ ⟨⟩ _
  show (if _ then Except.ok (Instr.xwait la gd (cut (sel.setWidth 5) 0 4)) else _) = _
  rw [if_pos ⟨narrow_lt sel (by omega), rfl⟩, cut_narrow sel (by omega)]
theorem accept (la : Look) (gd gs1 : RegNo) : Statement (.accept la gd gs1) := by
  rintro _ ⟨⟩ _
  rfl
theorem acceptSp (la : Look) (gd gs1 : RegNo) : Statement (.acceptSp la gd gs1) := by
  rintro _ ⟨⟩ _
  rfl
theorem acceptAcc (la : Look) (n : BitVec 1) : Statement (.acceptAcc la n) := by
  rintro _ ⟨⟩ _
  have h : cat 1#1 n 5 ≠ 0 ∧ cat 1#1 n 5 ≠ 1 ∧ (cat 1#1 n 5).toNat / 2 = 1 := by
    clear * -
    revert n
    decide
  show (if cat 1#1 n 5 = 0 then _ else if cat 1#1 n 5 = 1 then _ else if (cat 1#1 n 5).toNat / 2 = 1 ∧ _ then
    Except.ok (Instr.acceptAcc la (cut (cat 1#1 n 5) 0 1)) else _) = _
  rw [if_neg h.1, if_neg h.2.1, cat_lo _ _ (by omega)]
  exact if_pos ⟨h.2.2, rfl, rfl⟩
theorem vsetcfg (la : Look) (gd gs1 : RegNo) : Statement (.vsetcfg la gd gs1) := by
  rintro _ ⟨⟩ _
  rfl
theorem vadd (la : Look) (gd gs1 gs2 : RegNo) : Statement (.vadd la gd gs1 gs2) := by
  rintro _ ⟨⟩ _
  rfl
theorem vsub (la : Look) (gd gs1 gs2 : RegNo) : Statement (.vsub la gd gs1 gs2) := by
  rintro _ ⟨⟩ _
  rfl
theorem vmul (la : Look) (gd gs1 gs2 : RegNo) : Statement (.vmul la gd gs1 gs2) := by
  rintro _ ⟨⟩ _
  rfl
theorem vfma (la : Look) (gd gs1 gs2 : RegNo) : Statement (.vfma la gd gs1 gs2) := by
  rintro _ ⟨⟩ _
  rfl
theorem vmax (la : Look) (gd gs1 gs2 : RegNo) : Statement (.vmax la gd gs1 gs2) := by
  rintro _ ⟨⟩ _
  rfl
theorem vmin (la : Look) (gd gs1 gs2 : RegNo) : Statement (.vmin la gd gs1 gs2) := by
  rintro _ ⟨⟩ _
  rfl
theorem vabs (la : Look) (gd gs1 : RegNo) : Statement (.vabs la gd gs1) := by
  rintro _ ⟨⟩ _
  rfl
theorem vneg (la : Look) (gd gs1 : RegNo) : Statement (.vneg la gd gs1) := by
  rintro _ ⟨⟩ _
  rfl
theorem vadds (la : Look) (gd gs1 gs2 : RegNo) : Statement (.vadds la gd gs1 gs2) := by
  rintro _ ⟨⟩ _
  rfl
theorem vmuls (la : Look) (gd gs1 gs2 : RegNo) : Statement (.vmuls la gd gs1 gs2) := by
  rintro _ ⟨⟩ _
  rfl
theorem vcvt (la : Look) (gd gs1 : RegNo) (sat : BitVec 1) (fmt : BitVec 4) : Statement (.vcvt la gd gs1 sat fmt) := by
  rintro _ ⟨⟩ _
  show Except.ok (Instr.vcvt la gd gs1 (cut (cat sat fmt 5) 4 1) (cut (cat sat fmt 5) 0 4)) = _
  rw [cat_hi _ _ (by omega), cat_lo _ _ (by omega)]
theorem vexp (la : Look) (gd gs1 : RegNo) : Statement (.vexp la gd gs1) := by
  rintro _ ⟨⟩ _
  rfl
theorem vrcp (la : Look) (gd gs1 : RegNo) : Statement (.vrcp la gd gs1) := by
  rintro _ ⟨⟩ _
  rfl
theorem vrsqrt (la : Look) (gd gs1 : RegNo) : Statement (.vrsqrt la gd gs1) := by
  rintro _ ⟨⟩ _
  rfl
theorem vsum (la : Look) (gd gs1 : RegNo) : Statement (.vsum la gd gs1) := by
  rintro _ ⟨⟩ _
  rfl
theorem vmaxr (la : Look) (gd gs1 : RegNo) : Statement (.vmaxr la gd gs1) := by
  rintro _ ⟨⟩ _
  rfl
theorem vargmax (la : Look) (gd gs1 : RegNo) : Statement (.vargmax la gd gs1) := by
  rintro _ ⟨⟩ _
  rfl
theorem vsel (la : Look) (gd gs1 gs2 : RegNo) : Statement (.vsel la gd gs1 gs2) := by
  rintro _ ⟨⟩ _
  rfl
theorem vcmplt (la : Look) (gd gs1 gs2 : RegNo) : Statement (.vcmplt la gd gs1 gs2) := by
  rintro _ ⟨⟩ _
  rfl
theorem vand (la : Look) (gd gs1 gs2 : RegNo) : Statement (.vand la gd gs1 gs2) := by
  rintro _ ⟨⟩ _
  rfl
theorem vor (la : Look) (gd gs1 gs2 : RegNo) : Statement (.vor la gd gs1 gs2) := by
  rintro _ ⟨⟩ _
  rfl
theorem vxor (la : Look) (gd gs1 gs2 : RegNo) : Statement (.vxor la gd gs1 gs2) := by
  rintro _ ⟨⟩ _
  rfl
theorem vmov (la : Look) (gd gs1 : RegNo) : Statement (.vmov la gd gs1) := by
  rintro _ ⟨⟩ _
  rfl
theorem vfill (la : Look) (gd gs2 : RegNo) : Statement (.vfill la gd gs2) := by
  rintro _ ⟨⟩ _
  rfl
theorem fork (la : Look) (gd gs1 gs2 : RegNo) : Statement (.fork la gd gs1 gs2) := by
  rintro _ ⟨⟩ _
  rfl
theorem join (la : Look) (gs1 : RegNo) : Statement (.join la gs1) := by
  rintro _ ⟨⟩ _
  rfl
theorem spawn (n : BitVec 4) (gd gs1 gs2 : RegNo) : Statement (.spawn n gd gs1 gs2) := by
  rintro _ ⟨⟩ _
  rfl
theorem exit (la : Look) : Statement (.exit la) := by
  rintro _ ⟨⟩ _
  rfl
theorem yield (la : Look) (gs1 : RegNo) : Statement (.yield la gs1) := by
  rintro _ ⟨⟩ _
  rfl
theorem trigger (la : Look) : Statement (.trigger la) := by
  rintro _ ⟨⟩ _
  rfl
theorem send (n : BitVec 4) (gd gs2 : RegNo) : Statement (.send n gd gs2) := by
  rintro _ ⟨⟩ _
  rfl
theorem lbsend (n : BitVec 4) (gd gs1 gs2 : RegNo) : Statement (.lbsend n gd gs1 gs2) := by
  rintro _ ⟨⟩ _
  rfl
theorem rcall (n : BitVec 4) (r : BitVec 2) (gd gs1 gs2 : RegNo) : Statement (.rcall n r gd gs1 gs2) := by
  rintro _ ⟨⟩ _
  have h : cut (BitVec.ofNat 3 ((8 + r.toNat) % 8)) 0 2 = r := by
    clear * -
    revert r
    decide
  have hr : r = 0#2 ∨ r = 1#2 ∨ r = 2#2 ∨ r = 3#2 := by
    clear * -
    revert r
    decide
  rcases hr with rfl | rfl | rfl | rfl <;> exact congrArg (fun x => Except.ok (Instr.rcall n x gd gs1 gs2)) h
theorem rpost (n : BitVec 4) (gs1 gs2 : RegNo) : Statement (.rpost n gs1 gs2) := by
  rintro _ ⟨⟩ _
  rfl
theorem rreply (n : BitVec 4) (gs2 : RegNo) : Statement (.rreply n gs2) := by
  rintro _ ⟨⟩ _
  rfl
theorem migrate (la : Look) (gs1 : RegNo) : Statement (.migrate la gs1) := by
  rintro _ ⟨⟩ _
  rfl
theorem atake (la : Look) (gd : RegNo) : Statement (.atake la gd) := by
  rintro _ ⟨⟩ _
  rfl
theorem hold (la : Look) (gd gs1 : RegNo) : Statement (.hold la gd gs1) := by
  rintro _ ⟨⟩ _
  rfl
theorem unhold (la : Look) (gd gs1 : RegNo) : Statement (.unhold la gd gs1) := by
  rintro _ ⟨⟩ _
  rfl
theorem catset (la : Look) (gs2 : RegNo) (sel : BitVec 5) : Statement (.catset la gs2 sel) := by
  rintro _ ⟨⟩ _
  rfl
theorem bind (la : Look) (gd : RegNo) (sel : BitVec 5) : Statement (.bind la gd sel) := by
  rintro _ ⟨⟩ _
  rfl
theorem unbind (la : Look) : Statement (.unbind la) := by
  rintro _ ⟨⟩ _
  rfl
theorem gpos (la : Look) (gd : RegNo) (sel : BitVec 5) : Statement (.gpos la gd sel) := by
  rintro _ ⟨⟩ _
  rfl
theorem crrd (la : Look) (gd : RegNo) (sel : BitVec 5) : Statement (.crrd la gd sel) := by
  rintro _ ⟨⟩ _
  rfl
theorem crwr (la : Look) (gd gs1 : RegNo) (sel : BitVec 5) : Statement (.crwr la gd gs1 sel) := by
  rintro _ ⟨⟩ _
  rfl
theorem crset (la : Look) (gd gs1 : RegNo) (sel : BitVec 5) : Statement (.crset la gd gs1 sel) := by
  rintro _ ⟨⟩ _
  rfl
theorem crclr (la : Look) (gd gs1 : RegNo) (sel : BitVec 5) : Statement (.crclr la gd gs1 sel) := by
  rintro _ ⟨⟩ _
  rfl
theorem tret (la : Look) : Statement (.tret la) := by
  rintro _ ⟨⟩ _
  rfl
theorem ctxsave (la : Look) (gd gs1 gs2 : RegNo) : Statement (.ctxsave la gd gs1 gs2) := by
  rintro _ ⟨⟩ _
  rfl
theorem ctxload (la : Look) (gd gs1 gs2 : RegNo) : Statement (.ctxload la gd gs1 gs2) := by
  rintro _ ⟨⟩ _
  rfl
theorem preack (la : Look) (gd gs1 : RegNo) : Statement (.preack la gd gs1) := by
  rintro _ ⟨⟩ _
  rfl
theorem tdrain (la : Look) (gd gs1 gs2 : RegNo) : Statement (.tdrain la gd gs1 gs2) := by
  rintro _ ⟨⟩ _
  rfl
theorem tconfirm (la : Look) (gd gs1 : RegNo) : Statement (.tconfirm la gd gs1) := by
  rintro _ ⟨⟩ _
  rfl
theorem evrd (la : Look) (gd : RegNo) (sel : BitVec 5) : Statement (.evrd la gd sel) := by
  rintro _ ⟨⟩ _
  rfl
theorem evclr (la : Look) (gs1 : RegNo) : Statement (.evclr la gs1) := by
  rintro _ ⟨⟩ _
  rfl
theorem finject (la : Look) (gd gs1 : RegNo) (sel : BitVec 2) : Statement (.finject la gd gs1 sel) := by
  rintro _ ⟨⟩ _
  show (if _ then Except.ok (Instr.finject la gd gs1 (cut (sel.setWidth 5) 0 2)) else _) = _
  refine (if_pos (narrow_lt sel (by omega))).trans ?_
  rw [cut_narrow sel (by omega)]
theorem gpreempt (la : Look) (gd gs1 : RegNo) : Statement (.gpreempt la gd gs1) := by
  rintro _ ⟨⟩ _
  rfl
theorem gpreemptEnd (la : Look) (gd gs1 : RegNo) : Statement (.gpreemptEnd la gd gs1) := by
  rintro _ ⟨⟩ _
  rfl
theorem gresume (la : Look) (gd gs1 : RegNo) : Statement (.gresume la gd gs1) := by
  rintro _ ⟨⟩ _
  rfl
theorem mmaE4e4 (acc : BitVec 1) (ca cb : BitVec 3) (gs3 : RegNo) : Statement (.mmaE4e4 acc ca cb gs3) := by
  rintro _ ⟨⟩ _
  exact mma_fields (fun a b c d => .mmaE4e4 a b c d) 0 acc ca cb gs3
theorem mmaE4e5 (acc : BitVec 1) (ca cb : BitVec 3) (gs3 : RegNo) : Statement (.mmaE4e5 acc ca cb gs3) := by
  rintro _ ⟨⟩ _
  exact mma_fields (fun a b c d => .mmaE4e5 a b c d) 1 acc ca cb gs3
theorem mmaE5e4 (acc : BitVec 1) (ca cb : BitVec 3) (gs3 : RegNo) : Statement (.mmaE5e4 acc ca cb gs3) := by
  rintro _ ⟨⟩ _
  exact mma_fields (fun a b c d => .mmaE5e4 a b c d) 2 acc ca cb gs3
theorem mmaE5e5 (acc : BitVec 1) (ca cb : BitVec 3) (gs3 : RegNo) : Statement (.mmaE5e5 acc ca cb gs3) := by
  rintro _ ⟨⟩ _
  exact mma_fields (fun a b c d => .mmaE5e5 a b c d) 3 acc ca cb gs3
theorem mmaH (acc : BitVec 1) (ca cb : BitVec 3) (gs3 : RegNo) : Statement (.mmaH acc ca cb gs3) := by
  rintro _ ⟨⟩ _
  exact mma_fields (fun a b c d => .mmaH a b c d) 4 acc ca cb gs3
theorem mmaB (acc : BitVec 1) (ca cb : BitVec 3) (gs3 : RegNo) : Statement (.mmaB acc ca cb gs3) := by
  rintro _ ⟨⟩ _
  exact mma_fields (fun a b c d => .mmaB a b c d) 5 acc ca cb gs3
theorem mmaS (acc : BitVec 1) (ca cb : BitVec 3) (gs3 : RegNo) : Statement (.mmaS acc ca cb gs3) := by
  rintro _ ⟨⟩ _
  exact mma_fields (fun a b c d => .mmaS a b c d) 6 acc ca cb gs3
theorem mmaI8 (acc : BitVec 1) (ca cb : BitVec 3) (gs3 : RegNo) : Statement (.mmaI8 acc ca cb gs3) := by
  rintro _ ⟨⟩ _
  exact mma_fields (fun a b c d => .mmaI8 a b c d) 7 acc ca cb gs3
theorem mmaNi (acc : BitVec 1) (km1 ca cb : BitVec 3) (gs3 : RegNo) : Statement (.mmaNi acc km1 ca cb gs3) := by
  rintro _ ⟨⟩ _
  exact mmaNi_fields acc km1 ca cb gs3
theorem fmaddS (gd gs1 gs2 gs3 : RegNo) : Statement (.fmaddS gd gs1 gs2 gs3) := by
  rintro _ ⟨⟩ _
  exact congrArg (fun x => Except.ok (Instr.fmaddS gd gs1 gs2 x)) (encT_gs3 16 gd gs1 gs2 gs3)
theorem fmsubS (gd gs1 gs2 gs3 : RegNo) : Statement (.fmsubS gd gs1 gs2 gs3) := by
  rintro _ ⟨⟩ _
  exact congrArg (fun x => Except.ok (Instr.fmsubS gd gs1 gs2 x)) (encT_gs3 17 gd gs1 gs2 gs3)
theorem fnmaddS (gd gs1 gs2 gs3 : RegNo) : Statement (.fnmaddS gd gs1 gs2 gs3) := by
  rintro _ ⟨⟩ _
  exact congrArg (fun x => Except.ok (Instr.fnmaddS gd gs1 gs2 x)) (encT_gs3 18 gd gs1 gs2 gs3)
theorem fnmsubS (gd gs1 gs2 gs3 : RegNo) : Statement (.fnmsubS gd gs1 gs2 gs3) := by
  rintro _ ⟨⟩ _
  exact congrArg (fun x => Except.ok (Instr.fnmsubS gd gs1 gs2 x)) (encT_gs3 19 gd gs1 gs2 gs3)
theorem faddS (gd gs1 gs2 : RegNo) : Statement (.faddS gd gs1 gs2) := by
  rintro _ ⟨⟩ _
  rfl
theorem fsubS (gd gs1 gs2 : RegNo) : Statement (.fsubS gd gs1 gs2) := by
  rintro _ ⟨⟩ _
  rfl
theorem fmulS (gd gs1 gs2 : RegNo) : Statement (.fmulS gd gs1 gs2) := by
  rintro _ ⟨⟩ _
  rfl
theorem fdivS (gd gs1 gs2 : RegNo) : Statement (.fdivS gd gs1 gs2) := by
  rintro _ ⟨⟩ _
  rfl
theorem fsqrtS (gd gs1 : RegNo) : Statement (.fsqrtS gd gs1) := by
  rintro _ ⟨⟩ _
  rfl
theorem fminS (gd gs1 gs2 : RegNo) : Statement (.fminS gd gs1 gs2) := by
  rintro _ ⟨⟩ _
  rfl
theorem fmaxS (gd gs1 gs2 : RegNo) : Statement (.fmaxS gd gs1 gs2) := by
  rintro _ ⟨⟩ _
  rfl
theorem feqS (gd gs1 gs2 : RegNo) : Statement (.feqS gd gs1 gs2) := by
  rintro _ ⟨⟩ _
  rfl
theorem fltS (gd gs1 gs2 : RegNo) : Statement (.fltS gd gs1 gs2) := by
  rintro _ ⟨⟩ _
  rfl
theorem fleS (gd gs1 gs2 : RegNo) : Statement (.fleS gd gs1 gs2) := by
  rintro _ ⟨⟩ _
  rfl
theorem fcvt (gd gs1 : RegNo) (src : BitVec 4) (sat : BitVec 1) (dst : BitVec 4) : Statement (.fcvt gd gs1 src sat dst) := by
  rintro _ ⟨⟩ _
  show (if _ then Except.ok (Instr.fcvt gd gs1 (cut (encT 30 gd gs1 (cat sat dst 5) (src.setWidth 5)).gs3 0 4)
    (cut (cat sat dst 5) 4 1) (cut (cat sat dst 5) 0 4)) else _) = _
  rw [encT_gs3]
  refine (if_pos (narrow_lt src (by omega))).trans ?_
  rw [cut_narrow src (by omega), cat_hi _ _ (by omega),
    cat_lo _ _ (by omega)]
theorem powerOn : Statement (.powerOn) := nofun
theorem carrierReset : Statement (.carrierReset) := nofun
theorem startWatchdog : Statement (.startWatchdog) := nofun
theorem governorWindow : Statement (.governorWindow) := nofun
theorem levelStepDone : Statement (.levelStepDone) := nofun
theorem nrctlWrite : Statement (.nrctlWrite) := nofun
theorem limiterSample : Statement (.limiterSample) := nofun
theorem thermalLimit : Statement (.thermalLimit) := nofun
theorem thermalPreempt : Statement (.thermalPreempt) := nofun
theorem thermalClear : Statement (.thermalClear) := nofun
theorem thermalShutdown : Statement (.thermalShutdown) := nofun
theorem sliceScrub : Statement (.sliceScrub) := nofun
theorem hbmRowScrub : Statement (.hbmRowScrub) := nofun
theorem crossingFail : Statement (.crossingFail) := nofun
theorem groupReceive : Statement (.groupReceive) := nofun
theorem laneLockLoss : Statement (.laneLockLoss) := nofun
theorem retrainEnd : Statement (.retrainEnd) := nofun
theorem fpctlEn : Statement (.fpctlEn) := nofun
theorem fpctlDown : Statement (.fpctlDown) := nofun
theorem fshareWrite : Statement (.fshareWrite) := nofun
theorem hshareWrite : Statement (.hshareWrite) := nofun
theorem sshareWrite : Statement (.sshareWrite) := nofun
theorem enforcementWindow : Statement (.enforcementWindow) := nofun
theorem fabricPacket : Statement (.fabricPacket) := nofun
theorem memoryRead : Statement (.memoryRead) := nofun
theorem memoryWrite : Statement (.memoryWrite) := nofun
theorem cellRequest : Statement (.cellRequest) := nofun
theorem hostCancel : Statement (.hostCancel) := nofun
theorem unsupportedRequest : Statement (.unsupportedRequest) := nofun
theorem streamRequestIssue : Statement (.streamRequestIssue) := nofun
theorem eventRecordSend : Statement (.eventRecordSend) := nofun
theorem attachQueue : Statement (.attachQueue) := nofun
theorem detachQueue : Statement (.detachQueue) := nofun
theorem resetQueue : Statement (.resetQueue) := nofun
theorem setStream : Statement (.setStream) := nofun
theorem negotiate : Statement (.negotiate) := nofun
theorem readCap : Statement (.readCap) := nofun
theorem readStart : Statement (.readStart) := nofun
theorem clearStart : Statement (.clearStart) := nofun
theorem selectSlot : Statement (.selectSlot) := nofun
theorem attest : Statement (.attest) := nofun
theorem relocate : Statement (.relocate) := nofun
theorem setSetup : Statement (.setSetup) := nofun
theorem queueAgentPop : Statement (.queueAgentPop) := nofun
theorem launch : Statement (.launch) := nofun
theorem wait : Statement (.wait) := nofun
theorem signal : Statement (.signal) := nofun
theorem write : Statement (.write) := nofun
theorem event : Statement (.event) := nofun
theorem nop : Statement (.nop) := nofun
theorem launchReady : Statement (.launchReady) := nofun
theorem placeGrid : Statement (.placeGrid) := nofun
theorem coreSetup : Statement (.coreSetup) := nofun
theorem dealTask : Statement (.dealTask) := nofun
theorem footprintCopy : Statement (.footprintCopy) := nofun
theorem triggerRelease : Statement (.triggerRelease) := nofun
theorem completionRelease : Statement (.completionRelease) := nofun
theorem taskSelect : Statement (.taskSelect) := nofun
theorem taskStart : Statement (.taskStart) := nofun
theorem messageArrival : Statement (.messageArrival) := nofun
theorem messageReady : Statement (.messageReady) := nofun
theorem annexStart : Statement (.annexStart) := nofun
theorem stealRequest : Statement (.stealRequest) := nofun
theorem stealRetry : Statement (.stealRetry) := nofun
theorem migrateArrival : Statement (.migrateArrival) := nofun
theorem callSlip : Statement (.callSlip) := nofun
theorem rcallReply : Statement (.rcallReply) := nofun
theorem yieldExpiry : Statement (.yieldExpiry) := nofun
theorem memoryReply : Statement (.memoryReply) := nofun
theorem storeAck : Statement (.storeAck) := nofun
theorem postedTimeout : Statement (.postedTimeout) := nofun
theorem replyDeadline : Statement (.replyDeadline) := nofun
theorem elMaterialise : Statement (.elMaterialise) := nofun
theorem registerImageWrite : Statement (.registerImageWrite) := nofun
theorem hlinWrite : Statement (.hlinWrite) := nofun
theorem ctxbaseWrite : Statement (.ctxbaseWrite) := nofun
theorem eltabWrite : Statement (.eltabWrite) := nofun
theorem rtabWrite : Statement (.rtabWrite) := nofun
theorem xctlWrite : Statement (.xctlWrite) := nofun
theorem mqctlWrite : Statement (.mqctlWrite) := nofun
theorem muDoorbell : Statement (.muDoorbell) := nofun
theorem copyDoorbell : Statement (.copyDoorbell) := nofun
theorem vectorDoorbell : Statement (.vectorDoorbell) := nofun
theorem carouselDescriptorWrite : Statement (.carouselDescriptorWrite) := nofun
theorem registerWrite : Statement (.registerWrite) := nofun
theorem query : Statement (.query) := nofun
theorem free : Statement (.free) := nofun
theorem init : Statement (.init) := nofun
theorem cadd : Statement (.cadd) := nofun
theorem cwait : Statement (.cwait) := nofun
theorem carm : Statement (.carm) := nofun
theorem cdisarm : Statement (.cdisarm) := nofun
theorem barrive : Statement (.barrive) := nofun
theorem bwait : Statement (.bwait) := nofun
theorem bsync : Statement (.bsync) := nofun
theorem bpendadd : Statement (.bpendadd) := nofun
theorem bpendsub : Statement (.bpendsub) := nofun
theorem lacq : Statement (.lacq) := nofun
theorem ltry : Statement (.ltry) := nofun
theorem lrel : Statement (.lrel) := nofun
theorem qpush : Statement (.qpush) := nofun
theorem qpop : Statement (.qpop) := nofun
theorem qtrypush : Statement (.qtrypush) := nofun
theorem qtrypop : Statement (.qtrypop) := nofun
theorem vwait : Statement (.vwait) := nofun
theorem vsignal : Statement (.vsignal) := nofun
theorem vbcast : Statement (.vbcast) := nofun
theorem result : Statement (.result) := nofun
theorem wake : Statement (.wake) := nofun
theorem boost : Statement (.boost) := nofun
theorem expire : Statement (.expire) := nofun
theorem prioset : Statement (.prioset) := nofun
theorem cancel : Statement (.cancel) := nofun
theorem censusreq : Statement (.censusreq) := nofun
theorem census : Statement (.census) := nofun
theorem censusEntryTimeout : Statement (.censusEntryTimeout) := nofun
theorem deskResend : Statement (.deskResend) := nofun
theorem muStep : Statement (.muStep) := nofun
theorem drainClose : Statement (.drainClose) := nofun
theorem vectorCommand : Statement (.vectorCommand) := nofun
theorem copyChunk : Statement (.copyChunk) := nofun
theorem streamElement : Statement (.streamElement) := nofun
theorem xuProduct : Statement (.xuProduct) := nofun
theorem xprogRow : Statement (.xprogRow) := nofun
theorem xcalStep : Statement (.xcalStep) := nofun
theorem rowOpComplete : Statement (.rowOpComplete) := nofun
theorem preemptBoundary : Statement (.preemptBoundary) := nofun
theorem saveComplete : Statement (.saveComplete) := nofun
theorem powerLoss : Statement (.powerLoss) := nofun
theorem softError : Statement (.softError) := nofun
theorem illegalInstruction : Statement (.illegalInstruction) := nofun
theorem overlayTrap : Statement (.overlayTrap) := nofun
theorem thermalLimitExit : Statement (.thermalLimitExit) := nofun

end Sys2Proof.Laws.Encoding
end

