-- ==== Sys2Proof/Tests/Slice0.lean ====
section
/-! SUPPORT. Tests: ill-formed instructions that the checks refuse, words written out from the encoding tables, single steps on small
states with results calculated by hand from the rules, and for each statement states that meet its conditions. -/

namespace Sys2Proof.Tests

open Sys2Proof Sys2Proof.Machine

/-! The theorems are checked one after another: each evaluates a state in the kernel. -/

set_option Elab.async false

/-! ## Small states -/

/-- A device that is up, in which the slot `k` issues with values in its registers. -/
def bench (k : Nat) (regs : List (Nat × Reg)) : State :=
  { cur := k, phase := .up, slots := [(k, { st := .running, regs := regs, task := some { kind := 0, cls := 1, prio := 2, grid := 1 } })],
    cores := [(coreOf k, { grid := some 1, xbound := 1024 })],
    grids := [(1, { num := 1, st := .running, gw := 1, rects := [(coreX (coreOf k), coreY (coreOf k))],
                    node := { bw := 1, bh := 1, gw := 1, gh := 1, stages := 1, tasks := 1 } })] }

/-- Exact data of 64 bits and more. -/
def num (n : Nat) : Reg := ⟨BitVec.ofNat 128 n, .exact⟩

/-- A capability with every permission over `len` bytes from a base. -/
def capOn (base len : Nat) : Reg := ⟨makeCap base base len 0x1FF, .cap⟩

/-- What a state answers, or reset where it stops. -/
def after (a : Answered) : State :=
  match a with
  | .next s => s
  | _ => State.reset

/-! ## Well-formedness: for each check a term that it refuses -/

theorem test_ill_formed : ∀ i ∈ ([.pref 0 1 0 2, .afadd 0 2 1 2 3, .aswap 0 3 1 2 3, .acas64 0 1 2 31, .acas128 0 1 2 31, .acas128 0 0 2 4,
    .acas128 0 31 2 4, .aand 0 2 1 2 3, .aor 0 3 1 2 3, .axor 0 2 1 2 3, .cget 0 1 2 7, .barInit 1 2 0, .barInit 1 2 31, .queInit 1 2 31,
    .cellQuery 0 1 2 2, .mrec 0 0 6 0 1, .copy 0 29 1, .copy2d 0 28 1, .gather 0 28 1, .scatter 0 28 1, .fill 0 29 1, .vcvt 0 1 2 0 7,
    .fork 0 1 2 0, .fork 0 1 2 30, .spawn 9 1 2 3, .spawn 0 1 2 3, .send 2 1 31, .send 0 1 5, .lbsend 1 2 31 4, .lbsend 9 2 3 4,
    .rcall 8 0 1 2 3, .rcall 0 0 0 2 3, .rcall 0 0 1 30 3, .rcall 7 0 1 2 25, .rpost 8 1 2, .rpost 0 30 2, .rreply 4 5, .rreply 3 29,
    .catset 0 1 17, .gpos 0 1 2, .crrd 0 1 28, .crwr 0 1 2 28, .crset 0 1 2 6, .crset 0 1 2 19, .crclr 0 1 2 8, .crclr 0 1 2 18,
    .evrd 0 1 16, .mmaNi 0 0 0 1 2, .fcvt 1 2 7 0 0, .fcvt 1 2 0 0 7, .fcvt 1 2 1 0 2, .fcvt 1 2 0 1 0] : List Instr),
    i.wellFormed = false := by decide

theorem test_well_formed : ∀ i ∈ ([.pref 0 1 0 1, .aswap 0 2 1 2 3, .acas128 0 1 2 30, .cget 0 1 2 6, .barInit 1 2 30, .fork 0 1 2 29,
    .spawn 8 1 2 24, .spawn 0 1 2 0, .rcall 7 3 28 29 24, .rreply 3 28, .catset 0 1 16, .crwr 0 1 2 27, .mmaNi 0 7 0 1 2,
    .fcvt 1 2 0 1 4] : List Instr), i.wellFormed = true := by decide

/-! ## Decoding: words of the worked examples of spec/16 to spec/21, and words written out field by field -/

theorem test_decode_integer : decodeWord 0x00C58533#32 = .ok (.add 10 11 12) ∧ decodeWord 0x40C58533#32 = .ok (.sub 10 11 12) ∧
    decodeWord 0xFFF28293#32 = .ok (.addi 5 5 0xFFF) ∧ decodeWord 0x43F2D293#32 = .ok (.srai 5 5 63) ∧
    decodeWord 0x02C5C533#32 = .ok (.div 10 11 12) ∧ decodeWord 0x000122B7#32 = .ok (.lui 5 0x12) := by decide

theorem test_decode_control : decodeWord 0xFE629CE3#32 = .ok (.bne 5 6 0xFFC) ∧ decodeWord 0x008000EF#32 = .ok (.jal 1 4) ∧
    decodeWord 0x00008067#32 = .ok (.jalr 0 1 0) := by decide

theorem test_decode_float : decodeWord 0x3C62827B#32 = .ok (.fmaddS 4 5 6 7) ∧ decodeWord 0x073362FB#32 = .ok (.fcvt 5 6 0 1 3) ∧
    decodeWord 0x063362FB#32 = .ok (.fcvt 5 6 0 0 3) := by decide

theorem test_decode_memory : decodeWord 0x3053E28B#32 = .ok (.ldlI64 3 5 7 5) ∧ decodeWord 0x1263A18B#32 = .ok (.stlI32 1 7 6 3) ∧
    decodeWord 0x0102B383#32 = .ok (.ldI64 7 5 16) ∧ decodeWord 0x0062B823#32 = .ok (.stI64 6 5 16) := by decide

theorem test_decode_atomic : (decodeWord 0xC6C4350B#32).toOption.isSome = true ∧ (decodeWord 0x0414C00B#32).toOption = some (.fenceRel 0 9) := by
  decide

theorem test_decode_capability : decodeWord 0x08A4E40B#32 = .ok (.csetbnd 0 8 9 10) := by decide

theorem test_decode_cells : decodeWord 0x0A73428B#32 = .ok (.cntAdd 0 5 6 7) ∧ decodeWord 0x0A03528B#32 = .ok (.cntWait 0 5 6) := by decide

theorem test_decode_tasks : decodeWord 0x0104825B#32 = .ok (.fork 0 4 9 16) ∧ decodeWord 0x040232DB#32 = .ok (.bind 0 5 4) ∧
    (match decodeWord 0x2306155B#32 with
      | .ok (.rcall ..) => true
      | _ => false) = true := by decide

theorem test_decode_system : decodeWord 0x087312DB#32 = .ok (.crwr 0 5 6 7) ∧ decodeWord 0x0800405B#32 = .ok (.tret 0) ∧
    decodeWord 0x0AB502DB#32 = .ok (.tdrain 0 5 10 11) ∧ decodeWord 0x00000073#32 = .ok .ecall ∧
    decodeWord 0x00100073#32 = .ok .ebreak := by decide

theorem test_decode_engines : decodeWord 0x2483A32B#32 = .ok (.xmvm 2 6 7 8) ∧ decodeWord 0x040342AB#32 = .ok (.accept 0 5 6) ∧
    decodeWord 0x0346002B#32 = .ok (.copy 0 12 20) ∧ (match decodeWord 0x483140FB#32, decodeWord 0x4A10037B#32 with
      | .ok (.mmaH ..), .ok (.mmaNi ..) => true
      | _, _ => false) = true := by decide

theorem test_decode_bank : decodeWord 0x0F18628B#32 = .ok (.rowop 0 5 16 17) := by decide

/-- A word is refused. -/
def refused (w : Word32) : Bool :=
  match decodeWord w with
  | .ok _ => false
  | .error _ => true

theorem test_decode_illegal : refused 0x00000000#32 = true ∧ refused 0x00004501#32 = true ∧ refused 0x0800C05B#32 = true ∧
    refused 0x0000200F#32 = true ∧ refused 0x04000033#32 = true ∧ refused 0x8002D293#32 = true := by decide

/-! ## States that meet the conditions of the statements -/

/-- Register values of the tests. -/
def regs : List (Nat × Reg) :=
  [(1, num 0x40), (4, num 0x11), (5, num 7), (6, num 9), (7, ⟨3, .bounded⟩), (8, capOn 0x100000 0x1000), (9, capOn 0x40000100 0x1000),
    (10, capOn (localVA 0x10000) 0x1000), (11, ⟨(capOn 0x100 0x100).data ||| BitVec.ofNat 128 (2 ^ 121), .sealed⟩),
    (12, capOn (2 ^ 63 + 5 * 2 ^ 50 + 0x1000) 0x1000)]

/-- A device of one core in a grid, with the first 2 GiB mapped: a page for plain accesses and one for atomics. -/
def lab : State :=
  ((((bench 4 regs).store 0 (bytesOf 8 0x1001)).store 0x1000 (bytesOf 8 0x2001)).store 0x2000 (bytesOf 8 0x3001)).store 0x3000
    (bytesOf 8 0x1F ++ bytesOf 8 0x4000003F)

theorem witness_EncodeThenDecode : Instr.wellFormed (.fmaddS 4 5 6 7) = true ∧ encode (.fmaddS 4 5 6 7) = some 0x3C62827B#32 := by decide

theorem witness_DecodeThenEncode : decodeWord 0x3C62827B#32 = .ok (.fmaddS 4 5 6 7) := by decide

/-- The device about to fetch a word. -/
def fetching (w : Nat) : State := lab.withFetchWord 32 w

theorem witness_StepRunsDecoded : ∀ w ∈ [0x00C58533, 0], (fetching w).powered = true ∧ (fetching w).tick.nextSlots = [4] ∧
    (fetching w).tick.agenda = [] ∧
    (let u := ({ (fetching w).tick with
        cur := 4, next := 2, issued := put (fetching w).tick.issued 1 0, waited := false, eventTurn := true } : State).passDone 4 16
     u.flips = [] ∧ isBankSlot 4 = false ∧ (u.slot 4).pc.toNat < u.codeEnd 1 ∧ (u.slot 4).pc.toNat % 4 = 0 ∧
     (u.granule (windowPA 1 (u.slot 4).pc.toNat)).poison = false ∧ bytesOf 4 w = u.bytes (windowPA 1 (u.slot 4).pc.toNat) 4) := by
  decide +kernel

theorem witness_StepRunsDecoded_event : ({ State.reset with agenda := [.thermalClear] } : State).tick.agenda = .thermalClear :: [] ∧
    ({ State.reset with agenda := [.thermalClear] } : State).tick.nextSlots = [] := by decide +kernel

theorem test_shake256 : (shake256 []).take 4 = [0x46, 0xB9, 0xDD, 0x2B] := by decide +kernel

theorem witness_MemoryStaysCanonical : lab.MemoryCanonical ∧ ∃ t : State, lab.StepsTo t := ⟨by decide +kernel, _, rfl⟩

/-! ### Integer computation, memory and floating point -/

/-- The value of a computation that succeeds. -/
def okOr {ε α : Type} (d : α) : Except ε α → α
  | .ok a => a
  | .error _ => d

theorem ok_eq {ε α : Type} {d : α} {x : Except ε α} (h : x.toBool = true) : x = .ok (okOr d x) := by
  cases x with
  | ok _ => rfl
  | error _ => cases h

/-- A computation succeeds with a value and a state of a property. -/
def yields {ε α : Type} (x : Except ε (α × State)) (p : α → State → Bool) : Bool :=
  match x with
  | .ok a => p a.1 a.2
  | .error _ => false

/-- The device of `lab` with more register values. -/
def labWith (l : List (Nat × Reg)) : State := { lab with slots := lab.slots.map fun e => (e.1, { e.2 with regs := l ++ e.2.regs }) }

/-- The same strand at another slot: the annex thread of its core, a service core, a bank unit. -/
def atSlot (k : Nat) (l : List (Nat × Reg)) : State := { bench k (l ++ regs) with mem := lab.mem }

theorem witness_RegisterArithmetic : lab.Readable 5 ∧ lab.Readable 7 ∧ lab.Writable 4 ∧ lab.Writable 0 ∧ (lab.value 7).tag = .bounded := by
  simp only [State.Readable, State.Writable]; decide +kernel

theorem witness_ImmediateArithmetic : ((4 : RegNo) ≠ 0 → lab.Readable 7 ∧ lab.Writable 4) ∧
    ((0 : RegNo) ≠ 0 → lab.Readable 31 ∧ lab.Writable 0) := by
  simp only [State.Readable, State.Writable]; decide +kernel

theorem witness_ConditionalBranches : lab.Readable 5 ∧ lab.Readable 6 ∧ (lab.value 5).tag ≠ .bounded ∧ (lab.value 6).tag ≠ .bounded ∧
    (lab.value 7).tag = .bounded ∧ (lab.here.pc + BitVec.ofInt 64 (2 * (1 : BitVec 12).toInt) : Word64).getLsbD 1 = true ∧
    isBankSlot lab.cur = false ∧ (atSlot 65536 []).here.pc + 4 ≠ 0 ∧ encode (.beq 1 2 0x800) ≠ none ∧
    (0x00002063#32).toNat % 128 = 0x63 ∧ (0x00002063#32).toNat / 2 ^ 12 % 8 = 2 := by
  simp only [State.Readable]; decide +kernel

theorem witness_JumpsLink : lab.Writable 1 ∧ lab.Readable 5 ∧ encode (.jal 1 0x80000) ≠ none ∧
    ((lab.value 1).tag, (lab.value 7).tag, (lab.value 8).tag, (lab.value 11).tag) = (.exact, .bounded, .cap, .sealed) ∧
    hasPerm (lab.value 8).data permX = true ∧ inBounds (lab.value 8).data (0x100000 + 0xFFC) 4 = true ∧
    hasPerm (lab.value 11).data permS = true ∧ inBounds (lab.value 11).data 0x100 4 = true := by
  simp only [State.Readable, State.Writable]; decide +kernel

theorem witness_CapabilityResults : lab.Readable 8 ∧ lab.Readable 5 ∧ lab.Writable 3 ∧ (lab.value 8).tag = .cap ∧
    (lab.value 5).tag = .exact ∧ (lab.value 7).tag = .bounded ∧ (lab.value 11).tag = .sealed ∧ decodeBounds (lab.value 8).data ≠ none ∧
    7 ≤ (7 : BitVec 5).toNat ∧ encode (.cget 0 1 2 7) ≠ none := by
  simp only [State.Readable, State.Writable]; decide +kernel

theorem witness_LoadsExtend : lab.Readable 8 ∧ lab.Writable 3 ∧ lab.BaseOk 8 (lab.address 8 0xFFC) 4 0 [permR] ∧
    (∃ parts u, lab.Finds .read 8 (lab.address 8 0xFFC) 4 parts u) ∧ lab.BaseOk 8 (lab.address 8 16) 16 16 [permR] ∧
    ∃ parts u, lab.Finds .read 8 (lab.address 8 16) 16 parts u := by
  refine ⟨?_, ?_, ?_, ⟨_, _, by decide +kernel, ok_eq (d := ([], lab)) (by decide +kernel)⟩, ?_,
    ⟨_, _, by decide +kernel, ok_eq (d := ([], lab)) (by decide +kernel)⟩⟩ <;>
    (simp only [State.Readable, State.Writable, State.BaseOk]; decide +kernel)

theorem witness_StoresWrite : lab.Readable 8 ∧ lab.Readable 5 ∧ (lab.value 5).tag ≠ .bounded ∧ (lab.value 7).tag = .bounded ∧
    lab.BaseOk 8 (lab.address 8 0xFF8) 8 0 [permW] ∧ (∃ parts u, lab.Finds .write 8 (lab.address 8 0xFF8) 8 parts u) ∧
    lab.BaseOk 8 (lab.address 8 16) 16 16 [permW, permSC] ∧ ∃ parts u, lab.Finds .write 8 (lab.address 8 16) 16 parts u := by
  refine ⟨?_, ?_, ?_, ?_, ?_, ⟨_, _, by decide +kernel, ok_eq (d := ([], lab)) (by decide +kernel)⟩, ?_,
    ⟨_, _, by decide +kernel, ok_eq (d := ([], lab)) (by decide +kernel)⟩⟩ <;>
    (try simp only [State.Readable, State.BaseOk]) <;> decide +kernel

/-- A load of the strand is outstanding, or a store of it is posted. -/
def loading : State := { lab with cores := [(1, { grid := some 1, xbound := 1024, board := [⟨0, 4, 20, 1, .load 8 false false, 0, 0, 0⟩] })] }
def posting : State := { lab with cores := [(1, { grid := some 1, xbound := 1024, posted := [{ id := 0, slot := 4, grid := 1, addr := 0, pc := 0 }] })] }

theorem witness_AcquireRelease : lab.Readable 8 ∧ lab.Readable 5 ∧ lab.Writable 5 ∧ isBankSlot lab.cur = false ∧
    lab.postsOpen 4 = false ∧ lab.readsOpen 4 = false ∧ posting.Readable 8 ∧ posting.postsOpen 4 = true ∧ loading.Readable 8 ∧
    loading.readsOpen 4 = true ∧ (lab.value 5).tag ≠ .bounded ∧ lab.BaseOk 8 (lab.address 8 0xFF0) 16 16 [permR] := by
  simp only [State.Readable, State.Writable, State.BaseOk]; decide +kernel

theorem witness_StoresKeepOtherMemory : lab.Readable 8 ∧ lab.Readable 5 ∧ isFabric (lab.address 8 (immI 3)) = false ∧
    (∃ t, exec (.stI8 5 8 3) lab = .next t) ∧ (after (exec (.stI8 5 8 3) lab)).byte 0x100003 ≠ lab.byte 0x100003 := by
  refine ⟨?_, ?_, ?_, ⟨after (exec (.stI8 5 8 3) lab), rfl⟩, ?_⟩ <;> (try simp only [State.Readable]) <;> decide +kernel

theorem witness_AtomicsUpdate : lab.Readable 9 ∧ lab.Readable 5 ∧ lab.Writable 3 ∧ (lab.value 5).tag ≠ .bounded ∧
    (∀ n ∈ [4, 8, 16], lab.BaseOk 9 (lab.address 9 0) n n [permR, permW] ∧
      yields (findParts .atomic (acqOf (lab.value 9)) (partsOf (lab.address 9 0) n) lab) (fun parts u =>
        parts == [(.mem 0x40000100, n)] && !u.typedAt (.mem 0x40000100) n && !(u.readSpot (.mem 0x40000100) n).poison) = true) ∧ isFabric (lab.address 9 0) = false ∧ lab.flips = [] ∧ isBankSlot lab.cur = false ∧
    lab.readsOpen 4 = false ∧ lab.postsOpen 4 = false ∧ loading.readsOpen 4 = true ∧ posting.postsOpen 4 = true := by
  simp only [State.Readable, State.Writable, State.BaseOk]; decide +kernel

theorem witness_CompareAndSwap : (5 : RegNo).toNat < 31 ∧ lab.Readable 9 ∧ lab.Readable 5 ∧ lab.Readable 6 ∧ lab.Writable 3 ∧
    lab.Writable 4 ∧ (lab.value 5).tag ≠ .bounded ∧ (lab.value 6).tag ≠ .bounded ∧ lab.flips = [] ∧
    (30 : RegNo).toNat < 31 ∧ lab.Readable 30 ∧ lab.Readable 31 ∧
    ∀ n ∈ [8, 16], lab.BaseOk 9 (lab.address 9 0) n n [permR, permW] ∧
      yields (findParts .atomic (acqOf (lab.value 9)) (partsOf (lab.address 9 0) n) lab) (fun parts u =>
        parts == [(.mem 0x40000100, n)] && !u.typedAt (.mem 0x40000100) n && !(u.readSpot (.mem 0x40000100) n).poison &&
          u.num 0x40000100 n != (lab.value 5).data.toNat && u.num 0x40000100 n == (lab.value 30).data.toNat) = true := by
  simp only [State.Readable, State.Writable, State.BaseOk]; decide +kernel

theorem witness_FencesAndPins : lab.Readable 5 ∧ isBankSlot lab.cur = false ∧ (lab.value 5).tag ≠ .bounded ∧
    scopeOf (lab.value 5).data = none ∧ (∀ r ∈ [(0 : RegNo), 13], (scopeOf ((labWith [(13, num (2 ^ 65))]).value r).data).isSome = true) ∧
    lab.readsOpen 4 = false ∧ loading.readsOpen 4 = true ∧ posting.postsOpen 4 = true ∧ levelOf lab.cur ∈ onCores ∧ lab.Readable 8 ∧
    lab.Writable 3 ∧ (lab.value 8).tag ≠ .bounded ∧ lab.BaseOk 8 (lab.address 8 (BitVec.ofNat 64 (31 * 128))) 1 0 [permR] ∧
    yields (findParts .read (acqOf (lab.value 8)) (partsOf (lab.address 8 (BitVec.ofNat 64 (31 * 128))) 1) lab) (fun parts u =>
      parts == [(.mem (0x100000 + 31 * 128), 1)] && match u.walk (u.ctxOf u.cur) (0x100000 + 31 * 128) with
        | .leaf l _ => !l.at_
        | _ => false) = true ∧ 0x100000 + 31 * 128 < hbmEnd := by
  simp only [State.Readable, State.Writable, State.BaseOk]; decide +kernel

/-- A device with a port that is up and a capability for another device. -/
def farLab (dev : Nat) : State := { labWith [(13, capOn (2 ^ 63 + dev * 2 ^ 50 + 0x1000) 0x1000)] with ports := [(5, { fpctl := 9 })] }

theorem witness_RemoteAccessesSend : (∃ dev ∈ [5, 6], dev ≠ thisDevice) ∧ ∀ dev ∈ [5, 6], let s := farLab dev
    regionOfVA (s.address 13 (immI 0x7F8)) = .fabric dev 0x17F8 ∧ s.upPorts ≠ [] ∧ s.Readable 13 ∧
    s.BaseOk 13 (s.address 13 (immI 0x7F8)) 8 0 [permR] ∧ s.BaseOk 13 (s.address 13 (immI 0x7F8)) 8 0 [permW] ∧ s.Writable 4 ∧
    s.Readable 5 ∧ (s.value 5).tag ≠ .bounded ∧ (s.hereCore.board.map (·.id)).length < 64 ∧
    (s.hereCore.posted.map (·.id)).length < 256 ∧ s.here.stbar.tag ≠ .cap := by
  refine ⟨?_, ?_⟩
  · by_cases h : thisDevice = 5
    · exact ⟨6, by decide, by omega⟩
    · exact ⟨5, by decide, fun e => h e.symm⟩
  · simp only [State.Readable, State.Writable, State.BaseOk]; decide +kernel

theorem witness_FloatResults : levelOf lab.cur ∈ onCores ∧ lab.Readable 5 ∧ lab.Readable 6 ∧ lab.Readable 7 ∧ lab.Writable 0 := by
  simp only [State.Readable, State.Writable]; decide +kernel

theorem witness_FloatConversion : levelOf lab.cur ∈ onCores ∧ lab.Readable 7 ∧ lab.Writable 3 := by
  simp only [State.Readable, State.Writable]; decide +kernel

/-! ### Typed cells -/

/-- A cell of a type at 0x100000, with its image. -/
def cell (ty image : Nat) : State := (lab.store 0x100000 (bytesOf 32 image)).onGranule 0x100000 fun g => { g with ctype := ty }

/-- A strand of grid 1, of whatever device, and another one of its core. -/
def self : Waiter := { dev := 5, kind := 1, grid := 1 }
def other : Waiter := { self with slot := 1 }
def ask : DeskReq := { pa := 0x100000, va := 0x100000, who := self, seq := 5, prio := 2 }
def hold (op : DeskOp) (key : Nat) : Hold := { pa := 0x100000, who := other, op := op, prio := 2, seq := 6, key := key }

theorem cellAt_of {s : State} {op : DeskOp} {base : RegNo} {pa : Nat} (u : State)
    (hu : s.findCell (s.agentOf s.cur) (capAddr (s.value base).data) op = (.cell pa, u))
    (h : levelOf s.cur ∈ (if op.canHold then holders else everywhere) ∧ regionOfVA (capAddr (s.value base).data) = .translated)
    (hb : s.BaseOk base (capAddr (s.value base).data) 32 32 [permOBJ])
    (h2 : (u.granule pa).poison = false ∧ u.readsOpen u.cur = false ∧ u.postsOpen u.cur = false ∧ u.here.unsent = 0 ∧ u.coming = []) :
    s.CellAt op base pa u :=
  ⟨h.1, hb, h.2, hu, h2.1, fun _ => ⟨h2.2.1, h2.2.2.1⟩, h2.2.2.2.1, fun r hr => by rw [h2.2.2.2.2] at hr; cases hr⟩

theorem witness_CellInstructions : (lab.Readable 8 ∧ lab.Readable 5 ∧ (lab.value 5).tag ≠ .bounded ∧ lab.Writable 4) ∧
    ∀ op ∈ [DeskOp.init, .free, .query, .cadd, .cwait, .cdisarm, .barrive, .bwait, .bsync, .lacq, .ltry, .lrel, .vsignal, .vbcast],
      ∃ u, (cell 1 5).CellAt op 8 0x100000 u := by
  refine ⟨by simp only [State.Readable, State.Writable]; decide +kernel, fun op h =>
    ⟨((cell 1 5).findCell ((cell 1 5).agentOf 4) 0x100000 op).2, cellAt_of _ ?_ ?_ ?_ ?_⟩⟩ <;>
    (revert op; try simp only [State.BaseOk]) <;> decide +kernel

/-- Registers with the second operands of typed-cell instructions: a barrier's word, a rectangle, a ring and its word, a capability for a
handler's record, an element, a lock. -/
def ops_ : List (Nat × Reg) :=
  [(13, num (2 ^ 48 + 3)), (14, num 0), (15, capOn 0x100200 0x100), (16, num (4 + 1 * 2 ^ 16)), (17, capOn 0x100400 0x40),
    (18, capOn 0x100300 0x20), (19, capOn 0x100500 0x10), (20, num 0x85)]

/-- An empty ring of four elements of 16 bytes, and one that holds an element. -/
def ring : Nat := 0x100200 + 4 * 2 ^ 128 + 1 * 2 ^ 144
def ringOne : Nat := ring + 2 ^ 96
def operands (ty image : Nat) : State := { labWith ops_ with mem := (cell ty image).mem, granules := ((cell ty image).onGranule 0x100300 fun g => { g with ctype := 3 }).granules }

theorem witness_CellOperands : (∀ r ∈ [(5 : RegNo), 13, 15, 17, 19, 18], (operands 4 ring).Readable 8 ∧ (operands 4 ring).Readable r ∧
      ((operands 4 ring).value r).tag ≠ .bounded ∧ (operands 4 ring).Writable 4) ∧
    (bit ((operands 4 ring).value 5).data.toNat 48 = false ∧ bit ((operands 4 ring).value 13).data.toNat 48 = true ∧
      scopeOf ((operands 4 ring).value 14).data = some (.rect 0 0 0 0) ∧ (operands 4 ring).BaseOk 15 0x100200 64 0 [permR, permW] ∧
      (operands 4 ring).BaseOk 17 0x100400 64 64 [permR] ∧ bit ((operands 4 ring).value 20).data.toNat 7 = true ∧
      ((operands 4 ring).gridCore 1 0 0).isSome = true ∧ areaLength ((operands 4 ring).value 19) = 16 ∧
      (operands 4 ring).here.popped = none ∧ (operands 4 ring).BaseOk 19 0x100500 16 8 [permR] ∧
      (operands 4 ring).BaseOk 19 0x100500 16 8 [permW] ∧ (operands 5 0).BaseOk 18 0x100300 32 32 [permOBJ]) ∧
    (yields (fetch ((operands 4 ring).value 19) 0x100500 16 0 [permR] .read (operands 4 ring)) (fun f _ => match f with
        | .got g => !g.bnd
        | _ => false) = true) ∧
    ((operands 5 0).findCell ((operands 5 0).agentOf 4) 0x100300 .lrel).1 = .cell 0x100300 ∧
    (let (o, t) := (operands 4 ringOne).drawn.desk .qpop ((operands 4 ringOne).cellRequest { elen := 16 } 0x100000 0x100000)
     o = .done 0 0 (List.replicate 16 0) ∧
      yields (storeAt ((operands 4 ring).value 19) 0x100500 (List.replicate 16 0) .plain 0 [permW] false
        ((t.onHere fun sl => { sl with popped := none }).onHere fun sl => { sl with popped := some (List.replicate 16 0) })) (fun _ _ => true) = true) ∧
    ∀ op ∈ [DeskOp.init, .carm, .qpush, .qtrypush, .qpop, .qtrypop, .vwait], ∃ u, (operands 4 ring).CellAt op 8 0x100000 u := by
  refine ⟨by simp only [State.Readable, State.Writable]; decide +kernel, by simp only [State.BaseOk]; decide +kernel, by decide +kernel,
    by decide +kernel, by decide +kernel, fun op h =>
    ⟨((operands 4 ring).findCell ((operands 4 ring).agentOf 4) 0x100000 op).2, cellAt_of _ ?_ ?_ ?_ ?_⟩⟩ <;>
    (revert op; try simp only [State.BaseOk]) <;> decide +kernel

/-- A lock whose owner is the requester, and one with a strand that holds. -/
def owned : Nat := 1 + ask.who.word * 2 ^ 64
def withHold (s : State) (op : DeskOp) (key : Nat) : State := { s with holds := [hold op key] }

theorem witness_CountersAndLocks : ask.pa % 32 = 0 ∧ (cell 1 5).flips = [] ∧ (cell 1 5).cellType 0x100000 = 1 ∧
    (cell 3 owned).cellType 0x100000 = 3 ∧ ask.who.kind ≠ 0 ∧ bits ((cell 3 owned).image 0x100000) 127 64 = ask.who.word ∧
    bits ((cell 3 owned).image 0x100000) 129 128 = ask.who.slot % 4 ∧
    (withHold (cell 3 owned) .lacq 1).holds.find? (fun h => h.pa = 0x100000 && h.op == .lacq && h.key = 1) = some (hold .lacq 1) ∧
    (hold .lacq 1).void = false ∧ (hold .lacq 1).cond = none ∧
    (cell 1 5).listUsed ((cell 1 5).homeCluster 0x100000) + 1 ≤ 256 := by decide +kernel

theorem witness_BarriersQueuesConditions : (cell 2 2).flips = [] ∧ (cell 2 2).cellType 0x100000 = 2 ∧
    (cell 2 (2 ^ 32 + 2)).cellType 0x100000 = 2 ∧ (cell 2 2).censuses = [] ∧ (cell 4 ring).cellType 0x100000 = 4 ∧
    (8 * 2 ^ bits ((cell 4 ring).image 0x100000) 146 144, bits ((cell 4 ring).image 0x100000) 143 128) = (16, 4) ∧
    (withHold (cell 4 ring) .qpop 0).firstHold 0x100000 .qpop = some (hold .qpop 0) ∧ (cell 4 ring).firstHold 0x100000 .qpop = none ∧
    4 ≤ bits ((cell 4 (ring + 4 * 2 ^ 96)).image 0x100000) 127 96 ∧
    yields ((cell 4 ring).pushTail 0x100000 (List.replicate 16 7) |>.map fun u => ((), u)) (fun _ _ => true) = true ∧
    ((cell 4 ringOne).readElement ((cell 4 ringOne).deskActor 0x100000 0) (partsOf 0x100200 16)).1.toBool = true ∧
    (cell 5 0).cellType 0x100000 = 5 ∧ (cell 5 0).holdsOn 0x100000 = [] ∧ (withHold (cell 5 0x100300) .vwait 0).holdsOn 0x100000 = [hold .vwait 0] ∧
    (cell 1 5).newImage { ask with ctype := 1, n := 7 } = some 7 ∧ (cell 1 5).newImage { ask with ctype := 2 } = none ∧
    (cell 1 5).newImage { ask with ctype := 4, buf := 0x100200, cap := 4, esz := 1 } ≠ none ∧
    (cell 1 5).listUsed ((cell 1 5).homeCluster 0x100000) + 1 ≤ 256 := by decide +kernel

/-- A state whose present event is given, and one with a port that is up. -/
def given_ (e : Event) (s : State) : State := { s with input := e }
theorem given_input (e : Event) (s : State) : (given_ e s).input = e := rfl
def linked (s : State) : State := { s with ports := [(5, { fpctl := 9 })] }

theorem witness_DeskRequests : (∃ w : Waiter, w.dev = thisDevice) ∧ (∃ w : Waiter, w.dev ≠ thisDevice) ∧ (given_ (.cadd ask) (cell 1 5)).input = .cadd ask ∧
    ask.pa < 2 ^ 64 ∧ ask.acting = none ∧ (cell 1 5).cellParked 0x100000 = false ∧ ((cell 1 5).granule 0x100000).poison = false ∧
    (linked (cell 1 5)).upPorts ≠ [] ∧ ((cell 1 5).enterSlice 0 0x100000 32 |>.desk .cadd ask).1 = .done 0 5 [] ∧
    ((cell 1 5).enterSlice 0 0x100000 32 |>.desk .cwait ask).1 = .held ∧ ((cell 2 2).enterSlice 0 0x100000 32 |>.desk .bpendadd ask).1 = .done 0 0 [] :=
  ⟨⟨{ dev := thisDevice }, rfl⟩, ⟨{ dev := thisDevice + 1 }, Nat.succ_ne_self _⟩, rfl, by decide +kernel⟩

/-- The strand waits for the answer of a Desk. -/
def waiting : State := lab.onSlot 4 fun sl => { sl with st := .held, await := some (.cell 5 .cadd 3 0x100000 0x100000 none false 2) }
def answer : Answer := { who := self, seq := 5, op := .cadd, val := 7 }
def sent : Packet := { op := .cell .cadd ask, dst := 9 }

theorem witness_AnswersComplete : answer.task = none ∧ answer.who.kind = 1 ∧ waiting.isSaved answer.who = false ∧
    waiting.settling answer.who = false ∧ waiting.slotOf answer.who = some 4 ∧
    (waiting.slot 4).await = some (.cell answer.seq .cadd (3 : RegNo).toNat 0x100000 0x100000 none false 2) ∧
    ask.who = answer.who ∧ ask.seq = answer.seq ∧
    (({ linked lab with resend := [(ask.who, .fabricPacket sent)] } : State).resend.filter fun e => e.1 = ask.who) =
      [(ask.who, .fabricPacket sent)] ∧ (linked lab).upPorts ≠ [] := by decide +kernel

/-- A census of the counters 8 and 9 of one core, in progress. -/
def counting : State := { cell 2 (2 ^ 112 * 0x300) with
  censuses := [{ id := 3, pa := 0x100000, phase := 0, cmask := 0x300, total := 2, sums := [] }], combining := [⟨3, 7, 1, []⟩] }

theorem waiterGone_of {s : State} {w : Waiter} {g : Grid} (h : s.grid w.grid = some g) (e : (g.st == .ending) = false) :
    s.waiterGone w = false := by simp [State.waiterGone, h, e]

theorem witness_cancelled : ∃ w : Waiter, w.dev = thisDevice ∧ lab.waiterGone w = false :=
  ⟨{ dev := thisDevice, kind := 1, grid := 1 }, rfl, waiterGone_of (g := (lab.grid 1).getD { num := 1 }) (by decide +kernel) (by decide +kernel)⟩

theorem witness_HoldsAndCensuses : self.kind = 1 ∧ lab.isSaved self = false ∧ lab.slotOf self = some 4 ∧
    (∃ h ∈ (withHold (cell 3 1) .lacq 0).holds, h.pa = 0x100000 ∧ h.who = other ∧ h.void = false) ∧
    (((withHold (cell 3 1) .lacq 0).holdsOn 0x100000).find? fun h => h.who = other && h.seq = 6) = some (hold .lacq 0) ∧
    (hold .lacq 0).cond = none ∧ (∀ h ∈ (cell 3 1).holdsOn 0x100000, h.who = other → h.seq ≠ 6) ∧
    (counting.censuses.find? fun c => c.id = 3).isSome = true ∧ counting.homeCluster 0x100000 ≠ 7 ∧
    (counting.combining.find? fun e => e.id = 3 && e.router = 7) = some ⟨3, 7, 1, []⟩ ∧
    (∀ h ∈ counting.holds, h.stored = true → h.pa / 32 * 32 ≤ 0x100000 ∨ 0x100000 + 128 ≤ h.pa / 32 * 32) ∧
    counting.grid (counting.censusGrid { id := 3, pa := 0x100000, phase := 0, cmask := 0x300, total := 2, sums := [] }) = none := by
  decide +kernel

/-! ### Tasks, messages and calls -/

def onCores_ (f : Core → Core) (s : State) : State := { s with cores := s.cores.map fun e => (e.1, f e.2) }
def onSlots (f : Slot → Slot) (s : State) : State := { s with slots := s.slots.map fun e => (e.1, f e.2) }
def onGrids (f : Grid → Grid) (s : State) : State := { s with grids := s.grids.map fun e => (e.1, f e.2) }

/-- A handle, and target words: a core of the grid, the bank unit 5. -/
def handle : Reg := ⟨(capOn 0x100 0x100).data ||| BitVec.ofNat 128 (2 ^ 121), .sealed⟩
def toBank : Nat := 5 + 2 * 2 ^ 71 + 3 * 2 ^ 64
def targets : List (Nat × Reg) :=
  [(13, num 0), (14, handle), (15, num (2 ^ 16 + 77)), (20, num toBank), (21, handle), (22, num (2 ^ 16 + 77)),
    (23, num (2 + 16 * 4 + 256 * 5 + 2 ^ 15)), (24, num 5), (25, num 3)]

theorem witness_TaskInstructions : (let s := labWith targets;
      (∀ r ∈ [(13 : RegNo), 20, 11, 5, 25], s.Readable r) ∧ (s.value 13).tag ≠ .bounded ∧ s.targetOf (s.gridOf s.cur) 0 = some (.core 1) ∧
      s.targetOf (s.gridOf s.cur) toBank = some (.bank 5) ∧ levelOf s.cur ∈ onCores ∧ levelOf s.cur ∈ inGrids ∧
      handleOk (s.value 11) = true ∧ (s.value 25).tag ≠ .bounded ∧ s.Writable 3 ∧ ((s.gridOf s.cur).bind s.grid).isSome = true) ∧
    (let s := atSlot 0 targets;
      levelOf s.cur = .s ∧ 2 ≤ toBank / 2 ^ 71 % 4 ∧ s.targetOf (s.gridOf s.cur) toBank = some (.bank 5)) ∧
    (let s := onSlots (fun x => { x with task := x.task.map fun k => { k with dealt := some 0 } }) (onGrids (fun g => { g with trig := 1 }) lab);
      s.here.task.map (fun k => (k.dealt, k.triggered, (s.grid k.grid).map (·.trig))) = some (some 0, false, some 1) ∧
        isBankSlot s.cur = false ∧ s.readsOpen s.cur = false ∧ s.postsOpen s.cur = false) ∧
    (∀ k, lab.here.task = some k → k.dealt = none ∨ k.triggered = true) := by
  refine ⟨by simp only [State.Readable, State.Writable]; decide +kernel, by decide +kernel, by decide +kernel, ?_⟩
  intro k hk; cases hk; exact .inl rfl

/-- A strand that ran a fork inline, and one that runs the task of a fork. -/
def joining (word : Nat) : State := labWith [(3, num word), (1, num 0x4001)]

theorem witness_ForksAndEnds : (levelOf lab.cur ∈ inGrids ∧ lab.Readable 11 ∧ (∀ r ∈ [(5 : RegNo), 6, 7], lab.Readable r) ∧ lab.Writable 13 ∧
      handleOk (lab.value 11) = true ∧ lab.readsOpen 4 = false ∧ (∀ r ∈ [1, 3, 16, 17, 18], lab.outstanding 4 r = false) ∧
      (lab.core 1).deque.length < 32 ∧
      ¬((onCores_ (fun c => { c with deque := List.replicate 32 {} }) lab).core 1).deque.length < 32) ∧
    (∀ word ∈ [2 ^ 40, 5], let s := joining word;
      s.Readable 0 ∧ s.Readable 3 ∧ s.Readable 1 ∧ (s.value 1).tag = .exact ∧
      ((((s.value 1).data.setWidth 64) &&& ~~~1 : Word64)).getLsbD 1 = false ∧ (s.value 3).data.getLsbD 40 = decide (word = 2 ^ 40)) ∧
    (let s : State := { joining (2 ^ 40) with mem := (cell 1 5).mem, granules := (cell 1 5).granules };
      s.Readable 8 ∧ (∃ u, s.CellAt .cadd 8 0x100000 u) ∧
      (s.drawn.desk .cadd (s.cellRequest { n := -1 } 0x100000 0x100000)).1 = .done 0 5 []) ∧
    (let s := labWith targets;
      s.Readable 13 ∧ (s.value 13).tag ≠ .bounded ∧ s.here.streams = [] ∧ s.isBound 4 = false ∧ levelOf s.cur = .g ∧ s.postsOpen 4 = false ∧
      (∀ b ∈ (s.core 1).board, b.slot ≠ 4) ∧ (s.core 1).vq = [] ∧ (s.core 1).xq = []) := by
  refine ⟨by simp only [State.Readable, State.Writable]; decide +kernel, by simp only [State.Readable]; decide +kernel,
    ⟨by simp only [State.Readable]; decide +kernel, ⟨({ joining (2 ^ 40) with mem := (cell 1 5).mem, granules := (cell 1 5).granules } : State).findCell
      ((joining 0).agentOf 4) 0x100000 .cadd |>.2, cellAt_of _ ?_ ?_ ?_ ?_⟩, by decide +kernel⟩,
    by simp only [State.Readable]; decide +kernel⟩ <;> (try simp only [State.BaseOk]) <;> decide +kernel

/-- A task that a call started, from a strand of this device, and a message of an inbox. -/
def called : Task := { kind := 5, cls := 3, args := [num 1, num 2], inbox := some 4, route := some ⟨thisDevice, 4, 3, false, 1⟩ }
def annex (inbox : List Task) : State := onCores_ (fun c => { c with inbox := inbox }) (atSlot 7 targets)

theorem witness_CallInstructions : (∀ r ∈ [(13 : RegNo), 20], let s := labWith targets;
      s.Readable r ∧ s.Readable (r + 1) ∧ s.Readable (r + 2) ∧ (∀ q ∈ [(5 : RegNo), 6, 7], s.Readable q) ∧ (s.value r).tag ≠ .bounded ∧
      (s.value (r + 2)).tag ≠ .bounded ∧ handleOk (s.value (r + 1)) = true ∧ bit (s.value (r + 2)).data.toNat 16 = true ∧
      levelOf s.cur = .g ∧ s.Writable 3 ∧ s.Writable 4 ∧ (s.core 1).board.length < 64 ∧ (s.core 1).posted.length < 256) ∧
    (let s := onSlots (fun x => { x with task := some called }) lab;
      s.here.task = some called ∧ called.replied = false ∧ (∀ q ∈ [(5 : RegNo), 6, 7], s.Readable q) ∧ s.readsOpen 4 = false) ∧
    (∀ i < 11, (annex [called]).outstanding 7 (13 + i) = false) ∧ (annex []).Writable 4 ∧ levelOf (annex []).cur = .a ∧
    ((annex []).core 1).inbox.find? Task.takeable = none ∧ (((annex [called]).core 1).inbox.find? Task.takeable).isSome = true ∧
    called.args.length ≤ 15 ∧ ((annex [called]).core 1).router = [] ∧
    (let s := annex [];
      (∀ q ∈ [(23 : RegNo), 24, 5, 6], s.Readable q) ∧ (s.value 23).tag = .exact ∧ bit (s.value 23).data.toNat 15 = true ∧
      (s.value 24).tag ≠ .bounded ∧ (s.value 23).data.toNat % 16 = 2 ∧ (s.core 1).inboxUsed < (s.core 1).annexHi) ∧
    ¬ ((annex (List.replicate 32 called)).core 1).inboxUsed < ((annex (List.replicate 32 called)).core 1).annexHi := by
  simp only [State.Readable, State.Writable]
  refine ⟨by decide +kernel, ⟨rfl, by decide +kernel⟩, by decide +kernel, by decide +kernel, by decide +kernel, by decide +kernel,
    by rfl, by decide +kernel, by decide +kernel, by decide +kernel, ?_⟩
  decide +kernel

/-- Sixteen cores of a grid, of which the strand of one binds volumes. -/
def square : State := { atSlot 16 [] with cores := (List.range 16).map fun i => (coreAt (4 + i % 4) (i / 4), { grid := some 1, xbound := 1024 }) }

theorem witness_VolumesBind : levelOf square.cur = .g ∧ square.Writable 3 ∧ square.isBound 16 = false ∧ square.bindStatus 16 1 = 0 ∧
    (atSlot 16 []).bindStatus 16 4 ≠ 0 ∧ ((square.tryBind 16 1).2).isBound 16 = true ∧ levelOf ((square.tryBind 16 1).2).cur = .g := by
  simp only [State.Writable]; decide +kernel

/-- A task, a core with tasks in its run queue and a slot that is free, and a slot whose task is selected. -/
def task (kind age prio : Nat) : Task :=
  { kind := kind, cls := 1, prio := prio, grid := 1, age := age, entry := handle, args := [num 5, num 6], inbox := some age }
def queued (q : List Task) (count : Nat) : State :=
  { onCores_ (fun c => { c with runq := q, selCount := count }) lab with slots := [(4, { st := .running }), (5, {})] }
def starting (t : Task) (k : Nat) : State := { lab with slots := [(k, { st := .starting, task := some t })] }
def annexed : State :=
  { onCores_ (fun c => { c with annexctl := 0xD01C, cat := [(16, handle)] }) lab with slots := [] }

theorem witness_TasksStart : (∀ count ∈ [0, 15], let s := given_ (.taskSelect 1) (queued [task 0 5 2, task 3 4 2, task 2 3 1] count);
      s.input = .taskSelect 1 ∧ s.selects 1 = true ∧ s.freeSlot 1 = some 5 ∧ ∃ t ∈ (s.core 1).runq, (s.core 1).choose = some t ∧
        (count = 15 → t.prio = 1)) ∧
    (let s := given_ (.taskStart 5) (starting (task 0 5 2) 5);
      s.input = .taskStart 5 ∧ (s.slot 5).st = .starting ∧ (s.slot 5).task = some (task 0 5 2) ∧ isBankSlot 5 = false) ∧
    (task 7 5 2).kind = 7 ∧ (given_ (.taskStart 5) (starting (task 7 5 2) 5)).slot 5 = { st := .starting, task := some (task 7 5 2) } ∧
    (annexed.annexDue 1 = true ∧ annexed.selects 1 = true) := by decide +kernel

/-- Cores 1 and 2 of one grid, with the tasks of their deques. -/
def pair (d : List Task) (steal : Option Nat) : State :=
  { lab with cores := [(1, { grid := some 1, steal := steal }), (2, { grid := some 1, deque := d })],
             grids := [(1, { num := 1, st := .running, rects := [(1, 0)], gw := 1, node := { bw := 2, bh := 1, gw := 1, gh := 1 } })] }

theorem witness_TasksArrive : (∀ kind ∈ [3, 7], lab.takesFrom 1 (task kind 0 2) = true) ∧ (lab.core 1).router = [] ∧
    (lab.core 1).inboxUsed + 2 ≤ 32 ∧ ¬ ((onCores_ (fun c => { c with inbox := List.replicate 31 {} }) lab).core 1).inboxUsed + 2 ≤ 32 ∧
    lab.banksOff.contains (5 / 32) = false ∧ (lab.bank 5).router = [] ∧ (lab.bank 5).inbox.length < 16 ∧
    (∀ kind ∈ [2, 3], ∀ open_ ∈ [0, 1], let s := onCores_ (fun c => { c with inbox := [task kind 0 2], cat := [(open_, handle)] }) lab;
      (s.core 1).firstUnready = some (task kind 0 2) ∧ (s.core 1).runq.length < 64 ∧ s.dealtClaim 1 = none ∧
      handlerOpen (s.entryOf 1 (task kind 0 2).cls) = decide (open_ = 1) ∧ (open_ = 0 → handlerOpen (s.entryOf 1 0) = true)) ∧
    (let s := pair [task 1 3 2] (some 0);
      (s.core 2).deque = [task 1 3 2] ∧ (s.core 2).grid = (s.core 1).grid ∧ (s.core 1).runq.length < 64 ∧
      (s.core 1).grid = some (task 1 3 2).grid ∧ (s.core 1).steal = some 0 ∧ (s.victims 1)[0]? = some 2) ∧
    ((pair [] none).core 2).deque = [] ∧
    ((onCores_ (fun c => { c with stealWait := true, stealAt := 5 }) lab).core 1).stealWait = true ∧
    ((onSlots (fun x => { x with yielding := 50 }) lab).slot 4).yielding ≠ 0 := by decide +kernel

/-! ### Control registers, traps, requests of the control program -/

theorem witness_ControlRegisters : levelOf lab.cur ∈ onCores ∧ (27 : BitVec 5).toNat ≤ 27 ∧ lab.Readable 5 ∧ lab.Writable 4 ∧
    (lab.value 5).tag ≠ .bounded := by
  simp only [State.Readable, State.Writable]; decide +kernel

/-- The strand of `lab` with handlers for traps and overlays. -/
def handled : State := onCores_ (fun c => { c with thnd := handle, ovlh := handle }) lab

theorem witness_TrapsAreTaken : isBankSlot handled.cur = false ∧ handled.isBound 4 = false ∧ levelOf handled.cur ≠ .s ∧
    (handled.core 1).thnd.tag = .sealed ∧ (handled.core 1).thnd.data.getLsbD 114 = true ∧ handled.here.inh = false ∧
    Cause.overlay ∈ [Cause.overlay, .ebreak, .recalibrate] ∧ (handled.core 1).grid = some 1 ∧
    ((handled.grid 1).map fun g => (g.st, g.ended, g.rects)) = some (LaunchState.running, none, [(1, 0)]) := by decide +kernel

theorem witness_TrapsAndReturns : levelOf lab.cur ∈ [Level.g, .s] ∧ levelOf lab.cur ∈ onCores ∧ lab.here.inh = false ∧
    (onSlots (fun x => { x with tcause := 0x1000000 }) lab).here.inh = true ∧ isBankSlot (atSlot 65536 []).cur = true ∧
    (given_ (.illegalInstruction 5) lab).input = .illegalInstruction 5 := by decide +kernel

/-- The control program with the number of grid 1, of a grid that is no more, and of grid 1 with a cause. -/
def control (st : LaunchState) : State :=
  onGrids (fun g => { g with st := st }) (atSlot 1 [(13, num 1), (14, num 7), (15, num (1 + 5 * 2 ^ 16)), (16, num 6), (17, num (3 * 2 ^ 16)),
    (18, num (1 + 2 ^ 32)), (19, num (1 + 2 ^ 32 + 2 ^ 16)), (20, num 0x30000), (21, num 0x30001), (22, num 0x100000)])

theorem witness_PreemptionRequests : (∀ st ∈ [LaunchState.running, .placing, .stopping, .saved], let s := control st;
      levelOf s.cur = .s ∧ s.Writable 4 ∧ s.grid 7 = none ∧ ((s.grid 1).map fun g => (g.st, g.ended, g.rects)) = some (st, none, [(0, 0)])) ∧
    ∀ r ∈ [(13 : RegNo), 14, 15], (control .running).Readable r ∧ ((control .running).value r).tag ≠ .bounded ∧
      ((control .running).value r).data.toNat < 2 ^ 32 := by
  simp only [State.Readable, State.Writable]; exact ⟨by decide +kernel, by decide +kernel⟩

/-- The control program, with the strand of another core parked and no drain, one drain or four. -/
def service (drains : List DrainRange) : State :=
  { control .running with slots := (control .running).slots ++ [(4, { st := .parked, pc := 0x44, regs := [(3, num 77)] })],
                          cores := [(0, { grid := some 1 }), (1, { grid := some 1 })], drains := drains }

theorem witness_ServiceInstructions : (∀ drains ∈ ([[], [⟨2, 0, 0, 65536⟩], (List.range 4).map fun i => ⟨i, 5, 0, 65536⟩] : List (List DrainRange)), let s := service drains;
      levelOf s.cur = .s ∧ s.Writable 4 ∧ (∀ r ∈ [(16 : RegNo), 17, 18, 19, 20, 21, 22, 8], s.Readable r ∧ (s.value r).tag ≠ .bounded) ∧
      (s.value 17).data.toNat < 2 ^ 30 ∧ 0x30000 % 65536 = 0 ∧ 0x30001 % 65536 ≠ 0 ∧ (s.value 16).data.toNat < 8) ∧
    ((service []).drains.find? fun d => d.id = 2) = none ∧ ((service [⟨2, 0, 0, 65536⟩]).drains.find? fun d => d.id = 2) = some ⟨2, 0, 0, 65536⟩ ∧
    (service []).writesLeft ⟨2, 0, 0, 65536⟩ = false ∧
    (let s := service [];
      levelOf lab.cur ∈ onCores ∧ bits (s.value 18).data.toNat 31 17 = 0 ∧ slotKey (coreAt 1 0) 0 = 4 ∧ s.slotStatus 4 1 = 0 ∧ s.cur ≠ 4 ∧
      s.slotStatus 1 1 ≠ 0 ∧ s.BaseOk 8 0x100000 1152 32 [permW, permSC] ∧ s.BaseOk 8 0x100000 1152 32 [permR] ∧
      (∀ u ∈ [Use.read, .write], yields (findParts u (acqOf (s.value 8)) (contextParts 0x100000) s) (fun l t =>
        l == (List.range 36).map (fun i => (.mem (0x100000 + 32 * i), 32)) &&
        (List.range 36).all fun i => !t.typedAt (.mem (0x100000 + 32 * i)) 32 && !(t.readSpot (.mem (0x100000 + 32 * i)) 32).poison) = true)) := by
  simp only [State.Readable, State.Writable, State.BaseOk]; decide +kernel

theorem witness_UnitRegisters : ((List.range 8).map fun c => (0x2020202020202020#64).toNat / 2 ^ (8 * c) % 256).sum ≤ 256 ∧
    ¬ ((List.range 8).map fun c => (0x2120202020202020#64).toNat / 2 ^ (8 * c) % 256).sum ≤ 256 ∧ Writer.other ≠ .control 0 ∧
    ({ lab with phase := .stepping 10 } : State).phase = .stepping 10 ∧ bits (lab.port 5).fpctl.toNat 3 2 = 0 ∧
    (({ lab with ports := [(5, { fpctl := 9, replay := [{ num := 1 }] })] } : State).port 5).replay ≠ [] ∧
    (let s := control .running;
      levelOf s.cur = .s ∧ s.Readable 22 ∧ s.Writable 4 ∧ (s.value 22).tag ≠ .bounded ∧ (s.value 22).data.toNat < 2 ^ 63 ∧
      0x100000 < hbmEnd ∧ s.flips = []) := by
  simp only [State.Readable, State.Writable]; decide +kernel

/-! ### The engines -/

/-- A strand with offsets into the scratchpad, and a vector command of its core. -/
def offsets : List (Nat × Reg) :=
  [(13, num 0x2000), (14, num 0x3000), (15, num 0x4000), (16, num 5), (17, num 0x400), (18, num (0x2000 + 3 * 2 ^ 32 + 4 * 2 ^ 40)),
    (19, num (0x380 + 2 ^ 32 + 2 ^ 40)), (20, num (2 ^ 32 * 0x2000)), (21, num 0xABCDEF)]
def vcmd (op : VecOp) : VecCmd :=
  { op := op, d := 0x2000, a := 0x3000, b := 0x4000, fmt := .fp32, sat := false, rows := 1, rmode := 0, slot := 4, grid := 1, gd := 3, len := 64, seq := 3 }

theorem witness_VectorCommandsQueue : (let s := labWith offsets;
      levelOf s.cur ∈ onCores ∧ (s.core 1).vq.length < 8 ∧ s.Writable 3 ∧ s.Readable 7 ∧ s.Readable 17 ∧ s.inScratch 1 0x400 0x400 = true ∧
      (s.value 17).data.toNat % 2 ^ 64 % 32 = 0 ∧ (s.value 7).tag = .bounded ∧ (s.value 16).data.toNat % 16 ≤ 6 ∧
      ∀ r ∈ [(13 : RegNo), 14, 15], s.Readable r ∧ (s.value r).tag ≠ .bounded ∧ (s.value r).data.toNat < 2 ^ 18 ∧
        (s.value r).data.toNat % 128 = 0 ∧ s.inScratch 1 (s.value r).data.toNat 128 = true) ∧
    ((Fmt.ofCode 0).getD .fp32).isFloat = true := by
  simp only [State.Readable, State.Writable]; exact ⟨by decide +kernel, by decide⟩

theorem witness_VectorCommandsRun : ∀ op ∈ [VecOp.fma, .sum, .acceptSp], let s := onCores_ (fun c => { c with vq := [vcmd op] }) lab;
    s.flips = [] ∧ s.mayTouch 1 3 (vcmd op).reads (vcmd op).writes = true ∧
    s.poisonedRead 1 (if op = .acceptSp then [] else (vcmd op).reads) = none ∧ (vcmd op).d % 32 = 0 ∧
    (vcmd op).d + (vcmd op).dstBytes ≤ 0x30000 := by decide +kernel

/-- Images of a doorbell in the shadow window of core 1. -/
def shadowed (l : List (Nat × Nat)) : State := l.foldl (fun s e => s.store (windowPA 1 e.1) (bytesOf 16 e.2)) lab
def drain (cls : Nat) : Drain := { x := 0, y := 0, off := 0x10000, fmt := .fp32, cls := cls, int := false, sat := false, tag := 0x123, clear := false }
def mcmd (op : MuOp) : MuCmd := { op := op, acc := 0, rmode := 0, prio := 5, qos := 0, grid := 1, slot := 4, steps := 1, seq := 4 }

theorem witness_DoorbellsAndDrains : (let s := shadowed [(0x32200, 0x2000), (0x32260, 0x1234567), (0x32000, 1)];
      (s.capAt (windowPA 1 0x32200) true).tag ≠ .bounded ∧ (s.capAt (windowPA 1 0x32200) true).data.toNat < 2 ^ 18 ∧
      (s.capAt (windowPA 1 0x32200) true).data.toNat % 128 = 0 ∧ (s.core 1).vq.length < 8 ∧ (s.core 1).muq.length < 8 ∧
      (∀ n < 256, s.inScratch 1 0x2000 ((n + 1) * 128) = true) ∧
      (s.capAt (windowPA 1 0x32000) true).data.toNat % 32 ≤ 1) ∧
    lab.gridCore 1 (drain 3).x (drain 3).y = some 1 ∧ (drain 3).cls ≠ 0 ∧ (lab.carousel 1 2).rsv = 0 ∧
    lab.carouselOk 1 0x2000 3 4 = true ∧ lab.carouselOk 1 0x2000 0 4 = false := by decide +kernel

/-- Carousels of a core: two that are in use, one of them with all its slots full. -/
def carousels (l : List (Nat × Carousel)) : State :=
  onCores_ (fun c => { c with cars := l, recbuf := 1 }) (labWith offsets)
def turning : Carousel := { base := 0x2000, size := 128, cnt := 2, head := 1, tail := 2 }

theorem witness_CarouselInstructions : (let s := carousels [(2, turning), (3, { turning with rsv := 1 })];
      levelOf s.cur ∈ onCores ∧ s.Readable 18 ∧ s.Readable 19 ∧ (s.value 18).tag ≠ .bounded ∧ (s.value 18).data.toNat / 2 ^ 48 % 2 ^ 16 = 0 ∧
      (s.value 19).data.toNat / 2 ^ 48 % 2 ^ 16 = 0 ∧ s.codeEnd 1 ≤ 0x2000 ∧ 0x2000 + 128 * 3 * 4 ≤ s.spadEnd 1 ∧ 0x380 < s.codeEnd 1 ∧
      (s.carousel 1 2).rsv = 0 ∧ (s.carousel 1 3).rsv ≠ 0 ∧ s.here.since = none ∧ (s.carousel 1 2).claimed = 0 ∧
      (s.carousel 1 2).full < (s.carousel 1 2).cnt ∧ s.Writable 3 ∧ (s.core 1).muq = [] ∧ (s.core 1).vq = [] ∧ (s.core 1).cq = []) ∧
    (let s : State := { onCores_ (fun c => { c with muq := [mcmd .zero] }) lab with fresh := 10 };
      ∃ m ∈ (s.core 1).muq, m.seq < s.fresh) := by
  simp only [State.Readable, State.Writable]; decide +kernel

theorem witness_MatrixCommandsQueue : (let s := carousels [(2, turning), (3, { turning with rsv := 1 })];
      levelOf s.cur ∈ onCores ∧ levelOf s.cur ∈ inGrids ∧ (s.core 1).muq.length < 8 ∧ s.Readable 5 ∧ (s.carousel 1 2).cnt ≠ 0 ∧
      16384 ≤ (s.carousel 1 2).size * 128 ∧ (s.carousel 1 3).cnt ≠ 0 ∧ 16384 ≤ (s.carousel 1 3).size * 128 ∧
      recProgram (s.core 1).recbuf ≠ none ∧ s.Readable 20 ∧ s.Readable 21 ∧ (s.value 20).tag ≠ .bounded ∧ (s.value 21).tag ≠ .bounded) ∧
    (∀ f < 6, (Fmt.ofCode f).isSome = true) ∧
    (let w := ((labWith offsets).value 20).data.toNat
     w < 2 ^ 60 ∧ w / 2 ^ 32 % 2 ^ 18 % 32 = 0 ∧ Fmt.ofCode (w / 2 ^ 50 % 2 ^ 4) = some .fp32 ∧ bit w 59 = false ∧
      ((labWith offsets).gridCore 1 (w % 2 ^ 16) (w / 2 ^ 16 % 2 ^ 16)).isSome = true) := by
  simp only [State.Readable]; exact ⟨by decide +kernel, by decide, by decide +kernel⟩

/-- A matrix unit whose turn is that of queue `0` of core 1, with a command at its head. -/
def working (op : MuOp) (run : Bool) : State :=
  { carousels [(2, turning), (3, turning)] with
    cores := ((carousels [(2, turning), (3, turning)]).cores.map fun e => (e.1, { e.2 with muq := [mcmd op] })),
    clusters := [(0, { muRun0 := run, muTurn0 := (1, 7) })] }

theorem witness_MatrixCommandsRun : (∀ op ∈ [MuOp.zero, .accept, .mma .int8 2 3 0x2000 0x8000 ⟨0x3F8000003F800000, .exact⟩, .drain (drain 3)],
      let s := working op true;
      s.flips = [] ∧ muCore 0 0 ((s.cluster 0).muTurn0).1 = 1 ∧ (s.core 1).muq = [mcmd op] ∧ s.poisonedRead 1 (mcmd op).consumed = none) ∧
    ((working .zero false).muTurn 0 0 (((working .zero false).cluster 0).muTurn0)).isSome = true ∧
    (let s := working (.drain (drain 3)) true;
      s.gridCore 1 0 0 = some 1 ∧ s.inScratch 1 0x10000 (drain 3).bytes = true ∧ s.agenda = []) := by decide +kernel

/-- The words of a copy, of a two-dimensional copy, of copies to a carousel and to a stream register; capabilities for their data, their
record and their barrier. -/
def copying (g0 g1 w g3 g4 : Reg) : State :=
  onSlots (fun x => { x with streams := [(1, {})] }) (onCores_ (fun c => { c with cars := [(2, turning)] })
    (labWith [(13, g0), (14, g1), (15, w), (16, g3), (17, g4), (20, capOn 0x400000 0x20)]))
def cword (n rs dk di es : Nat) : Reg := num (n + rs * 2 ^ 40 + dk * 2 ^ 80 + di * 2 ^ 82 + es * 2 ^ 85)

theorem witness_CopyCommandsQueue :
    (∀ w ∈ [cword 100 4 0 0 2, cword 0 40 0 0 0, cword 100 0 1 2 0, cword 100 0 2 1 2],
      let s := copying (capOn 0x100000 0x1000) (capOn 0x200000 0x1000) w (capOn 0x400000 0x20) (capOn 0x300000 0x1000);
      levelOf s.cur ∈ onCores ∧ (s.core 1).cq = [] ∧ (s.value 15).data.toNat / 2 ^ 88 = 0 ∧
      (∀ r ∈ [(13 : RegNo), 14, 15, 16, 17, 20], s.Readable r ∧ (s.value r).tag ≠ .bounded) ∧
      (s.value 15).data.toNat / 2 ^ 40 % 2 ^ 40 ≤ 100) ∧
    (let s := copying (capOn 0x100000 0x1000) (capOn 0x200000 0x1000) (cword 100 4 0 0 2) (capOn 0x400000 0x20) (capOn 0x300000 0x1000);
      (∀ r ∈ [(13 : RegNo), 14, 17], (s.value r).tag = .cap ∧ inBounds (s.value r).data (capAddr (s.value r).data) 400 = true ∧
        hasPerm (s.value r).data permR = true ∧ hasPerm (s.value r).data permW = true ∧ isFabric (capAddr (s.value r).data) = false) ∧
      (∀ r ∈ [(16 : RegNo), 20], inBounds (s.value r).data (capAddr (s.value r).data) 32 = true ∧ capAddr (s.value r).data % 32 = 0 ∧
        hasPerm (s.value r).data permW = true ∧ hasPerm (s.value r).data permOBJ = true) ∧
      s.value 0 = {} ∧ (s.carousel 1 2).cnt ≠ 0 ∧ s.here.stream 25 ≠ none ∧ s.here.stream 24 = none ∧ s.outstanding 4 24 = false) := by
  simp only [State.Readable]; exact ⟨by decide +kernel, by decide +kernel⟩

theorem witness_CopyCommandsQueue2d :
    let w : Nat := 10 + 5 * 2 ^ 24 + 64 * 2 ^ 48 + 128 * 2 ^ 88
    let s := copying (capOn 0x100000 0x1000) (capOn 0x200000 0x1000) (cword 0 40 0 0 0) {} (num w);
    (∀ r ∈ [(13 : RegNo), 14], inBounds (s.value r).data (capAddr (s.value r).data) (4 * 128 + 10) = true) ∧
      (s.value 17).data.toNat % 2 ^ 24 = 10 ∧ (s.value 17).data.toNat / 2 ^ 24 % 2 ^ 24 = 5 ∧ (s.value 16) = {} ∧ 40 ≤ 10 * 5 := by
  decide +kernel

/-- The device after a copy or a fill within the scratchpad has been issued. -/
def issuedCopy (i : Instr) (w : Reg) : State :=
  after (exec i (copying (capOn (localVA 0x3000) 0x2000) (capOn (localVA 0x2000) 0x2000) w {} {}))

theorem witness_CopiesMoveBytes : (∀ i ∈ [Instr.copy 1 13 0, .fill 1 13 0], let s := issuedCopy i (cword 300 20 0 0 0);
      s.flips = [] ∧ s.banks = [] ∧ s.copyEnding 0 = none ∧ s.inScratch 1 (0x3000 + 20) 280 = true ∧ s.inScratch 1 (0x2000 + 20) 280 = true) ∧
    (∀ i ∈ [Instr.copy 1 13 0, .fill 1 13 0], let s := issuedCopy i (cword 300 20 0 0 0);
      (s.copyReady 1).map (fun q => (q.pos, q.total, q.commandCount, q.foot.isNone, q.car.isNone, q.dstAt)) =
        some (20, 300, false, true, true, localVA 0x3000)) ∧
    (∀ i ∈ [Instr.copy 1 13 0, .fill 1 13 0], let s := issuedCopy i (cword 300 20 0 0 0);
      (∀ j < 16, j ≠ 1 → s.copyReady (clusterCore 0 j) = none) ∧ (s.core 1).cq.length = 1 ∧ s.granules.all (fun e => e.2.ctype == 0) = true) ∧
    (let s := issuedCopy (.copy 1 13 0) (cword 64 16 2 1 2);
      s.here.stream 25 = some {} ∧ ((s.core 1).cq.find? fun q => q.slot = 4 && q.stream == some 1 && q.ending.isNone).map
        (fun q => (q.pos, q.total, q.es, capAddr q.src.data)) = some (16, 64, 2, localVA 0x2000) ∧
      s.inScratch 1 (0x2000 + 16) 4 = true ∧ (s.granule (windowPA 1 0x2010)).poison = false) ∧
    (let s := (shadowed [(0x32130, 100), (0x32120, 7)]).writeSpot .other (.mem (windowPA 1 0x32110))
        (bytesOf 16 (capOn (localVA 0x3000) 0x1000).data.toNat) (.cap .cap);
      (s.shadow 1 1 3).data.toNat = 100 ∧ capOk (s.shadow 1 1 1) (capAddr (s.shadow 1 1 1).data) 100 [permW] = true ∧
      isFabric (capAddr (s.shadow 1 1 1).data) = false ∧ s.shadow 1 1 4 = {} ∧ s.shadow 1 1 6 = {} ∧ (s.core 1).cq = []) := by
  exact ⟨by decide +kernel, by decide +kernel, by decide +kernel, by decide +kernel, by decide +kernel⟩

/-! ### The crossbar arrays and the bank units -/

/-- A core whose context owns array 2 of its cluster, with the words of crossbar instructions. -/
def arrayed (a : XArray) (q : List XuCmd) : State :=
  { onCores_ (fun c => { c with xq := q }) (labWith [(13, num (2 + 10 * 4 + 2 * 2 ^ 11)), (14, num 0x2000), (15, num 0x4000), (16, num (2 + 2 ^ 24)),
      (17, num (2 + 500 * 4 + 11 * 2 ^ 11 + 8 * 2 ^ 20)), (18, num 2), (19, num 0)]) with clusters := [(0, { arrays := [(2, { a with xctl := 0x10000 })] })] }
def xcmd (op : XuOp) (step : Nat) : XuCmd := { array := 2, op := op, slot := 4, step := step, grid := 1, seq := 5, pc := 0 }

theorem witness_CrossbarCommandsQueue : (let s := arrayed {} [];
      levelOf s.cur ∈ inGrids ∧ s.Writable 15 ∧ ((s.core 1).xq.filter fun x => x.array = 2).length < 2 ∧
      (let x := (s.array (clusterOf 1) 2).xctl.toNat; bit x 16 = true ∧ x % 2 ^ 16 = s.ctxOf s.cur) ∧
      (∀ r ∈ [(14 : RegNo), 15, 19], (s.value r).data.toNat / 2 ^ 21 % 2 ^ 11 = 0) ∧
      s.inScratch 1 0x2000 (256 * 3) = true ∧ s.inScratch 1 0x2000 2208 = true ∧ s.inScratch 1 0x2000 (64 * 8) = true ∧
      s.inScratch 1 0x4000 1024 = true) ∧
    (∀ r ∈ [(13 : RegNo), 14, 15, 16, 17, 18, 19], (arrayed {} []).Readable r ∧ ((arrayed {} []).value r).tag ≠ .bounded) ∧
    ((List.range 4).filter fun a => (4 : BitVec 4) = 0 ∨ bit (4 : BitVec 4).toNat a = true) = [2] := by
  simp only [State.Readable, State.Writable]; exact ⟨by decide +kernel, by decide +kernel, by decide⟩

/-- An array with a command under way, or between two. -/
def stepping (run : Bool) (op : XuOp) (step : Nat) : State :=
  onSlots (fun x => { x with await := some (.product 2 3) })
    (arrayed { run := run, turn := 1, cal := [(1, 1)], failed := [3, 400] } [xcmd op step])

theorem witness_CrossbarStepsRun : (∀ op ∈ [XuOp.prog 15 10 3 0x2000, .cal, .save 0x3000, .load 0x3000, .product 10 8 4 0x4000 0x5000],
      let s := given_ ((xcmd op 0).event 0) (stepping true op 0);
      s.flips = [] ∧ (s.array 0 2).run = true ∧ clusterCore 0 (s.array 0 2).turn = 1 ∧
      ((s.core 1).xq.find? fun y => y.array = 2 && y.event 0 = s.input) = some (xcmd op 0)) ∧
    ((stepping false .cal 16).xuNext 0 2).isSome = true ∧
    (let s := stepping true .cal 0;
      s.poisonedRead 1 [(0x2000, 256)] = none ∧ s.poisonedRead 1 [(0x3000, 2208)] = none ∧ s.poisonedRead 1 [(0x4000, 256)] = none ∧
      (∀ i < 256, badWeight (s.byte (windowPA 1 (0x2000 + i))) = false) ∧ look 0 (s.array 0 2).writes 10 < 1000000 ∧
      (s.slot 4).await = some (.product 2 3)) := by decide +kernel

/-- A bank unit with row-local pages, and the words of row operations. -/
def rows (word : Nat) : State :=
  { bench 65536 [(13, num word), (14, capOn 0x200000 0x4000), (15, capOn 0x200400 0x4000), (16, capOn 0x200800 0x4000)] with
    mem := ((lab.store 0x3000 (bytesOf 8 0x4001)).store 0x4008 (bytesOf 8 (0x20001F + 2 ^ 47))).mem, hlin := [(0, 0x20)] }
def found (u : Use) (r : RegNo) (s : State) : List (Leaf × Nat) × State := okOr ([], s) (rowsFind false u (rowVAs (s.value r) 1) s)

theorem witness_RowOperationsRun : ∀ word ∈ [0, 1, 2, 6], let s := rows word;
    let p := found .write 14 s
    let q := found .read 15 p.2
    levelOf s.cur = .b ∧ (s.value 13).data.toNat < 2 ^ 15 ∧ rowCount (s.value 13).data.toNat = 1 ∧ p.1.length = 1 ∧ q.1.length = 1 ∧
      (∀ r ∈ p.1 ++ q.1, r.1.rl = true ∧ r.1.cm = false ∧ r.1.el = false ∧ q.2.bankOfPA r.2 = bankOf s.cur) ∧
      (q.2.bank 0).rowop = none ∧ q.2.flips = [] ∧ q.2.rowStatus 0 (p.1.map (·.2)) (q.1.map (·.2)) [] = 0 ∧
      q.2.mustWait s.cur 0 (.mem 0x200000) 1024 true = false := by decide +kernel

/-- A row operation that is about to complete. -/
def completing (op : Nat) : State :=
  let s := rows 0
  { onSlots (fun x => { x with await := some (.rowop 13 1) }) s with
    banks := [(0, { rowop := some { op := op, d := [0x200000], a := [0x200400], b := [0x200800], slot := 65536, inv := 0 } })] }

theorem witness_RowOperationsRun_end : ∀ op < 6, let s := completing op;
    (s.bank 0).rowop = some ⟨65536, op, [0x200000], [0x200400], [0x200800], 0⟩ ∧ (s.slot 65536).await = some (.rowop 13 1) := by decide +kernel

/-! ### The host, its queues and the grids that it launches -/

/-- A read that is answered with a value of a property. -/
def gives {ε α β : Type} (x : Except ε (Option α) × β) (p : α → Bool) : Bool :=
  match x.1 with
  | .ok (some a) => p a
  | _ => false

/-- A device whose Ubgen port is up. -/
def hosted (s : State) : State := { s with ports := [(32, { fpctl := 9 })], ubgen := 0x11 }
def reading : HostReq := { kind := 0, stream := 3, len := 40, tag := 77, addr := 0x100000 }
def writing_ : HostReq := { kind := 1, stream := 3, len := 20, tag := 77, addr := 0x2FFFFF, data := (List.range 20).map (BitVec.ofNat 8 ·) }
def celling : HostReq := { kind := 2, stream := 3, tag := 9, addr := 0x100000, op := 9 }
def awaited (r : HostReq) (s : State) : State := (hosted s).onHostStream 3 fun h => { h with waiting := [r] }

theorem witness_HostRequestsServed : ((hosted lab).port 32).state = 2 ∧
    (∀ r ∈ [reading, writing_, celling, { celling with kind := 3, op := 0, addr := 0 }], (hosted lab).serves r = true ∧ r.ok 0x11 = true) ∧
    ({ hosted lab with phase := .held } : State).serves reading = false ∧ ({ reading with flags := 4 } : HostReq).ok 0x11 = false ∧
    (∀ r ∈ [reading, writing_, celling], let s := awaited r lab;
      (s.hostStream 3).parkedOnes = [] ∧ s.nextStream = some 3 ∧ (s.hostStream 3).waiting = [r]) ∧
    ((hosted lab).ownFabricParts reading.agent .read true (sectors 9 0x100000 40)).1.toBool = true ∧
    ((hosted lab).ownFabricParts writing_.agent .write true (sectors 9 0x2FFFFF 20)).1.toBool = true ∧
    ((hosted lab).ownFabricParts reading.agent .read true (sectors 9 (2 ^ 44) 40)).1.toBool = false ∧
    deskOpOf 9 = some .cwait ∧ ((hosted (cell 1 5)).findCell celling.agent 0x100000 .cwait).1 = .cell 0x100000 := by decide +kernel

/-- A control message of stream 3, first among the tasks of service core 3. -/
def control_ (code : Nat) (args : List Byte) (n : Nat) : HostReq :=
  { kind := 4, stream := 3, tag := 9, len := n, data := (BitVec.ofNat 8 code :: args ++ List.replicate n 0).take n }
def tasked (r : HostReq) (s : State) : State := (hosted s).onRegion 3 fun g => { g with tasks := [r] }
def attaching : HostReq := control_ 1 (bytesOf 8 0x100000 ++ [0, 0, 5]) 12
def queue_ : Queue := { num := 3, cell := 0x100000, pa := 0x100000, ctx := 0, prio := 5, size := (0x100200, 4, 0) }
def withQueue (q : Queue) (s : State) : State := (hosted s).onRegion 3 fun g => { g with queues := [(2, q)] }
/-- A queue of elements of 64 bytes, as commands need. -/
def commands : Nat := 0x100200 + 4 * 2 ^ 128 + 3 * 2 ^ 144

theorem witness_ControlMessages : attaching.control = 1 ∧ attaching.kind = 4 ∧ (hosted lab).serves attaching = true ∧ attaching.ok 0x11 = true ∧
    ((tasked attaching lab).region 3).tasks = [attaching] ∧ (attaching.arg 1 8, attaching.arg 9 2, attaching.arg 11 1) = (0x100000, 0, 5) ∧
    ((tasked attaching lab).region 3).queues.length < 16 ∧
    (let p := ({ tasked attaching (cell 4 commands) with attachSeen := true } : State).findCell { ctx := 0, die := 0 } 0x100000 .query;
      p.1 = .cell 0x100000 ∧ p.2.regions = (tasked attaching (cell 4 commands)).regions ∧ p.2.cellType 0x100000 = 4 ∧
      imageElement (setBits (p.2.image 0x100000) 226 224 4) = 3) ∧
    (withQueue queue_ lab).queueAt 3 0x100000 = some (2, queue_) ∧ lab.queueAt 3 0x100000 = none ∧
    ((withQueue queue_ (cell 4 commands)).desk .init { queue_.initReq {} with pa := 0x100000 }).1 = .done 0 0 [] ∧
    lab.startRec.seq + 1 < 2 ^ 32 := by decide +kernel

/-- An entry of a relocation list: a slot, an offset, a length and permissions. -/
def entry_ : List Byte := bytesOf 8 0x100100 ++ bytesOf 8 0x5000 ++ bytesOf 8 0x100 ++ bytesOf 8 0x1000 ++ bytesOf 2 0x1FF ++ bytesOf 14 0
def relocating : HostReq := control_ 11 (bytesOf 2 0 ++ bytesOf 8 0x200000 ++ bytesOf 4 1) 15

theorem witness_ControlMessages_relocate : relocating.control = 11 ∧ relocating.arg 11 4 = 1 ∧ relocating.arg 3 8 = 0x200000 ∧
    gives ((tasked relocating (lab.store 0x200000 entry_)).controlRead { ctx := 0 } 0x200000 48) (fun e =>
      field e 0 8 == 0x100100 && field e 34 1 ≤ 1 && field e 35 13 == 0 && field e 24 8 ≤ 2 ^ 63) = true ∧
    ((tasked relocating lab).ownFabricParts { ctx := 0 } .write true [(0x100100, 16)]).1.toBool = true := by decide +kernel

/-- A command of 64 bytes, under way in a queue of region 3. -/
def command (kind : Nat) (args : List Byte) : List Byte := ((BitVec.ofNat 8 kind :: List.replicate 7 0) ++ args ++ List.replicate 64 0).take 64
def commanded (c : List Byte) (s : State) : State := withQueue { queue_ with starting := some c } s

theorem witness_QueueCommandsRun : (∀ c ∈ [command 0 [], command 5 [], command 2 (bytesOf 8 0x100000), command 3 (bytesOf 8 0x100000 ++ [1]),
      command 4 (bytesOf 8 0x100000 ++ [7])], (commanded c lab).startingAt 50 c = some { queue_ with starting := some c } ∧
      (commanded c lab).headerOk c = true) ∧
    (queue_.popping, queue_.taken, queue_.detaching, queue_.resetting) = (none, none, false, none) ∧
    (let s := (withQueue queue_ (cell 4 commands)).drawn;
      (s.findCell { ctx := 0, die := 0 } 0x100000 .qpop).1 = .cell 0x100000 ∧ (s.granule 0x100000).poison = false ∧
      (s.desk .qpop { pa := 0x100000, va := 0x100000, who := other, seq := s.fresh, prio := 5, elen := 64 }).1 = .held) ∧
    ((withQueue { queue_ with taken := some (command 0 []) } lab).region 3).nextQueue = some (2, { queue_ with taken := some (command 0 []) }) ∧
    (commandEvent 50 (command 0 [])).isSome = true ∧
    ((hosted (cell 1 5)).findCell { ctx := 0, die := 0 } 0x100000 .cadd).1 = .cell 0x100000 ∧
    ((hosted lab).ownFabricParts { ctx := 0, die := 0 } .write true (partsOf 0x100000 7)).1.toBool = true ∧
    (look ({} : Source) (hosted lab).sources (sourceOfService 3)).buffer = [] ∧ (hosted lab).phase = .up ∧ (hosted lab).version 2 ≠ 0 := by
  decide +kernel

/-- The bytes of a node record, whose one footprint begins at 0x600000. -/
def record_ : State :=
  let cap (s : State) (pa : Nat) (r : Reg) : State := s.writeSpot .other (.mem pa) (bytesOf 16 r.data.toNat) (.cap r.tag)
  let s := lab.store 0x200000 ([0x10, 0, 1, 3, 2, 1, 2, 0, 1, 0, 1, 4, 2, 1, 1, 0].map (BitVec.ofNat 8 ·))
  let s := (cap s 0x200010 handle).store 0x200048 (bytesOf 8 0x300200 ++ bytesOf 8 0x300300 ++ bytesOf 8 0x500000)
  (cap s 0x200080 (capOn 0x600000 0x100000)).store 0x200090 (bytesOf 4 64 ++ bytesOf 4 0x3000 ++ bytesOf 4 64)
def launching : List Byte := command 1 (bytesOf 8 0x200000 ++ bytesOf 8 0x300000 ++ bytesOf 8 0x300100)

theorem witness_LaunchesProceed_launch : (let s := commanded launching record_;
      s.startingAt 50 launching = some { queue_ with starting := some launching } ∧ s.headerOk launching = true ∧ cmdKind launching = 1 ∧
      field launching 8 8 = 0x200000 ∧ (∀ e ∈ s.grids, e.2.addr ≠ 0x200000) ∧
      gives (s.schedGranules 3 0 0x200000 16) (fun gs => nodeOk gs && (nodeOf gs).pred == 0) = true) ∧
    gives ((commanded launching lab).schedGranules 3 0 0x200000 16) (fun gs => !nodeOk gs) = true := by decide +kernel

/-- Grid 1 of the device in another state, with another node. -/
def grid_ (f : Grid → Grid) : State := onGrids f lab
def unplaced (f : Grid → Grid) : State :=
  { grid_ (fun g => f { g with rects := [], node := { g.node with bw := 2 } }) with cores := [], slots := [] }

theorem witness_LaunchesProceed_ready : (let s := grid_ fun g => { g with st := .ready, addr := 0x200000 };
      ((s.grid 1).map fun x => (x.st, x.ended)) = some (.ready, none) ∧ (s.schedNum 0 0 0x200001 1).1.toBool = true) ∧
    (let s := grid_ fun g => { g with st := .dealing };
      ((s.grid 1).map fun x => (x.trig, x.setUp, x.node.setup, look 0 s.setups x.ctx)) = some (0, none, 0, 0)) ∧
    (let s := grid_ fun g => { g with st := .dealing, undealt := [{ task 0 0 2 with inbox := some 1 }] };
      ((s.grid 1).map (·.undealt)) = some [{ task 0 0 2 with inbox := some 1 }] ∧ (s.core 1).runq.length < 64 ∧ (s.core 1).inbox = []) :=
  ⟨by decide +kernel, by decide +kernel, by decide +kernel⟩

theorem witness_LaunchesProceed : (let s := unplaced fun g => { g with st := .placing };
      s.limiter.preempted = false ∧ ((s.grid 1).map fun x => (s.nextToPlace 1 x, x.resuming, (s.findPlace x false).isSome, x.gw)) =
        some (true, false, true, 1)) ∧
    (let s := grid_ fun g => { g with st := .placing, gw := 300, node := { g.node with bw := 64 } };
      ((s.grid 1).map fun x => (s.nextToPlace 1 x, s.findPlace x false, s.findPlace x true)) = some (true, none, none)) ∧
    (let s := grid_ fun g => { g with st := .dealing, setUp := some {} };
      ((s.grid 1).map fun x => (((s.coresOf 1).map (·.1)).foldl (fun s n => s.applySetUp {} n) s).feetFit 1 x) = some true) ∧
    (∀ pins ∈ [[], [(0x3000, 64)]],
      let s := onCores_ (fun c => { c with runq := [{ task 0 0 2 with dealt := some 0, pins := pins }] })
        (grid_ fun g => { g with st := .dealing, node := { g.node with foots := [⟨capOn 0x600000 0x1000, 64, 0x3000, 64⟩] } });
      ((s.core 1).runq.find? fun t => t.dealt = some 0 && t.age = 0).isSome = true ∧ (s.core 1).cq = [] ∧
      ((s.grid 1).map fun x => x.node.foots.all fun f => inBounds f.handle.data (f.source 0) f.len) = some true ∧ s.pinned 1 0 = []) :=
  ⟨by decide +kernel, by decide +kernel, by decide +kernel, by decide +kernel⟩

/-- A grid that ends, at a stage of its end, with a counter of its successor in memory. -/
def ending (stage : Nat) (f : Grid → Grid) : State :=
  { (onGrids (fun g => f { g with st := .ending, stage := stage, counter := 0x100000, errAddr := 0x300000, queue := 2, attach := 3, addr := 0x200000 })
      (cell 1 5)).onRegion 0 (fun g => { g with queues := [(2, { queue_ with running := 2 })] }) with ports := [(32, { fpctl := 9 })] }

theorem witness_GridsEndAndSave : (let s := grid_ id;
      ((s.grid 1).map fun x => (x.released, s.postedLeft 1 x, x.succAt, x.node.succ)) = some (false, false, 0, 0)) ∧
    (let s := ((onGrids (fun g => { g with node := { g.node with succ := 1, slist := 0x300000 } }) (cell 1 5)).store 0x300000
        (bytesOf 8 0x400000)).store 0x400040 (bytesOf 8 0x100000);
      gives (s.schedNum 0 0 0x300000 8) (· == 0x400000) = true ∧ gives (s.schedNum 0 0 0x400040 8) (· == 0x100000) = true) ∧
    (let s := ending 0 id;
      ((s.grid 1).map fun x => (x.stage, x.waitSeq, s.settled 1 x)) = some (0, 0, true) ∧ s.holds = [] ∧
      (s.ownFabricParts { ctx := 0 } .write true (sectors 3 0x300000 64)).1.toBool = true ∧ (s.granule 0x100000).poison = false ∧
      (s.findCell { ctx := 0 } 0x100000 .cadd).1 = .cell 0x100000 ∧ (s.desk .cadd { ask with n := -1 }).1 = .done 0 5 [] ∧
      s.cutOff (clusterOf (serviceCore 0)) (s.homeCluster 0x100000) = false ∧
      ((s.queue 0 2).map fun q => (q.num, q.detaching)) = some (3, false)) ∧
    (let p := (ending 5 id).rewriteFlags { ctx := 0 } 0x200001 false; p.1.toBool = true ∧ p.2.cores = (ending 5 id).cores) :=
  ⟨by decide +kernel, by decide +kernel, by decide +kernel, by decide +kernel⟩

theorem witness_GridsEndAndSave_save : (∀ save ∈ [0, 0x10000, 0x10001],
      let s := grid_ fun g => { g with st := .stopping, node := { g.node with save := save } };
      s.unsettled 1 = false ∧ ((s.grid 1).map fun x => (x.node.save, x.ended.isNone, x.thermal)) = some (save, true, false)) ∧
    (let s := unplaced fun g => { g with st := .saving, node := { g.node with save := 0x10000000 } };
      ((s.grid 1).map fun x => ((s.findAreas x.agent .write (s.saveAreas 1 x 1)).1.toBool)) = some true) :=
  ⟨by decide +kernel, by decide +kernel⟩

/-! ### Links, replies, the package and the start -/

/-- A port that is up with three groups in its replay buffer, and the data of a group. -/
def group : List Byte := (List.range 256).map (BitVec.ofNat 8 ·)
def port_ (state run : Nat) : State :=
  { lab with ports := [(5, { fpctl := BitVec.ofNat 32 (1 + 4 * state), rxSeq := 4095, run := run, txSeq := 12,
                             replay := [{ num := 9, fails := 7 }, { num := 10 }, { num := 11 }] })] }

/-- The published check value of CRC-32C, over the nine digits 1 to 9. -/
theorem test_crc32c : crc32c [0x31, 0x32, 0x33, 0x34, 0x35, 0x36, 0x37, 0x38, 0x39] = 0xE3069283 := by decide +kernel

theorem crcBit_lt {c : Nat} (h : c < 2 ^ 32) : crcBit c < 2 ^ 32 := by
  unfold crcBit xorN
  split
  · exact Nat.xor_lt_two_pow (by omega) (by decide)
  · omega

theorem crc32c_lt (bs : List Byte) : crc32c bs < 2 ^ 32 := by
  have h : ∀ (bs : List Byte) (c : Nat), c < 2 ^ 32 → bs.foldl crcByte c < 2 ^ 32 := by
    intro bs
    induction bs with
    | nil => exact fun _ h => h
    | cons b bs ih =>
      refine fun c hc => ih _ ?_
      iterate 8 refine crcBit_lt ?_
      exact Nat.xor_lt_two_pow hc (by omega)
  exact Nat.xor_lt_two_pow (h bs _ (by decide)) (by decide)

theorem has_crc (bs : List Byte) : ∃ crc : BitVec 32, crc32c bs = crc.toNat :=
  ⟨BitVec.ofNat 32 (crc32c bs), by rw [BitVec.toNat_ofNat, Nat.mod_eq_of_lt (crc32c_lt _)]⟩

theorem witness_LinksAndPackets : (∃ crc : BitVec 32, crc32c group = crc.toNat) ∧ group.length = 256 ∧ (∀ run ∈ [3, 7], let q := (port_ 2 run).port 5;
      q.state = 2 ∧ q.rxSeq = 4095 ∧ q.queue = [] ∧ q.hostQueue = [] ∧ q.finishing = false ∧ q.txSeq ≠ 9 ∧ q.run = run) ∧
    ((port_ 1 0).port 5).state = 1 ∧ max 0x10 0x10 ≤ min 0x12 0x11 :=
  ⟨has_crc group, by decide +kernel⟩

/-- A packet at the corner of the mesh below its port. -/
def packet (op : FabricOp) : Packet := { src := 7, dst := 9, num := 33, port := 69, addr := 0x10001E, core := 4, entry := 9, qos := 3, op := op }

theorem witness_LinksAndPackets_packets : lab.phase = .up ∧ (∃ p : Packet, p.port < 64 ∧ p.dst = thisDevice ∧ (p.src, p.num) ∉ lab.fabricSeen) ∧
    (packet (.load 8)).port = 69 ∧ (lab.ownFabricParts { ctx := 0, die := 0 } .read false (partsOf 0x10001E 8)).1.toBool = true ∧
    (lab.ownFabricParts { ctx := 0, die := 0 } .write false (partsOf 0x10001E 5)).1.toBool = true ∧
    (lab.ownFabricParts { ctx := 0, die := 0 } .read false (partsOf (2 ^ 44) 8)).1.toBool = false ∧ (port_ 2 0).upPorts ≠ [] :=
  ⟨by decide +kernel, ⟨{ packet .storeAck with port := 5, dst := thisDevice }, by decide, rfl, by decide⟩, by decide +kernel⟩

/-- An entry of the scoreboard, and a posted access. -/
def entryOf (kind : BoardKind) : Board := { id := 3, slot := 4, reg := 5, count := 1, kind := kind, addr := 0x777, seq := 50, due := 100 }
def boarded (kind : BoardKind) : State := onCores_ (fun c => { c with board := [entryOf kind] }) lab
def posted_ : Posted := { id := 3, slot := 4, grid := 1, addr := 0x888, pc := 4, tag := 50, due := 100 }

theorem witness_RepliesArrive : (∀ kind ∈ [BoardKind.load 4 true false, .call], (boarded kind).boardOf 50 = some (1, entryOf kind) ∧
      kind ≠ .element) ∧
    (let s := onCores_ (fun c => { c with posted := [posted_] }) lab;
      s.boardOf 50 = none ∧ s.postedOf 50 = some (1, posted_) ∧
      (s.grid 1).map (fun x => (x.st, x.ended, x.rects)) = some (LaunchState.running, none, [(1, 0)])) ∧
    (lab.slot 4).st ≠ .lent ∧ lab.draining 0 0x100000 = false ∧ ({ lab with drains := [⟨0, 0, 0x100000, 0x1000⟩] } : State).draining 0 0x100000 = true := by
  decide +kernel

/-- A page of 64 KiB with an elided frame. -/
def elided : State :=
  { ((lab.store 0x3000 (bytesOf 8 0x4001)).store 0x4008 (bytesOf 8 0x5001)).store 0x5000 (bytesOf 8 (0x2000F + 0x80 + 0x310)) with eltab := 0x4000 }

theorem witness_RepliesArrive_elided : (match elided.walk 0 0x200000 with
    | .leaf l e => l.el && bit l.word 3 && decide (l.size % 32 = 0) && (decide (e + 8 ≤ l.frame) || decide (l.frame + l.size ≤ e)) &&
        decide (l.frame % 32 = 0)
    | _ => false) = true := by decide +kernel

/-- A device under the limiter, whose regions have a limit. -/
def limited (l : Limiter) (limit : Nat) : State := { lab with limiter := l, regions := (List.range 16).map fun i => (i, { limit := limit }) }

theorem witness_PackageEvents : (lab.region 3).target = none ∧ (lab.region 3).low ≤ 3 ∧ ((limited {} 0).limiter).thermal = false ∧
    (({ lab with regions := [(3, { target := some 7 })] } : State).region 3).target = some 7 ∧
    (List.range 16).all (fun r => ((limited {} 0).region r).ceiling == 0) = true ∧ (limited { thermal := true } 5).limiter.thermal = true ∧
    (limited { preempted := true } 5).limiter.preempted = true ∧
    2 ≤ (([5, 6] : List Nat).filter fun t => lab.time < t + 1200000000).length ∧ 2600 < 2601 ∧ 95 ≤ 105 ∧ 1 ≤ 2 := by decide +kernel

/-- A device in a step of its start. -/
def starting_ (n : Nat) : State := { lab with phase := .stepping n, flashA := { seq := 4, valid := true } }
def failing : StartEnv := { primary := List.replicate 9 .pass ++ [.fail 0x77], alternate := List.replicate 16 .pass }

theorem witness_StartsAndStops : (∀ n ∈ [3, 16], (starting_ n).startRec.seq + 3 < 2 ^ 32 ∧ entryBegun ((starting_ n).startRec.entry n) = false ∧
      entryMethod ((starting_ n).startRec.entry n) ≠ 2 ∧ entryFails ((starting_ n).startRec.entry n) = 0 ∧
      (starting_ n).stepResult {} n false = .pass) ∧
    (starting_ 10).stepResult failing 10 false = .fail 0x77 ∧ (starting_ 2).stepResult { primary := [.pass, .fail 5] } 2 false = .fail 5 ∧
    (starting_ 2).stepResult { primary := [.pass, .hang] } 2 false = .hang := by decide +kernel

end Sys2Proof.Tests
end

section
/-! SUPPORT. The bit fields of a register after one of them has been written. -/

namespace Sys2Proof.Machine

open Sys2Proof

theorem testBit_bits (v hi lo i : Nat) :
    (bits v hi lo).testBit i = (decide (i < hi + 1 - lo) && v.testBit (lo + i)) := by
  rw [bits, Nat.testBit_mod_two_pow, Nat.testBit_div_two_pow, Nat.add_comm i lo]

theorem testBit_setBits (v x i : Nat) {hi lo : Nat} (h : lo ≤ hi) :
    (setBits v hi lo x).testBit i = if lo ≤ i ∧ i ≤ hi then x.testBit (i - lo) else v.testBit i := by
  have e : setBits v hi lo x = 2 ^ lo * (2 ^ (hi + 1 - lo) * (v / 2 ^ (hi + 1)) + x % 2 ^ (hi + 1 - lo)) + v % 2 ^ lo := by
    have hp : 2 ^ (hi + 1) = 2 ^ lo * 2 ^ (hi + 1 - lo) := by rw [← pow_add]; congr 1; omega
    rw [setBits, mul_add, ← mul_assoc, ← hp]
    ring
  rw [e, Nat.testBit_two_pow_mul_add _ (Nat.mod_lt _ (Nat.two_pow_pos _))]
  by_cases hl : i < lo
  · rw [if_pos hl, if_neg (by omega), Nat.testBit_mod_two_pow, decide_eq_true hl, Bool.true_and]
  · rw [if_neg hl, Nat.testBit_two_pow_mul_add _ (Nat.mod_lt _ (Nat.two_pow_pos _))]
    by_cases hh : i ≤ hi
    · rw [if_pos (by omega), if_pos (by omega), Nat.testBit_mod_two_pow, decide_eq_true (by omega), Bool.true_and]
    · rw [if_neg (by omega), if_neg (by omega), Nat.testBit_div_two_pow]
      congr 1
      omega

theorem bits_setBits_same (v x : Nat) {hi lo : Nat} (h : lo ≤ hi) : bits (setBits v hi lo x) hi lo = x % 2 ^ (hi + 1 - lo) := by
  apply Nat.eq_of_testBit_eq
  intro i
  rw [testBit_bits, testBit_setBits _ _ _ h, Nat.testBit_mod_two_pow]
  by_cases hi' : i < hi + 1 - lo
  · rw [if_pos (by omega), Nat.add_sub_cancel_left]
  · simp [hi']

/-- A field that lies beside the field written keeps its value. -/
theorem bits_setBits_disjoint (v x : Nat) {hi lo a b : Nat} (h : lo ≤ hi) (hd : a < lo ∨ hi < b) :
    bits (setBits v hi lo x) a b = bits v a b := by
  apply Nat.eq_of_testBit_eq
  intro i
  rw [testBit_bits, testBit_bits, testBit_setBits _ _ _ h]
  by_cases ha : i < a + 1 - b
  · rw [if_neg (by omega)]
  · simp [ha]

theorem bits_mod_two_pow (v : Nat) {hi lo w : Nat} (h : hi < w) : bits (v % 2 ^ w) hi lo = bits v hi lo := by
  apply Nat.eq_of_testBit_eq
  intro i
  rw [testBit_bits, testBit_bits, Nat.testBit_mod_two_pow]
  by_cases ha : i < hi + 1 - lo
  · rw [decide_eq_true (show lo + i < w by omega), Bool.true_and]
  · simp [ha]

theorem bits_lt (v hi lo : Nat) : bits v hi lo < 2 ^ (hi + 1 - lo) := Nat.mod_lt _ (Nat.two_pow_pos _)

theorem mod_two_pow_eq_bits (v n : Nat) : v % 2 ^ (n + 1) = bits v n 0 := by simp [bits]

/-- A field of a register of 32 bits that has been given a number. -/
theorem bits_ofNat (v : Nat) {hi lo : Nat} (h : hi < 32) : bits (BitVec.ofNat 32 v).toNat hi lo = bits v hi lo := by
  rw [BitVec.toNat_ofNat, bits_mod_two_pow v h]

theorem getLsbD_ofNat_setBits (v x i : Nat) {hi lo : Nat} (h : lo ≤ hi) (hd : i < lo ∨ hi < i) (hi' : i < 32) :
    (BitVec.ofNat 32 (setBits v hi lo x)).getLsbD i = v.testBit i := by
  rw [BitVec.getLsbD_ofNat, decide_eq_true hi', Bool.true_and, testBit_setBits _ _ _ h, if_neg (by omega)]

end Sys2Proof.Machine
end

section
/-! The state after reset. -/
namespace Sys2Proof.Machine

/-- `nrctl` at its reset value 0x1480: floor 0, ceiling 8, level 0, not pinned (R20). -/
theorem Region.fields_default : ({} : Region).floor_ = 0 ∧ ({} : Region).ceiling = 8 ∧ ({} : Region).cur = 0 ∧
    ({} : Region).pinned = false := by
  decide

/-- Settles O5: no table of the reset state holds an entry, so that each register reads as the default of its record. -/
theorem resetValues : Obligations.ResetValues := by
  refine ⟨rfl, rfl, rfl, rfl, rfl, rfl, rfl, rfl, rfl, rfl, fun _ _ => Region.fields_default, fun _ _ => rfl, fun _ _ => rfl,
    fun _ _ => ⟨rfl, rfl, rfl, rfl, rfl, rfl, rfl, rfl⟩, fun _ _ => ⟨rfl, rfl, rfl, rfl, fun r => ?_⟩⟩
  show (if r = 0 then ({} : Reg) else {}) = {}
  exact ite_self _

end Sys2Proof.Machine
end

section
/-! SUPPORT. What a record, a message at a port and a fold of changes leave as they were. -/

namespace Sys2Proof.Machine

open Sys2Proof

/-- What every change of a run keeps, the whole run keeps. -/
theorem foldl_keeps {α β γ : Type} (g : β → γ) (f : β → α → β) (l : List α) (b : β) (h : ∀ x, ∀ a ∈ l, g (f x a) = g x) :
    g (l.foldl f b) = g b :=
  List.foldlRecOn (motive := fun x => g x = g b) l f rfl fun x hx a ha => (h x a ha).trans hx

/-! ## Event records (R73, R74) -/

/-- A record changes the buffer of its source, the number of the next free value and the agenda alone. -/
theorem State.record_eta (s : State) (src : Nat) (sev : Option Nat) (kind payload tag : Nat) :
    s.record src sev kind payload tag = { s with
      fresh := (s.record src sev kind payload tag).fresh, agenda := (s.record src sev kind payload tag).agenda,
      sources := (s.record src sev kind payload tag).sources } := by
  simp only [State.record]
  by_cases hb : (look ({} : Source) s.sources src).buffer.length < 16
  · simp only [if_pos hb]
    split <;> rfl
  · simp only [if_neg hb]

theorem State.record_next (s : State) (src : Nat) (sev : Option Nat) (kind payload tag : Nat) :
    (look ({} : Source) (s.record src sev kind payload tag).sources src).next =
      ((look ({} : Source) s.sources src).next + 1) % 2 ^ 16 := by
  simp only [State.record]
  by_cases hb : (look ({} : Source) s.sources src).buffer.length < 16
  · simp only [if_pos hb]
    split <;> simp
  · simp [if_neg hb]

section
variable (s : State) (src : Nat) (sev : Option Nat) (kind payload tag : Nat)
@[simp] theorem State.record_mem : (s.record src sev kind payload tag).mem = s.mem := by rw [s.record_eta]
@[simp] theorem State.record_flips : (s.record src sev kind payload tag).flips = s.flips := by rw [s.record_eta]
@[simp] theorem State.record_grids : (s.record src sev kind payload tag).grids = s.grids := by rw [s.record_eta]
@[simp] theorem State.record_regions : (s.record src sev kind payload tag).regions = s.regions := by rw [s.record_eta]
@[simp] theorem State.record_limiter : (s.record src sev kind payload tag).limiter = s.limiter := by rw [s.record_eta]
@[simp] theorem State.record_ports : (s.record src sev kind payload tag).ports = s.ports := by rw [s.record_eta]
@[simp] theorem State.record_crossingDown : (s.record src sev kind payload tag).crossingDown = s.crossingDown := by rw [s.record_eta]
@[simp] theorem State.record_fuses : (s.record src sev kind payload tag).fuses = s.fuses := by rw [s.record_eta]
end

section
variable (s : State) (src : Nat) (sev : Option Nat) (kind : Nat) (contents : List Nat) (tag : Nat)
@[simp] theorem State.openRecord_mem : (s.openRecord src sev kind contents tag).mem = s.mem := s.record_mem ..
@[simp] theorem State.openRecord_flips : (s.openRecord src sev kind contents tag).flips = s.flips := s.record_flips ..
@[simp] theorem State.openRecord_grids : (s.openRecord src sev kind contents tag).grids = s.grids := s.record_grids ..
@[simp] theorem State.openRecord_regions : (s.openRecord src sev kind contents tag).regions = s.regions := s.record_regions ..
@[simp] theorem State.openRecord_limiter : (s.openRecord src sev kind contents tag).limiter = s.limiter := s.record_limiter ..
@[simp] theorem State.openRecord_crossingDown : (s.openRecord src sev kind contents tag).crossingDown = s.crossingDown :=
  s.record_crossingDown ..
@[simp] theorem State.openRecord_fuses : (s.openRecord src sev kind contents tag).fuses = s.fuses := s.record_fuses ..
end

/-! ## Ports (R29, R42, R43, R51) -/

/-- A port that fills groups changes the ports alone. -/
theorem State.fillGroups_eta (s : State) (p n : Nat) : s.fillGroups p n = { s with ports := (s.fillGroups p n).ports } := by
  induction n generalizing s with
  | zero => rfl
  | succ n ih =>
    simp only [State.fillGroups]
    split
    · rfl
    · split
      · exact ih _
      · exact ih _
      · rfl

/-- A change of one port that leaves `fpctl` leaves that of every port. -/
theorem look_change_fpctl (m : List (Nat × Port)) (p q : Nat) (f : Port → Port) (h : ∀ x, (f x).fpctl = x.fpctl) :
    (look {} (change {} m p f) q).fpctl = (look {} m q).fpctl := by
  rw [look_change]
  split
  · rename_i e
    rw [h, e]
  · rfl

theorem State.onPort_fpctl (s : State) (p q : Nat) (f : Port → Port) (h : ∀ x, (f x).fpctl = x.fpctl) :
    ((s.onPort p f).port q).fpctl = (s.port q).fpctl := look_change_fpctl _ _ _ _ h

@[simp] theorem State.fillGroups_fpctl (s : State) (p n q : Nat) : ((s.fillGroups p n).port q).fpctl = (s.port q).fpctl := by
  induction n generalizing s with
  | zero => rfl
  | succ n ih =>
    simp only [State.fillGroups]
    split
    · rfl
    · split
      · rw [ih]
        exact s.onPort_fpctl p q _ fun _ => rfl
      · rw [ih]
        exact s.onPort_fpctl p q _ fun _ => rfl
      · rfl

theorem State.post_fpctl (s : State) (p : Nat) (k : Packet) (q : Nat) : ((s.post p k).port q).fpctl = (s.port q).fpctl := by
  rw [State.post, State.fillGroups_fpctl]
  exact s.onPort_fpctl p q (fun x => { x with queue := x.queue ++ [{ k with port := p }] }) fun _ => rfl

/-- `fpctl` with another state of its port: the version stands in it while the port is up alone (R51 Table 4). -/
def fpctlIn (v : BitVec 32) (st : Nat) : BitVec 32 :=
  BitVec.ofNat 32 (setBits (setBits v.toNat 3 2 st) 11 4 (if st = 2 then bits v.toNat 11 4 else 0))

theorem bits_fpctlIn (v : BitVec 32) {st : Nat} (h : st < 4) : bits (fpctlIn v st).toNat 3 2 = st := by
  rw [fpctlIn, bits_ofNat _ (by omega), bits_setBits_disjoint _ _ (by omega) (by omega), bits_setBits_same _ _ (by omega)]
  exact Nat.mod_eq_of_lt h

/-- The two lowest bits of `fpctl`, en and down, stay as they are. -/
theorem getLsbD_fpctlIn (v : BitVec 32) (st : Nat) {i : Nat} (hi : i < 2) : (fpctlIn v st).getLsbD i = v.getLsbD i := by
  rw [fpctlIn, getLsbD_ofNat_setBits _ _ _ (by omega) (by omega) (by omega), testBit_setBits _ _ _ (by omega),
    if_neg (by omega)]
  rfl

@[simp] theorem State.setPortState_fpctl (s : State) (p st : Nat) :
    ((s.setPortState p st).port p).fpctl = fpctlIn (s.port p).fpctl st := by
  rw [State.setPortState, State.port, State.record_ports]
  exact congrArg Port.fpctl (State.port_onPort_same ..)

/-- A port that goes down hands what it held to other ports, which leaves every `fpctl` but its own. -/
@[simp] theorem State.portDown_fpctl (s : State) (p st : Nat) :
    ((s.portDown p st).port p).fpctl = fpctlIn (s.port p).fpctl st := by
  have hs (f : Port → Port) (hf : ∀ x, (f x).fpctl = x.fpctl) :
      (((s.onPort p f).setPortState p st).port p).fpctl = fpctlIn (s.port p).fpctl st := by
    rw [State.setPortState_fpctl, s.onPort_fpctl p p f hf]
  rw [State.portDown]
  split
  · refine (State.onPort_fpctl _ _ _ _ ?_).trans (hs _ ?_) <;> exact fun _ => rfl
  · refine (foldl_keeps (fun t : State => (t.port p).fpctl) _ _ _ fun t k _ => ?_).trans (hs _ ?_)
    · split
      · exact State.post_fpctl ..
      · rfl
    · exact fun _ => rfl

end Sys2Proof.Machine
end

section
/-! The unit registers: what a write leaves (R20, R49, R51, R87, R96, R140, R152, R158, R220, R255), and what an injection
strikes (R466). -/

namespace Sys2Proof.Machine

open Sys2Proof

/-! ## Who writes -/

theorem Writer.isControl_iff (w : Writer) (n : Nat) : w.isControl n = true ↔ w = .control n := by
  cases w <;> simp [Writer.isControl]

theorem Writer.isService_iff (w : Writer) : w.isService = true ↔ w ≠ .other := by
  cases w <;> simp [Writer.isService]

/-- A write that its guard lets through has its effect, and any other changes nothing. -/
theorem guarded_write {e : Answered} {s u : State} {b : Bool} {c : Prop} [Decidable c] {P : State → Prop}
    (he : e = .next (if b = true then u else s)) (hb : b = true ↔ c) (hP : c → P u) :
    if c then ∃ t : State, e = .next t ∧ P t else e = .next s := by
  split
  · next hc => exact ⟨u, by rw [he, if_pos (hb.mpr hc)], hP hc⟩
  · next hc => rw [he, if_neg fun h => hc (hb.mp h)]

/-- An event whose guard stops it changes nothing, and has its effect otherwise. -/
theorem guarded_skip {e : Answered} {s u : State} {b : Bool} {c : Prop} [Decidable c] {P : State → Prop}
    (he : e = .next (if b = true then s else u)) (hb : b = false ↔ c) (hP : c → P u) :
    if c then ∃ t : State, e = .next t ∧ P t else e = .next s := by
  split
  · next hc => exact ⟨u, by rw [he, hb.mpr hc]; rfl, hP hc⟩
  · next hc => rw [he, if_pos (by simpa using fun h => hc (hb.mp h))]

/-! ## Registers of the whole device -/

section
variable {s : State} {src : Writer}

theorem exec_ctxbaseWrite {v : Word64} (h : s.input = .ctxbaseWrite src v) :
    exec .ctxbaseWrite s = .next (s.writeCtxbase src v) := by
  show execCtxbaseWrite s = _
  rw [execCtxbaseWrite, h]

theorem exec_eltabWrite {v : Word64} (h : s.input = .eltabWrite src v) : exec .eltabWrite s = .next (s.writeEltab src v) := by
  show execEltabWrite s = _
  rw [execEltabWrite, h]

theorem exec_rtabWrite {v : Word64} (h : s.input = .rtabWrite src v) : exec .rtabWrite s = .next (s.writeRtab src v) := by
  show execRtabWrite s = _
  rw [execRtabWrite, h]

theorem exec_registerWrite {off width : Nat} {x : Word128} (h : s.input = .registerWrite src off width x) :
    exec .registerWrite s = .next (s.writeRegister src off width x) := by
  show execRegisterWrite s = _
  rw [execRegisterWrite, h]

theorem ctxbaseWrite_writes {v : Word64} (h : s.input = .ctxbaseWrite src v) : if src = .control 0 then
    ∃ t : State, exec .ctxbaseWrite s = .next t ∧ t.ctxbase = v &&& 0x00007FFFFFFF0000 ∧ t.mem = s.mem ∧ t.slots = s.slots
    else exec .ctxbaseWrite s = .next s :=
  guarded_write (exec_ctxbaseWrite h) (src.isControl_iff 0) fun _ => ⟨rfl, rfl, rfl⟩

theorem eltabWrite_writes {v : Word64} (h : s.input = .eltabWrite src v) : if src = .control 0 then
    ∃ t : State, exec .eltabWrite s = .next t ∧ t.eltab = v &&& 0x00007FFFFFFFE000 ∧ t.mem = s.mem ∧ t.slots = s.slots
    else exec .eltabWrite s = .next s :=
  guarded_write (exec_eltabWrite h) (src.isControl_iff 0) fun _ => ⟨rfl, rfl, rfl⟩

theorem rtabWrite_writes {v : Word64} (h : s.input = .rtabWrite src v) : if src = .control 0 then
    ∃ t : State, exec .rtabWrite s = .next t ∧ t.rtab = v &&& 0x7777777777777770 ∧ t.mem = s.mem ∧ t.slots = s.slots
    else exec .rtabWrite s = .next s :=
  guarded_write (exec_rtabWrite h) (src.isControl_iff 0) fun _ => ⟨rfl, rfl, rfl⟩

/-- At its offset in the unit-register region, `ctxbase` is written as by its own row (R141). -/
theorem registerWrite_ctxbase {x : Word128} (h : s.input = .registerWrite src 8 8 x) : if src = .control 0 then
    ∃ t : State, exec .registerWrite s = .next t ∧ t.ctxbase = x.setWidth 64 &&& 0x00007FFFFFFF0000
    else exec .registerWrite s = .next s :=
  guarded_write (exec_registerWrite h) (src.isControl_iff 0) fun _ => rfl

end

/-! ## Bandwidth shares (R49, R87) -/

section
variable {s : State} {src : Writer} {n : Nat} {v : Word64}

theorem shareSum_eq (v : Word64) : shareSum v = ((List.range 8).map fun c => v.toNat / 2 ^ (8 * c) % 256).sum := by
  simp [shareSum, bits, List.range_succ, add_assoc]

theorem exec_sshareWrite (h : s.input = .sshareWrite src n v) : exec .sshareWrite s = .next (s.writeSshare src n v) := by
  show execSshareWrite s = _
  rw [execSshareWrite, h]

theorem exec_hshareWrite (h : s.input = .hshareWrite src n v) : exec .hshareWrite s = .next (s.writeHshare src n v) := by
  show execHshareWrite s = _
  rw [execHshareWrite, h]

theorem exec_fshareWrite (h : s.input = .fshareWrite src n v) : exec .fshareWrite s = .next (s.writeFshare src n v) := by
  show execFshareWrite s = _
  rw [execFshareWrite, h]

theorem sshareWrite_writes (h : s.input = .sshareWrite src n v) :
    if src = .control (4 * n) ∧ ((List.range 8).map fun c => v.toNat / 2 ^ (8 * c) % 256).sum ≤ 256 then
      ∃ t : State, exec .sshareWrite s = .next t ∧ look 0 t.sshare n = v else exec .sshareWrite s = .next s :=
  guarded_write (exec_sshareWrite h) (by simp [Writer.isControl_iff, shareSum_eq]) fun _ => look_put_same ..

theorem hshareWrite_writes (h : s.input = .hshareWrite src n v) :
    if src = .control (4 * (n / 3)) ∧ ((List.range 8).map fun c => v.toNat / 2 ^ (8 * c) % 256).sum ≤ 256 then
      ∃ t : State, exec .hshareWrite s = .next t ∧ look 0 t.hshare n = v else exec .hshareWrite s = .next s :=
  guarded_write (exec_hshareWrite h) (by simp [Writer.isControl_iff, shareSum_eq]) fun _ => look_put_same ..

theorem fshareWrite_writes (h : s.input = .fshareWrite src n v) (hn : n < 32) (hc : src = .control (portRegion n)) :
    if ((List.range 8).map fun c => v.toNat / 2 ^ (8 * c) % 256).sum ≤ 256 then
      ∃ t : State, exec .fshareWrite s = .next t ∧ (t.port n).fshare = v
    else ∃ t : State, exec .fshareWrite s = .next t ∧ t.ports = s.ports ∧
      (look ({} : Source) t.sources (0x2000 + n)).next = ((look ({} : Source) s.sources (0x2000 + n)).next + 1) % 2 ^ 16 := by
  have hg : (src.isControl (portRegion n) && decide (n < 32)) = true := by simp [Writer.isControl_iff, hc, hn]
  rw [exec_fshareWrite h, State.writeFshare, if_pos hg, ← shareSum_eq]
  split
  · next hs =>
    rw [if_neg (Nat.not_lt.mpr hs)]
    exact ⟨_, rfl, by rw [State.port_onPort_same]⟩
  · next hs =>
    have hp : sourceOfPort n = 0x2000 + n := if_neg (by omega)
    rw [if_pos (Nat.lt_of_not_le hs), hp]
    exact ⟨_, rfl, State.record_ports .., State.record_next ..⟩

end

/-! ## Registers of one unit -/

section
variable {s : State} {src : Writer} {n m : Nat} {w : BitVec 32}

theorem exec_nrctlWrite (h : s.input = .nrctlWrite src n w) : exec .nrctlWrite s = .next (s.writeNrctl src n w) := by
  show execNrctlWrite s = _
  rw [execNrctlWrite, h]

theorem exec_mqctlWrite (h : s.input = .mqctlWrite src n w) : exec .mqctlWrite s = .next (s.writeMqctl src n w) := by
  show execMqctlWrite s = _
  rw [execMqctlWrite, h]

theorem exec_hlinWrite (h : s.input = .hlinWrite src n w) : exec .hlinWrite s = .next (s.writeHlin src n w) := by
  show execHlinWrite s = _
  rw [execHlinWrite, h]

theorem exec_xctlWrite (h : s.input = .xctlWrite src n m w) : exec .xctlWrite s = .next (s.writeXctl src n m w) := by
  show execXctlWrite s = _
  rw [execXctlWrite, h]

/-- The fields that a write of `nrctl` writes, and the level that it does not (R20). -/
theorem nrctlWrite_writes (h : s.input = .nrctlWrite src n w) : if src ≠ .other then
    ∃ t : State, exec .nrctlWrite s = .next t ∧ (t.region n).nrctl.toNat % 2 ^ 16 = w.toNat % 2 ^ 16 ∧
      bits (t.region n).nrctl.toNat 20 20 = bits w.toNat 20 20 ∧ bits (t.region n).nrctl.toNat 19 16 = bits (s.region n).nrctl.toNat 19 16
    else exec .nrctlWrite s = .next s := by
  refine guarded_write (exec_nrctlWrite h) src.isService_iff fun _ => ?_
  rw [State.region_onRegion_same, mod_two_pow_eq_bits _ 15, mod_two_pow_eq_bits _ 15]
  refine ⟨?_, ?_, ?_⟩ <;> rw [bits_ofNat _ (by omega)]
  · rw [bits_setBits_disjoint _ _ (by omega) (by omega), bits_setBits_same _ _ (by omega)]
    exact mod_two_pow_eq_bits _ 15
  · rw [bits_setBits_same _ _ (by omega)]
    exact Nat.mod_eq_of_lt (bits_lt ..)
  · rw [bits_setBits_disjoint _ _ (by omega) (by omega), bits_setBits_disjoint _ _ (by omega) (by omega)]

theorem mqctlWrite_writes (h : s.input = .mqctlWrite src n w) : if src ≠ .other then
    ∃ t : State, exec .mqctlWrite s = .next t ∧ (t.core n).mqwt = w.toNat % 16 ∧ (t.core n).muq = (s.core n).muq
    else exec .mqctlWrite s = .next s :=
  guarded_write (exec_mqctlWrite h) src.isService_iff fun _ => by simp

theorem hlinWrite_writes (h : s.input = .hlinWrite src n w) : if src = .control 0 ∧ s.phase = .stepping 10 then
    ∃ t : State, exec .hlinWrite s = .next t ∧ look 0 t.hlin n = w &&& 0x3F else exec .hlinWrite s = .next s :=
  guarded_write (exec_hlinWrite h) (by simp [Writer.isControl_iff]) fun _ => look_put_same ..

theorem State.array_onArray_same (s : State) (c a : Nat) (f : XArray → XArray) :
    (s.onArray c a f).array c a = f (s.array c a) := by
  rw [State.array, State.onArray, State.cluster_onCluster_same]
  exact look_change_same ..

theorem xctlWrite_writes (h : s.input = .xctlWrite src n m w) : if src = .control (regionOf (clusterCore n 0)) then
    ∃ t : State, exec .xctlWrite s = .next t ∧ (t.array n m).xctl = w &&& 0x1FFFF else exec .xctlWrite s = .next s :=
  guarded_write (exec_xctlWrite h) (src.isControl_iff _) fun _ => by rw [State.array_onArray_same]

end

/-! ## The control register of a port (R51) -/

section
variable {s : State} {src : Writer} {p : Nat}

theorem exec_fpctlEn {en : Bool} (h : s.input = .fpctlEn src p en) : exec .fpctlEn s = .next (s.writeFpctlEn src p en) := by
  show execFpctlEn s = _
  rw [execFpctlEn, h]

theorem exec_fpctlDown (h : s.input = .fpctlDown src p) : exec .fpctlDown s = .next (s.writeFpctlDown src p) := by
  show execFpctlDown s = _
  rw [execFpctlDown, h]

theorem fpctlDown_writes (h : s.input = .fpctlDown src p) : if src = .control (portRegion p) then
    ∃ t : State, exec .fpctlDown s = .next t ∧ bits (t.port p).fpctl.toNat 3 2 = 0 ∧ (t.port p).fpctl.getLsbD 1 = true
    else exec .fpctlDown s = .next s := by
  refine guarded_write (exec_fpctlDown h) (src.isControl_iff _) fun _ => ?_
  rw [State.portDown_fpctl, State.port_onPort_same]
  refine ⟨bits_fpctlIn _ (by omega), ?_⟩
  rw [getLsbD_fpctlIn _ _ (by omega), BitVec.getLsbD_or]
  exact Bool.or_true _

/-- A port that is let train takes en, and trains where it is down or has failed. -/
theorem State.writeFpctlEn_on (hc : src = .control (portRegion p)) :
    let t := s.writeFpctlEn src p true
    (t.port p).fpctl.getLsbD 0 = true ∧
      (bits (s.port p).fpctl.toNat 3 2 = 0 ∨ bits (s.port p).fpctl.toNat 3 2 = 3 → bits (t.port p).fpctl.toNat 3 2 = 1) := by
  dsimp only
  rw [State.writeFpctlEn, if_pos ((src.isControl_iff _).mpr hc)]
  dsimp only
  rw [if_pos rfl]
  split
  · rw [State.setPortState_fpctl, State.port_onPort_same, State.port_onPort_same]
    refine ⟨?_, fun _ => bits_fpctlIn _ (by omega)⟩
    rw [getLsbD_fpctlIn _ _ (by omega)]
    simp
  · next hd =>
    rw [State.port_onPort_same]
    exact ⟨by simp, fun hs => absurd hs (by simpa using hd)⟩

/-- A port that is no longer let train gives up en, and finishes its replay buffer first. -/
theorem State.writeFpctlEn_off (hc : src = .control (portRegion p)) :
    let t := s.writeFpctlEn src p false
    (t.port p).fpctl.getLsbD 0 = false ∧ ((s.port p).replay ≠ [] → (t.port p).finishing = true) := by
  dsimp only
  rw [State.writeFpctlEn, if_pos ((src.isControl_iff _).mpr hc)]
  dsimp only
  rw [if_neg Bool.false_ne_true, State.port_onPort_same]
  split
  · next hr =>
    refine ⟨?_, fun h => absurd hr h⟩
    split
    · rw [State.port_onPort_same]
      simp
    · rw [State.portDown_fpctl, getLsbD_fpctlIn _ _ (by omega), State.port_onPort_same]
      simp
  · rw [State.port_onPort_same, State.port_onPort_same]
    exact ⟨by simp, fun _ => rfl⟩

theorem fpctlEn_writes {en : Bool} (h : s.input = .fpctlEn src p en) : if src = .control (portRegion p) then
    ∃ t : State, exec .fpctlEn s = .next t ∧ (t.port p).fpctl.getLsbD 0 = en ∧
      (en = true → bits (s.port p).fpctl.toNat 3 2 = 0 ∨ bits (s.port p).fpctl.toNat 3 2 = 3 → bits (t.port p).fpctl.toNat 3 2 = 1) ∧
      (en = false → (s.port p).replay ≠ [] → (t.port p).finishing = true)
    else exec .fpctlEn s = .next s := by
  rw [exec_fpctlEn h]
  split
  · next hc =>
    cases en with
    | true => exact ⟨_, rfl, (State.writeFpctlEn_on hc).1, fun _ => (State.writeFpctlEn_on hc).2, nofun⟩
    | false => exact ⟨_, rfl, (State.writeFpctlEn_off hc).1, nofun, fun _ => (State.writeFpctlEn_off hc).2⟩
  · next hc => rw [State.writeFpctlEn, if_neg fun h => hc ((src.isControl_iff _).mp h)]

end

/-! ## Injected errors (R466) -/

/-- Where an injection of one bit or of poison strikes a sector of HBM: its slice's copy, if there is one. -/
def State.sectorPlace (s : State) (pa : Nat) : Store :=
  if (look ({} : Line) s.lines (pa / 128)).valid.getLsbD (pa / 32 % 4) = true then .slice (pa / 32 * 32) else .memory (pa / 32 * 32)

theorem State.strikePlace_hbm (s : State) {pa : Nat} (b : Nat) (h : pa < hbmEnd) :
    s.strikePlace pa b = some (s.sectorPlace pa, b) := by
  rw [State.strikePlace, if_pos h]
  rfl

theorem State.sectorPlace_cases (s : State) (pa : Nat) :
    s.sectorPlace pa = .slice (pa / 32 * 32) ∨ s.sectorPlace pa = .memory (pa / 32 * 32) := by
  rw [State.sectorPlace]
  split
  · exact .inl rfl
  · exact .inr rfl

theorem State.sectorPlace_not_register (s : State) (pa k r : Nat) : (s.sectorPlace pa).isRegister k r = false := by
  rcases s.sectorPlace_cases pa with h | h <;> rw [h] <;> rfl

/-- The copies of a line in cache portions are dropped: the errors, memory and the granules stay. -/
theorem State.invalidate_keeps (s : State) (pa : Nat) (me : Option Nat) :
    (s.invalidate pa me).flips = s.flips ∧ (s.invalidate pa me).mem = s.mem := by
  rw [State.invalidate]
  split <;> exact ⟨rfl, rfl⟩

/-- The first error that strikes a place. -/
theorem State.strike_fresh (s : State) (at_ : Store) (b : Nat) (h : ∀ f ∈ s.flips, f.at_ ≠ at_) :
    ⟨at_, 1, [b]⟩ ∈ (s.strike at_ [b]).flips := by
  have ho : (s.flips.find? fun f => f.at_ = at_) = none := by simpa using h
  simp [State.strike, ho]

theorem State.strike_mem (s : State) (at_ : Store) (places : List Nat) : (s.strike at_ places).mem = s.mem := by
  simp only [State.strike, apply_ite State.mem, ite_self]

/-- An injection of kind 0 into a sector of HBM flips its bit in what `u` is, the state after the copies of the line are dropped. -/
theorem State.injectFault_bit (s : State) {pa b : Nat} (c : Nat) (h : pa < hbmEnd) (hb : b < 256) :
    ∃ u : State, u.flips = s.flips ∧ u.mem = s.mem ∧ s.injectFault 0 pa b c = (0, u.strike (s.sectorPlace pa) [b]) := by
  have hq : pa / 32 * 32 < hbmEnd := by omega
  rw [State.injectFault, s.strikePlace_hbm b h]
  rcases s.sectorPlace_cases pa with hp | hp <;> rw [hp]
  · exact ⟨s, rfl, rfl, by simp [Nat.not_le.mpr hb]⟩
  · exact ⟨s.invalidate pa none, (s.invalidate_keeps pa none).1, (s.invalidate_keeps pa none).2, by simp [Nat.not_le.mpr hb, hq]⟩

/-- An injection of kind 2 poisons a sector of HBM. -/
theorem State.injectFault_poison (s : State) {pa : Nat} (b c : Nat) (h : pa < hbmEnd) :
    ∃ u : State, s.injectFault 2 pa b c = (0, u.poison (pa / 32 * 32)) := by
  have hq : pa / 32 * 32 < hbmEnd := by omega
  rw [State.injectFault, s.strikePlace_hbm b h]
  rcases s.sectorPlace_cases pa with hp | hp <;> rw [hp]
  · exact ⟨s, by simp⟩
  · exact ⟨s.invalidate pa none, by simp [hq]⟩

theorem State.poison_granule (s : State) (pa : Nat) : ((s.poison (pa / 32 * 32)).granule pa).poison = true := by
  rw [State.poison, State.granule_onGranule, if_pos (by omega)]

/-- `finject` of kinds 0 to 2 at a service core injects its fault and writes the status of the injection. -/
theorem finject_ready {s : State} {gd gs1 : RegNo} (la : Look) {sel : BitVec 2} (hl : levelOf s.cur = .s) (hr : s.Readable gs1)
    (hw : s.Writable gd) (hb : (s.value gs1).tag ≠ .bounded) (hs : sel ≠ 3) (hx : (s.value gs1).data.toNat < 2 ^ 63) :
    let x := (s.value gs1).data.toNat
    let i := s.injectFault sel.toNat (bits x 46 0) (bits x 54 47) (bits x 62 55)
    exec (.finject la gd gs1 sel) s = .next ((i.2.writeReg i.2.cur gd.toNat (exactData i.1)).retire la.toNat) := by
  have h1 : atLevels [.s] s = .ok ((), s) := atLevels_ok (by simp [hl])
  have h2 : enter onCores [gs1] [gd] s = .ok ((), s) :=
    enter_ready (by simp [hl, onCores]) (by simpa using hr) (by simpa using hw)
  have hx' : (s.here.reg gs1.toNat).data.toNat / 2 ^ 63 = 0 := Nat.div_eq_of_lt hx
  show execFinject la gd gs1 sel s = _
  refine settle_ok ?_
  simp only [if_neg hs, Act.bind_ok h1, Act.bind_ok h2, Act.bind_ok (exactSource_ready hr hb), hx', bne_self_eq_false,
    Bool.false_eq_true, if_false, Act.bind_apply, Act.get_apply, Act.set_apply, Act.result_apply, Act.retire_apply]
  rfl

section
variable {s : State} {gd gs1 : RegNo} (la : Look)

/-- An injection of kind 0 into a sector of HBM that no error has struck flips the bit that it names. -/
theorem finject_strikes (hl : levelOf s.cur = .s) (hr : s.Readable gs1) (hw : s.Writable gd) (hb : (s.value gs1).tag ≠ .bounded)
    (hx : (s.value gs1).data.toNat < 2 ^ 63) (hpa : (s.value gs1).data.toNat % 2 ^ 47 < hbmEnd)
    (hf : ∀ f ∈ s.flips, f.at_ ≠ s.sectorPlace ((s.value gs1).data.toNat % 2 ^ 47)) :
    ∃ t : State, exec (.finject la gd gs1 0) s = .next t ∧ (gd ≠ 0 → t.value gd = exactData 0) ∧
      ⟨s.sectorPlace ((s.value gs1).data.toNat % 2 ^ 47), 1, [(s.value gs1).data.toNat / 2 ^ 47 % 2 ^ 8]⟩ ∈ t.flips ∧
      t.mem = s.mem := by
  rw [mod_two_pow_eq_bits _ 46] at hpa hf ⊢
  obtain ⟨u, huf, hum, hi⟩ := s.injectFault_bit (bits (s.value gs1).data.toNat 62 55) hpa (bits_lt (s.value gs1).data.toNat 54 47)
  refine ⟨_, (finject_ready la hl hr hw hb (by decide) hx).trans (by rw [show (0 : BitVec 2).toNat = 0 from rfl, hi]), ?_, ?_, ?_⟩
  · intro hgd
    obtain ⟨-, -, hv, -, -⟩ := State.wrote_retire (u.strike _ _) gd (exactData 0) la.toNat
    rw [hv, if_pos ⟨rfl, hgd⟩]
  · rw [State.retire_flips, State.writeReg]
    have hm := u.strike_fresh _ (bits (s.value gs1).data.toNat 54 47) (huf ▸ hf)
    split
    · exact hm
    · exact List.mem_filter.mpr ⟨hm, by simp [State.sectorPlace_not_register]⟩
  · rw [State.retire_mem, State.writeReg_mem, ← hum]
    exact State.strike_mem ..

/-- An injection of kind 2 poisons the sector of HBM that it names. -/
theorem finject_poisons (hl : levelOf s.cur = .s) (hr : s.Readable gs1) (hw : s.Writable gd) (hb : (s.value gs1).tag ≠ .bounded)
    (hx : (s.value gs1).data.toNat < 2 ^ 63) (hpa : (s.value gs1).data.toNat % 2 ^ 47 < hbmEnd) :
    ∃ t : State, exec (.finject la gd gs1 2) s = .next t ∧ (gd ≠ 0 → t.value gd = exactData 0) ∧
      (t.granule ((s.value gs1).data.toNat % 2 ^ 47)).poison = true := by
  rw [mod_two_pow_eq_bits _ 46] at hpa ⊢
  obtain ⟨u, hi⟩ := s.injectFault_poison (bits (s.value gs1).data.toNat 54 47) (bits (s.value gs1).data.toNat 62 55) hpa
  refine ⟨_, (finject_ready la hl hr hw hb (by decide) hx).trans (by rw [show (2 : BitVec 2).toNat = 2 from rfl, hi]), ?_, ?_⟩
  · intro hgd
    obtain ⟨-, -, hv, -, -⟩ := State.wrote_retire (u.poison _) gd (exactData 0) la.toNat
    rw [hv, if_pos ⟨rfl, hgd⟩]
  · rw [State.granule, State.retire_granules, State.writeReg_granules]
    exact u.poison_granule _

end

/-- Settles O40: each write is guarded by its writer, and has the effect that its register's own lemma states. -/
theorem unitRegisters : Obligations.UnitRegisters := by
  intro s src n m v w
  refine ⟨?_, ⟨sshareWrite_writes, hshareWrite_writes, fshareWrite_writes⟩, nrctlWrite_writes, mqctlWrite_writes, hlinWrite_writes,
    xctlWrite_writes, fun en => fpctlEn_writes, fpctlDown_writes, fun x => registerWrite_ctxbase, ?_⟩
  · simp only [List.forall_mem_cons, List.not_mem_nil, false_imp_iff, implies_true, and_true]
    exact ⟨ctxbaseWrite_writes, eltabWrite_writes, rtabWrite_writes⟩
  · intro la gd gs1 hl hr hw hb
    dsimp only
    exact fun hx hpa hf => ⟨finject_strikes la hl hr hw hb hx hpa hf, finject_poisons la hl hr hw hb hx hpa⟩

end Sys2Proof.Machine
end

section
/-! SUPPORT. Network regions, grids and soft errors under the events of the package. -/

namespace Sys2Proof.Machine

open Sys2Proof

/-- A run of changes over a list reaches `Q` from `P` when the change at one element makes `Q` of `P`, the changes before it keep
`P`, and every change keeps `Q`. -/
theorem foldl_reaches {α β : Type} {P Q : β → Prop} {f : β → α → β} {l : List α} {a : α} {b : β} (ha : a ∈ l) (hb : P b)
    (keep : ∀ b x, x ≠ a → P b → P (f b x)) (make : ∀ b, P b → Q (f b a)) (stay : ∀ b x, Q b → Q (f b x)) :
    Q (l.foldl f b) := by
  have hstay (l : List α) (b : β) (hq : Q b) : Q (l.foldl f b) :=
    List.foldlRecOn (motive := Q) l f hq fun b hb x _ => stay b x hb
  induction l generalizing b with
  | nil => exact absurd ha List.not_mem_nil
  | cons x l ih =>
    by_cases hx : x = a
    · subst hx
      exact hstay l _ (make b hb)
    · exact ih ((List.mem_cons.mp ha).resolve_left (Ne.symm hx)) (keep b x hx hb)

/-! ## Levels of a network region (R19, R20) -/

theorem Region.cur_lt (g : Region) : g.cur < 16 := bits_lt ..

/-- The level that has been written into `nrctl`. -/
theorem Region.cur_of_nrctl {g : Region} {v level : Nat} (h : g.nrctl = BitVec.ofNat 32 (setBits v 19 16 level)) (hl : level < 16) :
    g.cur = level := by
  rw [Region.cur, h, bits_ofNat _ (by omega), bits_setBits_same _ _ (by omega)]
  exact Nat.mod_eq_of_lt hl

theorem State.region_onRegion (s : State) (r q : Nat) (f : Region → Region) :
    (s.onRegion r f).region q = if r = q then f (s.region r) else s.region q := look_change ..

@[simp] theorem State.region_emit (s : State) (e : Event) (r : Nat) : (s.emit e).region r = s.region r := rfl

/-- The level next to the present one, towards a level that is wanted. -/
def Region.towards (g : Region) (want : Nat) : Nat := if g.cur < want then g.cur + 1 else g.cur - 1

/-- A region that begins a step runs at the lower of its two levels until the step is done. -/
def Region.stepTo (g : Region) (level : Nat) : Region := { (g.withCur (min g.cur level)) with target := some level }

theorem Region.stepTo_limit (g : Region) (level : Nat) : (g.stepTo level).limit = g.limit := by
  cases g
  rfl

theorem Region.stepTo_low (g : Region) (level : Nat) : (g.stepTo level).low = g.low := by
  cases g
  rfl

theorem Region.stepTo_cur (g : Region) (level : Nat) : (g.stepTo level).cur = min g.cur level :=
  Region.cur_of_nrctl rfl (lt_of_le_of_lt (Nat.min_le_left ..) g.cur_lt)

theorem State.steer_eq (s : State) (r want : Nat) : s.steer r want =
    if ((s.region r).target.isSome || decide (want = (s.region r).cur)) = true then s
    else (s.onRegion r fun g => g.stepTo ((s.region r).towards want)).emit (.levelStepDone r) := rfl

theorem State.steer_idle (s : State) {r want : Nat} (h : want = (s.region r).cur) : s.steer r want = s := by
  rw [State.steer_eq, if_pos (by simp [h])]

theorem State.steer_step (s : State) {r want : Nat} (ht : (s.region r).target = none) (h : want ≠ (s.region r).cur) :
    s.steer r want = (s.onRegion r fun g => g.stepTo ((s.region r).towards want)).emit (.levelStepDone r) := by
  rw [State.steer_eq, if_neg (by simp [ht, h])]

theorem State.steer_region_ne (s : State) {r q : Nat} (want : Nat) (h : r ≠ q) : (s.steer r want).region q = s.region q := by
  rw [State.steer_eq]
  split
  · rfl
  · rw [State.region_emit, State.region_onRegion, if_neg h]

theorem State.steer_limit (s : State) (r want : Nat) : ((s.steer r want).region r).limit = (s.region r).limit := by
  rw [State.steer_eq]
  split
  · rfl
  · rw [State.region_emit, State.region_onRegion_same, Region.stepTo_limit]

theorem State.steer_keeps (s : State) (r want : Nat) : (s.steer r want).limiter = s.limiter ∧ (s.steer r want).mem = s.mem := by
  rw [State.steer_eq]
  split <;> exact ⟨rfl, rfl⟩

/-- The limit of one region set, and a step begun where the region stands above its ceiling. -/
def State.limitRegion (f : Region → Nat) (s : State) (r : Nat) : State :=
  let t := s.onRegion r fun g => { g with limit := f g }
  t.steer r (min (t.region r).cur (t.region r).ceiling)

theorem State.limitRegions_eq (s : State) (f : Region → Nat) : s.limitRegions f = (List.range 16).foldl (State.limitRegion f) s := rfl

theorem State.limitRegion_ne (s : State) (f : Region → Nat) {r q : Nat} (h : r ≠ q) :
    (s.limitRegion f r).region q = s.region q :=
  (State.steer_region_ne _ _ h).trans ((State.region_onRegion ..).trans (if_neg h))

theorem State.limitRegion_same (s : State) (f : Region → Nat) (r : Nat) : ((s.limitRegion f r).region r).limit = f (s.region r) :=
  (State.steer_limit ..).trans (congrArg Region.limit (State.region_onRegion_same ..))

/-- The limit of every region follows from the region as it was: the others' steps do not touch it. -/
theorem State.limitRegions_limit (s : State) (f : Region → Nat) {r : Nat} (h : r < 16) :
    ((s.limitRegions f).region r).limit = f (s.region r) := by
  have hrun (l : List Nat) (u : State) (hu : r ∉ l) : (l.foldl (State.limitRegion f) u).region r = u.region r :=
    foldl_keeps (fun t : State => t.region r) _ _ _ fun t q hq => t.limitRegion_ne f fun e => hu (e ▸ hq)
  obtain ⟨l₁, l₂, hl⟩ := List.append_of_mem (List.mem_range.mpr h)
  have hd : (l₁ ++ r :: l₂).Nodup := hl ▸ List.nodup_range
  obtain ⟨-, h2, h12⟩ := List.nodup_append.mp hd
  rw [State.limitRegions_eq, hl, List.foldl_append, List.foldl_cons, hrun l₂ _ (List.nodup_cons.mp h2).1, State.limitRegion_same,
    hrun l₁ s fun h1 => h12 r h1 r List.mem_cons_self rfl]

theorem State.limitRegions_keeps (s : State) (f : Region → Nat) :
    (s.limitRegions f).limiter = s.limiter ∧ (s.limitRegions f).mem = s.mem :=
  ⟨foldl_keeps State.limiter _ _ _ fun _ _ _ => (State.steer_keeps ..).1,
    foldl_keeps State.mem _ _ _ fun _ _ _ => (State.steer_keeps ..).2⟩

/-- The records of the stages leave the regions, the limiter and memory. -/
theorem State.limiterRecords_keeps (s : State) (stages : List Nat) (entered : Bool) (cause : Nat) :
    let t := s.limiterRecords stages entered cause
    t.regions = s.regions ∧ t.limiter = s.limiter ∧ t.mem = s.mem :=
  ⟨foldl_keeps State.regions _ _ _ fun _ _ _ => State.openRecord_regions ..,
    foldl_keeps State.limiter _ _ _ fun _ _ _ => State.openRecord_limiter ..,
    foldl_keeps State.mem _ _ _ fun _ _ _ => State.openRecord_mem ..⟩

/-! ## Grids -/

theorem State.grid_onGrid (s : State) (n g : Nat) (f : Grid → Grid) :
    (s.onGrid n f).grid g = if n = g then (s.grid g).map f else s.grid g := by
  have hmap (l : List (Nat × Grid)) : (l.map fun e => if e.1 = n then (e.1, f e.2) else e).find? (fun e => e.1 = g) =
      (l.find? fun e => e.1 = g).map fun e => if e.1 = n then (e.1, f e.2) else e := by
    rw [List.find?_map]
    congr 2
    funext e
    by_cases he : e.1 = n <;> simp [he]
  rw [State.grid, State.onGrid, hmap, State.grid]
  cases hf : s.grids.find? fun e => e.1 = g with
  | none => simp
  | some e =>
    have he : e.1 = g := by simpa using List.find?_some hf
    by_cases hn : n = g
    · simp [hn, he]
    · simp [hn, he, Ne.symm hn]

theorem State.grid_onGrid_same {s : State} {g : Nat} {x : Grid} (f : Grid → Grid) (h : s.grid g = some x) :
    (s.onGrid g f).grid g = some (f x) := by
  rw [State.grid_onGrid, if_pos rfl, h, Option.map_some]

theorem State.grid_onGrid_ne (s : State) {n g : Nat} (f : Grid → Grid) (h : n ≠ g) : (s.onGrid n f).grid g = s.grid g := by
  rw [State.grid_onGrid, if_neg h]

/-- A live grid stands in the table of grids, and its number among the table's keys. -/
theorem State.grid_entry {s : State} {g : Nat} {x : Grid} (h : s.grid g = some x) : (g, x) ∈ s.grids := by
  rw [State.grid, Option.map_eq_some_iff] at h
  obtain ⟨e, he, rfl⟩ := h
  have hk : e.1 = g := by simpa using List.find?_some he
  exact hk ▸ List.mem_of_find?_eq_some he

theorem State.grid_key {s : State} {g : Nat} {x : Grid} (h : s.grid g = some x) : g ∈ s.grids.map (·.1) :=
  List.mem_map.mpr ⟨(g, x), State.grid_entry h, rfl⟩

/-! ### A grid that the thermal limit stops (R23) -/

theorem State.thermalStop_running {s : State} {g : Nat} {x : Grid} (h : s.grid g = some x) (hx : x.st = .running) :
    s.thermalStop g = ((s.onGrid g fun x => { x with st := .stopping, outcome := preemptBusy }).emit (.preemptBoundary g)).onGrid g
      fun x => { x with thermal := true } := by
  simp [State.thermalStop, State.preempt, h, hx]

theorem State.thermalStop_idle {s : State} {g : Nat} (h : ∀ x, s.grid g = some x → x.st ≠ .running) : s.thermalStop g = s := by
  rw [State.thermalStop]
  split
  · next x hx => rw [if_neg (by simpa using h x hx)]
  · rfl

/-- Stopping one grid changes that grid and the agenda alone, and adds to the agenda alone. -/
theorem State.thermalStop_keeps (s : State) (n : Nat) : (s.thermalStop n).limiter = s.limiter ∧
    (∀ g, n ≠ g → (s.thermalStop n).grid g = s.grid g) ∧ ∀ e ∈ s.agenda, e ∈ (s.thermalStop n).agenda := by
  by_cases h : ∃ x, s.grid n = some x ∧ x.st = .running
  · obtain ⟨x, hx, hr⟩ := h
    rw [State.thermalStop_running hx hr]
    exact ⟨rfl, fun g hg => by rw [State.grid_onGrid_ne _ _ hg, State.grid_emit, State.grid_onGrid_ne _ _ hg], fun e he => List.mem_append_left _ he⟩
  · rw [State.thermalStop_idle fun x hx hr => h ⟨x, hx, hr⟩]
    exact ⟨rfl, fun _ _ => rfl, fun _ => id⟩

/-- A grid is on its way to a stop that the thermal limit has asked for. -/
def State.ThermallyStopped (s : State) (g : Nat) : Prop :=
  ∃ y, s.grid g = some y ∧ y.st = .stopping ∧ y.thermal = true ∧ .preemptBoundary g ∈ s.agenda

theorem State.thermalStop_stops {s : State} {g : Nat} {x : Grid} (h : s.grid g = some x) (hx : x.st = .running) :
    (s.thermalStop g).ThermallyStopped g := by
  rw [State.thermalStop_running h hx]
  have hg : ((s.onGrid g fun x => { x with st := .stopping, outcome := preemptBusy }).emit (.preemptBoundary g)).grid g =
      some { x with st := .stopping, outcome := preemptBusy } := (State.grid_emit ..).trans (State.grid_onGrid_same _ h)
  exact ⟨_, State.grid_onGrid_same _ hg, rfl, rfl, List.mem_append_right _ (List.mem_singleton.mpr rfl)⟩

theorem State.ThermallyStopped.stays {s : State} {g : Nat} (h : s.ThermallyStopped g) (n : Nat) : (s.thermalStop n).ThermallyStopped g := by
  obtain ⟨y, hy, hst, hth, hag⟩ := h
  by_cases hn : n = g
  · subst hn
    rw [State.thermalStop_idle fun x hx => by rw [hy] at hx; injection hx with hx; rw [← hx, hst]; decide]
    exact ⟨y, hy, hst, hth, hag⟩
  · obtain ⟨-, hg, ha⟩ := s.thermalStop_keeps n
    exact ⟨y, (hg g hn).trans hy, hst, hth, ha _ hag⟩

/-- All running grids are stopped when every grid is visited. -/
theorem State.thermalStop_all {s : State} {g : Nat} {x : Grid} (h : s.grid g = some x) (hx : x.st = .running) :
    ((s.grids.map (·.1)).foldl State.thermalStop s).ThermallyStopped g :=
  foldl_reaches (f := State.thermalStop) (P := fun t => t.grid g = some x) (Q := fun t => t.ThermallyStopped g) (State.grid_key h) h
    (fun t n hn ht => ((t.thermalStop_keeps n).2.1 g hn).trans ht)
    (fun _ ht => State.thermalStop_stops ht hx) fun _ n ht => ht.stays n

/-! ### A grid that proceeds after the thermal limit (R23) -/

/-- What the end of the thermal limit does for one entry of the table of grids. -/
def State.thermalProceed (s : State) (e : Nat × Grid) : State :=
  if e.2.st == .placing then s.emit (.placeGrid e.1)
  else if e.2.st == .saved && e.2.thermal then s.thermalResume e.1 else s

/-- A grid is in Placing. -/
def State.Placing (s : State) (g : Nat) : Prop := ∃ y, s.grid g = some y ∧ y.st = .placing

theorem State.thermalResume_ne (s : State) {n g : Nat} (h : n ≠ g) : (s.thermalResume n).grid g = s.grid g := by
  rw [State.thermalResume, State.grid_emit, State.grid_onGrid_ne _ _ h]

theorem State.thermalResume_same {s : State} {g : Nat} {x : Grid} (h : s.grid g = some x) : (s.thermalResume g).Placing g := by
  rw [State.Placing, State.thermalResume, State.grid_emit, State.grid_onGrid_same _ h]
  exact ⟨_, rfl, rfl⟩

theorem State.thermalProceed_keeps (s : State) (e : Nat × Grid) :
    (s.thermalProceed e).limiter = s.limiter ∧ ∀ a ∈ s.agenda, a ∈ (s.thermalProceed e).agenda := by
  rw [State.thermalProceed]
  split
  · exact ⟨rfl, fun a ha => List.mem_append_left _ ha⟩
  · split
    · exact ⟨rfl, fun a ha => List.mem_append_left _ ha⟩
    · exact ⟨rfl, fun _ => id⟩

/-- No entry takes a grid out of the table, nor out of Placing. -/
theorem State.thermalProceed_some {s : State} {g : Nat} {x : Grid} (h : s.grid g = some x) (e : Nat × Grid) :
    ∃ y, (s.thermalProceed e).grid g = some y ∧ (x.st = .placing → y.st = .placing) := by
  rw [State.thermalProceed]
  split
  · exact ⟨x, h, id⟩
  · split
    · by_cases he : e.1 = g
      · obtain ⟨y, hy, hp⟩ := State.thermalResume_same h
        exact ⟨y, he ▸ hy, fun _ => hp⟩
      · exact ⟨x, (s.thermalResume_ne he).trans h, id⟩
    · exact ⟨x, h, id⟩

theorem State.Placing.stays {s : State} {g : Nat} (h : s.Placing g) (e : Nat × Grid) : (s.thermalProceed e).Placing g := by
  obtain ⟨x, hx, hp⟩ := h
  obtain ⟨y, hy, hxy⟩ := State.thermalProceed_some hx e
  exact ⟨y, hy, hxy hp⟩

/-- A grid that waits in Placing, and one that the limit saved, are placed when every grid is visited. -/
theorem State.thermalProceed_all {s : State} {g : Nat} {x : Grid} (h : s.grid g = some x)
    (hx : x.st = .placing ∨ x.st = .saved ∧ x.thermal = true) :
    let t := s.grids.foldl State.thermalProceed s
    .placeGrid g ∈ t.agenda ∧ t.Placing g := by
  have stay (t : State) (e : Nat × Grid) (ht : .placeGrid g ∈ t.agenda ∧ t.Placing g) :
      .placeGrid g ∈ (t.thermalProceed e).agenda ∧ (t.thermalProceed e).Placing g :=
    ⟨(t.thermalProceed_keeps e).2 _ ht.1, ht.2.stays e⟩
  rcases hx with hp | ⟨hs, hth⟩
  · refine foldl_reaches (f := State.thermalProceed) (P := fun t => t.Placing g)
      (Q := fun t => .placeGrid g ∈ t.agenda ∧ t.Placing g) (State.grid_entry h) ⟨x, h, hp⟩ (fun t e _ ht => ht.stays e)
      (fun t ht => ⟨?_, ht.stays _⟩) stay
    rw [State.thermalProceed, hp]
    exact List.mem_append_right _ (List.mem_singleton.mpr rfl)
  · refine foldl_reaches (f := State.thermalProceed) (P := fun t => ∃ y, t.grid g = some y)
      (Q := fun t => .placeGrid g ∈ t.agenda ∧ t.Placing g) (State.grid_entry h) ⟨x, h⟩
      (fun t e _ ⟨y, hy⟩ => (State.thermalProceed_some hy e).imp fun _ => And.left) (fun t ⟨y, hy⟩ => ?_) stay
    rw [State.thermalProceed, hs, hth]
    exact ⟨List.mem_append_right _ (List.mem_singleton.mpr rfl), State.thermalResume_same hy⟩

/-! ### A grid that a failed crossing ends (R94) -/

/-- The end of one grid leaves every other grid. -/
theorem State.endGrid_ne (s : State) {n g : Nat} (e : EndCause) (h : n ≠ g) : (s.endGrid n e).grid g = s.grid g := by
  rw [State.endGrid]
  split
  · rfl
  · split_ifs <;> simp [State.grid_onGrid_ne _ _ h]

/-- The first end of a grid stands. -/
theorem State.endGrid_ended {s : State} {g : Nat} {x : Grid} (e : EndCause) (h : s.grid g = some x) (hx : x.ended ≠ none) :
    s.endGrid g e = s := by
  simp [State.endGrid, h, Option.isSome_iff_ne_none.mpr hx]

/-- A grid is on its way to the end that a failed crossing gives it. -/
def State.CrossingEnded (s : State) (g : Nat) : Prop :=
  ∃ y e, s.grid g = some y ∧ y.st = .stopping ∧ y.ended = some e ∧ e.status = 1 ∧ e.cause = Cause.crossingDown.code

/-- The end of a grid by a failed crossing. -/
def State.crossingEnd (s : State) (g : Nat) : State := s.endGrid g { status := 1, cause := Cause.crossingDown.code }

theorem State.crossingEnd_running {s : State} {g : Nat} {x : Grid} (h : s.grid g = some x) (hr : x.st = .running)
    (he : x.ended = none) (hc : x.rects ≠ []) : (s.crossingEnd g).CrossingEnded g := by
  simp [State.CrossingEnded, State.crossingEnd, State.endGrid, State.grid_onGrid, h, hr, he, hc]

theorem State.CrossingEnded.stays {s : State} {g : Nat} (h : s.CrossingEnded g) (n : Nat) : (s.crossingEnd n).CrossingEnded g := by
  obtain ⟨y, e, hy, hrest⟩ := h
  by_cases hn : n = g
  · subst hn
    rw [State.crossingEnd, State.endGrid_ended _ hy (by simp [hrest.2.1])]
    exact ⟨y, e, hy, hrest⟩
  · exact ⟨y, e, (s.endGrid_ne _ hn).trans hy, hrest⟩

theorem State.crossingEnd_all {s : State} {g : Nat} {x : Grid} (h : s.grid g = some x) (hr : x.st = .running)
    (he : x.ended = none) (hc : x.rects ≠ []) : ((s.grids.map (·.1)).foldl State.crossingEnd s).CrossingEnded g :=
  foldl_reaches (f := State.crossingEnd) (P := fun t => t.grid g = some x) (Q := fun t => t.CrossingEnded g) (State.grid_key h) h
    (fun t _ hn ht => (t.endGrid_ne _ hn).trans ht) (fun _ ht => State.crossingEnd_running ht hr he hc) fun _ n ht => ht.stays n

theorem State.endGrid_crossingDown (s : State) (n : Nat) (e : EndCause) : (s.endGrid n e).crossingDown = s.crossingDown := by
  rw [State.endGrid]
  split
  · rfl
  · split_ifs <;> rfl

/-! ## Soft errors (R24, R25) -/

/-- A word that is mended has no error left, every other error waits, and no byte changes. -/
theorem State.mendWord_keeps (s : State) (at_ : Store) (n : Nat) :
    (s.mendWord at_ n).flips = s.flips.filter (fun f => f.at_ != at_) ∧ (s.mendWord at_ n).mem = s.mem := by
  cases at_ with
  | slice q => rw [State.mendWord]; split_ifs <;> simp [State.corrected, State.countError, State.poison]
  | memory q => rw [State.mendWord]; split_ifs <;> simp [State.corrected, State.countBank, State.poison]
  | _ => exact ⟨rfl, rfl⟩

theorem State.scrub_mem (s : State) (p : Store → Bool) : (s.scrub p).mem = s.mem :=
  foldl_keeps State.mem _ _ _ fun t f _ => by
    split
    · exact (t.mendWord_keeps ..).2
    · rfl

/-- A scrub finds every error whose place it visits, and brings none. -/
theorem State.mem_scrub {s : State} {p : Store → Bool} {f : Flip} (h : f ∈ (s.scrub p).flips) :
    f ∈ s.flips ∧ p f.at_ = false := by
  have hsub (t : State) (g : Flip) : (if p g.at_ = true then t.mendWord g.at_ g.bits else t).flips ⊆ t.flips := by
    split
    · rw [(State.mendWord_keeps ..).1]
      exact List.filter_subset_self _
    · exact fun _ => id
  have hin : f ∈ s.flips := List.foldlRecOn (motive := fun t : State => t.flips ⊆ s.flips) s.flips
    (fun t g => if p g.at_ = true then t.mendWord g.at_ g.bits else t) (fun _ => id) (fun t ht g _ _ hq => ht (hsub t g hq)) h
  refine ⟨hin, Bool.eq_false_iff.mpr fun hp => ?_⟩
  have hgone : ∀ g ∈ (s.scrub p).flips, g.at_ ≠ f.at_ :=
    foldl_reaches (P := fun _ => True) (Q := fun t : State => ∀ g ∈ t.flips, g.at_ ≠ f.at_) hin trivial (fun _ _ _ _ => trivial)
      (fun t _ => by simp [hp, State.mendWord_keeps]) fun t g ht q hq => ht q (hsub t g hq)
  exact hgone f h rfl

/-- An error that strikes adds to the one that waits at its place. -/
theorem State.strikeMore_strikes (s : State) (at_ : Store) {n : Nat} (h : 1 ≤ n) :
    ∃ f ∈ (s.strikeMore at_ n).flips, f.at_ = at_ ∧ n ≤ f.bits := by
  rw [State.strikeMore, if_neg (by omega)]
  refine ⟨_, List.mem_cons_self, ?_, Nat.le_add_left ..⟩
  cases hf : s.flips.find? fun f => f.at_ = at_ with
  | none => rfl
  | some f => simpa using List.find?_some hf

theorem State.strikeMore_mem (s : State) (at_ : Store) (n : Nat) : (s.strikeMore at_ n).mem = s.mem := by
  rw [State.strikeMore]
  split <;> rfl

end Sys2Proof.Machine
end

section
/-! The events of the package (R17-R25, R88, R94). -/

namespace Sys2Proof.Machine

open Sys2Proof

/-! ## Governors (R19, R20) -/

section
variable {s : State} {r : Nat}

/-- The level that a governor wants at the end of a window, within the region's limits. -/
def Region.wanted (g : Region) (occupied capacity : Nat) : Nat :=
  let high := bits g.nrctl.toNat 11 8
  let low := bits g.nrctl.toNat 15 12
  let under : Prop := low < high ∧ 8 * occupied < low * capacity
  let want := if high * capacity < 8 * occupied then g.cur + 1 else if under ∧ g.low = 3 then g.cur - 1 else g.cur
  if g.pinned = true then g.ceiling else max g.floor_ (min g.ceiling want)

/-- The windows in succession below the low threshold: the fourth begins the count afresh. -/
def Region.lowWindows (g : Region) (occupied capacity : Nat) : Nat :=
  if (bits g.nrctl.toNat 15 12 < bits g.nrctl.toNat 11 8 ∧ 8 * occupied < bits g.nrctl.toNat 15 12 * capacity) ∧ g.low < 3
  then g.low + 1 else 0

theorem State.governor_eq (s : State) {r : Nat} (occupied capacity : Nat) (hl : (s.region r).low ≤ 3) :
    s.governor r occupied capacity =
      (s.onRegion r fun g => { g with low := (s.region r).lowWindows occupied capacity }).steer r
        ((s.region r).wanted occupied capacity) := by
  by_cases hu : bits (s.region r).nrctl.toNat 15 12 < bits (s.region r).nrctl.toNat 11 8 ∧
      8 * occupied < bits (s.region r).nrctl.toNat 15 12 * capacity
  · have h4 : 4 ≤ (s.region r).low + 1 ↔ (s.region r).low = 3 := by omega
    have h3 : (if (s.region r).low = 3 then 0 else (s.region r).low + 1) = if (s.region r).low < 3 then (s.region r).low + 1 else 0 := by
      split_ifs <;> omega
    simp [State.governor, Region.wanted, Region.lowWindows, hu, h4, h3]
  · have hb : (decide (bits (s.region r).nrctl.toNat 15 12 < bits (s.region r).nrctl.toNat 11 8) &&
        decide (8 * occupied < bits (s.region r).nrctl.toNat 15 12 * capacity)) = false := by simpa using hu
    simp [State.governor, Region.wanted, Region.lowWindows, hb, hu]

theorem governorWindow_steers {occupied capacity : Nat} (h : s.input = .governorWindow r occupied capacity)
    (ht : (s.region r).target = none) (hl : (s.region r).low ≤ 3) :
    let g := s.region r
    let want := g.wanted occupied capacity
    ∃ t : State, exec .governorWindow s = .next t ∧ (t.region r).low = g.lowWindows occupied capacity ∧
      if want = g.cur then (t.region r).target = none ∧ (t.region r).cur = g.cur
      else (t.region r).target = some (g.towards want) ∧ (t.region r).cur = min g.cur (g.towards want) ∧ .levelStepDone r ∈ t.agenda := by
  have hx : exec .governorWindow s = .next (s.governor r occupied capacity) := by
    show execGovernorWindow s = _
    rw [execGovernorWindow, h]
  refine ⟨_, hx, ?_⟩
  rw [State.governor_eq s occupied capacity hl]
  generalize (s.region r).wanted occupied capacity = want
  generalize (s.region r).lowWindows occupied capacity = low
  let u := s.onRegion r fun g => { g with low := low }
  have hu : u.region r = { s.region r with low := low } := State.region_onRegion_same ..
  split
  · next hw =>
    rw [State.steer_idle _ (by rw [hu]; exact hw), hu]
    exact ⟨rfl, ht, rfl⟩
  · next hw =>
    rw [State.steer_step _ (by rw [hu]; exact ht) (by rw [hu]; exact hw), State.region_emit, State.region_onRegion_same, hu]
    exact ⟨Region.stepTo_low .., rfl, Region.stepTo_cur .., List.mem_append_right _ (List.mem_singleton.mpr rfl)⟩

theorem levelStepDone_steps {n : Nat} (h : s.input = .levelStepDone r) (ht : (s.region r).target = some n) (hn : n < 16) :
    ∃ t : State, exec .levelStepDone s = .next t ∧ (t.region r).cur = n ∧ (t.region r).target = none := by
  have hx : exec .levelStepDone s = .next (s.onRegion r fun g => { (g.withCur n) with target := none }) := by
    show execLevelStepDone s = _
    rw [execLevelStepDone, h]
    dsimp only
    rw [ht]
  refine ⟨_, hx, ?_⟩
  rw [State.region_onRegion_same]
  exact ⟨Region.cur_of_nrctl rfl hn, rfl⟩

end

/-! ## The power limiter (R21, R22) -/

/-- The limiter at a stage. -/
def State.atStage (s : State) (n : Nat) : State := { s with limiter := { s.limiter with stage := n } }

/-- The stage after a sample that is above the limits or not. -/
def State.nextStage (s : State) (above : Prop) [Decidable above] : Nat :=
  let st := s.limiter.stage
  if above then (if st < 2 then st + 1 else if st = 2 ∧ (List.range 16).all (fun r => (s.region r).ceiling == 0) = true then 3 else st) else st - 1

/-- What follows from the stage that a sample has led to: its record, and the ceilings. -/
def State.applyStage (u : State) (st cause : Nat) (above : Bool) : State :=
  let v := if u.limiter.thermal || u.limiter.stage = st then u else u.limiterRecords [max u.limiter.stage st] (st < u.limiter.stage) cause
  if (2 ≤ u.limiter.stage && above) || v.limiter.thermal then v.lowerCeilings
  else if u.limiter.stage < 2 then v.freeCeilings else v

theorem State.limiterStep_eq (s : State) (watts average burst : Nat) :
    s.limiterStep watts average burst =
      (s.atStage (s.nextStage (2600 < watts ∨ 2300 < average ∨ 2300 < watts ∧ 10000 < burst))).applyStage s.limiter.stage
        (if 2600 < watts then 0 else if 2300 < average then 1 else 2)
        (2600 < watts || 2300 < average || (2300 < watts && 10000 < burst)) := by
  have hu : (if (2600 < watts || 2300 < average || (2300 < watts && 10000 < burst) : Bool) = true then
        if (s.limiter.stage = 0 || s.limiter.stage = 1 : Bool) = true then s.atStage (s.limiter.stage + 1)
        else if (s.limiter.stage = 2 && s.atFloor : Bool) = true then s.atStage 3 else s
      else if s.limiter.stage = 0 then s else s.atStage (s.limiter.stage - 1)) =
      s.atStage (s.nextStage (2600 < watts ∨ 2300 < average ∨ 2300 < watts ∧ 10000 < burst)) := by
    have hself : s.atStage s.limiter.stage = s := rfl
    have hfloor : s.atFloor = (List.range 16).all fun r => (s.region r).ceiling == 0 := rfl
    have h01 : (s.limiter.stage = 0 || s.limiter.stage = 1 : Bool) = true ↔ s.limiter.stage < 2 := by simp; omega
    simp only [State.nextStage, h01, Bool.or_eq_true, Bool.and_eq_true, decide_eq_true_eq, or_assoc, ← hfloor]
    split_ifs with h1 h2 h3 h4
    · rfl
    · rfl
    · exact hself.symm
    · rw [show s.limiter.stage - 1 = s.limiter.stage by omega, hself]
    · rfl
  exact congrArg (fun u : State => u.applyStage s.limiter.stage _ _) hu

/-- Where no thermal limit is in force, the ceilings follow the stage. -/
theorem State.applyStage_limits (u : State) (st cause : Nat) (above : Bool) (ht : u.limiter.thermal = false) :
    let t := u.applyStage st cause above
    t.limiter = u.limiter ∧ t.mem = u.mem ∧ (above = true → 2 ≤ u.limiter.stage → ∀ r < 16, (t.region r).limit = (u.region r).ceiling - 1) ∧
      (u.limiter.stage < 2 → ∀ r < 16, (t.region r).limit = 8) := by
  dsimp only [State.applyStage]
  generalize hv : (if u.limiter.thermal || u.limiter.stage = st then u else _ : State) = v
  have hk : v.regions = u.regions ∧ v.limiter = u.limiter ∧ v.mem = u.mem := by
    rw [← hv]
    split
    · exact ⟨rfl, rfl, rfl⟩
    · exact u.limiterRecords_keeps ..
  obtain ⟨hr, hl, hm⟩ := hk
  have hreg (r : Nat) : v.region r = u.region r := congrArg (look ({} : Region) · r) hr
  rw [hl, ht, Bool.or_false]
  split_ifs with h1 h2
  · obtain ⟨h2, -⟩ : 2 ≤ u.limiter.stage ∧ above = true := by simpa using h1
    refine ⟨(v.limitRegions_keeps _).1.trans hl, (v.limitRegions_keeps _).2.trans hm, fun _ _ r hr => ?_, fun h => absurd h2 (by omega)⟩
    exact (v.limitRegions_limit _ hr).trans (by rw [hreg])
  · exact ⟨(v.limitRegions_keeps _).1.trans hl, (v.limitRegions_keeps _).2.trans hm, fun _ h => absurd h (by omega),
      fun _ r hr => v.limitRegions_limit _ hr⟩
  · exact ⟨hl, hm, fun ha h => absurd (by simp [ha, h]) h1, fun h => absurd h h2⟩

section
variable {s : State}

theorem limiterSample_limits {watts average burst : Nat} (h : s.input = .limiterSample watts average burst)
    (ht : s.limiter.thermal = false) :
    let above : Prop := 2600 < watts ∨ 2300 < average ∨ 2300 < watts ∧ 10000 < burst
    let new := s.nextStage above
    ∃ t : State, exec .limiterSample s = .next t ∧ t.limiter.stage = new ∧ t.mem = s.mem ∧
      (above → 2 ≤ new → ∀ r < 16, (t.region r).limit = (s.region r).ceiling - 1) ∧ (new < 2 → ∀ r < 16, (t.region r).limit = 8) := by
  have hx : exec .limiterSample s = .next (s.limiterStep watts average burst) := by
    show execLimiterSample s = _
    rw [execLimiterSample, h]
  dsimp only
  rw [State.limiterStep_eq] at hx
  obtain ⟨hl, hm, hlow, hfree⟩ := State.applyStage_limits
    (s.atStage (s.nextStage (2600 < watts ∨ 2300 < average ∨ 2300 < watts ∧ 10000 < burst))) s.limiter.stage
    (if 2600 < watts then 0 else if 2300 < average then 1 else 2) (2600 < watts || 2300 < average || (2300 < watts && 10000 < burst)) ht
  exact ⟨_, hx, congrArg Limiter.stage hl, hm, fun ha => hlow (by simpa [or_assoc] using ha), hfree⟩

/-! ## Thermal limits (R23) -/

theorem exec_thermalLimit {die : Nat} {temp : Int} (h : s.input = .thermalLimit die temp) :
    exec .thermalLimit s = .next (if (temp < 95 || s.limiter.thermal : Bool) = true then s
      else (({ s with limiter := { s.limiter with thermal := true } } : State).limiterRecords
        (List.range' (s.limiter.stage + 1) (3 - s.limiter.stage)) true 3).lowerCeilings) := by
  show execThermalLimit s = _
  rw [execThermalLimit, h]

theorem exec_thermalLimitExit {die : Nat} {temp : Int} (h : s.input = .thermalLimitExit die temp) :
    exec .thermalLimitExit s = .next (if (92 ≤ temp || !s.limiter.thermal : Bool) = true then s
      else
        let t := ({ s with limiter := { s.limiter with thermal := false } } : State).limiterRecords
          (List.range' (s.limiter.stage + 1) (3 - s.limiter.stage)).reverse false 3
        if t.limiter.stage < 2 then t.freeCeilings else t) := by
  show execThermalLimitExit s = _
  rw [execThermalLimitExit, h]

/-- At 95 °C the stages that the power limiter has not entered are entered, and every ceiling is one level lower. -/
theorem thermalLimit_enters {die : Nat} {temp : Int} (h : s.input = .thermalLimit die temp) :
    if 95 ≤ temp ∧ s.limiter.thermal = false then ∃ t : State, exec .thermalLimit s = .next t ∧
      t.limiter = { s.limiter with thermal := true } ∧ ∀ r < 16, (t.region r).limit = (s.region r).ceiling - 1
    else exec .thermalLimit s = .next s := by
  refine guarded_skip (exec_thermalLimit h) (by simp) fun _ => ?_
  obtain ⟨hr, hl, -⟩ := State.limiterRecords_keeps { s with limiter := { s.limiter with thermal := true } }
    (List.range' (s.limiter.stage + 1) (3 - s.limiter.stage)) true 3
  refine ⟨(State.limitRegions_keeps ..).1.trans hl, fun r hr16 => (State.limitRegions_limit _ _ hr16).trans ?_⟩
  rw [State.region, hr]
  rfl

/-- Below 92 °C they are left, and the ceilings are free again below stage 2 of the power limiter. -/
theorem thermalLimitExit_leaves {die : Nat} {temp : Int} (h : s.input = .thermalLimitExit die temp) :
    if temp < 92 ∧ s.limiter.thermal = true then ∃ t : State, exec .thermalLimitExit s = .next t ∧
      t.limiter = { s.limiter with thermal := false } ∧ (s.limiter.stage < 2 → ∀ r < 16, (t.region r).limit = 8)
    else exec .thermalLimitExit s = .next s := by
  refine guarded_skip (exec_thermalLimitExit h) (by simp) fun _ => ?_
  obtain ⟨-, hl, -⟩ := State.limiterRecords_keeps { s with limiter := { s.limiter with thermal := false } }
    (List.range' (s.limiter.stage + 1) (3 - s.limiter.stage)).reverse false 3
  dsimp only at hl ⊢
  rw [hl]
  split
  · exact ⟨(State.limitRegions_keeps ..).1.trans hl, fun _ r hr => State.limitRegions_limit _ _ hr⟩
  · next hst => exact ⟨hl, fun hs => absurd hs hst⟩

theorem exec_thermalPreempt {cluster : Nat} {temp : Int} (h : s.input = .thermalPreempt cluster temp) :
    exec .thermalPreempt s = .next (if (temp < 105 || s.limiter.preempted : Bool) = true then s
      else
        let t := ({ s with limiter := { s.limiter with preempted := true } } : State).thermalRecord cluster temp
        (t.grids.map (·.1)).foldl State.thermalStop t) := by
  show execThermalPreempt s = _
  rw [execThermalPreempt, h]

theorem exec_thermalClear (h : s.input = .thermalClear) :
    exec .thermalClear s = .next (if (!s.limiter.preempted) = true then s
      else
        let t := ({ s.drawn with limiter := { s.limiter with preempted := false } } : State).thermalRecord
          (Config.choice s.fresh % 1024) (Config.choice s.fresh / 1024 % 95)
        t.grids.foldl State.thermalProceed t) := by
  show execThermalClear s = _
  rw [execThermalClear, h]
  rfl

/-- The record of the thermal limit leaves the limiter and the grids. -/
theorem State.thermalRecord_keeps (s : State) (cluster : Nat) (temp : Int) :
    (s.thermalRecord cluster temp).limiter = s.limiter ∧ ∀ g, (s.thermalRecord cluster temp).grid g = s.grid g :=
  ⟨State.openRecord_limiter .., fun g => by rw [State.grid, State.thermalRecord, State.openRecord_grids]; rfl⟩

theorem thermalPreempt_stops {cluster : Nat} {temp : Int} (h : s.input = .thermalPreempt cluster temp) :
    if 105 ≤ temp ∧ s.limiter.preempted = false then ∃ t : State, exec .thermalPreempt s = .next t ∧
      t.limiter = { s.limiter with preempted := true } ∧ ∀ g x, s.grid g = some x → x.st = .running → t.ThermallyStopped g
    else exec .thermalPreempt s = .next s := by
  refine guarded_skip (exec_thermalPreempt h) (by simp) fun _ => ?_
  obtain ⟨hl, hg⟩ := State.thermalRecord_keeps { s with limiter := { s.limiter with preempted := true } } cluster temp
  refine ⟨(foldl_keeps State.limiter _ _ _ fun t n _ => (t.thermalStop_keeps n).1).trans hl, fun g x hx hr => ?_⟩
  exact State.thermalStop_all ((hg g).trans hx) hr

theorem thermalClear_proceeds (h : s.input = .thermalClear) :
    if s.limiter.preempted = true then ∃ t : State, exec .thermalClear s = .next t ∧
      t.limiter = { s.limiter with preempted := false } ∧ ∀ g x, s.grid g = some x →
        (x.st = .placing ∨ x.st = .saved ∧ x.thermal = true) → .placeGrid g ∈ t.agenda ∧ t.Placing g
    else exec .thermalClear s = .next s := by
  refine guarded_skip (exec_thermalClear h) (by simp) fun _ => ?_
  obtain ⟨hl, hg⟩ := State.thermalRecord_keeps { s.drawn with limiter := { s.limiter with preempted := false } }
    (Config.choice s.fresh % 1024) (Config.choice s.fresh / 1024 % 95)
  refine ⟨(foldl_keeps State.limiter _ _ _ fun t e _ => (t.thermalProceed_keeps e).1).trans hl, fun g x hx hr => ?_⟩
  exact State.thermalProceed_all ((hg g).trans hx) hr

/-! ## Scrubs and soft errors (R24, R25) -/

/-- A slice scrubs the sectors that it homes in one set. -/
theorem exec_sliceScrub {cluster row : Nat} (h : s.input = .sliceScrub cluster row) : ∃ p : Store → Bool,
    exec .sliceScrub s = .next (s.scrub p) ∧ ∀ q, p (.slice q) = (decide (s.homeCluster q = cluster) && decide (setOf q = row)) := by
  show ∃ p : Store → Bool, execSliceScrub s = Host.Outcome.next (s.scrub p) ∧ _
  rw [execSliceScrub, h]
  exact ⟨_, rfl, fun _ => rfl⟩

/-- A bank unit scrubs one row of its channel. -/
theorem exec_hbmRowScrub {bank row : Nat} (h : s.input = .hbmRowScrub bank row) : ∃ p : Store → Bool,
    exec .hbmRowScrub s = .next (s.scrub p) ∧
      ∀ q, p (.memory q) = (decide (q < hbmEnd) && decide (s.bankOfPA q = bank) && decide ((s.channel q).2 / 1024 = row)) := by
  show ∃ p : Store → Bool, execHbmRowScrub s = Host.Outcome.next (s.scrub p) ∧ _
  rw [execHbmRowScrub, h]
  exact ⟨_, rfl, fun _ => rfl⟩

theorem sliceScrub_finds {cluster row : Nat} (h : s.input = .sliceScrub cluster row) :
    ∃ t : State, exec .sliceScrub s = .next t ∧ t.mem = s.mem ∧ ∀ f ∈ t.flips, f ∈ s.flips ∧
      ∀ q, f.at_ = .slice q → ¬(s.homeCluster q = cluster ∧ bits q 16 7 = row) := by
  obtain ⟨p, hx, hp⟩ := exec_sliceScrub h
  refine ⟨_, hx, s.scrub_mem _, fun f hf => ⟨(State.mem_scrub hf).1, fun q hq ⟨hc, hr⟩ => ?_⟩⟩
  have hfalse := (State.mem_scrub hf).2
  rw [hq, hp, decide_eq_true hc, Bool.true_and, decide_eq_false_iff_not] at hfalse
  exact hfalse hr

theorem hbmRowScrub_finds {bank row : Nat} (h : s.input = .hbmRowScrub bank row) :
    ∃ t : State, exec .hbmRowScrub s = .next t ∧ t.mem = s.mem ∧ ∀ f ∈ t.flips, f ∈ s.flips ∧
      ∀ q, f.at_ = .memory q → ¬(q < hbmEnd ∧ s.bankOfPA q = bank ∧ (s.channel q).2 / 1024 = row) := by
  obtain ⟨p, hx, hp⟩ := exec_hbmRowScrub h
  refine ⟨_, hx, s.scrub_mem _, fun f hf => ⟨(State.mem_scrub hf).1, fun q hq ⟨hh, hb, hr⟩ => ?_⟩⟩
  have hfalse := (State.mem_scrub hf).2
  rw [hq, hp, decide_eq_true hh, decide_eq_true hb, Bool.and_self, Bool.true_and, decide_eq_false_iff_not] at hfalse
  exact hfalse hr

theorem strikes_word {i : Instr} {at_ : Store} {n : Nat} (hx : exec i s = .next (s.strikeMore at_ n)) (hn : 1 ≤ n) :
    ∃ (t : State) (f : Flip), exec i s = .next t ∧ f ∈ t.flips ∧ f.at_ = at_ ∧ n ≤ f.bits ∧ t.mem = s.mem := by
  obtain ⟨f, hf, hat, hb⟩ := s.strikeMore_strikes at_ hn
  exact ⟨_, f, hx, hf, hat, hb, s.strikeMore_mem at_ n⟩

theorem softError_strikes {place : Store} {n : Nat} (h : s.input = .softError place n) (hn : 1 ≤ n) :
    (∀ pa, place = .memory pa → ∃ (t : State) (f : Flip), exec .softError s = .next t ∧ f ∈ t.flips ∧
      f.at_ = .memory (if pa < hbmEnd then pa / 32 * 32 else pa / 8 * 8) ∧ n ≤ f.bits ∧ t.mem = s.mem) ∧
    (∀ pa, place = .slice pa → ∃ (t : State) (f : Flip), exec .softError s = .next t ∧ f ∈ t.flips ∧ f.at_ = .slice (pa / 32 * 32) ∧
      n ≤ f.bits ∧ t.mem = s.mem) ∧
    (∀ k r w, place = .register k r w ∨ place = .calibration k r w → ∃ (t : State) (f : Flip), exec .softError s = .next t ∧
      f ∈ t.flips ∧ f.at_ = place ∧ n ≤ f.bits) ∧
    (∀ r, place = .serviceCore r → 2 ≤ n → ∃ t : State, exec .softError s = .next t ∧ t.phase = .stopped) ∧
    (∀ c, place = .instructionBuffer c → exec .softError s = .next s) := by
  refine ⟨?_, ?_, ?_, ?_, ?_⟩
  · rintro pa rfl
    refine strikes_word (at_ := .memory (wordOf pa)) ?_ hn
    show execSoftError s = _
    rw [execSoftError, h]
  · rintro pa rfl
    refine strikes_word ?_ hn
    show execSoftError s = _
    rw [execSoftError, h]
  · intro k r w hp
    have hx : exec .softError s = .next (s.strikeMore place n) := by
      show execSoftError s = _
      rw [execSoftError, h]
      rcases hp with rfl | rfl <;> rfl
    obtain ⟨t, f, ht, hf, hat, hb, -⟩ := strikes_word hx hn
    exact ⟨t, f, ht, hf, hat, hb⟩
  · rintro r rfl h2
    have hx : exec .softError s = .next s.stopDevice := by
      show execSoftError s = _
      rw [execSoftError, h]
      dsimp only
      rw [if_neg (by omega), if_neg (by omega)]
    exact ⟨_, hx, rfl⟩
  · rintro c rfl
    show execSoftError s = _
    rw [execSoftError, h]

/-! ## A failed crossing (R94) and the windows of the bandwidth shares (R88) -/

theorem exec_crossingFail {crossing : Nat} {lost : Bool} (h : s.input = .crossingFail crossing lost) :
    exec .crossingFail s = .next
      (let fails := s.time :: (look [] s.crossingFails crossing).filter fun t => s.time < t + 1200000000
       let t : State := { s with crossingFails := put s.crossingFails crossing fails }
       if (lost || 3 ≤ fails.length : Bool) = true then t.crossingLost (crossing % 4) else t) := by
  show execCrossingFail s = _
  rw [execCrossingFail, h]

/-- A device that has lost a crossing stops, with every running grid on its way to its end. -/
theorem State.crossingLost_ends (s : State) (crossing : Nat) :
    let t := s.crossingLost crossing
    t.crossingDown = some crossing ∧ t.phase = .stopped ∧ ∀ g x, s.grid g = some x → x.st = .running → x.ended = none →
      x.rects ≠ [] → t.CrossingEnded g := by
  let u := (s.grids.map (·.1)).foldl State.crossingEnd ({ s with crossingDown := some crossing } : State)
  have hu : s.crossingLost crossing = (u.drawn.openRecord (sourceOfService 0) (some 3) (Config.choice u.fresh % 65536) [crossing]).stopDevice := rfl
  have hd : u.crossingDown = some crossing :=
    foldl_keeps State.crossingDown _ _ _ fun t n _ => t.endGrid_crossingDown n _
  rw [hu]
  refine ⟨(State.openRecord_crossingDown ..).trans hd, rfl, fun g x hx hr he hc => ?_⟩
  obtain ⟨y, e, hy, hrest⟩ := State.crossingEnd_all (s := { s with crossingDown := some crossing }) hx hr he hc
  refine ⟨y, e, ?_, hrest⟩
  rw [← hy]
  show (((State.openRecord ..).grids).find? _).map _ = _
  rw [State.openRecord_grids]
  rfl

theorem crossingFail_stops {crossing : Nat} {lost : Bool} (h : s.input = .crossingFail crossing lost) :
    if lost = true ∨ 2 ≤ ((look [] s.crossingFails crossing).filter fun t => s.time < t + 1200000000).length then
      ∃ t : State, exec .crossingFail s = .next t ∧ t.crossingDown = some (crossing % 4) ∧ t.phase = .stopped ∧
        ∀ g x, s.grid g = some x → x.st = .running → x.ended = none → x.rects ≠ [] → t.CrossingEnded g
    else ∃ t : State, exec .crossingFail s = .next t ∧ t.phase = s.phase ∧ t.crossingDown = s.crossingDown ∧ t.grids = s.grids ∧
      t.mem = s.mem := by
  rw [exec_crossingFail h]
  dsimp only
  split
  · next hc =>
    rw [if_pos (by simpa using hc)]
    exact ⟨_, rfl, State.crossingLost_ends ..⟩
  · next hc =>
    rw [if_neg (by simpa using hc)]
    exact ⟨_, rfl, rfl, rfl, rfl, rfl⟩

theorem enforcementWindow_begins (h : s.input = .enforcementWindow) :
    ∃ t : State, exec .enforcementWindow s = .next t ∧ t.mem = s.mem ∧ ∀ c, c ∈ t.charges ↔ c ∈ s.charges ∧ c.window = s.time / 4096 := by
  have hx : exec .enforcementWindow s = .next { s with charges := s.charges.filter fun c => c.window = s.time / 4096 } := by
    show execEnforcementWindow s = _
    rw [execEnforcementWindow, h]
  exact ⟨_, hx, rfl, fun c => by simp [List.mem_filter]⟩

end

/-- Settles O59: event by event, each from what its shared operation keeps and establishes over the regions, the grids or the
errors that it visits. -/
theorem packageEvents : Obligations.PackageEvents := fun _ =>
  ⟨fun _ _ _ h ht hl => governorWindow_steers h ht hl, fun _ _ h ht hn => levelStepDone_steps h ht hn,
    fun _ _ _ h ht => limiterSample_limits h ht, fun _ _ h => thermalLimit_enters h, fun _ _ h => thermalLimitExit_leaves h,
    fun _ _ h => thermalPreempt_stops h, fun h => thermalClear_proceeds h, fun _ _ h => sliceScrub_finds h,
    fun _ _ h => hbmRowScrub_finds h, fun _ _ h hn => softError_strikes h hn, fun _ _ h => crossingFail_stops h,
    fun h => enforcementWindow_begins h⟩

end Sys2Proof.Machine
end

section
/-! The start record, the start steps, and what a start and a loss of power leave (R23, R53-R57, R60). -/

namespace Sys2Proof.Machine

open Sys2Proof

/-! ## The start record (R53) -/

/-- What of the flash the start record is read from. -/
def State.flash (s : State) : StartRec × StartRec × Nat := (s.flashA, s.flashB, s.bootSlot)

theorem State.startRec_of_flash {s t : State} (h : t.flash = s.flash) : t.startRec = s.startRec := by
  simp only [State.flash, Prod.mk.injEq] at h
  obtain ⟨ha, hb, hs⟩ := h
  rw [State.startRec, ha, hb, hs]
  rfl

/-- A write of the record changes one copy of it alone. -/
theorem State.writeRec_eta (s : State) (f : StartRec → StartRec) :
    s.writeRec f = { s with flashA := (s.writeRec f).flashA, flashB := (s.writeRec f).flashB } := by
  simp only [State.writeRec]
  split <;> rfl

/-- The record that is read after a write is the record written: it stands in the copy that was not read, with the higher number. -/
theorem State.startRec_writeRec (s : State) (f : StartRec → StartRec) (h : s.startRec.seq + 1 < 2 ^ 32) :
    (s.writeRec f).startRec = { f s.startRec with seq := s.startRec.seq + 1, valid := true } := by
  have hw : s.writeRec f = if s.writesA = true then { s with flashA := { f s.startRec with seq := s.startRec.seq + 1, valid := true } }
      else { s with flashB := { f s.startRec with seq := s.startRec.seq + 1, valid := true } } := by
    simp only [State.writeRec, Nat.mod_eq_of_lt h]
  rw [hw]
  clear hw h
  cases hA : s.flashA.valid <;> cases hB : s.flashB.valid
  · simp [State.writesA, State.startRec, hA, hB]
  · simp [State.writesA, State.startRec, hA, hB]
  · simp [State.writesA, State.startRec, hA, hB]
  · by_cases hlt : s.flashA.seq < s.flashB.seq
    · have hle : s.flashA.seq ≤ s.flashB.seq := by omega
      simp [State.writesA, State.startRec, hA, hB, hlt, hle]
    · by_cases hle : s.flashA.seq ≤ s.flashB.seq
      · have hn : ¬s.flashA.seq + 1 < s.flashB.seq := by omega
        simp [State.writesA, State.startRec, hA, hB, hlt, hle, hn]
      · simp [State.writesA, State.startRec, hA, hB, hlt, hle]

section
variable (s : State) (n : Nat) (e : BitVec 32) (h : s.startRec.seq + 1 < 2 ^ 32)
include h

theorem State.entry_writeEntry (m : Nat) : (s.writeEntry n e).startRec.entry m = if n = m then e else s.startRec.entry m := by
  rw [State.writeEntry, State.startRec_writeRec _ _ h]
  exact look_put ..

theorem State.seq_writeEntry : (s.writeEntry n e).startRec.seq = s.startRec.seq + 1 := by
  rw [State.writeEntry, State.startRec_writeRec _ _ h]

end

theorem State.writeEntry_fuses (s : State) (n : Nat) (e : BitVec 32) : (s.writeEntry n e).fuses = s.fuses := by
  rw [State.writeEntry, State.writeRec_eta]

theorem State.writeEntry_phase (s : State) (n : Nat) (e : BitVec 32) : (s.writeEntry n e).phase = s.phase := by
  rw [State.writeEntry, State.writeRec_eta]

/-! ### Step entries (Table 2) -/

section
variable (begun done : Bool) (method fails cause : Nat)

theorem entryBegun_startEntry : entryBegun (startEntry begun done method fails cause) = begun := by
  rw [entryBegun, startEntry, BitVec.getLsbD_ofNat]
  cases begun <;> cases done <;> simp [Nat.testBit_zero] <;> omega

theorem entryDone_startEntry : entryDone (startEntry begun done method fails cause) = done := by
  rw [entryDone, startEntry, BitVec.getLsbD_ofNat]
  cases begun <;> cases done <;> simp [Nat.testBit_succ, Nat.testBit_zero] <;> omega

theorem entryMethod_startEntry : entryMethod (startEntry begun done method fails cause) = method % 4 := by
  rw [entryMethod, startEntry, bits_ofNat _ (by omega), bits]
  cases begun <;> cases done <;> simp <;> omega

theorem entryCause_startEntry : entryCause (startEntry begun done method fails cause) = cause % 2 ^ 16 := by
  rw [entryCause, startEntry, bits_ofNat _ (by omega), bits]
  cases begun <;> cases done <;> simp <;> omega

end

/-! ## What the work of a step leaves in the flash (R57) -/

theorem State.record_flash (s : State) (src : Nat) (sev : Option Nat) (kind payload tag : Nat) :
    (s.record src sev kind payload tag).flash = s.flash := by rw [s.record_eta]; rfl

theorem State.openRecord_flash (s : State) (src : Nat) (sev : Option Nat) (kind : Nat) (contents : List Nat) (tag : Nat) :
    (s.openRecord src sev kind contents tag).flash = s.flash := s.record_flash ..

theorem State.fillGroups_flash (s : State) (p n : Nat) : (s.fillGroups p n).flash = s.flash := by rw [s.fillGroups_eta]; rfl

theorem State.setPortState_flash (s : State) (p st : Nat) : (s.setPortState p st).flash = s.flash :=
  (State.record_flash ..).trans rfl

theorem State.flash_ubgen (t : State) (v : Nat) : ({ t with ubgen := v } : State).flash = t.flash := rfl

theorem State.port_ubgen (t : State) (v p : Nat) : ({ t with ubgen := v } : State).port p = t.port p := rfl

theorem State.portUp_flash (s : State) (p version : Nat) : (s.portUp p version).flash = s.flash := by
  have hu (f : Port → Port) : (((s.onPort p f).setPortState p 2).fillGroups p replayGroups).flash = s.flash := by
    rw [State.fillGroups_flash, State.setPortState_flash]
    rfl
  rw [State.portUp]
  split
  · rw [State.flash_ubgen, hu]
  · rw [hu]

theorem State.trainPort_flash (s : State) (p : Nat) (theirs ours : Nat × Nat) : (s.trainPort p theirs ours).flash = s.flash := by
  rw [State.trainPort]
  split
  · exact State.portUp_flash ..
  · exact State.openRecord_flash ..

theorem State.trainUbgen_flash (s : State) (env : StartEnv) (alone : Bool) : (s.trainUbgen env alone).flash = s.flash := by
  rw [State.trainUbgen]
  split
  · exact State.trainPort_flash ..
  · rfl

theorem State.reportClosed_keeps (s : State) : s.reportClosed.flash = s.flash ∧ s.reportClosed.fuses = s.fuses := by
  refine Prod.mk.inj (foldl_keeps (fun t : State => (t.flash, t.fuses)) _ _ _ fun t i _ => ?_)
  dsimp only
  split
  · exact Prod.ext (State.openRecord_flash ..) (State.openRecord_fuses ..)
  · rfl

/-- The last step leaves the flash, and blows fuses without ever restoring one (R60). -/
theorem State.openDevice_keeps (s : State) : s.openDevice.flash = s.flash ∧ s.fuses ≤ s.openDevice.fuses := by
  obtain ⟨hf, hu⟩ := State.reportClosed_keeps { s with negotiated := if s.negotiated = [] then lowestVersions else s.negotiated }
  rw [State.openDevice]
  generalize State.reportClosed _ = t at hf hu ⊢
  exact ⟨hf, le_trans (le_of_eq hu.symm) (Nat.le_max_left ..)⟩

theorem State.setBanks_flash (s : State) (off : List Nat) : (s.setBanks off).flash = s.flash :=
  foldl_keeps State.flash _ _ _ fun _ _ _ => rfl

theorem State.uncalibrate_flash (s : State) (arrays : List Nat) : (s.uncalibrate arrays).flash = s.flash :=
  foldl_keeps State.flash _ _ _ fun _ _ _ => rfl

theorem State.writeHlin_flash (s : State) (src : Writer) (m : Nat) (v : BitVec 32) : (s.writeHlin src m v).flash = s.flash := by
  rw [State.writeHlin]
  split <;> rfl

theorem State.writeCtxbase_flash (s : State) (src : Writer) (v : Word64) : (s.writeCtxbase src v).flash = s.flash := by
  rw [State.writeCtxbase]
  split <;> rfl

theorem State.writeEltab_flash (s : State) (src : Writer) (v : Word64) : (s.writeEltab src v).flash = s.flash := by
  rw [State.writeEltab]
  split <;> rfl

/-- No step but the first, which notes the slot that it has verified, writes to the flash. -/
theorem State.stepEffect_flash (s : State) (env : StartEnv) {n : Nat} (alt : Bool) (h : n ≠ 1) :
    (s.stepEffect env n alt).flash = s.flash := by
  unfold State.stepEffect
  split
  · exact absurd rfl h
  · rfl
  · dsimp only
    split
    · exact foldl_keeps State.flash _ _ _ fun _ _ _ => rfl
    · rfl
  · rfl
  · rfl
  · rfl
  · rfl
  · refine (foldl_keeps State.flash _ _ _ fun t e _ => ?_).trans (s.setBanks_flash _)
    split
    · split <;> rfl
    · rfl
  · exact (State.writeEltab_flash ..).trans ((State.writeCtxbase_flash ..).trans
      (foldl_keeps State.flash _ _ _ fun _ _ _ => State.writeHlin_flash ..))
  · exact s.uncalibrate_flash _
  · exact s.trainUbgen_flash env alt
  · refine foldl_keeps State.flash _ _ _ fun t p _ => ?_
    split
    · exact State.trainPort_flash ..
    · rfl
  · rfl
  · rfl
  · exact s.openDevice_keeps.1
  · rfl

/-- The work of a step leaves every step entry as it was. -/
theorem State.entry_stepEffect (s : State) (env : StartEnv) (n : Nat) (alt : Bool) (h : s.startRec.seq + 1 < 2 ^ 32) (m : Nat) :
    (s.stepEffect env n alt).startRec.entry m = s.startRec.entry m := by
  by_cases hn : n = 1
  · subst hn
    show (s.writeRec _).startRec.entry m = _
    rw [State.startRec_writeRec _ _ h]
    rfl
  · rw [State.startRec_of_flash (s.stepEffect_flash env alt hn)]

/-! ## A step that runs by its first method (R54, R55) -/

section
variable (s : State) (env : StartEnv) (n : Nat)

/-- A step that its method has begun and not ended. -/
def State.begun : State := s.drawn.writeEntry n (startEntry true false 0 0 (entryCause (s.startRec.entry n)))

/-- A step that its method has done. -/
def State.passed : State := (s.begun n).writeEntry n (startEntry true true 0 0 (entryCause (s.startRec.entry n)))

theorem State.drawn_startRec : s.drawn.startRec = s.startRec := State.startRec_of_flash rfl

variable {s n}

theorem failsIn_fresh {e : BitVec 32} (h : entryBegun e = false ∨ entryDone e = true) (hm : entryMethod e ≠ 2) : failsIn e = 0 := by
  rcases h with h | h <;> simp [failsIn, h, hm]

/-- A method that does not pass leaves its step begun. -/
theorem State.tryMethod_fail (hr : s.stepResult env n false ≠ .pass) :
    s.tryMethod env n 0 (entryCause (s.startRec.entry n)) false = (s.stepResult env n false, s.begun n) := by
  cases h : s.stepResult env n false with
  | pass => exact absurd h hr
  | hang => simp [State.tryMethod, h, State.begun]
  | fail c => simp [State.tryMethod, h, State.begun]

section
variable (hf : failsIn (s.startRec.entry n) = 0)
include hf

theorem State.runStep_pass (hr : s.stepResult env n false = .pass) :
    s.runStep env n = ((s.passed n).stepEffect env n false).nextStep env n := by
  have ht : s.tryMethod env n 0 (entryCause (s.startRec.entry n)) false = (.pass, (s.passed n).stepEffect env n false) := by
    simp [State.tryMethod, hr, State.passed, State.begun]
  simp [State.runStep, hf, noMethodLeft, ht]

theorem State.runStep_hang (hr : s.stepResult env n false = .hang) : s.runStep env n = s.begun n := by
  have ht : s.tryMethod env n 0 _ false = _ := State.tryMethod_fail env (by simp [hr])
  simp [State.runStep, hf, noMethodLeft, ht, hr]

theorem State.runStep_fail {c : Nat} (hr : s.stepResult env n false = .fail c) (ha : stepHasAlternate n = false) :
    s.runStep env n = (s.begun n).giveUp env n true c := by
  have ht : s.tryMethod env n 0 _ false = _ := State.tryMethod_fail env (by simp [hr])
  simp [State.runStep, hf, noMethodLeft, ht, hr, ha]

end
end

section
variable {s : State} {n : Nat}

theorem State.entry_begun (h : s.startRec.seq + 1 < 2 ^ 32) (m : Nat) : (s.begun n).startRec.entry m =
    if n = m then startEntry true false 0 0 (entryCause (s.startRec.entry n)) else s.startRec.entry m := by
  rw [State.begun, State.entry_writeEntry _ _ _ (by rwa [State.drawn_startRec]), State.drawn_startRec]

theorem State.seq_begun (h : s.startRec.seq + 1 < 2 ^ 32) : (s.begun n).startRec.seq = s.startRec.seq + 1 := by
  rw [State.begun, State.seq_writeEntry _ _ _ (by rwa [State.drawn_startRec]), State.drawn_startRec]

theorem State.entry_passed (h : s.startRec.seq + 2 < 2 ^ 32) (m : Nat) : (s.passed n).startRec.entry m =
    if n = m then startEntry true true 0 0 (entryCause (s.startRec.entry n)) else s.startRec.entry m := by
  rw [State.passed, State.entry_writeEntry _ _ _ (by rw [State.seq_begun] <;> omega), State.entry_begun (by omega)]
  split <;> rfl

theorem State.seq_passed (h : s.startRec.seq + 2 < 2 ^ 32) : (s.passed n).startRec.seq = s.startRec.seq + 2 := by
  rw [State.passed, State.seq_writeEntry _ _ _ (by rw [State.seq_begun] <;> omega), State.seq_begun (by omega)]

end

/-! ## A step that ends without passing (R56) -/

/-- Version 1.0 alone is common with a range that holds it. -/
theorem commonVersion_alone {lo hi : Nat} (hl : lo ≤ 0x10) (hh : 0x10 ≤ hi) :
    commonVersion lo hi (ubgenRange true).1 (ubgenRange true).2 = some 0x10 := by
  rw [commonVersion, ubgenRange, portLowest]
  simp [hl, hh]

/-- The Ubgen port that comes up at a version. -/
theorem State.portUp_ubgen (s : State) (version : Nat) :
    (s.portUp 32 version).ubgen = version ∧ ((s.portUp 32 version).port 32).state = 2 := by
  rw [State.portUp, if_pos rfl]
  refine ⟨rfl, ?_⟩
  rw [State.port_ubgen, Port.state, State.fillGroups_fpctl, State.setPortState_fpctl, bits_fpctlIn _ (by omega)]

theorem State.trainUbgen_alone (s : State) {env : StartEnv} {lo hi : Nat} (hr : env.range 32 = some (lo, hi)) (hl : lo ≤ 0x10)
    (hh : 0x10 ≤ hi) : (s.trainUbgen env true).ubgen = 0x10 ∧ ((s.trainUbgen env true).port 32).state = 2 := by
  rw [State.trainUbgen, hr]
  dsimp only
  rw [State.trainPort, commonVersion_alone hl hh]
  exact s.portUp_ubgen 0x10

theorem State.holdStart_flash (s : State) (env : StartEnv) (n : Nat) : (s.holdStart env n).flash = s.flash := by
  rw [State.holdStart]
  split
  · rfl
  · exact s.trainUbgen_flash env true

/-- What a required step that has failed leaves of its entry: begun, not done, with its cause. -/
theorem State.entry_giveUp {s : State} (env : StartEnv) {n : Nat} (c : Nat) (h : s.startRec.seq + 1 < 2 ^ 32)
    (ho : stepOptional n = false) (m : Nat) : (s.giveUp env n true c).startRec.entry m =
      if n = m then startEntry true false (entryMethod (s.startRec.entry n)) 2 c else s.startRec.entry m := by
  rw [State.giveUp, ho, if_neg Bool.false_ne_true, ← State.entry_writeEntry _ _ _ h, State.startRec_of_flash (State.holdStart_flash ..)]

theorem State.giveUp_holds {s : State} (env : StartEnv) {n : Nat} (c : Nat) (ho : stepOptional n = false) (hn : 2 < n) :
    let t := s.giveUp env n true c
    t.phase = .held ∧ ∀ lo hi, env.range 32 = some (lo, hi) → lo ≤ 0x10 → 0x10 ≤ hi → t.ubgen = 0x10 ∧ (t.port 32).state = 2 := by
  dsimp only
  rw [State.giveUp, ho, if_neg Bool.false_ne_true, State.holdStart, if_neg (by omega)]
  exact ⟨rfl, fun lo hi hr hl hh => State.trainUbgen_alone _ hr hl hh⟩

end Sys2Proof.Machine
end

section
/-! The start of the device, its steps, and the loss of power (R23, R53-R57, R60). -/

namespace Sys2Proof.Machine

open Sys2Proof

/-! ## What a start and a loss of power leave -/

/-- Everything but the flash, the fuses and the arrays is lost. -/
def State.Lost (s t : State) : Prop :=
  t.mem = [] ∧ t.slots = [] ∧ t.cores = [] ∧ t.grids = [] ∧ t.granules = [] ∧ t.cur = State.reset.cur ∧ t.fuses = s.fuses

/-- Both copies of the start record, the slot and the images are as they were. -/
def State.Kept (s t : State) : Prop :=
  t.flashA = s.flashA ∧ t.flashB = s.flashB ∧ t.bootSlot = s.bootSlot ∧ t.images = s.images

/-- A start has begun with its first step, with the image that the host has written if there is one. -/
def State.StartBegun (s : State) (env : StartEnv) (t : State) : Prop :=
  s.Lost t ∧ t.phase = .stepping 1 ∧ .powerOn env 1 ∈ t.agenda ∧ t.powered = true ∧ (env.newImage = none → s.Kept t) ∧
    ∀ image, env.newImage = some image → t.bootSlot = 1 - s.startRec.slot % 2 ∧ t.imageIn t.bootSlot = image

theorem State.install_keeps (s : State) (image : Image) : (s.install image).fuses = s.fuses ∧
    (s.install image).bootSlot = 1 - s.startRec.slot % 2 ∧ (s.install image).imageIn (s.install image).bootSlot = image := by
  rw [State.install, State.writeRec_eta]
  exact ⟨rfl, rfl, look_put_same ..⟩

theorem State.beginStart_none (s : State) {env : StartEnv} (h : env.newImage = none) :
    s.beginStart env = ({ s.afresh with phase := .stepping 1 } : State).emit (.powerOn env 1) := by
  rw [State.beginStart, h]

theorem State.beginStart_some (s : State) {env : StartEnv} {image : Image} (h : env.newImage = some image) :
    s.beginStart env = ({ (s.install image).afresh with phase := .stepping 1 } : State).emit (.powerOn env 1) := by
  rw [State.beginStart, h]

theorem State.beginStart_begins (s : State) (env : StartEnv) : s.StartBegun env (s.beginStart env) := by
  cases h : env.newImage with
  | none =>
    rw [s.beginStart_none h]
    exact ⟨⟨rfl, rfl, rfl, rfl, rfl, rfl, rfl⟩, rfl, List.mem_append_right _ (List.mem_singleton.mpr rfl), rfl,
      fun _ => ⟨rfl, rfl, rfl, rfl⟩, fun image hi => by rw [h] at hi; cases hi⟩
  | some image =>
    obtain ⟨hf, hb, hi⟩ := s.install_keeps image
    rw [s.beginStart_some h]
    refine ⟨⟨rfl, rfl, rfl, rfl, rfl, rfl, hf⟩, rfl, List.mem_append_right _ (List.mem_singleton.mpr rfl), rfl,
      fun hn => by (rw [h] at hn; cases hn), fun image' hi' => ?_⟩
    obtain rfl : image = image' := by rw [h] at hi'; exact Option.some.inj hi'
    exact ⟨hb, hi⟩

section
variable {s : State} {env : StartEnv} {n : Nat}

theorem State.nextStep_flash (s : State) (env : StartEnv) (n : Nat) : (s.nextStep env n).flash = s.flash := by
  rw [State.nextStep]
  split <;> rfl

theorem State.nextStep_due (s : State) (env : StartEnv) {n : Nat} (h : n < 16) :
    (s.nextStep env n).phase = .stepping (n + 1) ∧ .powerOn env (n + 1) ∈ (s.nextStep env n).agenda := by
  rw [State.nextStep, if_neg (by omega)]
  exact ⟨rfl, List.mem_append_right _ (List.mem_singleton.mpr rfl)⟩

theorem exec_powerOn (h : s.input = .powerOn env n) :
    exec .powerOn s = .next (if n = 0 then s.beginStart env else if s.phase = .stepping n then s.runStep env n else s) := by
  show execPowerOn s = _
  rw [execPowerOn, h]

theorem powerOn_begins (h : s.input = .powerOn env 0) : ∃ t : State, exec .powerOn s = .next t ∧ s.StartBegun env t :=
  ⟨_, exec_powerOn h, s.beginStart_begins env⟩

theorem carrierReset_begins (h : s.input = .carrierReset env) : ∃ t : State, exec .carrierReset s = .next t ∧ s.StartBegun env t := by
  have hx : exec .carrierReset s = .next (s.beginStart env) := by
    show execCarrierReset s = _
    rw [execCarrierReset, h]
  exact ⟨_, hx, s.beginStart_begins env⟩

/-! ## The watchdog (R55) -/

theorem exec_startWatchdog (h : s.input = .startWatchdog n env) :
    exec .startWatchdog s = .next (if s.phase = .stepping n then s.overran env n else s) := by
  show execStartWatchdog s = _
  rw [execStartWatchdog, h]

theorem State.overran_due (h : s.stepDue n = true) : s.overran env n =
    if noMethodLeft n (failsIn (s.startRec.entry n)) = true then s
    else (s.writeEntry n (startEntry true false (failsIn (s.startRec.entry n)) (failsIn (s.startRec.entry n))
      (entryCause (s.startRec.entry n)))).beginStart env := by
  rw [State.overran, h]
  rfl

/-- A step found without a failure before it has no method left only where it was begun and not done and has one method. -/
theorem noMethodLeft_iff {e : BitVec 32} (h : entryFails e = 0) :
    noMethodLeft n (failsIn e) = true ↔ entryBegun e = true ∧ entryDone e = false ∧ stepHasAlternate n = false := by
  by_cases hb : entryBegun e = true ∧ entryDone e = false
  · simp [noMethodLeft, failsIn, h, hb.1, hb.2]
  · have hf : failsIn e = 0 := by
      have hn : (entryBegun e && !entryDone e) = false := by simpa using hb
      rw [failsIn, hn, h]
      simp
    simp only [hf, noMethodLeft]
    simpa using fun h1 h2 => absurd ⟨h1, h2⟩ hb

theorem startWatchdog_idle (h : s.input = .startWatchdog n env) (hp : s.phase ≠ .stepping n) : exec .startWatchdog s = .next s := by
  rw [exec_startWatchdog h, if_neg hp]

theorem startWatchdog_begins (h : s.input = .startWatchdog n env) (hp : s.phase = .stepping n) (hd : s.stepDue n = false) :
    ∃ t : State, exec .startWatchdog s = .next t ∧ s.StartBegun env t := by
  rw [exec_startWatchdog h, if_pos hp, State.overran, hd]
  exact ⟨_, rfl, s.beginStart_begins env⟩

/-- A step that has not been begun yet and exceeds its limit is left begun and not done. -/
theorem startWatchdog_overruns (h : s.input = .startWatchdog n env) (hp : s.phase = .stepping n) (hd : s.stepDue n = true)
    (hs : s.startRec.seq + 3 < 2 ^ 32) (hf : entryFails (s.startRec.entry n) = 0) (hi : env.newImage = none) :
    if entryBegun (s.startRec.entry n) = true ∧ entryDone (s.startRec.entry n) = false ∧ stepHasAlternate n = false then
      exec .startWatchdog s = .next s
    else ∃ t : State, exec .startWatchdog s = .next t ∧ s.Lost t ∧ t.phase = .stepping 1 ∧ .powerOn env 1 ∈ t.agenda ∧
      entryBegun (t.startRec.entry n) = true ∧ entryDone (t.startRec.entry n) = false := by
  rw [exec_startWatchdog h, if_pos hp, State.overran_due hd]
  split
  · next hc => rw [if_pos ((noMethodLeft_iff hf).mpr hc)]
  · next hc =>
    rw [if_neg fun hm => hc ((noMethodLeft_iff hf).mp hm)]
    obtain ⟨hl, hph, ha, -, hk, -⟩ := State.beginStart_begins
      (s.writeEntry n (startEntry true false (failsIn (s.startRec.entry n)) (failsIn (s.startRec.entry n)) (entryCause (s.startRec.entry n)))) env
    obtain ⟨hA, hB, hS, -⟩ := hk hi
    obtain ⟨hm, hsl, hc, hg, hgr, hcu, hfu⟩ := hl
    refine ⟨_, rfl, ⟨hm, hsl, hc, hg, hgr, hcu, hfu.trans (s.writeEntry_fuses ..)⟩, hph, ha, ?_⟩
    rw [State.startRec_of_flash (congrArg₂ Prod.mk hA (congrArg₂ Prod.mk hB hS)), State.entry_writeEntry _ _ _ (by omega), if_pos rfl]
    exact ⟨entryBegun_startEntry .., entryDone_startEntry ..⟩

/-! ## Start steps (R54-R56) -/

section
variable (h : s.input = .powerOn env n) (h1 : 1 ≤ n) (hp : s.phase = .stepping n) (hs : s.startRec.seq + 3 < 2 ^ 32)
  (hb : entryBegun (s.startRec.entry n) = false ∨ entryDone (s.startRec.entry n) = true) (hm : entryMethod (s.startRec.entry n) ≠ 2)
include h h1 hp

theorem exec_powerOn_step : exec .powerOn s = .next (s.runStep env n) := by
  rw [exec_powerOn h, if_neg (by omega), if_pos hp]

include hb hm

theorem step_completes (hr : s.stepResult env n false = .pass) (hn : n = 16) :
    ∃ t : State, exec .powerOn s = .next t ∧ t.phase = .up ∧ s.fuses ≤ t.fuses := by
  refine ⟨_, exec_powerOn_step h h1 hp, ?_⟩
  rw [State.runStep_pass env (failsIn_fresh hb hm) hr]
  subst hn
  refine ⟨rfl, le_trans (le_of_eq ?_) (s.passed 16).openDevice_keeps.2⟩
  rw [State.passed, State.writeEntry_fuses, State.begun, State.writeEntry_fuses]
  rfl

theorem step_dies {c : Nat} (hr : s.stepResult env n false = .fail c) (hn : n = 2) :
    ∃ t : State, exec .powerOn s = .next t ∧ t.phase = .dead := by
  refine ⟨_, exec_powerOn_step h h1 hp, ?_⟩
  subst hn
  rw [State.runStep_fail env (failsIn_fresh hb hm) hr rfl]
  rfl

include hs

/-- A step that passes is recorded as done by its first method, no other entry changes, and the next step is due. -/
theorem step_passes (hr : s.stepResult env n false = .pass) (hn : n < 16) :
    ∃ t : State, exec .powerOn s = .next t ∧ t.phase = .stepping (n + 1) ∧ .powerOn env (n + 1) ∈ t.agenda ∧
      entryBegun (t.startRec.entry n) = true ∧ entryDone (t.startRec.entry n) = true ∧ entryMethod (t.startRec.entry n) = 0 ∧
      ∀ m, m ≠ n → t.startRec.entry m = s.startRec.entry m := by
  refine ⟨_, exec_powerOn_step h h1 hp, ?_⟩
  rw [State.runStep_pass env (failsIn_fresh hb hm) hr]
  have he (m : Nat) : (((s.passed n).stepEffect env n false).nextStep env n).startRec.entry m =
      if n = m then startEntry true true 0 0 (entryCause (s.startRec.entry n)) else s.startRec.entry m := by
    rw [State.startRec_of_flash (State.nextStep_flash ..), State.entry_stepEffect _ _ _ _ (by rw [State.seq_passed] <;> omega),
      State.entry_passed (by omega)]
  obtain ⟨hph, ha⟩ := ((s.passed n).stepEffect env n false).nextStep_due env hn
  rw [he, if_pos rfl]
  exact ⟨hph, ha, entryBegun_startEntry .., entryDone_startEntry .., entryMethod_startEntry ..,
    fun m hne => (he m).trans (if_neg (Ne.symm hne))⟩

theorem step_hangs (hr : s.stepResult env n false = .hang) : ∃ t : State, exec .powerOn s = .next t ∧ t.phase = .stepping n ∧
    entryBegun (t.startRec.entry n) = true ∧ entryDone (t.startRec.entry n) = false := by
  refine ⟨_, exec_powerOn_step h h1 hp, ?_⟩
  rw [State.runStep_hang env (failsIn_fresh hb hm) hr, State.entry_begun (by omega), if_pos rfl]
  exact ⟨(State.writeEntry_phase ..).trans hp, entryBegun_startEntry .., entryDone_startEntry ..⟩

/-- A required step without an alternate method that fails holds the start, and its entry keeps the cause. -/
theorem step_holds {c : Nat} (hr : s.stepResult env n false = .fail c) (hn : n = 5 ∨ n = 10 ∨ n = 14 ∨ n = 15 ∨ n = 16) :
    ∃ t : State, exec .powerOn s = .next t ∧ t.phase = .held ∧
      (∀ lo hi, env.range 32 = some (lo, hi) → lo ≤ 0x10 → 0x10 ≤ hi → t.ubgen = 0x10 ∧ (t.port 32).state = 2) ∧
      entryCause (t.startRec.entry n) = c % 2 ^ 16 ∧ entryBegun (t.startRec.entry n) = true ∧ entryDone (t.startRec.entry n) = false := by
  have ho : stepOptional n = false ∧ stepHasAlternate n = false ∧ 2 < n := by
    rcases hn with rfl | rfl | rfl | rfl | rfl <;> decide
  obtain ⟨ho, ha, h2⟩ := ho
  refine ⟨_, exec_powerOn_step h h1 hp, ?_⟩
  obtain ⟨hph, hub⟩ := State.giveUp_holds (s := s.begun n) env c ho h2
  rw [State.runStep_fail env (failsIn_fresh hb hm) hr ha, State.entry_giveUp env c (by rw [State.seq_begun] <;> omega) ho, if_pos rfl]
  exact ⟨hph, hub, entryCause_startEntry .., entryBegun_startEntry .., entryDone_startEntry ..⟩

end
end

/-! ## Loss of power (R23, R53) -/

section
variable {s : State}

/-- The copy of the start record that was being written is not valid. -/
theorem State.powerDown_writing (s : State) : s.powerDown true =
    { (if s.writesA = true then ({ s with flashA := { s.flashA with valid := false } } : State)
      else { s with flashB := { s.flashB with valid := false } }).afresh with powered := false } := rfl

theorem powerLoss_keeps {writing : Bool} (h : s.input = .powerLoss writing) :
    ∃ t : State, exec .powerLoss s = .next t ∧ s.Lost t ∧ t.powered = false ∧ (writing = false → s.Kept t) ∧
      (writing = true → if s.writesA = true then t.flashA.valid = false ∧ t.flashB = s.flashB
        else t.flashB.valid = false ∧ t.flashA = s.flashA) := by
  have hx : exec .powerLoss s = .next (s.powerDown writing) := by
    show execPowerLoss s = _
    rw [execPowerLoss, h]
  refine ⟨_, hx, ?_⟩
  cases writing with
  | false => exact ⟨⟨rfl, rfl, rfl, rfl, rfl, rfl, rfl⟩, rfl, fun _ => ⟨rfl, rfl, rfl, rfl⟩, nofun⟩
  | true =>
    rw [State.powerDown_writing]
    by_cases hw : s.writesA = true
    · rw [if_pos hw, if_pos hw]
      exact ⟨⟨rfl, rfl, rfl, rfl, rfl, rfl, rfl⟩, rfl, nofun, fun _ => ⟨rfl, rfl⟩⟩
    · rw [if_neg hw, if_neg hw]
      exact ⟨⟨rfl, rfl, rfl, rfl, rfl, rfl, rfl⟩, rfl, nofun, fun _ => ⟨rfl, rfl⟩⟩

theorem thermalShutdown_keeps (h : s.input = .thermalShutdown) :
    ∃ t : State, exec .thermalShutdown s = .next t ∧ s.Kept t ∧ s.Lost t ∧ t.powered = false := by
  have hx : exec .thermalShutdown s = .next (s.powerDown false) := by
    show execThermalShutdown s = _
    rw [execThermalShutdown, h]
  exact ⟨_, hx, ⟨rfl, rfl, rfl, rfl⟩, ⟨rfl, rfl, rfl, rfl, rfl, rfl, rfl⟩, rfl⟩

end

/-- Settles O60: the record that is read after a write is the record written, no work of a step touches its entries, and a start
and a loss of power take the state afresh. -/
theorem startsAndStops : Obligations.StartsAndStops := by
  intro s
  refine ⟨fun env h => powerOn_begins h, fun env h => carrierReset_begins h,
    fun n env h => ⟨startWatchdog_idle h, startWatchdog_begins h, startWatchdog_overruns h⟩, fun env n h h1 hp hs => ?_,
    fun writing h => powerLoss_keeps h, fun h => thermalShutdown_keeps h⟩
  intro e hb hm
  exact ⟨step_passes h h1 hp hs hb hm, step_completes h h1 hp hb hm, step_hangs h h1 hp hs hb hm,
    fun c => step_holds h h1 hp hs hb hm, fun c => step_dies h h1 hp hb hm⟩

end Sys2Proof.Machine
end

section
/-! Replies, acknowledgements and lapses (R46-R48, R144, R158, R276, R366, R403, R404). -/

namespace Sys2Proof.Machine

open Sys2Proof

/-! ## Registers and marks of a slot -/

theorem mem_put_self {α : Type} (m : List (Nat × α)) (i : Nat) (x : α) : (i, x) ∈ put m i x := by
  induction m with
  | nil => simp [put]
  | cons e m ih =>
    rw [put]
    split_ifs
    · exact List.mem_cons_self
    · exact List.mem_cons_self
    · exact List.mem_cons_of_mem _ ih

/-- An entry of another key stays in the table. -/
theorem mem_put_of_mem {α : Type} {m : List (Nat × α)} {e : Nat × α} {i : Nat} (x : α) (h : e ∈ m) (hi : e.1 ≠ i) :
    e ∈ put m i x := by
  induction m with
  | nil => exact absurd h List.not_mem_nil
  | cons d m ih =>
    rw [put]
    rcases List.mem_cons.mp h with rfl | h
    · rw [if_neg hi]
      split_ifs <;> simp
    · split_ifs <;> simp [h, ih h]

theorem Slot.setReg_pc (sl : Slot) (r : Nat) (v : Reg) : (sl.setReg r v).pc = sl.pc := by
  rw [Slot.setReg]
  split <;> rfl

/-- What a run of registers reads as once each has been written, from the lowest upwards. -/
theorem Slot.reg_foldl_setReg (sl : Slot) (a n : Nat) (f : Nat → Reg) (x : Nat) :
    (((List.range n).map fun i => (a + i, f i)).foldl (fun sl e => sl.setReg e.1 e.2) sl).reg x =
      if a ≤ x ∧ x < a + n ∧ x ≠ 0 then f (x - a) else sl.reg x := by
  induction n with
  | zero => rw [if_neg (by omega)]; rfl
  | succ n ih =>
    rw [List.range_succ, List.map_append, List.foldl_append]
    show (Slot.setReg _ (a + n) (f n)).reg x = _
    rw [Slot.reg_setReg, ih]
    by_cases hx : a + n = x
    · subst hx
      by_cases h0 : a + n = 0
      · rw [if_neg (by omega), if_neg (by omega), if_neg (by omega)]
      · rw [if_pos ⟨rfl, h0⟩, if_pos (by omega), Nat.add_sub_cancel_left]
    · rw [if_neg (by omega)]
      by_cases h : a ≤ x ∧ x < a + n ∧ x ≠ 0
      · rw [if_pos h, if_pos (by omega)]
      · rw [if_neg h, if_neg (by omega)]

/-- A run of writes to the registers of a slot changes that slot and the errors that had struck its registers. -/
theorem State.slot_foldl_writeReg (s : State) (k : Nat) (l : List (Nat × Reg)) :
    (l.foldl (fun s e => s.writeReg k e.1 e.2) s).slot k = l.foldl (fun sl e => sl.setReg e.1 e.2) (s.slot k) := by
  induction l generalizing s with
  | nil => rfl
  | cons e l ih => rw [List.foldl_cons, ih, State.slot_writeReg, if_pos rfl, List.foldl_cons]

theorem State.mem_marks_mark (s : State) (k : Nat) {r : Nat} (m : Mark) (h : r ≠ 0) : (r, m) ∈ ((s.mark k r m).slot k).marks := by
  rw [State.mark, if_neg h, State.slot_onSlot_same]
  exact mem_put_self ..

/-- A mark on a register stays when the same mark is put on another. -/
theorem State.mem_marks_mark_of_mem {s : State} {k r : Nat} {m : Mark} (q : Nat) (h : (r, m) ∈ (s.slot k).marks) :
    (r, m) ∈ ((s.mark k q m).slot k).marks := by
  rw [State.mark]
  split
  · exact h
  · rw [State.slot_onSlot_same]
    by_cases hq : r = q
    · exact hq ▸ mem_put_self ..
    · exact mem_put_of_mem m h hq

theorem State.mark_keeps (s : State) (k r : Nat) (m : Mark) : (s.mark k r m).cores = s.cores ∧ (s.mark k r m).mem = s.mem := by
  rw [State.mark]
  split <;> exact ⟨rfl, rfl⟩

/-! ## A reply at its scoreboard entry (R46, R276, R366, R403) -/

/-- An entry leaves the scoreboard, and its slot no longer waits for it. -/
def State.unboarded (s : State) (n : Nat) (b : Board) : State :=
  (s.onCore n fun c => { c with board := c.board.filter fun x => x.seq != b.seq }).onSlot b.slot fun sl => sl.released b.seq

section
variable (s : State) (n : Nat) (b : Board)

theorem State.boardReplied_values (vals : List Reg) (m : Mark) (h : b.kind ≠ .element) : s.boardReplied n b .none m vals =
    (b.values vals).foldl (fun s e => s.writeReg b.slot e.1 e.2) (s.unboarded n b) := by
  unfold State.boardReplied
  cases hk : b.kind with
  | element => exact absurd hk h
  | _ => rfl

theorem State.boardReplied_marks {status : Cause} (vals : List Reg) (m : Mark) (h : b.kind ≠ .element) (hs : status ≠ .none) :
    s.boardReplied n b status m vals =
      (List.range b.count).foldl (fun s i => s.mark b.slot (b.reg + i) m) (s.unboarded n b) := by
  unfold State.boardReplied
  split
  · exact absurd rfl hs
  · next hk _ => exact absurd hk h
  · exact absurd rfl hs
  · rfl

theorem State.unboarded_slot_reg (x : Nat) : ((s.unboarded n b).slot b.slot).reg x = (s.slot b.slot).reg x := by
  rw [State.unboarded, State.slot_onSlot_same]
  rfl

theorem State.unboarded_slot_pc : ((s.unboarded n b).slot b.slot).pc = (s.slot b.slot).pc := by
  rw [State.unboarded, State.slot_onSlot_same]
  rfl

/-- The entry is gone from a state whose cores are those that it has left. -/
theorem State.unboarded_gone {t : State} (h : t.cores = (s.unboarded n b).cores ∧ t.mem = (s.unboarded n b).mem) :
    (∀ x ∈ (t.core n).board, x.seq ≠ b.seq) ∧ t.mem = s.mem := by
  refine ⟨fun x hx => ?_, h.2⟩
  have hc : t.core n = (s.unboarded n b).core n := by rw [State.core, h.1]; rfl
  rw [hc, State.unboarded, State.core_onSlot, State.core_onCore_same] at hx
  simpa using (List.mem_filter.mp hx).2

theorem State.boardReplied_values_gone (vals : List Reg) (m : Mark) (h : b.kind ≠ .element) :
    (∀ x ∈ ((s.boardReplied n b .none m vals).core n).board, x.seq ≠ b.seq) ∧ (s.boardReplied n b .none m vals).mem = s.mem := by
  rw [s.boardReplied_values n b vals m h]
  exact s.unboarded_gone n b ⟨foldl_keeps State.cores _ _ _ fun _ _ _ => State.writeReg_cores ..,
    foldl_keeps State.mem _ _ _ fun _ _ _ => State.writeReg_mem ..⟩

/-- A reply that is no answer marks every register of its entry. -/
theorem State.boardReplied_marked {status : Cause} (vals : List Reg) (m : Mark) (h : b.kind ≠ .element) (hs : status ≠ .none) :
    let t := s.boardReplied n b status m vals
    ((∀ x ∈ (t.core n).board, x.seq ≠ b.seq) ∧ t.mem = s.mem) ∧
      ∀ j < b.count, b.reg + j ≠ 0 → (b.reg + j, m) ∈ (t.slot b.slot).marks := by
  intro t
  have ht : t = _ := s.boardReplied_marks n b vals m h hs
  rw [ht]
  refine ⟨s.unboarded_gone n b ⟨foldl_keeps State.cores _ _ _ fun _ _ _ => (State.mark_keeps ..).1,
    foldl_keeps State.mem _ _ _ fun _ _ _ => (State.mark_keeps ..).2⟩, fun j hj hr => ?_⟩
  exact foldl_reaches (P := fun _ => True) (Q := fun t : State => (b.reg + j, m) ∈ (t.slot b.slot).marks)
    (List.mem_range.mpr hj) trivial (fun _ _ _ _ => trivial) (fun t _ => t.mem_marks_mark _ _ hr)
    fun t i ht => State.mem_marks_mark_of_mem _ ht

end

/-- The tag of a loaded value (R366, R371). -/
theorem Board.values_load {b : Board} {size : Nat} {sgn capLoad : Bool} (h : b.kind = .load size sgn capLoad) (vals : List Reg) :
    b.values vals = [(b.reg, ⟨extend sgn size (vals.getD 0 {}).data.toNat,
      if (vals.getD 0 {}).tag = .bounded then .bounded else if capLoad = true then (vals.getD 0 {}).tag else .exact⟩)] := by
  rw [Board.values, h]
  dsimp only
  cases (vals.getD 0 {}).tag <;> cases capLoad <;> rfl

theorem Board.values_call {b : Board} (h : b.kind = .call) (vals : List Reg) :
    b.values vals = (List.range b.count).map fun i => (b.reg + i, vals.getD i {}) := by
  rw [Board.values, h]

section
variable {s : State} {n : Nat} {r : Reply}

theorem State.replyArrived_board {b : Board} (h : s.boardOf r.entry = some (n, b)) :
    s.replyArrived r = s.boardReplied n b r.status ⟨r.status, r.rcode, r.dev, b.addr⟩ r.vals := by
  rw [State.replyArrived]
  simp only [h]

theorem State.replyArrived_posted {p : Posted} (hb : s.boardOf r.entry = none) (h : s.postedOf r.entry = some (n, p)) :
    s.replyArrived r = s.postedAnswered n p r.status r.rcode r.dev := by
  rw [State.replyArrived]
  simp only [hb, h]

theorem exec_memoryReply (h : s.input = .memoryReply r) : exec .memoryReply s = .next (s.replyArrived r) := by
  show execMemoryReply s = _
  rw [execMemoryReply, h]

theorem exec_rcallReply (h : s.input = .rcallReply r) : exec .rcallReply s = .next (s.replyArrived r) := by
  show execRcallReply s = _
  rw [execRcallReply, h]

theorem exec_storeAck (h : s.input = .storeAck r) : exec .storeAck s = .next (s.replyArrived r) := by
  show execStoreAck s = _
  rw [execStoreAck, h]

/-- A load's reply writes its destination alone. -/
theorem State.loadReply_writes {b : Board} {size : Nat} {sgn capLoad : Bool} (hk : b.kind = .load size sgn capLoad) (hr : b.reg ≠ 0)
    (m : Mark) (vals : List Reg) :
    let v := vals.getD 0 {}
    let t := s.boardReplied n b .none m vals
    (t.slot b.slot).reg b.reg = ⟨extend sgn size v.data.toNat,
        if v.tag = .bounded then .bounded else if capLoad = true then v.tag else .exact⟩ ∧
      (t.slot b.slot).pc = (s.slot b.slot).pc ∧ ∀ x, x ≠ b.reg → (t.slot b.slot).reg x = (s.slot b.slot).reg x := by
  intro v t
  have ht : t = _ := s.boardReplied_values n b vals m (by rw [hk]; exact nofun)
  rw [ht, Board.values_load hk, State.slot_foldl_writeReg, List.foldl_cons, List.foldl_nil]
  refine ⟨?_, ?_, fun x hx => ?_⟩
  · rw [Slot.reg_setReg, if_pos ⟨rfl, hr⟩]
  · rw [Slot.setReg_pc, State.unboarded_slot_pc]
  · rw [Slot.reg_setReg, if_neg fun h => hx h.1.symm, State.unboarded_slot_reg]

/-- The reply to a call writes the registers of its entry alone. -/
theorem State.callReply_writes {b : Board} (hk : b.kind = .call) (hr : b.reg ≠ 0) (m : Mark) (vals : List Reg) :
    let t := s.boardReplied n b .none m vals
    (∀ j < b.count, (t.slot b.slot).reg (b.reg + j) = vals.getD j {}) ∧
      ∀ x, x < b.reg ∨ b.reg + b.count ≤ x → (t.slot b.slot).reg x = (s.slot b.slot).reg x := by
  intro t
  have ht : t = _ := s.boardReplied_values n b vals m (by rw [hk]; exact nofun)
  rw [ht, Board.values_call hk, State.slot_foldl_writeReg]
  refine ⟨fun j hj => ?_, fun x hx => ?_⟩
  · rw [Slot.reg_foldl_setReg, if_pos (by omega), Nat.add_sub_cancel_left]
  · rw [Slot.reg_foldl_setReg, if_neg (by omega), State.unboarded_slot_reg]

end

/-! ## Posted accesses (R48, R368) -/

/-- A posted access that has been answered is open no more, and the copy command that made it goes on. -/
def State.unposted (s : State) (n : Nat) (p : Posted) : State :=
  let t := s.onCore n fun c => { c with posted := c.posted.filter fun x => x.tag != p.tag }
  if p.copy.isSome then t.emit (.copyChunk (clusterOf n)) else t

theorem State.unposted_keeps (s : State) (n : Nat) (p : Posted) : (s.unposted n p).slots = s.slots ∧
    (s.unposted n p).mem = s.mem ∧ (s.unposted n p).grids = s.grids := by
  rw [State.unposted]
  split <;> exact ⟨rfl, rfl, rfl⟩

/-- The access is gone from a state whose cores are those that it has left. -/
theorem State.unposted_gone (s : State) (n : Nat) (p : Posted) {t : State} (h : t.cores = (s.unposted n p).cores) :
    ∀ x ∈ (t.core n).posted, x.tag ≠ p.tag := by
  have hc : t.core n = (s.onCore n fun c => { c with posted := c.posted.filter fun x => x.tag != p.tag }).core n := by
    rw [State.core, h, State.unposted]
    split <;> rfl
  intro x hx
  rw [hc, State.core_onCore_same] at hx
  simpa using (List.mem_filter.mp hx).2

/-- The bytes that a refusal leaves unwritten go to their barrier. -/
def State.uncounted (s : State) (p : Posted) : State :=
  match p.barrier with
  | some (va, bytes) =>
    let r : DeskReq := { pa := untranslated, va := va, ctx := s.ctxOf p.slot, who := s.waiterOf p.slot, seq := s.fresh,
                         n := bytes, pc := some p.pc }
    s.drawn.carryDesk (slotAgent p.slot) (s.dieOf p.slot) 0x14 r (.bpendsub r)
  | none => s

theorem State.uncounted_keeps (s : State) (p : Posted) : (s.uncounted p).cores = s.cores ∧ (s.uncounted p).grids = s.grids := by
  rw [State.uncounted]
  split <;> exact ⟨rfl, rfl⟩

theorem State.postedAnswered_ok (s : State) (n : Nat) (p : Posted) (rcode : Cause) (dev : Nat) :
    s.postedAnswered n p .none rcode dev = s.unposted n p := by
  rw [State.postedAnswered]
  exact if_pos rfl

theorem State.postedAnswered_refused (s : State) (n : Nat) (p : Posted) {status : Cause} (rcode : Cause) (dev : Nat)
    (h : status ≠ .none) : s.postedAnswered n p status rcode dev =
      ((s.unposted n p).uncounted p).lateFault p.slot (if p.grid = 0xFFFF then none else some p.grid)
        { cause := status, addr := p.addr, rcode := rcode, dev := dev, from_ := some (BitVec.ofNat 64 p.pc) } := by
  rw [State.postedAnswered]
  exact if_neg h

/-- The end of a running grid on its cores. -/
theorem State.endGrid_running {s : State} {g : Nat} {x : Grid} (e : EndCause) (h : s.grid g = some x) (hr : x.st = .running)
    (he : x.ended = none) (hc : x.rects ≠ []) : (s.endGrid g e).cores = s.cores ∧
      ∃ y, (s.endGrid g e).grid g = some y ∧ y.st = .stopping ∧ y.ended = some { e with saved := false } := by
  simp [State.endGrid, State.grid_onGrid, h, hr, he, hc]

/-- Requests for a barrier leave the cores and the grids as they are. -/
theorem State.flushBarrier_keeps (s : State) (k : Nat) : (s.flushBarrier k).cores = s.cores ∧ (s.flushBarrier k).grids = s.grids := by
  rw [State.flushBarrier]
  split <;> exact ⟨rfl, rfl⟩

/-- A late fault ends the grid that has made the access (R46). -/
theorem State.lateFault_ends {s : State} {g : Nat} {x : Grid} (k : Nat) (t : TrapInfo) (h : s.grid g = some x)
    (hr : x.st = .running) (he : x.ended = none) (hc : x.rects ≠ []) : (s.lateFault k (some g) t).cores = s.cores ∧
      ∃ y e, (s.lateFault k (some g) t).grid g = some y ∧ y.st = .stopping ∧ y.ended = some e ∧ e.status = 1 ∧
        e.cause = t.cause.code ∧ e.taddr = t.addr := by
  have key (u : State) (hu : u.cores = s.cores ∧ u.grids = s.grids) (pc : Nat) :
      (u.endGrid g (u.slotFault k t.cause t.addr pc)).cores = s.cores ∧
        ∃ y e, (u.endGrid g (u.slotFault k t.cause t.addr pc)).grid g = some y ∧ y.st = .stopping ∧ y.ended = some e ∧
          e.status = 1 ∧ e.cause = t.cause.code ∧ e.taddr = t.addr := by
    have hg : u.grid g = some x := by rw [State.grid, hu.2]; exact h
    obtain ⟨hcores, y, hy, hst, hend⟩ := State.endGrid_running (u.slotFault k t.cause t.addr pc) hg hr he hc
    exact ⟨hcores.trans hu.1, y, _, hy, hst, hend, rfl, rfl, rfl⟩
  rw [State.lateFault]
  split
  · exact key ((s.flushBarrier k).onSlot k _) (s.flushBarrier_keeps k) _
  · exact key s ⟨rfl, rfl⟩ _

/-- A posted access of a running grid that is refused, or lapses, ends that grid (R46, R48). -/
theorem State.postedAnswered_ends {s : State} {n : Nat} {p : Posted} {x : Grid} {status : Cause} (rcode : Cause) (dev : Nat)
    (h : status ≠ .none) (hp : p.grid ≠ 0xFFFF) (hg : s.grid p.grid = some x) (hr : x.st = .running) (he : x.ended = none)
    (hc : x.rects ≠ []) :
    let t := s.postedAnswered n p status rcode dev
    (∀ q ∈ (t.core n).posted, q.tag ≠ p.tag) ∧ ∃ y e, t.grid p.grid = some y ∧ y.st = .stopping ∧ y.ended = some e ∧
      e.status = 1 ∧ e.cause = status.code ∧ e.taddr = p.addr := by
  intro t
  have ht : t = _ := s.postedAnswered_refused n p rcode dev h
  rw [if_neg hp] at ht
  have hg' : ((s.unposted n p).uncounted p).grid p.grid = some x := by
    rw [State.grid, (State.uncounted_keeps ..).2, (s.unposted_keeps n p).2.2]
    exact hg
  obtain ⟨hcores, hend⟩ := State.lateFault_ends p.slot
    { cause := status, addr := p.addr, rcode := rcode, dev := dev, from_ := some (BitVec.ofNat 64 p.pc) } hg' hr he hc
  rw [ht]
  exact ⟨s.unposted_gone n p (hcores.trans (State.uncounted_keeps ..).1), hend⟩

/-! ## Deadlines (R47, R48, R277) -/

section
variable {s : State} {n core tag : Nat}

theorem exec_replyDeadline (h : s.input = .replyDeadline core tag) : exec .replyDeadline s = .next (s.deadlinePassed core tag) := by
  show execReplyDeadline s = _
  rw [execReplyDeadline, h]

theorem exec_postedTimeout (h : s.input = .postedTimeout core tag) : exec .postedTimeout s = .next (s.postedLapsed core tag) := by
  show execPostedTimeout s = _
  rw [execPostedTimeout, h]

theorem State.deadlinePassed_board {b : Board} (h : s.boardOf tag = some (n, b)) : s.deadlinePassed core tag =
    if s.time < b.due then s.emit (.replyDeadline core tag) else s.boardReplied n b .replyLost ⟨.replyLost, .none, 0, b.addr⟩ [] := by
  rw [State.deadlinePassed]
  simp only [h]

theorem State.postedLapsed_posted {p : Posted} (h : s.postedOf tag = some (n, p)) : s.postedLapsed core tag =
    if s.time < p.due then s.emit (.postedTimeout core tag)
    else s.postedAnswered n { p with barrier := none } .postedTimeout .none p.dev := by
  rw [State.postedLapsed]
  simp only [h]

end

theorem State.mem_agenda_emit (s : State) (e : Event) : e ∈ (s.emit e).agenda :=
  List.mem_append_right _ (List.mem_singleton.mpr rfl)

/-! ## The first write to an elided page (R158) -/

theorem bytesOf_length (n v : Nat) : (bytesOf n v).length = n := by
  induction n generalizing v with
  | zero => rfl
  | succ n ih => rw [bytesOf, List.length_cons, ih]

theorem State.bytes_length (s : State) (pa n : Nat) : (s.bytes pa n).length = n := by
  induction n generalizing pa with
  | zero => rfl
  | succ n ih => rw [State.bytes, List.length_cons, ih]

theorem State.bytes_getD (s : State) (pa n : Nat) {i : Nat} (h : i < n) : (s.bytes pa n).getD i 0 = s.byte (pa + i) := by
  induction n generalizing pa i with
  | zero => omega
  | succ n ih =>
    rw [State.bytes]
    cases i with
    | zero => rfl
    | succ i => rw [List.getD_cons_succ, ih _ (by omega), Nat.add_assoc, Nat.add_comm 1 i]

theorem State.bytes_of_mem {s t : State} (h : t.mem = s.mem) (pa n : Nat) : t.bytes pa n = s.bytes pa n := by
  induction n generalizing pa with
  | zero => rfl
  | succ n ih => rw [State.bytes, State.bytes, ih, State.byte, State.byte, h]

theorem ofBytes_bytesOf (n v : Nat) : ofBytes (bytesOf n v) = v % 256 ^ n := by
  induction n generalizing v with
  | zero => rw [pow_zero, Nat.mod_one]; rfl
  | succ n ih =>
    rw [bytesOf, ofBytes, ih, BitVec.toNat_ofNat, pow_succ' 256 n]
    exact Nat.mod_mul.symm

/-- A byte after a store. -/
theorem State.byte_store (s : State) (a : Nat) (bs : List Byte) (q : Nat) :
    (s.store a bs).byte q = if a ≤ q ∧ q < a + bs.length then bs.getD (q - a) 0 else s.byte q := Memory.read_write ..

/-- Bytes that have been stored are read back. -/
theorem State.bytes_store (s : State) (a : Nat) (bs : List Byte) : (s.store a bs).bytes a bs.length = bs := by
  refine List.ext_getElem (State.bytes_length ..) fun i h1 h2 => ?_
  have hb := (s.store a bs).bytes_getD a bs.length h2
  rw [State.byte_store, if_pos (by omega), Nat.add_sub_cancel_left] at hb
  simpa [List.getD_eq_getElem?_getD, h1, h2] using hb

theorem getD_flatten_replicate {α : Type} (d : α) (k : Nat) (l : List α) {i : Nat} (h : i < k * l.length) :
    (List.replicate k l).flatten.getD i d = l.getD (i % l.length) d := by
  induction k generalizing i with
  | zero => omega
  | succ k ih =>
    rw [List.replicate_succ, List.flatten_cons]
    by_cases hi : i < l.length
    · rw [List.getD_append _ _ _ _ hi, Nat.mod_eq_of_lt hi]
    · rw [List.getD_append_right _ _ _ _ (by omega), ih (by rw [Nat.succ_mul] at h; omega), ← Nat.mod_eq_sub_mod (by omega)]

/-- The bytes of a frame that has taken its pattern. -/
theorem State.byte_fillFrame (s : State) (frame : Nat) {size : Nat} {pattern : List Byte} (hs : size % 32 = 0)
    (hp : pattern.length = 32) (q : Nat) : (s.fillFrame frame size pattern).byte q =
      if frame ≤ q ∧ q < frame + size then pattern.getD ((q - frame) % 32) 0 else s.byte q := by
  have hl : ((List.replicate (size / 32) pattern).flatten).length = size := by
    simp [hp]
    omega
  refine (Memory.read_write ..).trans ?_
  rw [hl]
  split
  · rw [getD_flatten_replicate _ _ _ (by rw [hp]; omega), hp]
  · rfl

theorem bit_eq_bits (v i : Nat) : bit v i = decide (bits v i i = 1) := by
  rw [bit, bits, Nat.add_sub_cancel_left]
  rfl

theorem bit_setBits_zero (v i : Nat) : bit (setBits v i i 0) i = false := by
  rw [bit_eq_bits, bits_setBits_same _ _ (Nat.le_refl i)]
  simp

theorem exec_elMaterialise {s : State} {ctx va : Nat} (h : s.input = .elMaterialise ctx va) : exec .elMaterialise s =
    .next (if s.draining ctx va = true then s.emit (.elMaterialise ctx va) else s.materialise ctx va) := by
  show execElMaterialise s = _
  rw [execElMaterialise, h]

/-- The leaf entry of a page once its frame has been filled. -/
def Leaf.filled (l : Leaf) : Nat := setBits (setBits (setBits l.word 48 48 0) 15 8 0) 7 7 0

/-- The address of the pattern of an elided page. -/
def State.patternAt (s : State) (l : Leaf) : Nat := bits s.eltab.toNat 46 13 * 8192 + 32 * l.pat

section
variable {s : State} {ctx va : Nat} {l : Leaf} {e : Nat} (hd : s.draining ctx va = false) (hw : s.walk ctx va = .leaf l e)
  (hl : l.el = true) (hb : bit l.word 3 = true)
include hd hw hl hb

/-- A page that is elided and may be written takes its pattern, and its entry is written. -/
theorem State.materialise_mem : (s.materialise ctx va).mem =
    ((s.fillFrame l.frame l.size (s.bytes (s.patternAt l) 32)).store e (bytesOf 8 l.filled)).mem := by
  rw [State.materialise]
  simp only [hd, hw, hl, hb, Bool.false_eq_true, if_false, Bool.and_self, if_true]
  rfl

theorem State.materialise_byte (hs : l.size % 32 = 0) (q : Nat) : (s.materialise ctx va).byte q =
    if e ≤ q ∧ q < e + 8 then (bytesOf 8 l.filled).getD (q - e) 0
    else if l.frame ≤ q ∧ q < l.frame + l.size then s.byte (s.patternAt l + (q - l.frame) % 32) else s.byte q := by
  rw [State.byte, State.materialise_mem hd hw hl hb]
  refine (State.byte_store ..).trans ?_
  rw [bytesOf_length, State.byte_fillFrame s l.frame hs (s.bytes_length ..), s.bytes_getD _ _ (Nat.mod_lt _ (by omega))]

theorem State.materialise_entry : (s.materialise ctx va).num e 8 = l.filled % 2 ^ 64 := by
  rw [State.num, State.bytes_of_mem (State.materialise_mem hd hw hl hb)]
  refine (congrArg ofBytes ?_).trans (ofBytes_bytesOf 8 l.filled)
  exact State.bytes_store (s.fillFrame l.frame l.size (s.bytes (s.patternAt l) 32)) e (bytesOf 8 l.filled)

/-- The frame of an elided page takes the page's pattern, its entry loses el, and no other byte changes. -/
theorem elMaterialise_fills (h : s.input = .elMaterialise ctx va) (hs : l.size % 32 = 0)
    (he : e + 8 ≤ l.frame ∨ l.frame + l.size ≤ e) : ∃ t : State, exec .elMaterialise s = .next t ∧
      (∀ i < l.size, t.byte (l.frame + i) = s.byte (bits s.eltab.toNat 46 13 * 8192 + 32 * l.pat + i % 32)) ∧
      bit (t.num e 8) 7 = false ∧ ∀ pa, (pa < l.frame ∨ l.frame + l.size ≤ pa) → (pa < e ∨ e + 8 ≤ pa) → t.byte pa = s.byte pa := by
  have hx : exec .elMaterialise s = .next (s.materialise ctx va) := by
    rw [exec_elMaterialise h, hd]
    rfl
  refine ⟨_, hx, fun i hi => ?_, ?_, fun pa hf hq => ?_⟩
  · rw [State.materialise_byte hd hw hl hb hs, if_neg (by omega), if_pos (by omega), Nat.add_sub_cancel_left]
    rfl
  · rw [State.materialise_entry hd hw hl hb, bit_eq_bits, bits_mod_two_pow _ (by omega), ← bit_eq_bits]
    exact bit_setBits_zero ..
  · rw [State.materialise_byte hd hw hl hb hs, if_neg (by omega), if_neg (by omega)]

end

/-! ## Register images (R144) -/

theorem registerImageWrite_writes {s : State} {slot reg : Nat} {v : Reg} (h : s.input = .registerImageWrite slot reg v) :
    ((s.slot slot).st = .lent → exec .registerImageWrite s = .next s) ∧
      ((s.slot slot).st ≠ .lent → ∃ t : State, exec .registerImageWrite s = .next t ∧ (reg ≠ 0 → (t.slot slot).reg reg = v) ∧
        (∀ x, x ≠ reg → (t.slot slot).reg x = (s.slot slot).reg x) ∧ t.mem = s.mem) := by
  have hx : exec .registerImageWrite s = .next (s.writeImage slot reg v) := by
    show execRegisterImageWrite s = _
    rw [execRegisterImageWrite, h]
  rw [hx]
  refine ⟨fun hs => by rw [State.writeImage, if_pos hs], fun hs => ?_⟩
  rw [State.writeImage, if_neg hs]
  refine ⟨_, rfl, fun hr => ?_, fun x hxr => ?_, State.writeReg_mem ..⟩
  · rw [State.slot_writeReg, if_pos rfl, Slot.reg_setReg, if_pos ⟨rfl, hr⟩]
  · rw [State.slot_writeReg, if_pos rfl, Slot.reg_setReg, if_neg fun he => hxr he.1.symm]

/-! ## The obligation -/

section
variable {s : State} {n : Nat}

/-- A reply reaches its scoreboard entry, by the row that its request asks for. -/
theorem reply_reaches_board {r : Reply} {b : Board} {i : Instr}
    (h : s.input = .memoryReply r ∧ i = .memoryReply ∨ s.input = .rcallReply r ∧ i = .rcallReply)
    (hb : s.boardOf r.entry = some (n, b)) :
    exec i s = .next (s.boardReplied n b r.status ⟨r.status, r.rcode, r.dev, b.addr⟩ r.vals) := by
  rw [← State.replyArrived_board hb]
  obtain ⟨hi, rfl⟩ | ⟨hi, rfl⟩ := h
  · exact exec_memoryReply hi
  · exact exec_rcallReply hi

theorem storeAck_reaches {r : Reply} {p : Posted} (h : s.input = .storeAck r) (hb : s.boardOf r.entry = none)
    (hp : s.postedOf r.entry = some (n, p)) : exec .storeAck s = .next (s.postedAnswered n p r.status r.rcode r.dev) := by
  rw [exec_storeAck h, State.replyArrived_posted hb hp]

end

/-- Settles O58: a reply reaches the entry or the posted access that it names, and each of the two has a lemma for an answer and one
for what takes its place. -/
theorem repliesArrive : Obligations.RepliesArrive := by
  intro s n
  refine ⟨fun r b i hi hb => ?_, fun r p hi hb hp => ⟨fun hs => ?_, fun x hs hg hx hr he hc => ?_⟩,
    fun core tag b hi hb hk => ⟨fun ht => ?_, fun ht => ?_⟩, fun core tag p x hi hp => ⟨fun ht => ?_, fun ht hg hx hr he hc => ?_⟩,
    fun ctx va hi => ⟨fun hd => ?_, fun l e hd hw hl hb hs he _ => elMaterialise_fills hd hw hl hb hi hs he⟩,
    fun slot reg v => registerImageWrite_writes⟩
  · have hx := reply_reaches_board hi hb
    refine ⟨fun size sgn capLoad hk hs hr => ?_, fun hk hs hr => ?_, fun hk hs => ?_⟩
    · rw [hs] at hx
      exact ⟨_, hx, s.boardReplied_values_gone n b _ _ (by rw [hk]; exact nofun), State.loadReply_writes hk hr _ _⟩
    · rw [hs] at hx
      exact ⟨_, hx, s.boardReplied_values_gone n b _ _ (by rw [hk]; exact nofun), State.callReply_writes hk hr _ _⟩
    · exact ⟨_, hx, s.boardReplied_marked n b _ _ hk hs⟩
  · have hx := storeAck_reaches hi hb hp
    rw [hs, State.postedAnswered_ok] at hx
    exact ⟨_, hx, s.unposted_gone n p rfl, (s.unposted_keeps n p).1, (s.unposted_keeps n p).2.1⟩
  · obtain ⟨hgone, y, e, hend⟩ := State.postedAnswered_ends (n := n) r.rcode r.dev hs hg hx hr he hc
    exact ⟨_, y, e, storeAck_reaches hi hb hp, hgone, hend⟩
  · rw [exec_replyDeadline hi, State.deadlinePassed_board hb, if_pos ht]
    exact ⟨_, rfl, s.mem_agenda_emit _, rfl, rfl⟩
  · rw [exec_replyDeadline hi, State.deadlinePassed_board hb, if_neg (by omega)]
    obtain ⟨⟨hgone, -⟩, hmarks⟩ := s.boardReplied_marked n b [] ⟨.replyLost, .none, 0, b.addr⟩ hk
      (by decide : Cause.replyLost ≠ .none)
    exact ⟨_, rfl, hgone, hmarks⟩
  · rw [exec_postedTimeout hi, State.postedLapsed_posted hp, if_pos ht]
    exact ⟨_, rfl, s.mem_agenda_emit _, rfl⟩
  · rw [exec_postedTimeout hi, State.postedLapsed_posted hp, if_neg (by omega)]
    obtain ⟨-, y, e, hend⟩ := State.postedAnswered_ends (p := { p with barrier := none }) (n := n) .none p.dev
      (by decide : Cause.postedTimeout ≠ .none) hg hx hr he hc
    exact ⟨_, y, e, rfl, hend⟩
  · rw [exec_elMaterialise hi, if_pos hd]

end Sys2Proof.Machine
end

section
/-! SUPPORT. What is handed to the ports: packets for other devices and messages for the host (R29, R35, R42, R43). -/

namespace Sys2Proof.Machine

open Sys2Proof

/-! ## Packets for other devices -/

/-- A packet handed to a port changes the ports, the charges and the list of packets alone. -/
theorem State.post_eta (s : State) (p : Nat) (k : Packet) : s.post p k = { s with
    ports := (s.post p k).ports, charges := (s.post p k).charges, toFabric := s.toFabric ++ [{ k with port := p }] } := by
  rw [State.post, State.fillGroups_eta]
  rfl

/-- So does a packet sent, but for the count of the packets that its device has been sent. -/
theorem State.send_eta (s : State) (p : Packet) (cluster : Nat) : s.send p cluster = { s with
    fabricNext := (s.send p cluster).fabricNext, ports := (s.send p cluster).ports, charges := (s.send p cluster).charges,
    toFabric := (s.send p cluster).toFabric } := by
  rw [State.send]
  split
  · rfl
  · rw [State.post_eta]

section
variable (s : State) (p : Packet) (c : Nat)
@[simp] theorem State.send_mem : (s.send p c).mem = s.mem := by rw [s.send_eta]
@[simp] theorem State.send_cur : (s.send p c).cur = s.cur := by rw [s.send_eta]
@[simp] theorem State.send_slots : (s.send p c).slots = s.slots := by rw [s.send_eta]
@[simp] theorem State.send_cores : (s.send p c).cores = s.cores := by rw [s.send_eta]
@[simp] theorem State.send_regions : (s.send p c).regions = s.regions := by rw [s.send_eta]
@[simp] theorem State.send_net : (s.send p c).net = s.net := by rw [s.send_eta]
@[simp] theorem State.send_toHost : (s.send p c).toHost = s.toHost := by rw [s.send_eta]
end

/-- `q` is the packet `p` as it leaves: its port, its number for its device and its channel are filled in. -/
def Packet.Leaves (p q : Packet) : Prop := ∃ src num vc cluster port,
  q = { p with src := src, num := num, vc := vc, cluster := cluster, port := port }

theorem Packet.Leaves.dst {p q : Packet} : p.Leaves q → q.dst = p.dst := by rintro ⟨_, _, _, _, _, rfl⟩; rfl
theorem Packet.Leaves.addr {p q : Packet} : p.Leaves q → q.addr = p.addr := by rintro ⟨_, _, _, _, _, rfl⟩; rfl
theorem Packet.Leaves.op {p q : Packet} : p.Leaves q → q.op = p.op := by rintro ⟨_, _, _, _, _, rfl⟩; rfl

/-- While a port is up, a packet that is sent leaves by it. -/
theorem State.send_leaves {s : State} (p : Packet) (c : Nat) (h : s.upPorts ≠ []) :
    ∃ q, (s.send p c).toFabric = s.toFabric ++ [q] ∧ p.Leaves q := by
  rw [State.send]
  split
  · next hp =>
    rw [State.planeOf] at hp
    split at hp
    · next hu => exact absurd hu h
    · exact absurd hp (by simp)
  · rw [State.post_eta]
    exact ⟨_, rfl, _, _, _, _, _, rfl⟩

end Sys2Proof.Machine
end

section
/-! Accesses of other devices through the fabric window (R45-R48, R363). -/

namespace Sys2Proof.Machine

open Sys2Proof

/-! ## Free entries -/

/-- Among `n` numbers from `i` upwards one is not in use, if fewer than `n` are in use. -/
theorem exists_not_mem_of_length_lt {used : List Nat} {n : Nat} (i : Nat) (h : used.length < n) : ∃ j, i ≤ j ∧ j < i + n ∧ j ∉ used := by
  by_contra hc
  push Not at hc
  have hsub : List.range' i n ⊆ used := fun j hj => by
    rw [List.mem_range'_1] at hj
    exact hc j hj.1 hj.2
  have := (List.subperm_of_subset List.nodup_range' hsub).length_le
  rw [List.length_range'] at this
  omega

theorem freeId_some {used : List Nat} {n i j : Nat} (h1 : i ≤ j) (h2 : j < i + n) (h3 : j ∉ used) : ∃ k, freeId used n i = some k := by
  induction n generalizing i with
  | zero => omega
  | succ n ih =>
    rw [freeId]
    split
    · next hu =>
      have hij : i ≠ j := fun he => h3 (by simpa [he] using hu)
      exact ih (by omega) (by omega)
    · exact ⟨i, rfl⟩

/-- There is a free entry while fewer than all are in use. -/
theorem freeId_of_length {used : List Nat} {n : Nat} (h : used.length < n) : ∃ k, freeId used n 0 = some k :=
  let ⟨_, h1, h2, h3⟩ := exists_not_mem_of_length_lt 0 h
  freeId_some h1 h2 h3

/-! ## The request -/

/-- The request of a strand as it is sent, in the strand's context and class. -/
def State.request (s : State) (p : Packet) : Packet := { p with ctx := s.ctxOf s.cur, qos := s.here.qos, core := coreOf s.cur }

/-- A request of the strand has been counted and sent. -/
def State.sentAway (s : State) (p : Packet) : State :=
  (s.count (coreOf s.cur) 11 1).send ((s.count (coreOf s.cur) 11 1).request p) (clusterOf (coreOf s.cur))

theorem State.upPorts_count (s : State) (c n amount : Nat) : (s.count c n amount).upPorts = s.upPorts := by
  unfold State.upPorts State.port
  rw [State.count_ports]

theorem sendAway_up {s : State} (p : Packet) (e : Event) (h : s.upPorts ≠ []) : sendAway p e s = .ok ((), s.sentAway p) := by
  rw [sendAway, Act.modify_apply]
  rw [← s.upPorts_count (coreOf s.cur) 11 1] at h
  rw [if_neg h, State.sentAway, State.request, State.count_cur]

/-- A request leaves by a port, and the strand goes on: its registers, the entries of its core and memory are as they were. -/
theorem State.sentAway_retire {s : State} (p : Packet) (h : s.upPorts ≠ []) :
    (∃ q, ((s.sentAway p).retire 0).toFabric = s.toFabric ++ [q] ∧ q.dst = p.dst ∧ q.addr = p.addr ∧ q.op = p.op) ∧
    ((s.sentAway p).retire 0).here.pc = s.here.pc + 4 ∧ ((s.sentAway p).retire 0).mem = s.mem ∧
    (∀ r, ((s.sentAway p).retire 0).value r = s.value r) ∧
    (∀ m, (((s.sentAway p).retire 0).core m).board = (s.core m).board ∧
      (((s.sentAway p).retire 0).core m).posted = (s.core m).posted) := by
  have hcur : (s.sentAway p).cur = s.cur := by simp [State.sentAway]
  have hslot : (s.sentAway p).here = s.here := by simp [State.sentAway, State.here, State.slot]
  have hhere : ((s.sentAway p).retire 0).here = { s.here with
      pc := s.here.pc + 4, window := if s.here.window = 0 then 0 else s.here.window - 1 } := by
    rw [State.here, State.retire_slot, State.retire_cur, if_pos rfl, hslot]
  refine ⟨?_, by rw [hhere], by simp [State.sentAway], fun r => by rw [State.value, hhere]; rfl, fun m => ?_⟩
  · have hc : (s.count (coreOf s.cur) 11 1).upPorts ≠ [] := by rwa [s.upPorts_count (coreOf s.cur) 11 1]
    obtain ⟨q, hq, hl⟩ :=
      State.send_leaves ((s.count (coreOf s.cur) 11 1).request p) (clusterOf (coreOf s.cur)) hc
    refine ⟨q, ?_, hl.dst, hl.addr, hl.op⟩
    rw [State.retire_toFabric, State.sentAway, hq, State.count_toFabric]
  · have hc : (s.sentAway p).core m = (s.count (coreOf s.cur) 11 1).core m := by simp [State.sentAway, State.core]
    rw [((s.sentAway p).retire_onlyHere 0).2.2.1 m, hc, s.core_count (coreOf s.cur) 11 1 m]
    exact ⟨rfl, rfl⟩

/-! ## Entries -/

/-- The entry of the scoreboard is taken, and its deadline runs. -/
def State.boarded (s : State) (b : Board) : State :=
  (s.drawn.onHereCore fun c => { c with board := b :: c.board }).emit (.replyDeadline (coreOf s.cur) s.fresh)

theorem takeBoard_free {s : State} {gd : RegNo} {count : Nat} {kind : BoardKind} {ea i : Nat}
    (h : freeId (s.hereCore.board.map (·.id)) 64 0 = some i) : takeBoard gd count kind ea s =
      .ok (s.fresh, s.boarded ⟨i, s.cur, gd.toNat, count, kind, ea, s.fresh, s.time + s.here.deadline⟩) := by
  have ht : takeEntry s = .ok (i, s) := by simp [takeEntry, Act.bind_apply, h]
  rw [takeBoard, Act.bind_ok ht]
  rfl

theorem expectReply_free {s : State} {gd : RegNo} {count : Nat} {kind : BoardKind} {ea i : Nat} (p : Packet)
    (h : freeId (s.hereCore.board.map (·.id)) 64 0 = some i) (hup : s.upPorts ≠ []) : expectReply gd count kind ea p s =
      .ok ((), (s.boarded ⟨i, s.cur, gd.toNat, count, kind, ea, s.fresh, s.time + s.here.deadline⟩).sentAway
        { p with entry := s.fresh }) := by
  rw [expectReply, Act.bind_ok (takeBoard_free h), Act.bind_ok (Act.get_apply _)]
  exact sendAway_up _ _ hup

/-- The entry of a posted access of another device. -/
def State.postedEntry (s : State) (i dev ea n : Nat) : Posted :=
  ⟨i, s.cur, (s.gridOf s.cur).getD 0xFFFF, ea, s.here.pc.toNat, dev, none, match s.here.task with
    | some t => t.dealt.isNone || t.triggered
    | none => true, false, s.fresh, s.time + 4 * s.here.deadline, none, n⟩

/-- The entry of a posted access is taken, and its time runs. -/
def State.posted (s : State) (p : Posted) : State :=
  (s.drawn.onHereCore fun c => { c with posted := p :: c.posted }).emit (.postedTimeout (coreOf s.cur) s.fresh)

theorem takePosted_free {s : State} {dev ea n i : Nat} (h : freeId (s.hereCore.posted.map (·.id)) 256 0 = some i) :
    takePosted dev ea n none false s = .ok (s.fresh, s.posted (s.postedEntry i dev ea n)) := by
  rw [takePosted, Act.bind_ok (Act.get_apply _), h]
  rfl

/-! ## Loads and stores of another device -/

section
variable {s : State} {gs1 gd : RegNo} {off : Word64} {dev addr n : Nat}

theorem fetch_away {perms : List Nat} {u : Use} {r : RegNo} {ea : Nat} (hb : s.BaseOk r ea n 0 perms) (hr : regionOfVA ea = .fabric dev addr)
    (hd : dev ≠ thisDevice) : fetch (s.value r) ea n 0 perms u s = .ok (.away dev addr, s) := by
  rw [fetch, Act.bind_ok (checkBase_ok hb), Act.bind_ok (Act.get_apply s), hr]
  simp only [bne_iff_ne, ne_eq, hd, not_false_eq_true, if_true]
  rfl

/-- A load of another device: its request leaves, and its destination is outstanding. -/
theorem load_away {sgn : Bool} (hr : regionOfVA (s.address gs1 off) = .fabric dev addr) (hd : dev ≠ thisDevice) (hup : s.upPorts ≠ [])
    (h1 : s.Readable gs1) (hb : s.BaseOk gs1 (s.address gs1 off) n 0 [permR]) (hw : s.Writable gd) (hz : gd ≠ 0)
    (hf : (s.hereCore.board.map (·.id)).length < 64) :
    ∃ (t : State) (q : Packet), settle 0 (load 0 gd gs1 off n 0 sgn) s = .next t ∧ t.toFabric = s.toFabric ++ [q] ∧ q.dst = dev ∧
      q.addr = addr ∧ q.op = .load n ∧ t.outstanding s.cur gd.toNat = true ∧ t.here.pc = s.here.pc + 4 ∧ t.mem = s.mem ∧
      (∀ r, t.value r = s.value r) := by
  obtain ⟨i, hi⟩ := freeId_of_length hf
  let b : Board := ⟨i, s.cur, gd.toNat, 1, .load n sgn false, s.address gs1 off, s.fresh, s.time + s.here.deadline⟩
  let p : Packet := { dst := dev, addr := addr, acq := acqOf (s.value gs1), op := .load n, entry := s.fresh }
  have he := enter_ready (srcs := [gs1]) (dsts := [gd]) (everywhere_any s.cur) (by simp [h1]) (by simp [hw])
  have hrun : load 0 gd gs1 off n 0 sgn s = .ok ((), ((s.boarded b).sentAway p).retire 0) := by
    rw [load, Act.bind_ok he, Act.bind_ok (source_ready h1)]
    refine (Act.bind_ok (fetch_away hb hr hd)).trans ?_
    exact (Act.bind_ok (expectReply_free _ hi hup)).trans rfl
  obtain ⟨⟨q, hq, hdst, haddr, hop⟩, hpc, hmem, hval, hent⟩ := (s.boarded b).sentAway_retire p hup
  refine ⟨_, q, settle_ok hrun, hq, hdst, haddr, hop, ?_, hpc, hmem, hval⟩
  have hne : gd.toNat ≠ 0 := fun h => hz (BitVec.eq_of_toNat_eq h)
  have hboard : ((s.boarded b).core (coreOf s.cur)).board = b :: (s.hereCore).board := by
    simp [State.boarded, State.onHereCore, State.hereCore]
  simp [State.outstanding, hne, (hent _).1, hboard, b]

/-- A store of another device that no barrier counts: its request leaves, and it is posted. -/
theorem store_away {gs2 : RegNo} (hr : regionOfVA (s.address gs1 off) = .fabric dev addr) (hd : dev ≠ thisDevice) (hup : s.upPorts ≠ [])
    (h1 : s.Readable gs1) (hb : s.BaseOk gs1 (s.address gs1 off) n 0 [permW]) (h2 : s.Readable gs2) (hx : (s.value gs2).tag ≠ .bounded)
    (hf : (s.hereCore.posted.map (·.id)).length < 256) (hc : s.here.stbar.tag ≠ .cap) :
    ∃ (t : State) (q : Packet), settle 0 (store 0 gs1 gs2 off n 0) s = .next t ∧ t.toFabric = s.toFabric ++ [q] ∧ q.dst = dev ∧
      q.addr = addr ∧ q.op = .store (bytesOf n (s.value gs2).data.toNat) false false false none ∧ t.postsOpen s.cur = true ∧
      t.here.pc = s.here.pc + 4 ∧ t.mem = s.mem ∧ (∀ r, t.value r = s.value r) := by
  obtain ⟨i, hi⟩ := freeId_of_length hf
  let e : Posted := s.postedEntry i dev (s.address gs1 off) n
  let p : Packet := { dst := dev, addr := addr, entry := s.fresh, acq := acqOf (s.value gs1),
                      op := .store (bytesOf n (s.value gs2).data.toNat) false false false none }
  have hcounts : s.counts s.cur (s.address gs1 off) = false := by
    have : (s.slot s.cur).stbar.tag ≠ .cap := hc
    simp [State.counts, this]
  have hlen : (bytesOf n (s.value gs2).data.toNat).length = n := bytesOf_length ..
  have he := enter_ready (srcs := [gs1, gs2]) (dsts := []) (everywhere_any s.cur) (by simp [h1, h2]) (by simp)
  have hat : storeAt (s.value gs1) (s.address gs1 off) (bytesOf n (s.value gs2).data.toNat) .plain 0 [permW] true s =
      .ok ((), (s.posted e).sentAway p) := by
    unfold storeAt
    rw [hlen]
    refine (Act.bind_ok (checkBase_ok hb)).trans ?_
    simp only [Act.bind_ok (Act.get_apply s), hcounts, hr, bne_iff_ne, ne_eq, hd, not_false_eq_true, if_true, Bool.and_false, Bool.false_eq_true, if_false]
    refine (Act.bind_ok (takePosted_free hi)).trans ?_
    exact (Act.bind_ok (Act.modify_apply _ _)).trans (sendAway_up _ _ hup)
  have hrun : store 0 gs1 gs2 off n 0 s = .ok ((), ((s.posted e).sentAway p).retire 0) := by
    rw [store, Act.bind_ok he, Act.bind_ok (source_ready h1), Act.bind_ok (source_ready h2)]
    refine (Act.bind_ok (refuseBounded_ok hx s)).trans ?_
    exact (Act.bind_ok hat).trans rfl
  obtain ⟨⟨q, hq, hdst, haddr, hop⟩, hpc, hmem, hval, hent⟩ := (s.posted e).sentAway_retire p hup
  refine ⟨_, q, settle_ok hrun, hq, hdst, haddr, hop, ?_, hpc, hmem, hval⟩
  have hposted : ((s.posted e).core (coreOf s.cur)).posted = e :: (s.hereCore).posted := by
    simp [State.posted, State.onHereCore, State.hereCore]
  rw [State.postsOpen, (hent _).2, hposted, List.any_cons]
  exact (congrArg (· || _) (decide_eq_true rfl)).trans (Bool.true_or _)

end

/-- Settles O19: seven loads and four stores are one load and one store, run to the packet that they send. -/
theorem remoteAccessesSend : Obligations.RemoteAccessesSend := by
  unfold Obligations.RemoteAccessesSend
  intro s gs1 gd imm dev addr ea hr hd hup h1
  refine ⟨fun p hp hb hw hz hf => ?_, fun p hp hb h2 hx hf hc => ?_⟩
  · simp only [List.mem_cons, List.not_mem_nil, or_false] at hp
    rcases hp with rfl | rfl | rfl | rfl | rfl | rfl | rfl <;> exact load_away hr hd hup h1 hb hw hz hf
  · simp only [List.mem_cons, List.not_mem_nil, or_false] at hp
    rcases hp with rfl | rfl | rfl | rfl <;> exact store_away hr hd hup h1 hb h2 hx hf hc

end Sys2Proof.Machine
end

section
/-! SUPPORT. Replies to the host (R35, R36), and steps that ask for later ones (R39, R66). -/

namespace Sys2Proof.Machine

open Sys2Proof

/-! ## Replies to the host -/

/-- The messages of a reply, in the order of its fragments (R35). -/
def HostReq.replies (r : HostReq) (status cause : Nat) (data : List Byte) : List HostMsg :=
  (List.range (fragments 6 data).length).map fun i =>
    { kind := 8, stream := r.stream, tag := r.tag, frag := i, nfrag := (fragments 6 data).length, status := status, cause := cause,
      data := (fragments 6 data).getD i [] }

theorem State.toUbgen_eta (s : State) (m : HostMsg) : s.toUbgen m = { s with
    ports := (s.toUbgen m).ports, toHost := s.toHost ++ [m] } := by
  rw [State.toUbgen, State.fillGroups_eta]

/-- Messages for the host change the Ubgen port and the list of messages alone. -/
theorem State.foldl_toUbgen (f : Nat → HostMsg) (l : List Nat) (s : State) : l.foldl (fun s i => s.toUbgen (f i)) s = { s with
    ports := (l.foldl (fun s i => s.toUbgen (f i)) s).ports, toHost := s.toHost ++ l.map f } := by
  induction l generalizing s with
  | nil => simp
  | cons i l ih =>
    rw [List.foldl_cons, ih, s.toUbgen_eta]
    simp

/-- So does a reply. -/
theorem State.hostReply_eta (s : State) (r : HostReq) (status cause : Nat) (data : List Byte) : s.hostReply r status cause data = { s with
    ports := (s.hostReply r status cause data).ports, toHost := s.toHost ++ r.replies status cause data } := by
  rw [State.hostReply, State.foldl_toUbgen]
  rfl

section
variable (s : State) (r : HostReq) (a b : Nat) (d : List Byte)
@[simp] theorem State.hostReply_mem : (s.hostReply r a b d).mem = s.mem := by rw [s.hostReply_eta]
@[simp] theorem State.hostReply_toHost : (s.hostReply r a b d).toHost = s.toHost ++ r.replies a b d := by rw [s.hostReply_eta]
@[simp] theorem State.hostReply_agenda : (s.hostReply r a b d).agenda = s.agenda := by rw [s.hostReply_eta]
@[simp] theorem State.hostReply_regions : (s.hostReply r a b d).regions = s.regions := by rw [s.hostReply_eta]
end

/-! ## Steps that are asked for -/

/-- `t` is `s` but for steps that have been asked for. -/
def State.OnlyAsks (s t : State) : Prop := ∃ es, t = s.emits es

theorem State.onlyAsks_refl (s : State) : s.OnlyAsks s := ⟨[], by simp [State.emits]⟩

theorem State.OnlyAsks.trans {s t u : State} : s.OnlyAsks t → t.OnlyAsks u → s.OnlyAsks u := by
  rintro ⟨es, rfl⟩ ⟨fs, rfl⟩
  exact ⟨es ++ fs, by simp [State.emits]⟩

theorem State.OnlyAsks.mem_agenda {s t : State} {e : Event} (h : s.OnlyAsks t) (he : e ∈ s.agenda) : e ∈ t.agenda := by
  obtain ⟨es, rfl⟩ := h
  exact List.mem_append_left _ he

theorem State.emitOnce_onlyAsks (s : State) (e : Event) : s.OnlyAsks (s.emitOnce e) := by
  rw [State.emitOnce]
  split
  · exact s.onlyAsks_refl
  · exact ⟨[e], rfl⟩

theorem State.mem_emitOnce (s : State) (e : Event) : e ∈ (s.emitOnce e).agenda := by
  rw [State.emitOnce]
  split
  · next h => simpa using h
  · simp [State.emit]

theorem State.askPort_onlyAsks (s : State) : s.OnlyAsks s.askPort := by
  rw [State.askPort]
  split
  · exact s.emitOnce_onlyAsks _
  · exact s.onlyAsks_refl

theorem State.askTask_onlyAsks (s : State) (region : Nat) : s.OnlyAsks (s.askTask region) := by
  rw [State.askTask]
  split
  · split
    · exact s.emitOnce_onlyAsks _
    · exact s.onlyAsks_refl
  · exact s.onlyAsks_refl

/-- A port whose stream is ready asks for the service of one (R39). -/
theorem State.askPort_of_ready {s : State} {n : Nat} (hn : n < 16) (h : (s.hostStream n).ready = true) :
    ∃ m < 16, .streamRequestIssue m ∈ s.askPort.agenda := by
  have hsome : s.nextStream.isSome = true := by
    rw [State.nextStream, List.find?_isSome]
    refine ⟨n, List.mem_map.mpr ⟨(n + 16 - (s.lastStream + 1) % 16) % 16, ?_, ?_⟩, h⟩
    · simpa using Nat.mod_lt _ (by omega)
    · omega
  obtain ⟨m, hm⟩ := Option.isSome_iff_exists.mp hsome
  have hlt : m < 16 := by
    obtain ⟨d, -, rfl⟩ := List.mem_map.mp (List.mem_of_find?_eq_some hm)
    exact Nat.mod_lt _ (by omega)
  refine ⟨m, hlt, ?_⟩
  rw [State.askPort, hm]
  exact s.mem_emitOnce _

/-! ## Requests that arrive -/

@[simp] theorem State.hostStream_onHostStream_same (s : State) (n : Nat) (f : HStream → HStream) :
    (s.onHostStream n f).hostStream n = f (s.hostStream n) := look_change_same ..

theorem State.hostStream_onHostStream_ne (s : State) {n m : Nat} (f : HStream → HStream) (h : n ≠ m) :
    (s.onHostStream n f).hostStream m = s.hostStream m := (look_change ..).trans (if_neg h)

@[simp] theorem State.hostStream_emits (s : State) (es : List Event) (n : Nat) : (s.emits es).hostStream n = s.hostStream n := rfl

theorem HostReq.stream_lt {r : HostReq} {v : Nat} (h : r.ok v = true) : r.stream < 16 := by
  simp only [HostReq.ok, Bool.and_eq_true, decide_eq_true_eq] at h
  exact h.1.1.2

section
variable {s : State} {r : HostReq} (hp : (s.port 32).state = 2)
include hp

theorem requestArrives_unserved (h : s.serves r = false) : s.requestArrives r = s.hostReply r 2 0 := by
  simp [State.requestArrives, hp, h]

theorem requestArrives_malformed (h : s.serves r = true) (hk : r.ok s.ubgen = false) : s.requestArrives r = s.hostReply r 1 0 := by
  simp [State.requestArrives, hp, h, hk]

theorem requestArrives_cancel (h : s.serves r = true) (hk : r.ok s.ubgen = true) (h3 : r.kind = 3) :
    s.requestArrives r = s.cancelStream r.stream := by
  simp [State.requestArrives, hp, h, hk, h3]

theorem requestArrives_waits (h : s.serves r = true) (hk : r.ok s.ubgen = true) (h3 : r.kind ≠ 3) :
    s.requestArrives r = (s.onHostStream r.stream fun h => { h with waiting := h.waiting ++ [r] }).askPort := by
  simp [State.requestArrives, hp, h, hk, h3]

/-- A request takes its place in its stream, and the port is asked for its service. -/
theorem requestArrives_queued (h : s.serves r = true) (hk : r.ok s.ubgen = true) (h3 : r.kind ≠ 3) :
    (s.requestArrives r).mem = s.mem ∧ (s.requestArrives r).toHost = s.toHost ∧ (s.requestArrives r).regions = s.regions ∧
    ((s.requestArrives r).hostStream r.stream).waiting = (s.hostStream r.stream).waiting ++ [r] ∧
    (∀ m, m ≠ r.stream → (s.requestArrives r).hostStream m = s.hostStream m) ∧
    ((s.hostStream r.stream).held = none → (s.hostStream r.stream).relaxed = [] →
      ∃ m < 16, .streamRequestIssue m ∈ (s.requestArrives r).agenda) := by
  rw [requestArrives_waits hp h hk h3]
  obtain ⟨es, he⟩ := (s.onHostStream r.stream fun h => { h with waiting := h.waiting ++ [r] }).askPort_onlyAsks
  refine ⟨by rw [he]; rfl, by rw [he]; rfl, by rw [he]; rfl, ?_, fun m hm => ?_, fun h1 h2 => ?_⟩
  · rw [he, State.hostStream_emits, State.hostStream_onHostStream_same]
  · rw [he, State.hostStream_emits, State.hostStream_onHostStream_ne _ _ (Ne.symm hm)]
  · refine State.askPort_of_ready (r.stream_lt hk) ?_
    rw [s.hostStream_onHostStream_same]
    cases (s.hostStream r.stream).waiting <;> simp [HStream.ready, h1, h2]

end

end Sys2Proof.Machine
end

section
/-! Requests of the host (R33-R39, R46, R64, R65). -/

namespace Sys2Proof.Machine

open Sys2Proof

/-! ## The turn of a stream -/

/-- A stream whose turn it is has given up its oldest request. -/
def State.turn (s : State) (n : Nat) (rest : List HostReq) : State :=
  ({ s with lastStream := n } : State).onHostStream n fun h => { h with waiting := rest }

/-- The port goes on after it has issued a request. -/
def State.portGoesOn (s : State) (n : Nat) : State :=
  (if (s.hostStream n).parkedOnes = [] then s else s.emitOnce (.streamRequestIssue n)).askPort

theorem State.portGoesOn_onlyAsks (s : State) (n : Nat) : s.OnlyAsks (s.portGoesOn n) := by
  rw [State.portGoesOn]
  split
  · exact s.askPort_onlyAsks
  · exact (s.emitOnce_onlyAsks _).trans (State.askPort_onlyAsks _)

/-- While a request of its stream has to wait, the port comes back to it. -/
theorem State.mem_portGoesOn {s : State} {n : Nat} (h : (s.hostStream n).parkedOnes ≠ []) : .streamRequestIssue n ∈ (s.portGoesOn n).agenda := by
  rw [State.portGoesOn, if_neg h]
  exact (State.askPort_onlyAsks _).mem_agenda (s.mem_emitOnce _)

section
variable {s : State} {n : Nat} {r : HostReq} {rest : List HostReq}

theorem issueRequest_turn (h0 : (s.hostStream n).parkedOnes = []) (h1 : s.nextStream = some n) (h2 : (s.hostStream n).waiting = r :: rest) :
    s.issueRequest n = ((s.turn n rest).tryRequest n ((s.hostStream n).relaxes r) r).portGoesOn n := by
  have hr : s.retryParked n = s := by rw [State.retryParked, h0]; rfl
  rw [State.issueRequest, hr, h1, h2]
  simp only [if_true]
  rfl

theorem exec_streamRequestIssue (h : s.input = .streamRequestIssue n) (h0 : (s.hostStream n).parkedOnes = [])
    (h1 : s.nextStream = some n) (h2 : (s.hostStream n).waiting = r :: rest) : exec .streamRequestIssue s =
      .next (((s.turn n rest).tryRequest n ((s.hostStream n).relaxes r) r).portGoesOn n) := by
  show execStreamRequestIssue s = _
  rw [execStreamRequestIssue, h, ← issueRequest_turn h0 h1 h2]

/-- A request that is served at once: what its service did stands, and the port goes on. -/
theorem tryRequest_served {w u : State} {late : Bool} (h : w.drawn.serve late r = (true, u)) : w.tryRequest n late r = u := by
  rw [State.tryRequest, h]

/-- A request that has to wait is its stream's, or one of its relaxed writes. -/
theorem tryRequest_parked {w u : State} {late : Bool} (h : w.drawn.serve late r = (false, u)) : w.tryRequest n late r =
    u.onHostStream n fun x => x.setAwaiting late w.fresh (some { req := r, seq := w.fresh, holds := r.canHold, parked := true }) := by
  rw [State.tryRequest, h]

end

/-! ## The service of a request -/

section
variable {w u : State} {r : HostReq} {late : Bool}

theorem serve_read (h : r.kind = 0) : w.serve late r = w.serveRead r := by rw [State.serve, h]; rfl
theorem serve_write (h : r.kind = 1) : w.serve late r = w.serveWrite r late := by rw [State.serve, h]; rfl
theorem serve_cell (h : r.kind = 2) : w.serve late r = w.serveCell r := by rw [State.serve, h]; rfl
theorem serve_control (h : r.kind = 4) : w.serve late r = (true, w.enqueueTask r) := by rw [State.serve, h]; rfl

theorem serveParts_error {use : Use} {f : List (Spot × Nat) → State → State} {c : Cause}
    (h : w.ownFabricParts r.agent use true (sectors 9 r.here r.len) = (.error c, u)) : w.serveParts r use f = (true, u.hostFault r c) := by
  rw [State.serveParts, h]

theorem serveParts_found {use : Use} {f : List (Spot × Nat) → State → State} {parts : List (Spot × Nat)}
    (h : w.ownFabricParts r.agent use true (sectors 9 r.here r.len) = (.ok (some parts), u)) : w.serveParts r use f = (true, f parts u) := by
  rw [State.serveParts, h]

theorem serveRead_near (h : r.away = false) : w.serveRead r = w.serveParts r .read fun parts s =>
    if (s.readParts (s.hostQos r.stream) parts).1.poison = true then (s.readParts (s.hostQos r.stream) parts).2.hostFault r .poison
    else (s.readParts (s.hostQos r.stream) parts).2.hostReply r 0 0 (s.readParts (s.hostQos r.stream) parts).1.bytes := by
  rw [State.serveRead, h]
  rfl

theorem serveWrite_near (h : r.away = false) : w.serveWrite r late = w.serveParts r .write fun parts s =>
    if parts.any (fun p => s.typedAt p.1 p.2) = true then s.hostFault r .type
    else (s.writeParts (s.hostQos r.stream) .other none .plain parts r.data).hostAck r := by
  rw [State.serveWrite, h]
  rfl

/-- The request that a Desk performs for a stream. -/
def State.cellAsk (s : State) (r : HostReq) (op : DeskOp) (pa : Nat) : DeskReq :=
  { r.desk op with pa := pa, seq := s.fresh, prio := s.hostPrio r.stream, qos := s.hostQos r.stream }

/-- A cell request whose cell has been found, but for a condition wait, which has a lock to find, is asked of its Desk. -/
theorem serveCell_near {op : DeskOp} {pa : Nat} (h : r.away = false) (ho : deskOpOf r.op = some op) (hv : op ≠ .vwait)
    (hf : w.findCell r.agent r.here op = (.cell pa, u)) (hp : (u.granule pa).poison = false) :
    w.serveCell r = u.askHere r op { r.desk op with pa := pa } := by
  have hl : ∀ q, u.landLock r.agent op q = (.ok q.lock, u) := fun q => by
    rw [State.landLock, if_pos (by simpa using hv)]
  rw [State.serveCell, ho]
  simp only [h, hf, hp, hl, Bool.false_eq_true, if_false]

theorem askHere_done {op : DeskOp} {pa st val : Nat} {elem : List Byte} {v : State}
    (h : (u.drawn.enterSlice (u.hostQos r.stream) pa 32).desk op (u.cellAsk r op pa) = (.done st val elem, v)) :
    u.askHere r op { r.desk op with pa := pa } = (true, v.hostStatusReply r op st val elem) := by
  rw [State.cellAsk] at h
  rw [State.askHere]
  simp only [h]

theorem askHere_held {op : DeskOp} {pa : Nat} {v : State}
    (h : (u.drawn.enterSlice (u.hostQos r.stream) pa 32).desk op (u.cellAsk r op pa) = (.held, v)) :
    u.askHere r op { r.desk op with pa := pa } = (true, v.onHostStream r.stream fun h => { h with
      held := some { req := r, seq := u.fresh, cell := pa, holds := true } }) := by
  rw [State.cellAsk] at h
  rw [State.askHere]
  simp only [h]

end

/-! ## What a stream's turn does -/

section
variable {s u : State} {n : Nat} {r : HostReq} {rest : List HostReq} (hi : s.input = .streamRequestIssue n)
  (h0 : (s.hostStream n).parkedOnes = []) (h1 : s.nextStream = some n) (h2 : (s.hostStream n).waiting = r :: rest)
include hi h0 h1 h2

/-- A request that is served at once: its effect stands, and later steps are asked for. -/
theorem turn_served (h : (s.turn n rest).drawn.serve ((s.hostStream n).relaxes r) r = (true, u)) :
    ∃ es, exec .streamRequestIssue s = .next (u.emits es) := by
  obtain ⟨es, he⟩ := u.portGoesOn_onlyAsks n
  exact ⟨es, by rw [exec_streamRequestIssue hi h0 h1 h2, tryRequest_served h, he]⟩

/-- A request that has to wait is held by its stream, or is one of its relaxed writes, and is tried again. -/
theorem turn_parked (h : (s.turn n rest).drawn.serve ((s.hostStream n).relaxes r) r = (false, u)) :
    ∃ t : State, exec .streamRequestIssue s = .next t ∧ t.mem = u.mem ∧ .streamRequestIssue n ∈ t.agenda ∧
      ∃ h, ((s.hostStream n).relaxes r = false → (t.hostStream n).held = some h) ∧
        ((s.hostStream n).relaxes r = true → h ∈ (t.hostStream n).relaxed) ∧ h.req = r ∧ h.parked = true := by
  let x : HostHeld := { req := r, seq := s.fresh, holds := r.canHold, parked := true }
  let t := u.onHostStream n fun h => h.setAwaiting ((s.hostStream n).relaxes r) s.fresh (some x)
  have hx : exec .streamRequestIssue s = .next (t.portGoesOn n) := by
    rw [exec_streamRequestIssue hi h0 h1 h2, tryRequest_parked h]
    rfl
  have ht : t.hostStream n = (u.hostStream n).setAwaiting ((s.hostStream n).relaxes r) s.fresh (some x) :=
    u.hostStream_onHostStream_same ..
  obtain ⟨es, he⟩ := t.portGoesOn_onlyAsks n
  refine ⟨_, hx, by rw [he]; rfl, State.mem_portGoesOn ?_, x, fun hl => ?_, fun hl => ?_, rfl, rfl⟩
  · rw [ht]
    cases (s.hostStream n).relaxes r <;> simp [HStream.parkedOnes, HStream.setAwaiting, x]
  · rw [he, State.hostStream_emits, ht, hl]
    rfl
  · rw [he, State.hostStream_emits, ht, hl]
    simp [HStream.setAwaiting]

/-- A turn whose request was served, told through what the service left. -/
theorem turn_keeps (h : (s.turn n rest).drawn.serve ((s.hostStream n).relaxes r) r = (true, u)) :
    ∃ t : State, exec .streamRequestIssue s = .next t ∧ t.mem = u.mem ∧ t.toHost = u.toHost ∧ t.regions = u.regions ∧
      ∀ m, t.hostStream m = u.hostStream m := by
  obtain ⟨es, hx⟩ := turn_served hi h0 h1 h2 h
  exact ⟨_, hx, rfl, rfl, rfl, fun _ => rfl⟩

end

/-- The refusal of a request is a reply. -/
theorem State.hostFault_mem (s : State) (r : HostReq) (c : Cause) : (s.hostFault r c).mem = s.mem := by rw [State.hostFault, State.hostReply_mem]

theorem State.hostAck_mem (s : State) (r : HostReq) : (s.hostAck r).mem = s.mem := by rw [State.hostAck, State.toUbgen_eta]

theorem State.hostAck_toHost (s : State) (r : HostReq) :
    (s.hostAck r).toHost = s.toHost ++ [{ kind := 9, stream := r.stream, tag := r.tag }] := by rw [State.hostAck, State.toUbgen_eta]

/-- A control message is the last task of its service core, and changes nothing else. -/
theorem State.enqueueTask_keeps (s : State) (r : HostReq) : (s.enqueueTask r).mem = s.mem ∧ (s.enqueueTask r).toHost = s.toHost ∧
    ((s.enqueueTask r).region r.stream).tasks = (s.region r.stream).tasks ++ [r] := by
  obtain ⟨es, he⟩ := (s.onRegion r.stream fun g => { g with tasks := g.tasks ++ [r] }).askTask_onlyAsks r.stream
  rw [State.enqueueTask, he]
  refine ⟨rfl, rfl, ?_⟩
  exact congrArg Region.tasks (s.region_onRegion_same r.stream fun g => { g with tasks := g.tasks ++ [r] })

/-! ## Arrivals by kind -/

section
variable {s : State} {r : HostReq}

theorem exec_memoryRead (h : s.input = .memoryRead r) (hk : r.kind = 0) : exec .memoryRead s = .next (s.requestArrives r) := by
  show execMemoryRead s = _
  rw [execMemoryRead, h]
  simp [hostRow, hk]

theorem exec_memoryWrite (h : s.input = .memoryWrite r) (hk : r.kind = 1) : exec .memoryWrite s = .next (s.requestArrives r) := by
  show execMemoryWrite s = _
  rw [execMemoryWrite, h]
  simp [hostRow, hk]

theorem exec_cellRequest (h : s.input = .cellRequest r) (hk : r.kind = 2) : exec .cellRequest s = .next (s.requestArrives r) := by
  show execCellRequest s = _
  rw [execCellRequest, h]
  simp [hostRow, hk]

theorem exec_hostCancel (h : s.input = .hostCancel r) (hk : r.kind = 3) : exec .hostCancel s = .next (s.requestArrives r) := by
  show execHostCancel s = _
  rw [execHostCancel, h]
  simp [hostRow, hk]

theorem exec_unsupportedRequest (h : s.input = .unsupportedRequest r) (hk : r.ok s.ubgen = false) :
    exec .unsupportedRequest s = .next (s.requestArrives r) := by
  show execUnsupportedRequest s = _
  rw [execUnsupportedRequest, h]
  simp [hostRow, hk]

/-- A cancel that its stream's hold can take goes to the Desk of the cell. -/
theorem cancelStream_held {n : Nat} {h : HostHeld} (hh : (s.hostStream n).held = some h) (h1 : h.holds = true) (h2 : h.parked = false)
    (h3 : h.cell < untranslated) : s.cancelStream n = s.cancelHold h.cell (streamWaiter n) h.seq := by
  rw [State.cancelStream, hh]
  simp [h1, h2, Nat.not_le.mpr h3]

/-- What an arrival by its own row does. -/
theorem arrival_outcomes {i : Instr} (hp : (s.port 32).state = 2) (hx : exec i s = .next (s.requestArrives r)) :
    (s.serves r = false → exec i s = .next (s.hostReply r 2 0)) ∧
    (s.serves r = true → r.ok s.ubgen = false → exec i s = .next (s.hostReply r 1 0)) ∧
    (r.kind ≠ 3 → s.serves r = true → r.ok s.ubgen = true → ∃ t : State, exec i s = .next t ∧ t.mem = s.mem ∧ t.toHost = s.toHost ∧
      (t.hostStream r.stream).waiting = (s.hostStream r.stream).waiting ++ [r] ∧ (∀ m, m ≠ r.stream → t.hostStream m = s.hostStream m) ∧
      ((s.hostStream r.stream).held = none → (s.hostStream r.stream).relaxed = [] → ∃ m < 16, .streamRequestIssue m ∈ t.agenda)) := by
  refine ⟨fun h => ?_, fun h hk => ?_, fun h3 h hk => ?_⟩
  · rw [hx, requestArrives_unserved hp h]
  · rw [hx, requestArrives_malformed hp h hk]
  · obtain ⟨hm, ht, -, hrest⟩ := requestArrives_queued hp h hk h3
    exact ⟨_, hx, hm, ht, hrest⟩

end

/-! ## The obligation -/

/-- Settles O52: an arrival by the outcome of its checks; a turn by the kind of the request and what its service finds. -/
theorem hostRequestsServed : Obligations.HostRequestsServed := by
  unfold Obligations.HostRequestsServed
  intro s r hp
  refine ⟨fun p hmem hin hk => ?_, fun hin hk => ?_, fun hin h3 hs hk => ?_, fun n rest hin h0 h1 h2 => ?_⟩
  · simp only [List.mem_cons, List.not_mem_nil, or_false] at hmem
    rcases hmem with rfl | rfl | rfl | rfl
    · exact arrival_outcomes hp (exec_memoryRead hin hk)
    · exact arrival_outcomes hp (exec_memoryWrite hin hk)
    · exact arrival_outcomes hp (exec_cellRequest hin hk)
    · exact arrival_outcomes hp (exec_hostCancel hin hk)
  · rw [exec_unsupportedRequest hin hk]
    cases hs : s.serves r with
    | false => rw [requestArrives_unserved hp hs]; rfl
    | true => rw [requestArrives_malformed hp hs hk]; rfl
  · have hx : exec .hostCancel s = .next (s.cancelStream r.stream) := by
      rw [exec_hostCancel hin h3, requestArrives_cancel hp hs hk h3]
    cases hh : (s.hostStream r.stream).held with
    | none => exact hx.trans (by rw [State.cancelStream, hh])
    | some h => exact fun g1 g2 g3 => hx.trans (by rw [cancelStream_held hh g1 g2 g3]; rfl)
  · intro w late fails
    have served {u : State} (h : w.serve late r = (true, u)) := turn_keeps hin h0 h1 h2 h
    have refused {u : State} {c : Cause} (h : w.serve late r = (true, u.hostFault r c)) :
        ∃ t : State, exec .streamRequestIssue s = .next t ∧ fails t u c := by
      obtain ⟨t, hx, hm, ht, -⟩ := served h
      exact ⟨t, hx, hm.trans (u.hostFault_mem r c), ht⟩
    refine ⟨?_, fun hk ha parts u hf => ?_, fun hk ha parts u hf => ⟨fun hty => ?_, fun hty => ?_⟩, fun u c hk ha hf => ?_,
      fun hk ha op pa u ho hv hf hpo => ?_, fun hk => ?_⟩
    · cases hw : w.serve late r with
      | mk done u => cases done with
        | true =>
          obtain ⟨t, hx, hm, ht, -, hst⟩ := served hw
          exact ⟨t, hx, ht, hm, hst n⟩
        | false => exact turn_parked hin h0 h1 h2 hw
    · have hw := (serve_read (late := late) hk).trans ((serveRead_near ha).trans (serveParts_found hf))
      by_cases hg : (u.readParts (u.hostQos r.stream) parts).1.poison = true
      · rw [if_pos hg] at hw
        obtain ⟨t, hx, hfail⟩ := refused hw
        exact ⟨t, hx, fun _ => hfail, fun h => absurd hg (by rw [h]; decide)⟩
      · rw [if_neg hg] at hw
        obtain ⟨t, hx, hm, ht, -⟩ := served hw
        exact ⟨t, hx, fun h => absurd h hg, fun _ => ⟨hm.trans (State.hostReply_mem ..), ht⟩⟩
    · have hw := (serve_write (late := late) hk).trans ((serveWrite_near ha).trans (serveParts_found hf))
      rw [if_neg (by rw [hty]; decide)] at hw
      obtain ⟨t, hx, hm, ht, -⟩ := served hw
      exact ⟨t, hx, hm.trans (State.hostAck_mem ..), ht.trans (State.hostAck_toHost ..)⟩
    · have hw := (serve_write (late := late) hk).trans ((serveWrite_near ha).trans (serveParts_found hf))
      rw [if_pos hty] at hw
      exact refused hw
    · rcases hk with hk | hk
      · rw [if_pos hk] at hf
        exact refused ((serve_read hk).trans ((serveRead_near ha).trans (serveParts_error hf)))
      · rw [if_neg (by omega)] at hf
        exact refused ((serve_write hk).trans ((serveWrite_near ha).trans (serveParts_error hf)))
    · have hw := (serve_cell (late := late) hk).trans (serveCell_near ha ho hv hf hpo)
      split
      · next st val elem v hd =>
        obtain ⟨t, hx, hm, ht, -⟩ := served (hw.trans (askHere_done hd))
        exact ⟨t, hx, hm.trans (State.hostReply_mem ..), ht⟩
      · next v hd =>
        obtain ⟨t, hx, hm, ht, -, hst⟩ := served (hw.trans (askHere_held hd))
        exact ⟨t, _, hx, hm, ht, by rw [hst, State.hostStream_onHostStream_same], rfl, rfl, rfl⟩
      · trivial
    · obtain ⟨hm, ht, hreg⟩ := w.enqueueTask_keeps r
      obtain ⟨t, hx, hm', ht', hreg', -⟩ := served (serve_control hk)
      exact ⟨t, hx, hm'.trans hm, ht'.trans ht, by rw [State.region, hreg']; exact hreg⟩

end Sys2Proof.Machine
end

section
/-! SUPPORT. Queues of a service core, tasks of its control program, and what a search for a cell keeps (R66-R68, R24). -/

namespace Sys2Proof.Machine

open Sys2Proof

theorem State.hostReply_attachSeen (s : State) (r : HostReq) (a b : Nat) (d : List Byte) : (s.hostReply r a b d).attachSeen = s.attachSeen := by
  rw [s.hostReply_eta]

/-! ## Queues by their index -/

theorem look_map_put {α β : Type} (d : β) (g : α → β) (m : List (Nat × α)) (i j : Nat) (x : α) :
    look d ((put m i x).map fun e => (e.1, g e.2)) j = if i = j then g x else look d (m.map fun e => (e.1, g e.2)) j := by
  have h : (put m i x).map (fun e => (e.1, g e.2)) = put (m.map fun e => (e.1, g e.2)) i (g x) := by
    induction m with
    | nil => rfl
    | cons e m ih =>
      rw [put, List.map_cons, put]
      split
      · rfl
      · split
        · rfl
        · rw [List.map_cons, ih]
  rw [h, look_put]

theorem look_map_without {α β : Type} (d : β) (g : α → β) (m : List (Nat × α)) (i j : Nat) :
    look d ((without m i).map fun e => (e.1, g e.2)) j = if i = j then d else look d (m.map fun e => (e.1, g e.2)) j := by
  have h : (without m i).map (fun e => (e.1, g e.2)) = without (m.map fun e => (e.1, g e.2)) i := by
    simp only [without, List.filter_map]
    rfl
  rw [h, look_without]

/-- A change of the queues of one index, by index. -/
theorem look_queues_change (m : List (Nat × Queue)) (i j : Nat) (f : Queue → Queue) :
    look none ((m.map fun e => if e.1 = i then (e.1, f e.2) else e).map fun e => (e.1, some e.2)) j =
      if i = j then (look none (m.map fun e => (e.1, some e.2)) j).map f else look none (m.map fun e => (e.1, some e.2)) j := by
  induction m with
  | nil => simp [look]
  | cons e m ih =>
    simp only [List.map_cons, look]
    by_cases h : e.1 = i
    · rw [if_pos h]
      dsimp only
      by_cases hj : e.1 = j
      · rw [if_pos hj, if_pos hj, if_pos (h.symm.trans hj)]
        rfl
      · rw [if_neg hj, if_neg hj, ih]
    · rw [if_neg h]
      by_cases hj : e.1 = j
      · rw [if_pos hj, if_pos hj, if_neg (fun hij => h (hj.trans hij.symm))]
      · rw [if_neg hj, if_neg hj, ih]

theorem look_map_of_not_mem {α β : Type} (d : β) (g : α → β) {m : List (Nat × α)} {i : Nat} (h : i ∉ m.map (·.1)) :
    look d (m.map fun e => (e.1, g e.2)) i = d := by
  refine look_of_not_any _ _ _ ?_
  rw [List.any_eq_false]
  intro e he
  obtain ⟨x, hx, rfl⟩ := List.mem_map.mp he
  simpa using fun hi => h (List.mem_map.mpr ⟨x, hx, hi⟩)

theorem State.queue_onQueue (s : State) (region i j : Nat) (f : Queue → Queue) :
    (s.onQueue region i f).queue region j = if i = j then (s.queue region j).map f else s.queue region j := by
  rw [State.queue, State.onQueue, State.region_onRegion_same]
  exact look_queues_change ..

theorem State.queue_onQueue_same {s : State} {region i : Nat} {q : Queue} (f : Queue → Queue) (h : s.queue region i = some q) :
    (s.onQueue region i f).queue region i = some (f q) := by
  rw [State.queue_onQueue, if_pos rfl, h]
  rfl

theorem State.queue_of_regions {s t : State} (h : t.regions = s.regions) (region j : Nat) : t.queue region j = s.queue region j := by
  rw [State.queue, State.region, h]
  rfl

/-! ## The end of a control message -/

@[simp] theorem State.region_emits (s : State) (es : List Event) (n : Nat) : (s.emits es).region n = s.region n := rfl

/-- The first task of a service core has been performed and left, and later steps are asked for. -/
def State.afterTask (u : State) (region : Nat) (rest : List HostReq) (es : List Event) : State :=
  (u.onRegion region fun g => { g with tasks := rest }).emits es

section
variable (u : State) (region : Nat) (rest : List HostReq) (es : List Event)
@[simp] theorem State.afterTask_mem : (u.afterTask region rest es).mem = u.mem := rfl
@[simp] theorem State.afterTask_toHost : (u.afterTask region rest es).toHost = u.toHost := rfl
end

theorem State.tasks_afterTask (u : State) (region : Nat) (rest : List HostReq) (es : List Event) :
    ((u.afterTask region rest es).region region).tasks = rest := by
  rw [State.afterTask, State.region_emits, State.region_onRegion_same]

theorem State.queue_afterTask (u : State) (region : Nat) (rest : List HostReq) (es : List Event) (j : Nat) :
    (u.afterTask region rest es).queue region j = u.queue region j := by
  rw [State.queue, State.afterTask, State.region_emits, State.region_onRegion_same]
  rfl

theorem State.mem_agenda_afterTask {u : State} {e : Event} (region : Nat) (rest : List HostReq) (es : List Event) (h : e ∈ u.agenda) :
    e ∈ (u.afterTask region rest es).agenda := List.mem_append_left _ h

/-- A control message has been answered, and its task is over. -/
def State.replied (u : State) (r : HostReq) (status : Nat) (data : List Byte) (rest : List HostReq) (es : List Event) : State :=
  (u.hostReply r status 0 data).afterTask r.stream rest es

section
variable (u : State) (r : HostReq) (status : Nat) (data : List Byte) (rest : List HostReq) (es : List Event)

/-- That changes the Ubgen port, the messages for the host, the tasks and the agenda alone. -/
theorem State.replied_eta : u.replied r status data rest es = { u with
    ports := (u.replied r status data rest es).ports, toHost := (u.hostReply r status 0 data).toHost,
    regions := (u.replied r status data rest es).regions, agenda := (u.replied r status data rest es).agenda } := by
  rw [State.replied, u.hostReply_eta]
  rfl

theorem State.replied_mem : (u.replied r status data rest es).mem = u.mem := by rw [u.replied_eta]
theorem State.replied_net : (u.replied r status data rest es).net = u.net := by rw [u.replied_eta]
theorem State.replied_toHost : (u.replied r status data rest es).toHost = u.toHost ++ r.replies status 0 data := by
  rw [u.replied_eta, u.hostReply_toHost]
theorem State.replied_negotiated : (u.replied r status data rest es).negotiated = u.negotiated := by rw [u.replied_eta]
theorem State.replied_bootSlot : (u.replied r status data rest es).bootSlot = u.bootSlot := by rw [u.replied_eta]
theorem State.replied_setups : (u.replied r status data rest es).setups = u.setups := by rw [u.replied_eta]
theorem State.replied_streams : (u.replied r status data rest es).streams = u.streams := by rw [u.replied_eta]
theorem State.replied_flash : (u.replied r status data rest es).flash = u.flash := by rw [u.replied_eta]; rfl
theorem State.replied_tasks : ((u.replied r status data rest es).region r.stream).tasks = rest := State.tasks_afterTask ..
theorem State.replied_queue (j : Nat) : (u.replied r status data rest es).queue r.stream j = u.queue r.stream j := by
  rw [State.replied, State.queue_afterTask, State.queue_of_regions (u.hostReply_regions ..)]
end

/-- A step that is on its way in the mesh is coming. -/
theorem State.mem_coming_of_net {s t : State} {e : Event} (hn : t.net = s.net) (h : ∃ f ∈ s.net.flights, f.copies = [] ∧ f.act = e) :
    e ∈ t.coming := by
  obtain ⟨f, hf, hc, rfl⟩ := h
  rw [State.coming, hn]
  refine List.mem_append_left _ (List.mem_append_right _ (List.mem_flatMap.mpr ⟨f, hf, ?_⟩))
  rw [if_pos hc]
  exact List.mem_singleton_self _

/-! ## What a search for a cell keeps -/

@[simp] theorem State.record_attachSeen (s : State) (src : Nat) (sev : Option Nat) (kind payload tag : Nat) :
    (s.record src sev kind payload tag).attachSeen = s.attachSeen := by rw [s.record_eta]

@[simp] theorem State.count_attachSeen (s : State) (c n amount : Nat) : (s.count c n amount).attachSeen = s.attachSeen := by
  rw [s.count_eta]

theorem State.mendWord_attachSeen (s : State) (at_ : Store) (n : Nat) : (s.mendWord at_ n).attachSeen = s.attachSeen := by
  cases at_ with
  | slice q => rw [State.mendWord]; split_ifs <;> simp [State.corrected, State.countError, State.poison, State.onGranule, State.openRecord]
  | memory q => rw [State.mendWord]; split_ifs <;> simp [State.corrected, State.countBank, State.poison, State.onGranule, State.onBank, State.openRecord]
  | _ => rfl

theorem State.mendMemory_attachSeen (s : State) (pa n : Nat) : (s.mendMemory pa n).attachSeen = s.attachSeen :=
  foldl_keeps State.attachSeen _ _ _ fun t f _ => by
    split
    · split
      · exact t.mendWord_attachSeen ..
      · rfl
    · split
      · exact t.mendWord_attachSeen ..
      · rfl
    · rfl

theorem State.mendWalk_attachSeen (s : State) (ctx va : Nat) : (s.mendWalk ctx va).attachSeen = s.attachSeen := by
  rw [State.mendWalk]
  split
  · rfl
  · exact (foldl_keeps State.attachSeen _ _ _ fun t e _ => t.mendMemory_attachSeen e 8).trans (s.mendMemory_attachSeen ..)

theorem State.translate_attachSeen (s : State) (cache ctx va : Nat) : (s.translate cache ctx va).2.attachSeen = s.attachSeen := by
  rw [State.translate]
  split
  · rfl
  · rw [← s.mendWalk_attachSeen ctx va]
    generalize s.mendWalk ctx va = m
    have hfill : (match m.walk ctx va with
        | .leaf l _ => m.fillCache cache ctx l
        | _ => m).attachSeen = m.attachSeen := by split <;> rfl
    dsimp only
    split
    · exact hfill
    · split
      · split_ifs <;> rfl
      · split_ifs
        · exact hfill
        · rfl

theorem State.resolve_attachSeen (s : State) (a : Agent) (va n : Nat) (u : Use) (acq : Bool) :
    (s.resolve a va n u acq).2.attachSeen = s.attachSeen := by
  rw [State.resolve]
  split
  · rfl
  · rfl
  · split
    · rfl
    · split <;> rfl
  · split
    · rfl
    · split
      · rfl
      · split <;> rfl
  · split
    · rfl
    · have ht := s.translate_attachSeen (s.cacheFor a va) a.ctx va
      split
      · next h => rwa [h] at ht
      · next h => rwa [h] at ht
      · next h =>
        rw [h] at ht
        split
        · exact ht
        · split
          · exact ht
          · exact ht
          · split
            · split_ifs <;> exact ht
            · exact ht

/-- A search that creates no cell does not change what has been attached. -/
theorem State.findCell_attachSeen (s : State) (a : Agent) (va : Nat) {op : DeskOp} (h : op.creates = false) :
    (s.findCell a va op).2.attachSeen = s.attachSeen := by
  rw [State.findCell]
  split
  · rfl
  · split
    · rfl
    · rfl
    · rfl
    · rfl
    · have ht := s.resolve_attachSeen a va 32 (if op = .query then .cellRead else .cellWrite) false
      dsimp only
      split
      · next hr =>
        rw [hr] at ht
        split
        · exact ht
        · dsimp only
          split
          · exact ht
          · exact (State.mendMemory_attachSeen ..).trans ht
      · next hr =>
        rw [hr] at ht
        rw [if_neg (by rw [h]; decide)]
        exact ht
      · next hr => rwa [hr] at ht
      · next hr => rwa [hr] at ht

end Sys2Proof.Machine
end
section
/-! Control messages (R34, R59, R62-R64, R66, R67, R71, R73, R469, R470). -/

namespace Sys2Proof.Machine

open Sys2Proof

/-! ## The rows of control messages -/

/-- The instruction, the event and the operation code of each control message. -/
def controlRows (r : HostReq) : List (Instr × Event × Nat) :=
  [(.attachQueue, .attachQueue r, 1), (.detachQueue, .detachQueue r, 2), (.resetQueue, .resetQueue r, 3), (.setStream, .setStream r, 4),
   (.negotiate, .negotiate r, 5), (.readCap, .readCap r, 6), (.readStart, .readStart r, 7), (.clearStart, .clearStart r, 8),
   (.selectSlot, .selectSlot r, 9), (.attest, .attest r, 10), (.relocate, .relocate r, 11), (.setSetup, .setSetup r, 12)]

theorem exec_control {s : State} {r : HostReq} {i : Instr} {e : Event} {op : Nat} (h : (i, e, op) ∈ controlRows r) (hi : s.input = e) :
    exec i s = controlRow op r s := by
  simp only [controlRows, List.mem_cons, Prod.mk.injEq, List.not_mem_nil, or_false] at h
  rcases h with ⟨rfl, rfl, rfl⟩ | ⟨rfl, rfl, rfl⟩ | ⟨rfl, rfl, rfl⟩ | ⟨rfl, rfl, rfl⟩ | ⟨rfl, rfl, rfl⟩ | ⟨rfl, rfl, rfl⟩ |
    ⟨rfl, rfl, rfl⟩ | ⟨rfl, rfl, rfl⟩ | ⟨rfl, rfl, rfl⟩ | ⟨rfl, rfl, rfl⟩ | ⟨rfl, rfl, rfl⟩ | ⟨rfl, rfl, rfl⟩
  · show execAttachQueue s = _; rw [execAttachQueue, hi]
  · show execDetachQueue s = _; rw [execDetachQueue, hi]
  · show execResetQueue s = _; rw [execResetQueue, hi]
  · show execSetStream s = _; rw [execSetStream, hi]
  · show execNegotiate s = _; rw [execNegotiate, hi]
  · show execReadCap s = _; rw [execReadCap, hi]
  · show execReadStart s = _; rw [execReadStart, hi]
  · show execClearStart s = _; rw [execClearStart, hi]
  · show execSelectSlot s = _; rw [execSelectSlot, hi]
  · show execAttest s = _; rw [execAttest, hi]
  · show execRelocate s = _; rw [execRelocate, hi]
  · show execSetSetup s = _; rw [execSetSetup, hi]

/-- A control message as a task: its stream is 16 higher. -/
def HostReq.asTask (r : HostReq) : HostReq := { r with stream := r.stream + 16 }

theorem HostReq.isControl_of {r : HostReq} {op : Nat} (hk : r.kind = 4) (hc : r.control = op) : r.isControl op = true := by
  simp [HostReq.isControl, hk, hc]

theorem controlRow_arrival {s : State} {r : HostReq} {op : Nat} (hk : r.kind = 4) (hc : r.control = op) (hn : r.stream < 16) :
    controlRow op r s = .next (s.requestArrives r) := by
  simp [controlRow, HostReq.isControl_of hk hc, hn]

theorem controlRow_task {s : State} {r : HostReq} {op : Nat} {rest : List HostReq} (hk : r.kind = 4) (hc : r.control = op)
    (ht : (s.region r.stream).tasks = r :: rest) : controlRow op r.asTask s = .next (s.performTask r.stream) := by
  have hd : r.asTask.isControl op = true := HostReq.isControl_of hk hc
  have hn : ¬ r.asTask.stream < 16 := Nat.not_lt.mpr (Nat.le_add_left ..)
  have hs : r.asTask.stream - 16 = r.stream := Nat.add_sub_cancel ..
  simp only [controlRow, hd, hs, hn, ht, Bool.not_true, Bool.false_eq_true, if_false]
  exact congrArg _ (if_pos rfl)

/-! ## What the first task of a service core does -/

section
variable {s u : State} {r : HostReq} {rest : List HostReq} {i : Instr} {e : Event} {op : Nat}
  (hk : r.kind = 4) (ht : (s.region r.stream).tasks = r :: rest)
include hk ht

theorem task_done (h : (i, e, op) ∈ controlRows r.asTask) (hi : s.input = e) (hc : r.control = op) (hs : s.serveControl r = (true, u)) :
    ∃ es, exec i s = .next (u.afterTask r.stream rest es) := by
  obtain ⟨es, he⟩ := (u.onRegion r.stream fun g => { g with tasks := rest }).askTask_onlyAsks r.stream
  refine ⟨es, ?_⟩
  rw [exec_control h hi, controlRow_task hk hc ht, State.performTask, ht]
  simp only [hs]
  rw [he, State.afterTask]

/-- The message is answered: the reply goes to the host, no byte changes, and the next task is the first. -/
def State.Answers (s : State) (r : HostReq) (rest : List HostReq) (i : Instr) (status : Nat) (data : List Byte) (p : State → Prop) : Prop :=
  ∃ t : State, exec i s = .next t ∧ t.toHost = (s.hostReply r status 0 data).toHost ∧ t.mem = s.mem ∧ (t.region r.stream).tasks = rest ∧ p t

/-- A control message whose service ends with its reply. -/
theorem task_answers {status : Nat} {data : List Byte} {p : State → Prop} (h : (i, e, op) ∈ controlRows r.asTask) (hi : s.input = e)
    (hc : r.control = op) (hs : s.serveControl r = (true, u.hostReply r status 0 data)) (hm : u.mem = s.mem) (hh : u.toHost = s.toHost)
    (hp : ∀ es, p (u.replied r status data rest es)) : s.Answers r rest i status data p := by
  obtain ⟨es, hx⟩ := task_done hk ht h hi hc hs
  refine ⟨u.replied r status data rest es, hx, ?_, ?_, State.replied_tasks .., hp es⟩
  · rw [State.replied_toHost, State.hostReply_toHost, hh]
  · rw [State.replied_mem, hm]

end

/-! ## `ATTACH_QUEUE` (R67) -/

section
variable {s u : State} {r : HostReq} {pa : Nat}

theorem serveAttach_near (hv : s.version 0 ≠ 0) (hp : r.arg 11 1 ≤ 7) (hl : (s.region r.stream).queues.length < 16)
    (hf : isFabric (r.arg 1 8) = false)
    (hc : ({ s with attachSeen := true } : State).findCell (controlAgent r.stream (r.arg 9 2)) (r.arg 1 8) .query = (.cell pa, u))
    (hg : (u.granule pa).poison = false) :
    s.serveAttach r = (true, u.finishAttach r pa (setBits (u.image pa) 226 224 (u.cellType pa))) := by
  have h1 : ¬ (({ s with attachSeen := true } : State).version 0 = 0 || 7 < r.arg 11 1) = true := by
    have : ({ s with attachSeen := true } : State).version 0 ≠ 0 := hv
    simp [this, hp]
  have h2 : ¬ 16 ≤ ((({ s with attachSeen := true } : State).region r.stream).queues.filter fun e => !e.2.left).length :=
    Nat.not_le.mpr (lt_of_le_of_lt (List.length_filter_le ..) hl)
  rw [State.serveAttach]
  rw [if_neg h1, if_neg h2]
  simp only [hf, hc, hg, Bool.false_and, Bool.false_eq_true, if_false]

/-- A queue of the right type that is attached nowhere takes a free number of its service core, and its agent starts. -/
theorem finishAttach_attaches {v : Nat} (hl : (u.region r.stream).queues.length < 16)
    (hn : ∀ e ∈ u.regions, ∀ q ∈ e.2.queues, q.2.pa ≠ pa) (hpa : pa < untranslated) (ht : imageType v = 4) (he : imageElement v = 3) :
    ∃ (i : Nat) (q : Queue), i < 16 ∧ u.queue r.stream i = none ∧ q.cell = r.arg 1 8 ∧ q.pa = pa ∧ q.ctx = r.arg 9 2 ∧ q.prio = r.arg 11 1 ∧
      q.stopped = false ∧ u.finishAttach r pa v =
        ((u.drawn.onRegion r.stream fun g => { g with queues := put g.queues i q }).hostReply r 0 0).emit (.queueAgentPop (16 * r.stream + i)) := by
  have hatt : ¬ (u.attached fun q => if pa < untranslated then q.pa = pa else q.cell = r.arg 1 8 && q.ctx = r.arg 9 2) = true := by
    simp only [State.attached, hpa, if_true, List.any_eq_true, Bool.and_eq_true, decide_eq_true_eq, not_exists, not_and]
    exact fun e hx q hq _ => hn e hx q hq
  obtain ⟨j, -, hj16, hj⟩ := exists_not_mem_of_length_lt (used := (u.region r.stream).queues.map (·.1)) 0 (by simpa using hl)
  have hsome : ((List.range 16).find? fun i => !((u.region r.stream).queues.map (·.1)).contains i).isSome = true := by
    rw [List.find?_isSome]
    exact ⟨j, List.mem_range.mpr (by omega), by simpa using hj⟩
  obtain ⟨i, hi⟩ := Option.isSome_iff_exists.mp hsome
  have hfree : i ∉ (u.region r.stream).queues.map (·.1) := by simpa using List.find?_some hi
  refine ⟨i, { num := u.fresh, cell := r.arg 1 8, pa := pa, ctx := r.arg 9 2, prio := r.arg 11 1, size := imageBuffer v },
    List.mem_range.mp (List.mem_of_find?_eq_some hi), look_map_of_not_mem none some hfree, rfl, rfl, rfl, rfl, rfl, ?_⟩
  rw [State.finishAttach]
  rw [if_neg (by simp [ht, he]), if_neg hatt, hi]

end

/-! ## `DETACH_QUEUE` and `RESET_QUEUE` (R66, R71) -/

/-- A cancel of a pop sends a message alone. -/
theorem State.cancelPop_keeps (s : State) (region i : Nat) : (s.cancelPop region i).mem = s.mem ∧ (s.cancelPop region i).toHost = s.toHost ∧
    (s.cancelPop region i).regions = s.regions := by
  rw [State.cancelPop]
  split
  · exact ⟨rfl, rfl, rfl⟩
  · split_ifs
    · exact ⟨rfl, rfl, rfl⟩
    · exact ⟨rfl, rfl, rfl⟩
    · exact ⟨State.send_mem .., State.send_toHost .., State.send_regions ..⟩

/-- The cancel of a pop at a cell of this device goes to the cell's Desk. -/
theorem State.cancelPop_carries {s : State} {region i seq : Nat} {q : Queue} (hq : s.queue region i = some q) (hp : q.popping = some seq)
    (hc : q.pa < untranslated) :
    ∃ f ∈ (s.cancelPop region i).net.flights, f.copies = [] ∧ f.act = .cancel q.pa (agentWaiter region i) seq := by
  rw [State.cancelPop, hq, Option.bind_some, hp, Option.map_some]
  dsimp only
  rw [if_pos hc]
  exact ⟨_, List.mem_append_right _ (List.mem_singleton_self _), rfl, rfl⟩

theorem State.dropDetached_keeps (s : State) (region i : Nat) : (s.dropDetached region i).mem = s.mem ∧
    (s.dropDetached region i).toHost = s.toHost ∧ (s.dropDetached region i).net = s.net := by
  rw [State.dropDetached]
  split
  · exact ⟨rfl, rfl, rfl⟩
  · split_ifs <;> exact ⟨rfl, rfl, rfl⟩

/-- A queue that has left is forgotten; every other one stays. -/
theorem State.queue_dropDetached {s : State} {region i : Nat} {q : Queue} (hq : s.queue region i = some q) (j : Nat) :
    (s.dropDetached region i).queue region j =
      if i = j then (if q.left = true ∧ q.pending = [] then none else some q) else s.queue region j := by
  rw [State.dropDetached, hq]
  dsimp only
  by_cases hl : q.left = true ∧ q.pending = []
  · rw [if_pos (by simpa using hl), if_pos hl, State.queue, State.region_onRegion_same]
    exact look_map_without ..
  · rw [if_neg (by simpa using hl), if_neg hl]
    split
    · next hij => rw [← hij, hq]
    · rfl

/-- The queue that a detach leaves, before it is dropped. -/
def State.detaching (s : State) (region i : Nat) : State :=
  (s.onQueue region i fun q => { q with detaching := true }).cancelPop region i

theorem State.queue_detaching (s : State) (region i j : Nat) : (s.detaching region i).queue region j =
    if i = j then (s.queue region j).map fun q => { q with detaching := true } else s.queue region j := by
  rw [State.detaching, State.queue_of_regions (State.cancelPop_keeps ..).2.2, State.queue_onQueue]

section
variable {s : State} {r : HostReq}

theorem serveDetach_none (h : s.queueAt r.stream (r.arg 1 8) = none) : s.serveDetach r = s.hostReply r 0 0 := by
  rw [State.serveDetach, h]

theorem serveDetach_some {i : Nat} {q : Queue} (h : s.queueAt r.stream (r.arg 1 8) = some (i, q)) :
    s.serveDetach r = ((s.detaching r.stream i).dropDetached r.stream i).hostReply r 0 0 := by
  rw [State.serveDetach, h]
  rfl

/-- What a queue is once it has been detached. -/
theorem detached_queue {i : Nat} {q : Queue} (hq : s.queue r.stream i = some q) (j : Nat) :
    ((s.detaching r.stream i).dropDetached r.stream i).queue r.stream j = if i = j then
      (if q.popping = none ∧ q.pending = [] ∧ (q.stopped = true ∨ q.taken = none ∧ q.starting = none) then none
       else some { q with detaching := true }) else s.queue r.stream j := by
  have hd : (s.detaching r.stream i).queue r.stream i = some { q with detaching := true } := by
    rw [State.queue_detaching, if_pos rfl, hq]
    rfl
  have hleft : (({ q with detaching := true } : Queue).left = true ∧ q.pending = []) ↔
      (q.popping = none ∧ q.pending = [] ∧ (q.stopped = true ∨ q.taken = none ∧ q.starting = none)) := by
    simp only [Queue.left, Bool.true_and, Bool.and_eq_true, Bool.or_eq_true, Option.isNone_iff_eq_none]
    tauto
  rw [State.queue_dropDetached hd]
  simp only [hleft]
  split
  · rfl
  · next h => rw [State.queue_detaching, if_neg h]

/-- `RESET_QUEUE` of a queue of this device whose cell is initialised at once. -/
theorem serveReset_near {i pa val : Nat} {q : Queue} {v u : State} {elem : List Byte} (h : s.queueAt r.stream (r.arg 1 8) = some (i, q))
    (hpa : q.pa < untranslated) (hc : s.findCell (controlAgent r.stream q.ctx) q.address .init = (.cell pa, v))
    (hd : v.desk .init { q.initReq (agentWaiter r.stream i) with pa := pa } = (.done 0 val elem, u)) :
    s.serveReset r = (true, u.resetAnswered r.stream i r 0 0) := by
  rw [State.serveReset, h]
  simp only [hpa, if_true, hc, hd]

/-- A queue that has been reset starts again, empty. -/
theorem resetAnswered_starts {u : State} {i : Nat} {q : Queue} (hq : u.queue r.stream i = some q) :
    (u.resetAnswered r.stream i r 0 0).toHost = (u.hostReply r 0 0).toHost ∧ (u.resetAnswered r.stream i r 0 0).mem = u.mem ∧
    (u.resetAnswered r.stream i r 0 0).queue r.stream i = some { q with
      stopped := false, popping := none, taken := none, starting := none, resetting := none } ∧
    .queueAgentPop (16 * r.stream + i) ∈ (u.resetAnswered r.stream i r 0 0).agenda := by
  let w : State := (u.onQueue r.stream i fun q => { q with resetting := none }).onQueue r.stream i fun q => { q with
    stopped := false, popping := none, taken := none, starting := none }
  have hw : w.queue r.stream i = some { q with stopped := false, popping := none, taken := none, starting := none, resetting := none } :=
    State.queue_onQueue_same _ (State.queue_onQueue_same _ hq)
  obtain ⟨es, he⟩ := w.emitOnce_onlyAsks (.queueAgentPop (16 * r.stream + i))
  have hu : u.resetAnswered r.stream i r 0 0 = (w.emitOnce (.queueAgentPop (16 * r.stream + i))).hostReply r 0 0 := by
    rw [State.resetAnswered, if_pos rfl]
  rw [hu]
  refine ⟨?_, ?_, ?_, ?_⟩
  · rw [State.hostReply_toHost, State.hostReply_toHost, he]
    rfl
  · rw [State.hostReply_mem, he]
    rfl
  · rw [State.queue_of_regions (State.hostReply_regions ..), he]
    exact hw
  · rw [State.hostReply_agenda]
    exact w.mem_emitOnce _

end

/-! ## `NEGOTIATE` (R63) -/

/-- The versions that a negotiation gives each interface. -/
def HostReq.versions (r : HostReq) : List Nat := (List.range 5).map fun i =>
  let (lo, hi) := supported.getD i (0, 0)
  (commonVersion (r.arg (1 + 2 * i) 1) (r.arg (2 + 2 * i) 1) lo hi).getD 0

/-- What the host has announced, and what the two have in common, have been kept. -/
def State.agreed (s : State) (r : HostReq) : State := { s with
  negotiated := r.versions, announced := (List.range 5).map fun i => (r.arg (1 + 2 * i) 1, r.arg (2 + 2 * i) 1) }

theorem serveNegotiate_seen {s : State} {r : HostReq} (h : s.attachSeen = true) : s.serveNegotiate r = s.hostReply r 5 0 := by
  rw [State.serveNegotiate, if_pos h]

theorem serveNegotiate_new {s : State} {r : HostReq} (h : s.attachSeen = false) : s.serveNegotiate r =
    (if s.phase = .up then (s.agreed r).reportClosed.sendWaiting else s.agreed r).hostReply r 0 0 (r.versions.map (BitVec.ofNat 8)) := by
  rw [State.serveNegotiate, if_neg (by rw [h]; decide)]
  unfold State.agreed HostReq.versions
  with_reducible rfl

theorem State.reportClosed_negotiated (s : State) : s.reportClosed.negotiated = s.negotiated ∧ s.reportClosed.mem = s.mem := by
  refine Prod.mk.inj (foldl_keeps (fun t : State => (t.negotiated, t.mem)) _ _ _ fun t i _ => ?_)
  dsimp only
  split
  · rw [State.openRecord, State.record_eta]
  · rfl

theorem State.sendWaiting_keeps (s : State) : s.sendWaiting.negotiated = s.negotiated ∧ s.sendWaiting.mem = s.mem := ⟨rfl, rfl⟩

/-- What the report of closed interfaces leaves of an agreement. -/
theorem State.agreed_keeps (s : State) (r : HostReq) :
    (if s.phase = .up then (s.agreed r).reportClosed.sendWaiting else s.agreed r).negotiated = r.versions ∧
    (if s.phase = .up then (s.agreed r).reportClosed.sendWaiting else s.agreed r).mem = s.mem := by
  have ha : (s.agreed r).negotiated = r.versions ∧ (s.agreed r).mem = s.mem := ⟨rfl, rfl⟩
  by_cases h : s.phase = .up
  · rw [if_pos h, (State.sendWaiting_keeps _).1, (State.sendWaiting_keeps _).2, (State.reportClosed_negotiated _).1,
      (State.reportClosed_negotiated _).2]
    exact ha
  · rw [if_neg h]
    exact ha

/-- A reply of at most 256 bytes is one message (R35). -/
theorem HostReq.replies_short (r : HostReq) (status cause : Nat) {data : List Byte} (h : data.length ≤ 256) :
    r.replies status cause data =
      [{ kind := 8, stream := r.stream, tag := r.tag, frag := 0, nfrag := 1, status := status, cause := cause, data := data }] := by
  have hf : fragments 6 data = [data] := by rw [fragments, if_pos h]
  rw [HostReq.replies, hf]
  rfl

/-! ## `RELOCATE` (R470) -/

theorem relocateOne_written {s u w : State} {a : Agent} {va : Nat} {e : List Byte} {parts : List (Spot × Nat)}
    (hr : s.controlRead a va 48 = (.ok (some e), u)) (hk : field e 34 1 ≤ 1) (hz : field e 35 13 = 0) (hl : field e 24 8 ≤ 2 ^ 63)
    (hs : field e 0 8 + 16 ≤ 2 ^ 56) (ha : field e 0 8 % 16 = 0)
    (hf : u.ownFabricParts a .write true [(field e 0 8, 16)] = (.ok (some parts), w)) (ht : parts.any (fun p => w.typedAt p.1 p.2) = false) :
    s.relocateOne a va = (.ok true, w.writeParts 0 .other none
      (.cap (relocated (field e 8 8) (field e 16 8) (field e 24 8) (field e 32 2) (field e 34 1)).tag) parts
      (bytesOf 16 (relocated (field e 8 8) (field e 16 8) (field e 24 8) (field e 32 2) (field e 34 1)).data.toNat)) := by
  have h1 : ¬ (1 < field e 34 1 || field e 35 13 != 0 || 2 ^ 63 < field e 24 8 || 2 ^ 56 < field e 0 8 + 16) = true := by
    simp only [Bool.or_eq_true, decide_eq_true_eq, bne_iff_ne, ne_eq, not_or, not_lt, not_not]
    exact ⟨⟨⟨hk, hz⟩, hl⟩, hs⟩
  rw [State.relocateOne, hr]
  dsimp only
  rw [if_neg h1, if_neg (by simp [ha]), hf]
  dsimp only
  rw [if_neg (by rw [ht]; decide)]

theorem serveRelocate_one {s t : State} {r : HostReq} (hn : r.arg 11 4 = 1)
    (h : s.relocateOne (controlAgent r.stream (r.arg 1 2)) (r.arg 3 8) = (.ok true, t)) :
    s.serveRelocate r = (true, t.hostReply r 0 0 (bytesOf 4 1)) := by
  rw [State.serveRelocate, hn]
  rw [if_neg (by decide), State.relocateAll, Nat.mul_zero, Nat.add_zero, h]
  rfl

/-- The version of an interface in both ranges, 0 where there is none (R63). -/
theorem commonVersion_getD (lo hi lowest highest : Nat) : (commonVersion lo hi lowest highest).getD 0 =
    if max lo lowest ≤ min hi highest then min hi highest else 0 := by
  rw [commonVersion]
  split <;> rfl

/-! ## The service of each message -/

section
variable {s : State} {r : HostReq}

theorem serveControl_attach (h : r.control = 1) : s.serveControl r = s.serveAttach r := by rw [State.serveControl, h]; rfl
theorem serveControl_detach (h : r.control = 2) : s.serveControl r = (true, s.serveDetach r) := by rw [State.serveControl, h]; rfl
theorem serveControl_reset (h : r.control = 3) : s.serveControl r = s.serveReset r := by rw [State.serveControl, h]; rfl
theorem serveControl_setStream (h : r.control = 4) : s.serveControl r = (true, s.serveSetStream r) := by rw [State.serveControl, h]; rfl
theorem serveControl_negotiate (h : r.control = 5) : s.serveControl r = (true, s.serveNegotiate r) := by rw [State.serveControl, h]; rfl
theorem serveControl_readCap (h : r.control = 6) : s.serveControl r = (true, s.serveReadCap r) := by rw [State.serveControl, h]; rfl
theorem serveControl_readStart (h : r.control = 7) : s.serveControl r = (true, s.serveReadStart r) := by rw [State.serveControl, h]; rfl
theorem serveControl_clearStart (h : r.control = 8) : s.serveControl r = (true, s.serveClearStart r) := by rw [State.serveControl, h]; rfl
theorem serveControl_selectSlot (h : r.control = 9) : s.serveControl r = (true, s.serveSelectSlot r) := by rw [State.serveControl, h]; rfl
theorem serveControl_attest (h : r.control = 10) : s.serveControl r = (true, s.serveAttest r) := by rw [State.serveControl, h]; rfl
theorem serveControl_relocate (h : r.control = 11) : s.serveControl r = s.serveRelocate r := by rw [State.serveControl, h]; rfl
theorem serveControl_setSetup (h : r.control = 12) : s.serveControl r = (true, s.serveSetSetup r) := by rw [State.serveControl, h]; rfl

/-- `hstream` takes its seven bits (R64). -/
theorem hstream_mask (x : Nat) : (BitVec.ofNat 32 x &&& 0x7F) = BitVec.ofNat 32 (x % 2 ^ 7) := by
  apply BitVec.eq_of_toNat_eq
  rw [BitVec.toNat_and, BitVec.toNat_ofNat, BitVec.toNat_ofNat]
  show x % 2 ^ 32 &&& (2 ^ 7 - 1) = _
  rw [Nat.and_two_pow_sub_one_eq_mod]
  omega

theorem serveSetStream_ok (h : r.arg 1 1 ≤ 15) :
    s.serveSetStream r = (s.writeHstream (r.arg 1 1) (BitVec.ofNat 32 (r.arg 2 4))).hostReply r 0 0 := by
  rw [State.serveSetStream, if_neg (by omega)]

theorem serveSetStream_bad (h : ¬ r.arg 1 1 ≤ 15) : s.serveSetStream r = s.hostReply r 1 0 := by
  rw [State.serveSetStream, if_pos (by omega)]

theorem serveSelectSlot_ok (h : r.arg 1 1 ≤ 1) : s.serveSelectSlot r = ({ s with bootSlot := r.arg 1 1 } : State).hostReply r 0 0 := by
  rw [State.serveSelectSlot, if_neg (by omega)]

theorem serveSelectSlot_bad (h : ¬ r.arg 1 1 ≤ 1) : s.serveSelectSlot r = s.hostReply r 1 0 := by
  rw [State.serveSelectSlot, if_pos (by omega)]

end

/-! ## The obligation -/

section
variable {s : State} {r : HostReq} {rest : List HostReq} (hk : r.kind = 4)
include hk

/-- A control message that arrives. -/
theorem control_arrives {i : Instr} {e : Event} {op : Nat} (h : (i, e, op) ∈ controlRows r) (hi : s.input = e) (hc : r.control = op)
    (hp : (s.port 32).state = 2) (hn : r.stream < 16) :
    (s.serves r = false → exec i s = .next (s.hostReply r 2 0)) ∧
    (s.serves r = true → r.ok s.ubgen = false → exec i s = .next (s.hostReply r 1 0)) ∧
    (s.serves r = true → r.ok s.ubgen = true → ∃ t : State, exec i s = .next t ∧ t.mem = s.mem ∧ t.toHost = s.toHost ∧ t.regions = s.regions ∧
      (t.hostStream r.stream).waiting = (s.hostStream r.stream).waiting ++ [r]) := by
  have hx : exec i s = .next (s.requestArrives r) := (exec_control h hi).trans (controlRow_arrival hk hc hn)
  refine ⟨fun h => ?_, fun h ho => ?_, fun h ho => ?_⟩
  · rw [hx, requestArrives_unserved hp h]
  · rw [hx, requestArrives_malformed hp h ho]
  · obtain ⟨hm, ht, hr, hw, -⟩ := requestArrives_queued hp h ho (by omega)
    exact ⟨_, hx, hm, ht, hr, hw⟩

variable (ht : (s.region r.stream).tasks = r :: rest)
include ht

theorem attachQueue_done {pa : Nat} {u : State} (hi : s.input = .attachQueue r.asTask) (hc : r.control = 1) (hv : s.version 0 ≠ 0)
    (hp : r.arg 11 1 ≤ 7) (hl : (s.region r.stream).queues.length < 16) (hf : isFabric (r.arg 1 8) = false)
    (hcell : ({ s with attachSeen := true } : State).findCell (controlAgent r.stream (r.arg 9 2)) (r.arg 1 8) .query = (.cell pa, u))
    (hg : (u.granule pa).poison = false) (hn : ∀ e ∈ u.regions, ∀ q ∈ e.2.queues, q.2.pa ≠ pa) (hr : u.regions = s.regions)
    (hpa : pa < untranslated) (hty : u.cellType pa = 4) (he : imageElement (setBits (u.image pa) 226 224 4) = 3) :
    ∃ (t : State) (i : Nat) (q : Queue), exec .attachQueue s = .next t ∧ i < 16 ∧ t.queue r.stream i = some q ∧ s.queue r.stream i = none ∧
      q.cell = r.arg 1 8 ∧ q.pa = pa ∧ q.ctx = r.arg 9 2 ∧ q.prio = r.arg 11 1 ∧ q.stopped = false ∧ t.toHost = (u.hostReply r 0 0).toHost ∧
      .queueAgentPop (16 * r.stream + i) ∈ t.agenda ∧ t.attachSeen = true ∧ (t.region r.stream).tasks = rest := by
  have hreg : u.region r.stream = s.region r.stream := by rw [State.region, hr]; rfl
  have htype : imageType (setBits (u.image pa) 226 224 (u.cellType pa)) = 4 := by
    rw [hty]
    exact (bits_setBits_same _ _ (by omega)).trans (by decide)
  have helem : imageElement (setBits (u.image pa) 226 224 (u.cellType pa)) = 3 := by rw [hty]; exact he
  obtain ⟨i, q, hi16, hnone, h1, h2, h3, h4, h5, hfin⟩ :=
    finishAttach_attaches (r := r) (by rwa [hreg]) hn hpa htype helem
  have hs : s.serveControl r = (true, _) := (serveControl_attach hc).trans (serveAttach_near hv hp hl hf hcell hg)
  obtain ⟨es, hx⟩ := task_done (i := .attachQueue) hk ht (by simp [controlRows]) hi hc hs
  have hseen : u.attachSeen = true := by
    rw [← show (({ s with attachSeen := true } : State).findCell (controlAgent r.stream (r.arg 9 2)) (r.arg 1 8) .query).2 = u by rw [hcell],
      State.findCell_attachSeen _ _ _ rfl]
  rw [hfin] at hx
  refine ⟨_, i, q, hx, hi16, ?_, ?_, h1, h2, h3, h4, h5, ?_, ?_, ?_, State.tasks_afterTask ..⟩
  · have hregs : (((u.drawn.onRegion r.stream fun g => { g with queues := put g.queues i q }).hostReply r 0 0).emit
        (.queueAgentPop (16 * r.stream + i))).regions = (u.drawn.onRegion r.stream fun g => { g with queues := put g.queues i q }).regions :=
      State.hostReply_regions ..
    rw [State.queue_afterTask, State.queue_of_regions hregs, State.queue, State.region_onRegion_same]
    exact (look_map_put none some _ i i q).trans (if_pos rfl)
  · rw [← hnone, State.queue_of_regions hr]
  · rw [State.afterTask_toHost, State.emit_toHost, State.hostReply_toHost, State.hostReply_toHost]
    rfl
  · exact State.mem_agenda_afterTask _ _ _ (List.mem_append_right _ (List.mem_singleton_self _))
  · show (State.hostReply _ r 0 0).attachSeen = true
    rw [State.hostReply_attachSeen]
    exact hseen

theorem detachQueue_none (hi : s.input = .detachQueue r.asTask) (hc : r.control = 2) (hat : s.queueAt r.stream (r.arg 1 8) = none) :
    s.Answers r rest .detachQueue 0 [] fun t => ∀ j, t.queue r.stream j = s.queue r.stream j :=
  task_answers hk ht (by simp [controlRows]) hi hc ((serveControl_detach hc).trans (congrArg (Prod.mk true) (serveDetach_none hat))) rfl rfl
    fun _ _ => State.replied_queue ..

theorem detachQueue_done {i : Nat} {q : Queue} (hi : s.input = .detachQueue r.asTask) (hc : r.control = 2)
    (hat : s.queueAt r.stream (r.arg 1 8) = some (i, q)) (hq : s.queue r.stream i = some q) :
    s.Answers r rest .detachQueue 0 [] fun t => (∀ j, j ≠ i → t.queue r.stream j = s.queue r.stream j) ∧
      (t.queue r.stream i = if q.popping = none ∧ q.pending = [] ∧ (q.stopped = true ∨ q.taken = none ∧ q.starting = none) then none
        else some { q with detaching := true }) ∧
      ∀ seq, q.popping = some seq → q.pa < untranslated → .cancel q.pa ⟨thisDevice, 6, 0, r.stream, i, 0⟩ seq ∈ t.coming := by
  have hd := (s.detaching r.stream i).dropDetached_keeps r.stream i
  have hcan := (s.onQueue r.stream i fun q => { q with detaching := true }).cancelPop_keeps r.stream i
  refine task_answers hk ht (by simp [controlRows]) hi hc
    ((serveControl_detach hc).trans (congrArg (Prod.mk true) (serveDetach_some hat))) ?_ ?_ fun es => ⟨fun j hj => ?_, ?_, fun seq hpop hpa => ?_⟩
  · exact hd.1.trans hcan.1
  · exact hd.2.1.trans hcan.2.1
  · rw [State.replied_queue, detached_queue hq, if_neg (Ne.symm hj)]
  · rw [State.replied_queue, detached_queue hq, if_pos rfl]
  · refine State.mem_coming_of_net (s := s.detaching r.stream i) ?_ ?_
    · rw [State.replied_net, hd.2.2]
    · exact State.cancelPop_carries (q := { q with detaching := true }) (State.queue_onQueue_same _ hq) hpop hpa

theorem resetQueue_done {i pa val : Nat} {q : Queue} {v u : State} {elem : List Byte} (hi : s.input = .resetQueue r.asTask)
    (hc : r.control = 3) (hat : s.queueAt r.stream (r.arg 1 8) = some (i, q)) (hpa : q.pa < untranslated)
    (hcell : s.findCell (controlAgent r.stream q.ctx) q.address .init = (.cell pa, v))
    (hd : v.desk .init { q.initReq (agentWaiter r.stream i) with pa := pa } = (.done 0 val elem, u)) (hq : u.queue r.stream i = some q) :
    ∃ t : State, exec .resetQueue s = .next t ∧ t.toHost = (u.hostReply r 0 0).toHost ∧ t.mem = u.mem ∧ t.queue r.stream i = some { q with
      stopped := false, popping := none, taken := none, starting := none, resetting := none } ∧
      .queueAgentPop (16 * r.stream + i) ∈ t.agenda := by
  obtain ⟨h1, h2, h3, h4⟩ := resetAnswered_starts (r := r) hq
  obtain ⟨es, hx⟩ := task_done (i := .resetQueue) hk ht (by simp [controlRows]) hi hc ((serveControl_reset hc).trans (serveReset_near hat hpa hcell hd))
  refine ⟨_, hx, ?_, ?_, ?_, State.mem_agenda_afterTask _ _ _ h4⟩
  · rw [State.afterTask_toHost, h1]
  · rw [State.afterTask_mem, h2]
  · rw [State.queue_afterTask, h3]

theorem negotiate_done {u : State} (hi : s.input = .negotiate r.asTask) (hc : r.control = 5) (hu : u.negotiated = r.versions)
    (hm : u.mem = s.mem) (hs : s.serveNegotiate r = u.hostReply r 0 0 (r.versions.map (BitVec.ofNat 8))) :
    ∃ (t : State) (m : HostMsg), exec .negotiate s = .next t ∧ t.negotiated = r.versions ∧ t.mem = s.mem ∧ t.toHost.getLast? = some m ∧
      m.kind = 8 ∧ m.stream = r.stream ∧ m.tag = r.tag ∧ m.status = 0 ∧ m.data = r.versions.map (BitVec.ofNat 8) := by
  obtain ⟨es, hx⟩ := task_done (i := .negotiate) hk ht (by simp [controlRows]) hi hc
    ((serveControl_negotiate hc).trans (congrArg (Prod.mk true) hs))
  refine ⟨u.replied r 0 (r.versions.map (BitVec.ofNat 8)) rest es,
    { kind := 8, stream := r.stream, tag := r.tag, frag := 0, nfrag := 1, status := 0, cause := 0, data := r.versions.map (BitVec.ofNat 8) },
    hx, ?_, ?_, ?_, rfl, rfl, rfl, rfl, rfl⟩
  · rw [State.replied_negotiated, hu]
  · rw [State.replied_mem, hm]
  · rw [State.replied_toHost, r.replies_short 0 0 (by simp [HostReq.versions]), List.getLast?_append]
    rfl

theorem setStream_done (hi : s.input = .setStream r.asTask) (hc : r.control = 4) (hle : r.arg 1 1 ≤ 15) :
    s.Answers r rest .setStream 0 [] fun t => (t.hostStream (r.arg 1 1)).hstream = BitVec.ofNat 32 (r.arg 2 4 % 2 ^ 7) := by
  refine task_answers hk ht (by simp [controlRows]) hi hc
    ((serveControl_setStream hc).trans (congrArg (Prod.mk true) (serveSetStream_ok hle))) rfl rfl fun es => ?_
  rw [State.hostStream, State.replied_streams, ← hstream_mask]
  show ((s.writeHstream (r.arg 1 1) (BitVec.ofNat 32 (r.arg 2 4))).hostStream (r.arg 1 1)).hstream = _
  rw [State.writeHstream, State.hostStream_onHostStream_same]

theorem setStream_refused (hi : s.input = .setStream r.asTask) (hc : r.control = 4) (hle : ¬ r.arg 1 1 ≤ 15) :
    s.Answers r rest .setStream 1 [] fun _ => True :=
  task_answers hk ht (by simp [controlRows]) hi hc ((serveControl_setStream hc).trans (congrArg (Prod.mk true) (serveSetStream_bad hle)))
    rfl rfl fun _ => trivial

theorem negotiate_refused (hi : s.input = .negotiate r.asTask) (hc : r.control = 5) (h : s.attachSeen = true) :
    s.Answers r rest .negotiate 5 [] fun t => t.negotiated = s.negotiated :=
  task_answers hk ht (by simp [controlRows]) hi hc ((serveControl_negotiate hc).trans (congrArg (Prod.mk true) (serveNegotiate_seen h)))
    rfl rfl fun _ => State.replied_negotiated ..

theorem negotiate_early (hi : s.input = .negotiate r.asTask) (hc : r.control = 5) (h : s.attachSeen = false) (hp : s.phase ≠ .up) :
    s.Answers r rest .negotiate 0 (r.versions.map (BitVec.ofNat 8)) fun t => t.negotiated = r.versions := by
  have hs := serveNegotiate_new (r := r) h
  rw [if_neg hp] at hs
  exact task_answers hk ht (by simp [controlRows]) hi hc ((serveControl_negotiate hc).trans (congrArg (Prod.mk true) hs))
    rfl rfl fun _ => State.replied_negotiated ..

theorem readCap_done (hi : s.input = .readCap r.asTask) (hc : r.control = 6) (hv : s.version 3 ≠ 0) :
    s.Answers r rest .readCap 0 (s.capImage (s.version 3)) fun _ => True :=
  task_answers hk ht (by simp [controlRows]) hi hc
    ((serveControl_readCap hc).trans (congrArg (Prod.mk true) (by rw [State.serveReadCap, if_neg hv]))) rfl rfl fun _ => trivial

theorem readStart_done (hi : s.input = .readStart r.asTask) (hc : r.control = 7) :
    s.Answers r rest .readStart 0 s.startRec.image fun _ => True :=
  task_answers hk ht (by simp [controlRows]) hi hc (serveControl_readStart hc) rfl rfl fun _ => trivial

theorem clearStart_done (hi : s.input = .clearStart r.asTask) (hc : r.control = 8) (hseq : s.startRec.seq + 1 < 2 ^ 32) :
    s.Answers r rest .clearStart 0 [] fun t => t.startRec.steps = [] ∧ t.startRec.seq = s.startRec.seq + 1 := by
  have hw := s.writeRec_eta fun x => { x with steps := [] }
  refine task_answers hk ht (by simp [controlRows]) hi hc (serveControl_clearStart hc) (by rw [hw]) (by rw [hw]) fun es => ?_
  rw [State.startRec_of_flash (State.replied_flash ..), s.startRec_writeRec _ hseq]
  exact ⟨rfl, rfl⟩

theorem selectSlot_done (hi : s.input = .selectSlot r.asTask) (hc : r.control = 9) (hle : r.arg 1 1 ≤ 1) :
    s.Answers r rest .selectSlot 0 [] fun t => t.bootSlot = r.arg 1 1 :=
  task_answers hk ht (by simp [controlRows]) hi hc ((serveControl_selectSlot hc).trans (congrArg (Prod.mk true) (serveSelectSlot_ok hle)))
    rfl rfl fun _ => State.replied_bootSlot ..

theorem selectSlot_refused (hi : s.input = .selectSlot r.asTask) (hc : r.control = 9) (hle : ¬ r.arg 1 1 ≤ 1) :
    s.Answers r rest .selectSlot 1 [] fun t => t.bootSlot = s.bootSlot :=
  task_answers hk ht (by simp [controlRows]) hi hc ((serveControl_selectSlot hc).trans (congrArg (Prod.mk true) (serveSelectSlot_bad hle)))
    rfl rfl fun _ => State.replied_bootSlot ..

theorem attest_done (hi : s.input = .attest r.asTask) (hc : r.control = 10) (hv : s.version 4 ≠ 0) :
    s.Answers r rest .attest 0 (s.report (r.data.drop 1) ++
      (Config.sign (s.identity.getD ([], [])).2 (shake256 (s.report (r.data.drop 1)))).take 1280) fun _ => True :=
  task_answers hk ht (by simp [controlRows]) hi hc
    ((serveControl_attest hc).trans (congrArg (Prod.mk true) (by rw [State.serveAttest, if_neg hv]))) rfl rfl fun _ => trivial

theorem relocate_done {t : State} (hi : s.input = .relocate r.asTask) (hc : r.control = 11) (hn : r.arg 11 4 = 1)
    (h : s.relocateOne (controlAgent r.stream (r.arg 1 2)) (r.arg 3 8) = (.ok true, t)) :
    ∃ u : State, exec .relocate s = .next u ∧ u.mem = t.mem ∧ u.toHost = (t.hostReply r 0 0 (bytesOf 4 1)).toHost := by
  obtain ⟨es, hx⟩ := task_done (i := .relocate) hk ht (by simp [controlRows]) hi hc
    ((serveControl_relocate hc).trans (serveRelocate_one hn h))
  exact ⟨_, hx, by rw [State.afterTask_mem, State.hostReply_mem], State.afterTask_toHost ..⟩

theorem setSetup_done (hi : s.input = .setSetup r.asTask) (hc : r.control = 12) :
    s.Answers r rest .setSetup 0 [] fun t => look 0 t.setups (r.arg 1 2) = r.arg 3 8 ∧
      ∀ c, c ≠ r.arg 1 2 → look 0 t.setups c = look 0 s.setups c := by
  refine task_answers hk ht (by simp [controlRows]) hi hc (serveControl_setSetup hc) rfl rfl fun es => ?_
  rw [State.replied_setups]
  exact ⟨look_put_same .., fun c hne => look_put_ne _ _ _ (Ne.symm hne)⟩

end

/-- The versions that `NEGOTIATE` is answered with, interface by interface (R63). -/
theorem HostReq.versions_eq (r : HostReq) (common : Nat → Nat → Nat → Nat) (h : common = fun i lo hi =>
    if max (r.arg (1 + 2 * i) 1) lo ≤ min (r.arg (2 + 2 * i) 1) hi then min (r.arg (2 + 2 * i) 1) hi else 0) :
    [common 0 0x10 0x11, common 1 0x10 0x10, common 2 0x10 0x12, common 3 0x10 0x11, common 4 0x10 0x10] = r.versions := by
  subst h
  simp only [HostReq.versions, supported, List.range_succ, commonVersion_getD]
  rfl

/-- Settles O53: each message by the outcome of its service, which the end of its task leaves as it is. -/
theorem controlMessages : Obligations.ControlMessages := by
  unfold Obligations.ControlMessages
  intro s r hk
  refine ⟨fun p hmem hi hc hp hn => control_arrives hk hmem hi hc hp hn, fun rest ht => ?_⟩
  refine ⟨fun pa u hi hc hv hp hl hf hcell hg hn hr hpa hty he => attachQueue_done hk ht hi hc hv hp hl hf hcell hg hn hr hpa hty he,
    fun hi hc => ⟨detachQueue_none hk ht hi hc, fun i q hat hq => detachQueue_done hk ht hi hc hat hq⟩,
    fun i q pa v u val elem hi hc hat hpa hcell hd hq => resetQueue_done hk ht hi hc hat hpa hcell hd hq,
    fun hi hc => ?_, fun hi hc => ?_, readCap_done hk ht, readStart_done hk ht, clearStart_done hk ht, fun hi hc => ?_, attest_done hk ht, ?_,
    setSetup_done hk ht⟩
  case refine_1 =>
    split
    · next hle => exact setStream_done hk ht hi hc hle
    · next hle => exact setStream_refused hk ht hi hc hle
  case refine_2 =>
    intro common vs
    have hvs : vs = r.versions := r.versions_eq common rfl
    clear_value vs
    subst hvs
    split
    · next hseen => exact negotiate_refused hk ht hi hc hseen
    · next hseen =>
      have hnew := Bool.eq_false_iff.mpr hseen
      obtain ⟨hneg, hmem⟩ := s.agreed_keeps r
      exact ⟨negotiate_early hk ht hi hc hnew, negotiate_done hk ht hi hc hneg hmem (serveNegotiate_new hnew)⟩
  case refine_3 =>
    split
    · next hle => exact selectSlot_done hk ht hi hc hle
    · next hle => exact selectSlot_refused hk ht hi hc hle
  case refine_4 =>
    intro e u parts w hi hc hn hr slot h1 h2 h3 h4 h5 hf hty
    exact relocate_done hk ht hi hc hn (relocateOne_written hr h1 h2 h3 h4 h5 hf hty)

end Sys2Proof.Machine
end

section
/-! Links and packets (R29-R31, R44-R46, R122). -/

namespace Sys2Proof.Machine

open Sys2Proof

/-! ## Fields of `fpctl` (R51 Table 4) -/

/-- A counter of `fpctl` goes up to its largest value. -/
theorem bits_counted (q : Port) {hi lo : Nat} (h : lo ≤ hi) (hi32 : hi < 32) :
    bits (q.counted hi lo).fpctl.toNat hi lo = min (2 ^ (hi + 1 - lo) - 1) (bits q.fpctl.toNat hi lo + 1) := by
  rw [Port.counted, bits_ofNat _ hi32, bits_setBits_same _ _ h]
  have := Nat.two_pow_pos (hi + 1 - lo)
  exact Nat.mod_eq_of_lt (by omega)

theorem bits_counted_disjoint (q : Port) {hi lo a b : Nat} (h : lo ≤ hi) (hd : a < lo ∨ hi < b) (ha : a < 32) :
    bits (q.counted hi lo).fpctl.toNat a b = bits q.fpctl.toNat a b := by
  rw [Port.counted, bits_ofNat _ ha, bits_setBits_disjoint _ _ h hd]

/-- A counter of `fpctl` is all that counts. -/
theorem Port.counted_eta (q : Port) (hi lo : Nat) : q.counted hi lo = { q with fpctl := (q.counted hi lo).fpctl } := rfl

theorem Port.counted_rest (q : Port) (hi lo : Nat) : (q.counted hi lo).rxSeq = q.rxSeq ∧ (q.counted hi lo).replay = q.replay := ⟨rfl, rfl⟩

/-- A field above the version keeps its value when the state of the port changes. -/
theorem bits_fpctlIn_above (v : BitVec 32) (st : Nat) {a b : Nat} (hb : 11 < b) (ha : a < 32) :
    bits (fpctlIn v st).toNat a b = bits v.toNat a b := by
  rw [fpctlIn, bits_ofNat _ ha, bits_setBits_disjoint _ _ (by omega) (by omega), bits_setBits_disjoint _ _ (by omega) (by omega)]

/-- The version stays while the port is up. -/
theorem bits_fpctlIn_version (v : BitVec 32) : bits (fpctlIn v 2).toNat 11 4 = bits v.toNat 11 4 := by
  rw [fpctlIn, if_pos rfl, bits_ofNat _ (by omega), bits_setBits_same _ _ (by omega)]
  exact Nat.mod_eq_of_lt (bits_lt _ 11 4)

/-! ## Changes of a port -/

/-- The port in another state. -/
def Port.inState (q : Port) (st : Nat) : Port := { q with fpctl := fpctlIn q.fpctl st }

/-- The port once it has begun to retrain. -/
def Port.retraining (q : Port) : Port :=
  { q with fpctl := fpctlIn (q.counted 15 12).fpctl 1, run := 0, replay := q.replay.map fun g => { g with fails := 0 } }

theorem Port.retraining_fpctl (q : Port) : q.retraining.fpctl = fpctlIn (q.counted 15 12).fpctl 1 := rfl

theorem Port.retraining_rest (q : Port) : q.retraining.rxSeq = q.rxSeq ∧ q.retraining.run = 0 ∧
    q.retraining.replay = q.replay.map fun g => { g with fails := 0 } := by
  rw [Port.retraining]
  exact ⟨rfl, rfl, rfl⟩

theorem Port.state_retraining (q : Port) : q.retraining.state = 1 := by
  rw [Port.state, Port.retraining_fpctl, bits_fpctlIn _ (by omega)]

/-- The groups that are left in the replay buffer after an acknowledgement (R29). -/
def Port.left_ (q : Port) (ack : Nat) : List Group := if ack = q.txSeq then [] else q.replay.dropWhile fun g => g.num != ack

/-- The port after an acknowledgement; one that names no group of the buffer changes nothing. -/
def Port.acknowledged (q : Port) (ack : Nat) : Port :=
  { q with replay := if ack ≠ q.txSeq ∧ q.left_ ack = [] then q.replay else q.left_ ack }

/-- The port after a group with a good CRC: the one that is due is accepted. -/
def Port.took (q : Port) (seq : Nat) : Port :=
  if seq = q.rxSeq then { q with rxSeq := (seq + 1) % 4096, acked := seq, run := 0, received := q.received + 1 } else q

theorem State.port_setPortState (s : State) (p st : Nat) : (s.setPortState p st).port p = (s.port p).inState st := by
  rw [State.setPortState, State.port, State.record_ports]
  exact State.port_onPort_same ..

theorem State.port_retrain (s : State) (p : Nat) : (s.retrain p).port p = (s.port p).retraining := by
  rw [State.retrain, State.port_setPortState, State.port_onPort_same, Port.counted_eta]
  rfl

theorem State.state_retrain (s : State) (p : Nat) : ((s.retrain p).port p).state = 1 := by
  rw [State.port_retrain, Port.state_retraining]

theorem State.state_portDown (s : State) (p : Nat) {st : Nat} (h : st < 4) : ((s.portDown p st).port p).state = st := by
  rw [Port.state, State.portDown_fpctl, bits_fpctlIn _ h]

/-- Nothing waits for room in the replay buffer. -/
theorem State.fillGroups_idle {s : State} {p : Nat} (hq : (s.port p).queue = []) (hh : (s.port p).hostQueue = []) (n : Nat) :
    s.fillGroups p n = s := by
  cases n with
  | zero => rfl
  | succ n =>
    rw [State.fillGroups]
    simp only [hq, hh, List.find?_nil, List.head?_nil, Option.or_none]
    split <;> rfl

theorem State.port_acknowledge {s : State} {p : Nat} (hq : (s.port p).queue = []) (hh : (s.port p).hostQueue = []) (ack : Nat) :
    (s.acknowledge p ack).port p = (s.port p).acknowledged ack := by
  have hc : ((ack != (s.port p).txSeq && (s.port p).left_ ack = []) = true) ↔ (ack ≠ (s.port p).txSeq ∧ (s.port p).left_ ack = []) := by simp
  rw [State.acknowledge, Port.acknowledged]
  by_cases h : ack ≠ (s.port p).txSeq ∧ (s.port p).left_ ack = []
  · rw [if_pos h]
    refine (congrArg (State.port · p) (if_pos (hc.mpr h))).trans rfl
  · rw [if_neg h]
    refine (congrArg (State.port · p) (if_neg (hc.not.mpr h))).trans ?_
    rw [State.fillGroups_idle (by rw [State.port_onPort_same]; exact hq) (by rw [State.port_onPort_same]; exact hh), State.port_onPort_same]
    rfl

theorem State.finish_stays {s : State} {p : Nat} (h : (s.port p).finishing = false) : s.finish p = s := by
  simp [State.finish, h]

/-- The other side has discarded the first group that it has not acknowledged (R29, R30). -/
theorem State.port_replayed {s : State} {p : Nat} {g : Group} {rest : List Group} (h : (s.port p).replay = g :: rest) :
    (s.replayed p).port p = if 8 ≤ g.fails + 1 then ({ s.port p with replay := { g with fails := g.fails + 1 } :: rest } : Port).retraining
      else { s.port p with replay := { g with fails := g.fails + 1 } :: rest } := by
  rw [State.replayed, h]
  dsimp only
  split
  · rw [State.port_retrain, State.port_onPort_same]
  · rw [State.port_onPort_same]

/-! ## Groups (R29, R30) -/

section
variable {s : State} {p seq crc ack : Nat} {data : List Byte} {again : Bool} (h2 : (s.port p).state = 2)
include h2

/-- A group whose CRC is bad is counted; the eighth failure of the group that is due makes the port retrain. -/
theorem groupArrives_bad (hb : data.length ≠ 256 ∨ crc32c data ≠ crc) : (s.groupArrives p seq data crc ack again).port p =
    if seq = (s.port p).rxSeq ∧ 8 ≤ (s.port p).run + 1 then
      ({ (s.port p).counted 31 24 with run := (s.port p).run + 1 } : Port).retraining
    else { (s.port p).counted 31 24 with run := if seq = (s.port p).rxSeq then (s.port p).run + 1 else (s.port p).run } := by
  have hb' : (data.length != 256 || crc32c data != crc) = true := by simpa using hb
  rw [State.groupArrives]
  dsimp only
  rw [if_neg (by simp [h2]), if_pos hb']
  by_cases hd : seq = (s.port p).rxSeq
  · simp only [hd, if_true, true_and, decide_true, Bool.true_and, decide_eq_true_eq]
    split
    · rw [State.port_retrain, State.port_onPort_same]
    · rw [State.port_onPort_same]
  · simp only [hd, if_false, false_and, decide_false, Bool.false_and, Bool.false_eq_true]
    rw [State.port_onPort_same]

/-- The port after a group whose CRC is good, before what `again` asks for. -/
theorem groupArrives_good (hb : ¬(data.length ≠ 256 ∨ crc32c data ≠ crc)) (hq : (s.port p).queue = []) (hh : (s.port p).hostQueue = []) :
    ∃ u : State, u.port p = ((s.port p).took seq).acknowledged ack ∧
      s.groupArrives p seq data crc ack again = if again = true then u.replayed p else u.finish p := by
  have hb' : ¬ (data.length != 256 || crc32c data != crc) = true := by simpa using hb
  let v : State := if seq = (s.port p).rxSeq then s.onPort p fun q => { q with
    rxSeq := (seq + 1) % 4096, acked := seq, run := 0, received := q.received + 1 } else s
  have hv : v.port p = (s.port p).took seq := by
    rw [Port.took]
    simp only [v]
    split
    · rw [State.port_onPort_same]
    · rfl
  have hidle : ((s.port p).took seq).queue = [] ∧ ((s.port p).took seq).hostQueue = [] := by
    rw [Port.took]
    split <;> exact ⟨hq, hh⟩
  refine ⟨v.acknowledge p ack, ?_, ?_⟩
  · rw [State.port_acknowledge (by rw [hv]; exact hidle.1) (by rw [hv]; exact hidle.2), hv]
  · rw [State.groupArrives]
    dsimp only
    rw [if_neg (by simp [h2]), if_neg hb']

end

/-! ## Retraining (R30, R31) -/

/-- A port that comes up at a version. -/
def State.UpAt (s : State) (p version : Nat) : Prop :=
  (s.port p).state = 2 ∧ bits (s.port p).fpctl.toNat 11 4 = version ∧ (p = 32 → s.ubgen = version)

/-- The records that wait are sent once the Ubgen port has come up, which leaves every port. -/
theorem State.UpAt.sendWaiting {s : State} {p version : Nat} (h : s.UpAt p version) :
    (if (p = 32 && s.phase = .up) = true then s.sendWaiting else s).UpAt p version := by
  split
  · exact h
  · exact h

/-- The last step of coming up: the state, the groups that waited, and the version of the Ubgen link. -/
theorem State.upAt_filled (s : State) (p version n : Nat) (h : bits (s.port p).fpctl.toNat 11 4 = version) :
    (if p = 32 then { (s.setPortState p 2).fillGroups p n with ubgen := version } else (s.setPortState p 2).fillGroups p n).UpAt p version := by
  have hf : (((s.setPortState p 2).fillGroups p n).port p).fpctl = fpctlIn (s.port p).fpctl 2 := by
    rw [State.fillGroups_fpctl, State.setPortState_fpctl]
  have hs : (((s.setPortState p 2).fillGroups p n).port p).state = 2 := by rw [Port.state, hf, bits_fpctlIn _ (by omega)]
  have hv : bits (((s.setPortState p 2).fillGroups p n).port p).fpctl.toNat 11 4 = version := by rw [hf, bits_fpctlIn_version, h]
  split
  · exact ⟨hs, hv, fun _ => rfl⟩
  · next hp => exact ⟨hs, hv, fun he => absurd he hp⟩

theorem State.portUp_upAt (s : State) (p : Nat) {version : Nat} (h : version < 256) : (s.portUp p version).UpAt p version := by
  rw [State.portUp]
  refine State.upAt_filled _ p version _ ?_
  rw [State.port_onPort_same, bits_ofNat _ (by omega), Nat.mod_eq_of_lt h]
  have := bits_lt (s.port p).fpctl.toNat 1 0
  simp only [bits] at this ⊢
  omega

theorem State.portBack_upAt (s : State) (p : Nat) {version : Nat} (h : version < 256) : (s.portBack p version).UpAt p version := by
  rw [State.portBack]
  refine State.upAt_filled _ p version _ ?_
  rw [State.port_onPort_same, bits_ofNat _ (by omega), bits_setBits_same _ _ (by omega)]
  exact Nat.mod_eq_of_lt h

section
variable {s : State} {p lo hi : Nat} (h1 : (s.port p).state = 1)
include h1

/-- A retraining that ends with a common version. -/
theorem trained_up {v : Nat} (hv : commonVersion lo hi portLowest (portHighest p) = some v) (h : v < 256) :
    (s.trained p true lo hi).UpAt p v := by
  rw [State.trained]
  dsimp only
  rw [if_neg (by simp [h1]), if_pos rfl, hv]
  dsimp only
  have hup : (if (s.port p).cold = true then (s.onPort p fun q => { q with cold := false }).portUp p v
      else (s.onPort p fun q => { q with cold := false }).portBack p v).UpAt p v := by
    split
    · exact State.portUp_upAt _ _ h
    · exact State.portBack_upAt _ _ h
  exact hup.sendWaiting

/-- A retraining without a common version. -/
theorem trained_apart (hv : commonVersion lo hi portLowest (portHighest p) = none) : ((s.trained p true lo hi).port p).state = 0 := by
  rw [State.trained]
  dsimp only
  rw [if_neg (by simp [h1]), if_pos rfl, hv]
  dsimp only
  rw [State.port, State.openRecord, State.record_ports]
  exact s.state_portDown p (by omega)

/-- A retraining that fails; the third failure within a second takes the port down. -/
theorem trained_failed : ((s.trained p false lo hi).port p).state =
    if 2 ≤ ((s.port p).failTimes.filter fun f => s.time < f + 1200000000).length then 3 else 1 := by
  rw [State.trained]
  dsimp only
  rw [if_neg (by simp [h1]), if_neg (by decide), List.length_cons]
  split
  · next h => rw [if_pos (by omega), State.state_portDown _ _ (by omega)]
  · next h => rw [if_neg (by omega), State.state_retrain]

end

/-! ## The rows of the link layer -/

section
variable {s : State}

theorem exec_groupReceive {p : Nat} {seq ack : BitVec 12} {data : List Byte} {crc : BitVec 32} {again : Bool}
    (h : s.input = .groupReceive p seq data crc ack again) :
    exec .groupReceive s = .next (s.groupArrives p seq.toNat data crc.toNat ack.toNat again) := by
  show execGroupReceive s = _
  rw [execGroupReceive, h]

theorem exec_laneLockLoss {p : Nat} {failed : Bool} (h : s.input = .laneLockLoss p failed) : exec .laneLockLoss s =
    .next (if ((s.port p).state = 0 || (s.port p).state = 3) = true then s else if failed = true then s.portDown p 0 else s.retrain p) := by
  show execLaneLockLoss s = _
  rw [execLaneLockLoss, h]

theorem exec_retrainEnd {p lo hi : Nat} {ok : Bool} (h : s.input = .retrainEnd p ok lo hi) :
    exec .retrainEnd s = .next (s.trained p ok lo hi) := by
  show execRetrainEnd s = _
  rw [execRetrainEnd, h]

theorem exec_fabricPacket {p : Packet} (h : s.input = .fabricPacket p) : exec .fabricPacket s = .next (s.packetArrives p) := by
  show execFabricPacket s = _
  rw [execFabricPacket, h]

end

/-! ## Packets that arrive (R44) -/

/-- A message handed to the mesh is on its way. -/
theorem State.carry_coming (s : State) (h : Header) (e : Event) : e ∈ (s.carry h e).coming :=
  State.mem_coming_of_net rfl ⟨_, List.mem_append_right _ (List.mem_singleton_self _), rfl, rfl⟩

theorem State.mem_accept (s : State) (p : Packet) : (p.src, p.num) ∈ (s.accept p).fabricSeen := by
  rw [State.accept]
  exact List.mem_append_left _ List.mem_cons_self

section
variable {s u : State} {p : Packet} (hu : s.phase = .up)
include hu

theorem packetArrives_ignored (hp : p.port < 64) (h : p.dst ≠ thisDevice ∨ (s.port p.port).state ≠ 2 ∨ (p.src, p.num) ∈ s.fabricSeen) :
    s.packetArrives p = s := by
  have hc : (p.dst != thisDevice || (s.port p.port).state != 2 || s.fabricSeen.contains (p.src, p.num)) = true := by
    simpa [or_assoc] using h
  rw [State.packetArrives, if_neg (by simp [hu]), if_neg (by omega), if_pos hc]

/-- A packet that has not been accepted before goes on in the mesh. -/
theorem packetArrives_accepted (hp : p.port < 64) (hd : p.dst = thisDevice) (h2 : (s.port p.port).state = 2)
    (hn : (p.src, p.num) ∉ s.fabricSeen) : .fabricPacket { p with port := p.port + 64 } ∈ (s.packetArrives p).coming ∧
      (p.src, p.num) ∈ (s.packetArrives p).fabricSeen ∧ (s.packetArrives p).mem = s.mem ∧ (s.packetArrives p).toFabric = s.toFabric := by
  have hc : ¬ (p.dst != thisDevice || (s.port p.port).state != 2 || s.fabricSeen.contains (p.src, p.num)) = true := by
    simp [hd, h2, hn]
  rw [State.packetArrives, if_neg (by simp [hu]), if_neg (by omega), if_neg hc]
  have hk : p.kept = { p with port := p.port + 64 } := if_pos hp
  refine ⟨?_, ?_, by rfl, by rfl⟩
  · rw [← hk]
    exact State.carry_coming ..
  · exact s.mem_accept p

theorem packetArrives_performed (hp : 64 ≤ p.port) (h : s.land p = (true, u)) : s.packetArrives p = u := by
  rw [State.packetArrives, if_neg (by simp [hu, Nat.not_lt.mpr hp]), if_pos hp, h]

theorem packetArrives_waits (hp : 64 ≤ p.port) (h : s.land p = (false, u)) : s.packetArrives p = u.emit (.fabricPacket p) := by
  rw [State.packetArrives, if_neg (by simp [hu, Nat.not_lt.mpr hp]), if_pos hp, h]

end

/-! ## Packets that are performed (R45, R46) -/

/-- What an answer needs of its packet leaves with it. -/
theorem Packet.Leaves.reply {p q : Packet} : p.Leaves q →
    q.dst = p.dst ∧ q.entry = p.entry ∧ q.core = p.core ∧ q.qos = p.qos ∧ q.op = p.op := by
  rintro ⟨_, _, _, _, _, rfl⟩
  exact ⟨rfl, rfl, rfl, rfl, rfl⟩

/-- In `t` the packet has been answered, from `u`: where a port is up, the answer leaves, to the entry that the packet names. -/
def Packet.Back (p : Packet) (t u : State) (op : FabricOp) : Prop :=
  u.upPorts ≠ [] → ∃ q : Packet, t.toFabric = u.toFabric ++ [q] ∧ q.dst = p.src ∧ q.entry = p.entry ∧ q.core = p.core ∧
    q.qos = p.qos ∧ q.op = op

theorem State.sendBack_back (u : State) (p : Packet) (op : FabricOp) : p.Back (u.sendBack p op) u op := fun h => by
  obtain ⟨q, hq, hl⟩ := State.send_leaves
    { dst := p.src, ctx := p.ctx, qos := p.qos, cls := p.cls, core := p.core, entry := p.entry, op := op } p.from_.router h
  refine ⟨q, ?_, hl.reply⟩
  rw [State.sendBack, hq]

theorem State.sendBack_mem (u : State) (p : Packet) (op : FabricOp) : (u.sendBack p op).mem = u.mem := State.send_mem ..
theorem State.sendBack_net (u : State) (p : Packet) (op : FabricOp) : (u.sendBack p op).net = u.net := State.send_net ..

section
variable {s u : State} {p : Packet} {use : Use} {parts : List (Nat × Nat)} {f : List (Spot × Nat) → State → State}

theorem landParts_error {c : Cause} (h : s.ownFabricParts p.agent use p.acq parts = (.error c, u)) :
    s.landParts p use parts f = (true, u.sendBack p (.refusal c)) := by
  rw [State.landParts, h]

theorem landParts_waits (h : s.ownFabricParts p.agent use p.acq parts = (.ok none, u)) : s.landParts p use parts f = (false, u) := by
  rw [State.landParts, h]

theorem landParts_found {found : List (Spot × Nat)} (h : s.ownFabricParts p.agent use p.acq parts = (.ok (some found), u)) :
    s.landParts p use parts f = (true, f found u) := by
  rw [State.landParts, h]

end

section
variable {s u : State} {p : Packet}

theorem land_load {n : Nat} (h : p.op = .load n) : s.land p = s.landLoad p n false := by rw [State.land, h]

theorem land_store {bs : List Byte} {barrier : Option (Nat × Nat)} (h : p.op = .store bs false false false barrier) :
    s.land p = s.landStore p bs .plain false barrier := by
  rw [State.land, h]
  rfl

theorem land_answer {a : Answer} (h : p.op = .answer a) (h11 : a.st ≠ 11) : s.land p = (true, s.answered a) := by
  rw [State.land, h]
  simp only [h11, if_false]

theorem land_storeAck (h : p.op = .storeAck) :
    s.land p = (true, s.replyArrived ⟨p.core, p.entry, .none, .none, p.src, [], []⟩) := by
  rw [State.land, h]
  rfl

/-- A load is answered with its bytes, or refused where it found poison. -/
theorem landLoad_found {n : Nat} {parts : List (Spot × Nat)} (h : s.ownFabricParts p.agent .read p.acq (partsOf p.addr n) = (.ok (some parts), u)) :
    s.landLoad p n false = (true, (u.readParts p.qos parts).2.sendBack p (if (u.readParts p.qos parts).1.poison = true then .refusal .poison
      else .loadReply (ofBytes (u.readParts p.qos parts).1.bytes) (if (u.readParts p.qos parts).1.bnd = true then .bounded else .exact) 0)) := by
  rw [State.landLoad, landParts_found h]
  by_cases hp : (u.readParts p.qos parts).1.poison = true
  · rw [if_pos hp]
    exact congrArg (Prod.mk true) (if_pos hp)
  · rw [if_neg hp]
    exact congrArg (Prod.mk true) (if_neg hp)

/-- A store to a typed cell is refused. -/
theorem landStore_typed {bs : List Byte} {barrier : Option (Nat × Nat)} {parts : List (Spot × Nat)}
    (h : s.ownFabricParts p.agent .write p.acq (partsOf p.addr bs.length) = (.ok (some parts), u))
    (ht : parts.any (fun x => u.typedAt x.1 x.2) = true) : s.landStore p bs .plain false barrier = (true, u.sendBack p (.refusal .type)) := by
  rw [State.landStore, landParts_found h, if_pos ht]

/-- Any other store writes its bytes, tells its barrier, and is acknowledged. -/
theorem landStore_written {bs : List Byte} {barrier : Option (Nat × Nat)} {parts : List (Spot × Nat)}
    (h : s.ownFabricParts p.agent .write p.acq (partsOf p.addr bs.length) = (.ok (some parts), u))
    (ht : ¬ parts.any (fun x => u.typedAt x.1 x.2) = true) : s.landStore p bs .plain false barrier =
      (true, ((u.writeParts p.qos .other none .plain parts bs).landed p parts barrier bs.length).sendBack p .storeAck) := by
  rw [State.landStore, landParts_found h, if_neg ht]
  rfl

/-- What a barrier is told changes no byte, no port and no packet. -/
theorem State.landed_keeps (s : State) (p : Packet) (parts : List (Spot × Nat)) (barrier : Option (Nat × Nat)) (n : Nat) :
    (s.landed p parts barrier n).mem = s.mem ∧ (s.landed p parts barrier n).toFabric = s.toFabric ∧
    (s.landed p parts barrier n).upPorts = s.upPorts := by
  cases barrier with
  | none => exact ⟨rfl, rfl, rfl⟩
  | some b => exact ⟨rfl, rfl, rfl⟩

/-- The barrier of a counted store is told how many bytes have become visible (R122). -/
theorem State.landed_carries (s : State) (p : Packet) (parts : List (Spot × Nat)) (dev addr n : Nat) :
    ∃ r : DeskReq, (∃ f ∈ (s.landed p parts (some (dev, addr)) n).net.flights, f.copies = [] ∧ f.act = .bpendsub r) ∧ r.n = (n : Int) ∧
      r.ctx = p.ctx ∧ r.va = if dev = thisDevice then addr else 2 ^ 63 + dev * 2 ^ 50 + addr :=
  ⟨_, ⟨_, List.mem_append_right _ (List.mem_singleton_self _), rfl, rfl⟩, rfl, rfl, rfl⟩

end

/-! ## The obligation -/

/-- A bad group changes the counts of its port alone, until the port retrains. -/
theorem groupReceive_bad {s : State} {p : Nat} {seq ack : BitVec 12} {data : List Byte} {crc : BitVec 32} {again : Bool}
    (hi : s.input = .groupReceive p seq data crc ack again) (h2 : (s.port p).state = 2) (hb : data.length ≠ 256 ∨ crc32c data ≠ crc.toNat) :
    ∃ t : State, exec .groupReceive s = .next t ∧ (t.port p).rxSeq = (s.port p).rxSeq ∧
      bits (t.port p).fpctl.toNat 31 24 = min 255 (bits (s.port p).fpctl.toNat 31 24 + 1) ∧
      if seq.toNat = (s.port p).rxSeq ∧ 8 ≤ (s.port p).run + 1 then
        (t.port p).state = 1 ∧ (t.port p).run = 0 ∧ (t.port p).replay.map (·.num) = (s.port p).replay.map (·.num) ∧
        bits (t.port p).fpctl.toNat 15 12 = min 15 (bits (s.port p).fpctl.toNat 15 12 + 1)
      else (t.port p).state = 2 ∧ (t.port p).replay = (s.port p).replay ∧
        (t.port p).run = if seq.toNat = (s.port p).rxSeq then (s.port p).run + 1 else (s.port p).run := by
  refine ⟨_, exec_groupReceive hi, ?_⟩
  rw [groupArrives_bad h2 hb]
  generalize s.port p = q at h2 ⊢
  have hcount : bits (q.counted 31 24).fpctl.toNat 31 24 = min 255 (bits q.fpctl.toNat 31 24 + 1) := bits_counted q (by omega) (by omega)
  by_cases hd : seq.toNat = q.rxSeq ∧ 8 ≤ q.run + 1
  · rw [if_pos hd, if_pos hd]
    generalize hx : ({ q.counted 31 24 with run := q.run + 1 } : Port) = x
    have hf : x.fpctl = (q.counted 31 24).fpctl := by rw [← hx]
    have hr : x.rxSeq = q.rxSeq ∧ x.replay = q.replay := by rw [← hx]; exact q.counted_rest 31 24
    obtain ⟨h1, h3, h4⟩ := x.retraining_rest
    refine ⟨h1.trans hr.1, ?_, ?_, h3, ?_, ?_⟩
    · rw [Port.retraining_fpctl, bits_fpctlIn_above _ _ (by omega) (by omega), bits_counted_disjoint _ (by omega) (by omega) (by omega), hf, hcount]
    · exact x.state_retraining
    · rw [h4, hr.2, List.map_map]
      rfl
    · rw [Port.retraining_fpctl, bits_fpctlIn_above _ _ (by omega) (by omega), bits_counted _ (by omega) (by omega), hf,
        bits_counted_disjoint _ (by omega) (by omega) (by omega)]
      rfl
  · rw [if_neg hd, if_neg hd]
    generalize hx : ({ q.counted 31 24 with run := if seq.toNat = q.rxSeq then q.run + 1 else q.run } : Port) = x
    have hf : x.fpctl = (q.counted 31 24).fpctl := by rw [← hx]
    have hr : x.rxSeq = q.rxSeq ∧ x.replay = q.replay := by rw [← hx]; exact q.counted_rest 31 24
    refine ⟨hr.1, by rw [hf, hcount], ?_, hr.2, by rw [← hx]⟩
    rw [Port.state, hf, bits_counted_disjoint q (by omega) (by omega) (by omega)]
    exact h2

theorem Port.took_keeps (q : Port) (seq : Nat) : (q.took seq).fpctl = q.fpctl ∧ (q.took seq).txSeq = q.txSeq ∧
    (q.took seq).replay = q.replay ∧ (q.took seq).finishing = q.finishing := by
  rw [Port.took]
  split <;> exact ⟨rfl, rfl, rfl, rfl⟩

/-- A good group that asks for nothing again. -/
theorem groupReceive_good {s : State} {p : Nat} {seq ack : BitVec 12} {data : List Byte} {crc : BitVec 32}
    (hi : s.input = .groupReceive p seq data crc ack false) (h2 : (s.port p).state = 2) (hb : ¬(data.length ≠ 256 ∨ crc32c data ≠ crc.toNat))
    (hq : (s.port p).queue = []) (hh : (s.port p).hostQueue = []) (hf : (s.port p).finishing = false) :
    ∃ t : State, exec .groupReceive s = .next t ∧ (t.port p).state = 2 ∧
      (t.port p).rxSeq = (if seq.toNat = (s.port p).rxSeq then ((s.port p).rxSeq + 1) % 4096 else (s.port p).rxSeq) ∧
      (seq.toNat = (s.port p).rxSeq → (t.port p).acked = (s.port p).rxSeq ∧ (t.port p).run = 0 ∧ (t.port p).received = (s.port p).received + 1) ∧
      (t.port p).replay = if ack.toNat ≠ (s.port p).txSeq ∧ (s.port p).left_ ack.toNat = [] then (s.port p).replay
        else (s.port p).left_ ack.toNat := by
  obtain ⟨u, hu, ht⟩ := groupArrives_good (ack := ack.toNat) (seq := seq.toNat) (again := false) h2 hb hq hh
  obtain ⟨k1, k2, k3, k4⟩ := (s.port p).took_keeps seq.toNat
  have hfin : (u.port p).finishing = false := by
    rw [hu]
    exact k4.trans hf
  rw [if_neg (by decide), State.finish_stays hfin] at ht
  refine ⟨u, by rw [exec_groupReceive hi, ht], ?_⟩
  rw [hu]
  refine ⟨(congrArg (fun v : BitVec 32 => bits v.toNat 3 2) k1).trans h2, ?_, fun hd => ?_, ?_⟩
  · show ((s.port p).took seq.toNat).rxSeq = _
    rw [Port.took]
    split
    · next hd => rw [← hd]
    · rfl
  · show ((s.port p).took seq.toNat).acked = _ ∧ ((s.port p).took seq.toNat).run = 0 ∧ ((s.port p).took seq.toNat).received = _
    rw [Port.took, if_pos hd, ← hd]
    exact ⟨rfl, rfl, rfl⟩
  · have hl : ((s.port p).took seq.toNat).left_ ack.toNat = (s.port p).left_ ack.toNat := by rw [Port.left_, k2, k3, Port.left_]
    rw [Port.acknowledged, hl, k2, k3]

/-- A good group that asks for the first group of the replay buffer again. -/
theorem groupReceive_again {s : State} {p : Nat} {seq ack : BitVec 12} {data : List Byte} {crc : BitVec 32} {g : Group} {rest : List Group}
    (hi : s.input = .groupReceive p seq data crc ack true) (h2 : (s.port p).state = 2) (hb : ¬(data.length ≠ 256 ∨ crc32c data ≠ crc.toNat))
    (hq : (s.port p).queue = []) (hh : (s.port p).hostQueue = []) (hr : (s.port p).replay = g :: rest) (ha : ack.toNat = g.num)
    (hn : g.num ≠ (s.port p).txSeq) :
    ∃ t : State, exec .groupReceive s = .next t ∧ if 8 ≤ g.fails + 1 then (t.port p).state = 1
      else (t.port p).state = 2 ∧ (t.port p).replay = { g with fails := g.fails + 1 } :: rest := by
  obtain ⟨u, hu, ht⟩ := groupArrives_good (ack := ack.toNat) (seq := seq.toNat) (again := true) h2 hb hq hh
  obtain ⟨k1, k2, k3, -⟩ := (s.port p).took_keeps seq.toNat
  have hrep : (u.port p).replay = g :: rest := by
    rw [hu]
    simp [Port.acknowledged, Port.left_, k2, k3, hr, ha, hn]
  have hst : (u.port p).state = 2 := by
    rw [hu]
    exact (congrArg (fun v : BitVec 32 => bits v.toNat 3 2) k1).trans h2
  rw [if_pos rfl] at ht
  refine ⟨_, by rw [exec_groupReceive hi, ht], ?_⟩
  rw [State.port_replayed hrep]
  split
  · exact Port.state_retraining _
  · exact ⟨hst, rfl⟩

/-- Settles O57: a port by the group that arrives; a packet by where it is on its way and by what its access finds. -/
theorem linksAndPackets : Obligations.LinksAndPackets := by
  unfold Obligations.LinksAndPackets
  refine ⟨fun s p => ⟨fun seq data crc ack again hi h2 => ⟨fun hb => groupReceive_bad hi h2 hb, fun hb hq hh => ⟨?_, ?_⟩⟩,
    fun failed hi => ?_, fun ok lo hi hin h1 h256 => ?_⟩, fun s p hi hu => ⟨fun hp => ⟨fun h => ?_, fun hd h2 hn => ?_⟩, fun hp => ?_⟩⟩
  case refine_1 =>
    rintro rfl hf
    exact groupReceive_good hi h2 hb hq hh hf
  case refine_2 =>
    rintro g rest rfl hr ha hn
    exact groupReceive_again hi h2 hb hq hh hr ha hn
  case refine_3 =>
    refine ⟨_, exec_laneLockLoss hi, ?_⟩
    by_cases h : (s.port p).state = 0 ∨ (s.port p).state = 3
    · rw [if_pos (by simpa using h), if_pos h]
    · rw [if_neg (by simpa using h), if_neg h]
      split
      · exact s.state_portDown p (by omega)
      · exact s.state_retrain p
  case refine_4 =>
    refine ⟨_, exec_retrainEnd hin, ?_, ?_, ?_⟩
    · rintro rfl hle
      exact trained_up h1 (if_pos hle) h256
    · rintro rfl hlt
      exact trained_apart h1 (if_neg (Nat.not_le.mpr hlt))
    · rintro rfl
      exact trained_failed h1
  case refine_5 =>
    rw [exec_fabricPacket hi, packetArrives_ignored hu hp h]
  case refine_6 => exact ⟨_, exec_fabricPacket hi, packetArrives_accepted hu hp hd h2 hn⟩
  case refine_7 =>
    intro agent back
    have performed {u : State} (h : s.land p = (true, u)) : exec .fabricPacket s = .next u := by
      rw [exec_fabricPacket hi, packetArrives_performed hu hp h]
    refine ⟨fun n parts u ho hf => ?_, fun bs barrier parts u ho hf => ?_, fun n c u ho hf => ?_, fun n u ho hf => ?_,
      fun a ho h11 => performed (land_answer ho h11), fun ho => performed (land_storeAck ho)⟩
    · exact ⟨_, performed ((land_load ho).trans (landLoad_found hf)), State.sendBack_mem .., State.sendBack_back _ p _⟩
    · split
      · next ht => exact ⟨_, performed ((land_store ho).trans (landStore_typed hf ht)), State.sendBack_mem .., State.sendBack_back _ p _⟩
      · next ht =>
        intro w
        obtain ⟨hm, hfab, hup⟩ := w.landed_keeps p parts barrier bs.length
        refine ⟨_, performed ((land_store ho).trans (landStore_written hf ht)), (State.sendBack_mem ..).trans hm, fun h => ?_, ?_⟩
        · rw [← hfab]
          exact State.sendBack_back _ p _ (by rwa [hup])
        · rintro dev addr rfl
          obtain ⟨r, hc, hr⟩ := w.landed_carries p parts dev addr bs.length
          exact ⟨r, State.mem_coming_of_net (State.sendBack_net ..) hc, hr⟩
    · exact ⟨_, performed ((land_load ho).trans (landParts_error hf)), State.sendBack_mem .., State.sendBack_back _ p _⟩
    · rw [exec_fabricPacket hi, packetArrives_waits hu hp ((land_load ho).trans (landParts_waits hf))]

end Sys2Proof.Machine
end

section
/-! SUPPORT. What messages and writes to memory leave as it was (R42, R87, R103, R149, R160). -/

namespace Sys2Proof.Machine

open Sys2Proof

/-! ## Messages that leave -/

/-- `t` is `s` but for messages that have left: packets at the ports, and messages on the mesh. -/
def State.OnlySends (s t : State) : Prop := ∃ next ports charges net packets, t = { s with
  fabricNext := next, ports := ports, charges := charges, net := net, toFabric := s.toFabric ++ packets }

theorem State.onlySends_refl (s : State) : s.OnlySends s := ⟨_, _, _, _, [], by rw [List.append_nil]⟩

theorem State.OnlySends.trans {s t u : State} : s.OnlySends t → t.OnlySends u → s.OnlySends u := by
  rintro ⟨_, _, _, _, ps, rfl⟩ ⟨_, _, _, _, qs, rfl⟩
  exact ⟨_, _, _, _, ps ++ qs, by rw [List.append_assoc]⟩

theorem State.send_onlySends (s : State) (p : Packet) (c : Nat) : s.OnlySends (s.send p c) := by
  rw [State.send]
  split
  · exact s.onlySends_refl
  · rw [State.post_eta]
    exact ⟨_, _, _, _, _, rfl⟩

theorem State.carry_onlySends (s : State) (h : Header) (e : Event) : s.OnlySends (s.carry h e) :=
  ⟨_, _, _, _, [], by rw [List.append_nil]; rfl⟩

theorem State.foldl_onlySends {α : Type} (f : State → α → State) (h : ∀ (s : State) (a : α), s.OnlySends (f s a)) (l : List α) (s : State) :
    s.OnlySends (l.foldl f s) :=
  List.foldlRecOn (motive := fun t => s.OnlySends t) l f s.onlySends_refl fun t ht a _ => ht.trans (h t a)

theorem State.cancelPop_onlySends (s : State) (region i : Nat) : s.OnlySends (s.cancelPop region i) := by
  rw [State.cancelPop]
  split
  · exact s.onlySends_refl
  · split_ifs
    · exact s.carry_onlySends ..
    · exact s.onlySends_refl
    · exact s.send_onlySends ..

/-! ## Writes to memory -/

theorem State.onGranules_eta (s : State) (pa n : Nat) (f : Nat → Granule → Granule) :
    s.onGranules pa n f = { s with granules := (s.onGranules pa n f).granules } := by
  have go (s : State) (a m : Nat) : State.onGranules.go f s a m = { s with granules := (State.onGranules.go f s a m).granules } := by
    induction m generalizing s a with
    | zero => rfl
    | succ m ih =>
      rw [State.onGranules.go, ih]
      rfl
  exact go ..

/-- Bytes stored as data change the bytes, their granules and the errors that they mend alone. -/
theorem State.storeData_eta (s : State) (pa : Nat) (bs : List Byte) (bnd : Bool) : s.storeData pa bs bnd = { s with
    mem := (s.storeData pa bs bnd).mem, granules := (s.storeData pa bs bnd).granules, flips := (s.storeData pa bs bnd).flips } := by
  rw [State.storeData, State.onGranules_eta]
  rfl

theorem State.enterSlice_eta (s : State) (cls pa n : Nat) : s.enterSlice cls pa n = { s with
    charges := (s.enterSlice cls pa n).charges } := by
  rw [State.enterSlice]
  split <;> rfl

theorem State.touch_eta (s : State) (pa : Nat) (dirty : Bool) : s.touch pa dirty = { s with
    fresh := (s.touch pa dirty).fresh, lines := (s.touch pa dirty).lines } := by
  have way : s.freeWay pa = { s with fresh := (s.freeWay pa).fresh, lines := (s.freeWay pa).lines } := by
    rw [State.freeWay]
    dsimp only
    split_ifs
    · rfl
    · split <;> rfl
  rw [State.touch]
  split
  · rfl
  · rw [way]

theorem State.invalidate_eta (s : State) (pa : Nat) (me : Option Nat) : s.invalidate pa me = { s with
    cores := (s.invalidate pa me).cores } := by
  rw [State.invalidate]
  split <;> rfl

/-! ### Regions and grids -/

/-- The tables of the network regions and of the grids. -/
def State.tables (s : State) : List (Nat × Region) × List (Nat × Grid) := (s.regions, s.grids)

theorem State.queue_of_tables {s t : State} (h : t.tables = s.tables) (region j : Nat) : t.queue region j = s.queue region j :=
  State.queue_of_regions (congrArg Prod.fst h) ..

theorem State.grid_of_grids {s t : State} (h : t.grids = s.grids) (g : Nat) : t.grid g = s.grid g := by rw [State.grid, h]; rfl

theorem State.grid_of_tables {s t : State} (h : t.tables = s.tables) (g : Nat) : t.grid g = s.grid g :=
  State.grid_of_grids (congrArg Prod.snd h) g

@[simp] theorem State.onCore_tables (s : State) (n : Nat) (f : Core → Core) : (s.onCore n f).tables = s.tables := rfl
@[simp] theorem State.emit_tables (s : State) (e : Event) : (s.emit e).tables = s.tables := rfl
@[simp] theorem State.setTag_tables (s : State) (pa : Nat) (t : Bool) : (s.setTag pa t).tables = s.tables := rfl

@[simp] theorem State.storeData_tables (s : State) (pa : Nat) (bs : List Byte) (bnd : Bool) :
    (s.storeData pa bs bnd).tables = s.tables := by
  rw [s.storeData_eta]
  rfl

@[simp] theorem State.onGranules_tables (s : State) (pa n : Nat) (f : Nat → Granule → Granule) :
    (s.onGranules pa n f).tables = s.tables := by
  rw [s.onGranules_eta]
  rfl

theorem State.writeMem_tables (s : State) (pa : Nat) (bs : List Byte) (kind : StoreKind) : (s.writeMem pa bs kind).tables = s.tables := by
  cases kind with
  | plain => exact s.storeData_tables ..
  | cap t => exact s.storeData_tables ..
  | bounded =>
    rw [State.writeMem]
    split <;> simp

theorem State.writeReg_tables (s : State) (k r : Nat) (v : Reg) : (s.writeReg k r v).tables = s.tables := by
  rw [State.tables, State.writeReg_regions, State.writeReg_grids, State.tables]

theorem ite_tables {c : Prop} [Decidable c] {s t u : State} (ht : t.tables = s.tables) (hu : u.tables = s.tables) :
    (if c then t else u).tables = s.tables := by
  split
  · exact ht
  · exact hu

/-- A write to the engine command registers stores the shadows, rings the doorbell and clears `err`. -/
theorem State.writeEngine_tables (s : State) (c o : Nat) (bs : List Byte) (kind : StoreKind) :
    (s.writeEngine c o bs kind).tables = s.tables := by
  have rings {c d : Prop} [Decidable c] [Decidable d] {x : State} {e : Event} {n : Nat} {f : Core → Core} (hx : x.tables = s.tables) :
      (if c then (if d then x.emit e else x).onCore n f else if d then x.emit e else x).tables = s.tables :=
    ite_tables (ite_tables hx hx) (ite_tables hx hx)
  rw [State.writeEngine]
  refine rings (ite_tables ?_ rfl)
  split
  · rw [State.setTag_tables, State.storeData_tables]
  · rw [State.onGranules_tables, State.storeData_tables]
  · rw [State.storeData_tables]

/-- A unit register is written by a service core alone (R20, R51, R87, R141, R191). -/
theorem State.writeUnit_other (s : State) (u : UnitReg) (v : Nat) : s.writeUnit .other u v = s := by
  cases u <;> rfl

/-- A write by an agent that is no service core changes no region and no grid. -/
theorem State.writeSpot_tables (s : State) (sp : Spot) (bs : List Byte) (kind : StoreKind) :
    (s.writeSpot .other sp bs kind).tables = s.tables := by
  cases sp with
  | mem pa => exact s.writeMem_tables ..
  | atm pa => exact s.writeMem_tables ..
  | pattern pa => rfl
  | zero => rfl
  | image k r o =>
    simp only [State.writeSpot, State.writeImage]
    split_ifs
    · rfl
    · exact s.writeReg_tables ..
    · rfl
  | car c i o =>
    simp only [State.writeSpot, State.writeDescriptor]
    split_ifs <;> rfl
  | engine c o => exact s.writeEngine_tables ..
  | unit o =>
    rw [State.writeSpot]
    split
    · rfl
    · rfl
    · rw [State.writeUnit_other]

theorem State.afterWrite_tables (s : State) (cls : Nat) (me : Option Nat) (sp : Spot) (n : Nat) :
    (s.afterWrite cls me sp n).tables = s.tables := by
  cases sp with
  | mem pa =>
    rw [State.afterWrite]
    split
    · rw [State.invalidate_eta, State.touch_eta, State.enterSlice_eta]
      rfl
    · rfl
  | atm pa =>
    rw [State.afterWrite, State.enterSlice_eta]
    rfl
  | _ => rfl

theorem State.writeParts_tables (s : State) (cls : Nat) (me : Option Nat) (kind : StoreKind) (ps : List (Spot × Nat)) (bs : List Byte) :
    (s.writeParts cls .other me kind ps bs).tables = s.tables := by
  induction ps generalizing s bs with
  | nil => rfl
  | cons p ps ih => exact (ih ..).trans ((State.afterWrite_tables ..).trans (s.writeSpot_tables ..))

end Sys2Proof.Machine
end

section
/-! SUPPORT. The queues of a service core under its commands, and event records (R68-R74). -/

namespace Sys2Proof.Machine

open Sys2Proof

/-! ## Steps asked for once -/

section
variable (s : State) (e : Event)
@[simp] theorem State.emitOnce_mem : (s.emitOnce e).mem = s.mem := by obtain ⟨es, h⟩ := s.emitOnce_onlyAsks e; rw [h]; rfl
@[simp] theorem State.emitOnce_regions : (s.emitOnce e).regions = s.regions := by obtain ⟨es, h⟩ := s.emitOnce_onlyAsks e; rw [h]; rfl
@[simp] theorem State.emitOnce_grids : (s.emitOnce e).grids = s.grids := by obtain ⟨es, h⟩ := s.emitOnce_onlyAsks e; rw [h]; rfl
@[simp] theorem State.emitOnce_sources : (s.emitOnce e).sources = s.sources := by obtain ⟨es, h⟩ := s.emitOnce_onlyAsks e; rw [h]; rfl
@[simp] theorem State.queue_emitOnce (region i : Nat) : (s.emitOnce e).queue region i = s.queue region i :=
  State.queue_of_regions (s.emitOnce_regions e) ..
end

/-! ## Event records (R73 Table 6) -/

theorem field_skip {n off : Nat} (v m : Nat) (r : List Byte) (h : n ≤ off) :
    field (bytesOf n v ++ r) off m = field r (off - n) m := by
  rw [field, List.drop_append, List.drop_eq_nil_of_le (by rw [bytesOf_length]; exact h), bytesOf_length]
  rfl

theorem field_here (n v : Nat) (r : List Byte) : field (bytesOf n v ++ r) 0 n = v % 256 ^ n := by
  rw [field, List.drop_zero, List.take_left' (bytesOf_length n v), ofBytes_bytesOf]

theorem field_all (n v : Nat) : field (bytesOf n v) 0 n = v % 256 ^ n := by
  rw [← List.append_nil (bytesOf n v), field_here]

/-- The fields of a record that the host reads. -/
theorem EvRec.image_fields (e : EvRec) (version lost : Nat) :
    (e.image version lost).length = 32 ∧ field (e.image version lost) 0 1 = version % 2 ^ 8 ∧
    field (e.image version lost) 2 2 = e.kind % 2 ^ 16 ∧ field (e.image version lost) 4 2 = e.source % 2 ^ 16 ∧
    field (e.image version lost) 6 2 = e.seq % 2 ^ 16 ∧ field (e.image version lost) 16 4 = e.tag % 2 ^ 32 ∧
    field (e.image version lost) 24 8 = e.payload % 2 ^ 64 := by
  simp [EvRec.image, bytesOf_length, field_skip, field_here, field_all]

/-- A record that finds room is buffered with its contents. -/
theorem State.record_buffers {s : State} {src : Nat} (sev : Option Nat) (kind payload tag : Nat)
    (h : (look ({} : Source) s.sources src).buffer.length < 16) :
    ∃ x ∈ (look ({} : Source) (s.record src sev kind payload tag).sources src).buffer, x.kind = kind ∧ x.tag = tag ∧ x.payload = payload := by
  simp only [State.record, if_pos h]
  split <;> simp

/-- No record takes an earlier one out of a buffer. -/
theorem State.record_keeps_buffers (s : State) (src : Nat) (sev : Option Nat) (kind payload tag : Nat) {other : Nat} {x : EvRec}
    (h : x ∈ (look ({} : Source) s.sources other).buffer) :
    x ∈ (look ({} : Source) (s.record src sev kind payload tag).sources other).buffer := by
  have hput (y : Source) (hy : src = other → x ∈ y.buffer) : x ∈ (look ({} : Source) (put s.sources src y) other).buffer := by
    rw [look_put]
    split
    · next he => exact hy he
    · exact h
  simp only [State.record]
  split
  · split
    · exact hput _ fun he => List.mem_append_left _ (he ▸ h)
    · exact hput _ fun he => List.mem_append_left _ (he ▸ h)
  · exact hput _ fun he => he ▸ h

/-- A record that may be produced changes no region, no grid and no byte. -/
theorem State.ite_record_keeps (c : Prop) [Decidable c] (s : State) (src : Nat) (sev : Option Nat) (kind payload tag : Nat) :
    (if c then s.record src sev kind payload tag else s).tables = s.tables ∧
    (if c then s.record src sev kind payload tag else s).mem = s.mem := by
  split
  · exact ⟨by rw [State.tables, State.record_regions, State.record_grids, State.tables], State.record_mem ..⟩
  · exact ⟨rfl, rfl⟩

/-- The next record of a source leaves for the host (R73). -/
theorem State.sendRecord_sends {s : State} {source : Nat} {e : EvRec} {rest : List EvRec}
    (hb : (look ({} : Source) s.sources source).buffer = e :: rest) (hu : s.phase = .up) (hp : (s.port 32).state = 2) (hv : s.version 2 ≠ 0) :
    ∃ lost, (s.sendRecord source).toHost =
        s.toHost ++ [{ kind := 0xA, data := e.image (if e.early then 0x10 else s.version 2) lost }] ∧
      (look ({} : Source) (s.sendRecord source).sources source).buffer = rest ∧ (s.sendRecord source).mem = s.mem := by
  refine ⟨(look ({} : Source) s.sources source).lost, ?_⟩
  simp only [State.sendRecord, hb, hu, hp, hv, bne_self_eq_false, Bool.or_self, decide_false, Bool.false_eq_true, if_false]
  rw [State.toUbgen_eta]
  exact ⟨rfl, by rw [look_put_same], rfl⟩

/-! ## Changes of a queue -/

theorem Queue.left_eq_false {q : Queue} (h : q.detaching = false) : q.left = false := by
  rw [Queue.left, h, Bool.false_and, Bool.false_and]

/-- A queue that is not being detached stays. -/
theorem State.dropDetached_stays {s : State} {region i : Nat} {q : Queue} (hq : s.queue region i = some q) (hd : q.detaching = false) :
    s.dropDetached region i = s := by
  rw [State.dropDetached, hq]
  simp [Queue.left_eq_false hd]

/-- The queue of a command after the command: in `t` it has `pending` and `running` as given, and waits for the next. -/
def State.QueueGoesOn (t : State) (n : Nat) (pending : List (Nat × List Byte)) (running : Nat) : Prop :=
  ∃ p, t.queue (n / 16) (n % 16) = some p ∧ p.starting = none ∧ p.pending = pending ∧ p.running = running ∧ p.stopped = false

section
variable {s : State} {n : Nat} {q : Queue} (cmd : List Byte) (hq : s.queue (n / 16) (n % 16) = some q)
include hq

/-- A command that starts waits for an answer under its tag. -/
theorem beginsWaiting_goesOn (tag : Nat) (hd : q.detaching = false) (hs : q.stopped = false) :
    (s.beginsWaiting n cmd tag).QueueGoesOn n ((tag, cmd) :: q.pending) (q.running + 1) ∧ (s.beginsWaiting n cmd tag).mem = s.mem := by
  have h := State.queue_onQueue_same (fun q : Queue => { q with
    starting := none, running := q.running + 1, pending := ((some tag).map fun t => (t, cmd)).toList ++ q.pending }) hq
  rw [State.beginsWaiting, State.begins, State.dropDetached_stays h hd]
  exact ⟨⟨_, (State.queue_emitOnce ..).trans h, rfl, rfl, rfl, hs⟩, State.emitOnce_mem ..⟩

/-- A command that completes produces at most a record, and its queue goes on (R69). -/
theorem commandDone_goesOn (hd : q.detaching = false) (hs : q.stopped = false) (hn : q.starting = none) :
    (s.commandDone (n / 16) (n % 16) cmd).QueueGoesOn n q.pending (q.running - 1) ∧ (s.commandDone (n / 16) (n % 16) cmd).mem = s.mem ∧
    ∀ (src : Nat) (x : EvRec), x ∈ (look ({} : Source) s.sources src).buffer →
      x ∈ (look ({} : Source) (s.commandDone (n / 16) (n % 16) cmd).sources src).buffer := by
  generalize hu : s.onQueue (n / 16) (n % 16) (fun q => { q with
    running := q.running - 1, pending := q.pending.filter fun e => none != some e.1 }) = u
  have hqu : u.queue (n / 16) (n % 16) = some { q with running := q.running - 1 } := by
    rw [← hu, State.queue_onQueue_same _ hq]
    simp
  have hmem : u.mem = s.mem := by rw [← hu]; rfl
  have hsrc : u.sources = s.sources := by rw [← hu]; rfl
  generalize hw : (if bit (cmdFlags cmd) 1 = true then u.record (sourceOfService (n / 16)) none 0x1 q.cell (cmdTag cmd) else u) = w
  obtain ⟨hwt, hwm⟩ : w.tables = u.tables ∧ w.mem = u.mem := hw ▸ State.ite_record_keeps ..
  have hqw := (State.queue_of_tables hwt ..).trans hqu
  have hdone : s.commandDone (n / 16) (n % 16) cmd = w.emitOnce (.queueAgentPop (16 * (n / 16) + n % 16)) := by
    rw [State.commandDone, hq]
    dsimp only
    rw [hu, hw, State.dropDetached_stays hqw hd]
  rw [hdone]
  refine ⟨⟨_, (State.queue_emitOnce ..).trans hqw, hn, rfl, rfl, hs⟩, ?_, fun src x hx => ?_⟩
  · rw [State.emitOnce_mem, hwm, hmem]
  · rw [State.emitOnce_sources, ← hw]
    rw [← hsrc] at hx
    split
    · exact State.record_keeps_buffers _ _ _ _ _ _ hx
    · exact hx

/-- A command that starts and completes at once leaves its queue ready for the next (R69). -/
theorem beginsAndEnds_goesOn (hd : q.detaching = false) (hs : q.stopped = false) :
    (s.beginsAndEnds n cmd).QueueGoesOn n q.pending q.running ∧ (s.beginsAndEnds n cmd).mem = s.mem ∧
    ∀ (src : Nat) (x : EvRec), x ∈ (look ({} : Source) s.sources src).buffer →
      x ∈ (look ({} : Source) (s.beginsAndEnds n cmd).sources src).buffer := by
  have h := State.queue_onQueue_same (fun q : Queue => { q with starting := none, running := q.running + 1 }) hq
  obtain ⟨⟨p, hp, hrest⟩, hmem, hsrc⟩ := commandDone_goesOn cmd h hd hs rfl
  rw [State.beginsAndEnds]
  refine ⟨⟨p, (State.queue_emitOnce ..).trans hp, hrest⟩, ?_, fun src x hx => ?_⟩
  · rw [State.emitOnce_mem, hmem]
    rfl
  · rw [State.emitOnce_sources]
    exact hsrc src x hx

end

/-! ## The queue that is next (R68) -/

/-- A change of the queues that leaves their numbers, priorities and readiness leaves which queue is next. -/
theorem Region.nextQueue_map (g : Region) (f : Nat × Queue → Nat × Queue) (h1 : ∀ e, (f e).1 = e.1)
    (h2 : ∀ e, (f e).2.startable = e.2.startable) (h3 : ∀ e, (f e).2.prio = e.2.prio) :
    ({ g with queues := g.queues.map f } : Region).nextQueue = g.nextQueue.map f := by
  have hready : (g.queues.map f).filter (fun e => e.2.startable) = (g.queues.filter fun e => e.2.startable).map f := by
    rw [List.filter_map]
    exact congrArg (List.map f) (List.filter_congr fun e _ => h2 e)
  simp only [Region.nextQueue, hready, List.foldl_map, List.find?_map, List.map_findSome?, Function.comp_def, h1, h3]

theorem State.nextQueue_onQueue {s : State} {region : Nat} (i : Nat) (f : Queue → Queue) (h2 : ∀ q, (f q).startable = q.startable)
    (h3 : ∀ q, (f q).prio = q.prio) (h : (s.region region).nextQueue = none) :
    ((s.onQueue region i f).region region).nextQueue = none := by
  have hmap := (s.region region).nextQueue_map (fun e => if e.1 = i then (e.1, f e.2) else e) (fun e => by split <;> rfl)
    (fun e => by split <;> simp [h2]) (fun e => by split <;> simp [h3])
  rw [State.onQueue, State.region_onRegion_same, hmap, h]
  rfl

theorem State.takeCommand_none {s : State} {region : Nat} (h : (s.region region).nextQueue = none) : s.takeCommand region = s := by
  rw [State.takeCommand, h]

/-- The service core takes the command of the queue that is next: its step is due. -/
theorem State.takeCommand_takes {s : State} {region i : Nat} {q : Queue} {cmd : List Byte} {e : Event}
    (h : (s.region region).nextQueue = some (i, q)) (ht : q.taken = some cmd) (he : commandEvent (16 * region + i) cmd = some e) :
    State.OnlyAsks (((s.onRegion region fun g => { g with lastQueue := i }).onQueue region i fun q => { q with
      taken := none, starting := some cmd }).emit e) (s.takeCommand region) := by
  rw [State.takeCommand, h]
  simp only [ht, Option.getD_some, he]
  refine (State.emitOnce_onlyAsks _ (.queueAgentPop (16 * region + i))).trans ?_
  split
  · exact State.emitOnce_onlyAsks ..
  · exact State.onlyAsks_refl _

end Sys2Proof.Machine
end

section
/-! Commands of queues (R68-R71, R73, R74). -/

namespace Sys2Proof.Machine

open Sys2Proof

/-! ## The rows -/

section
variable {s : State} {n : Nat} {cmd : List Byte}

theorem exec_queueAgentPop {q : Queue} (hi : s.input = .queueAgentPop n) (hq : s.queue (n / 16) (n % 16) = some q) :
    exec .queueAgentPop s = .next (State.takeCommand (if (q.stopped || q.popping.isSome || q.taken.isSome || q.detaching ||
      q.resetting.isSome) = true then s else s.agentPop (n / 16) (n % 16) q) (n / 16)) := by
  show execQueueAgentPop s = _
  rw [execQueueAgentPop, hi]
  dsimp only
  rw [hq]

theorem exec_nop (hi : s.input = .nop n cmd) :
    exec .nop s = .next (s.command n 0 cmd (zeroAt cmd 8 56) fun s _ => s.beginsAndEnds n cmd) := by
  show execNop s = _
  rw [execNop, hi]

theorem exec_event (hi : s.input = .event n cmd) : exec .event s = .next (s.command n 5 cmd (zeroAt cmd 8 56) fun s q =>
    (s.record (sourceOfService (n / 16)) none 0x1 q.cell (cmdTag cmd)).beginsAndEnds n cmd) := by
  show execEvent s = _
  rw [execEvent, hi]

theorem exec_wait (hi : s.input = .wait n cmd) : exec .wait s = .next (s.command n 2 cmd (zeroAt cmd 16 48) fun s q =>
    s.commandCell n cmd q .cwait 0 (.wait n cmd)) := by
  show execWait s = _
  rw [execWait, hi]

theorem exec_signal (hi : s.input = .signal n cmd) : exec .signal s = .next (s.command n 3 cmd (zeroAt cmd 20 44) fun s q =>
    s.commandCell n cmd q .cadd (signed 32 (field cmd 16 4)) (.signal n cmd)) := by
  show execSignal s = _
  rw [execSignal, hi]

theorem exec_write (hi : s.input = .write n cmd) : exec .write s = .next (s.command n 4 cmd
    (zeroAt cmd 17 15 && 1 ≤ field cmd 16 1 && field cmd 16 1 ≤ 32) fun s q => s.commandWrite n cmd q) := by
  show execWrite s = _
  rw [execWrite, hi]

theorem exec_eventRecordSend {source : Nat} (hi : s.input = .eventRecordSend source) :
    exec .eventRecordSend s = .next (s.sendRecord source) := by
  show execEventRecordSend s = _
  rw [execEventRecordSend, hi]

end

/-! ## The turn of a queue agent (R68) -/

section
variable {s : State} {n : Nat} {q : Queue} (hi : s.input = .queueAgentPop n) (hq : s.queue (n / 16) (n % 16) = some q)
include hi hq

/-- The command that is next starts. -/
theorem queueAgentPop_takes {cmd : List Byte} {e : Event} (ht : q.taken = some cmd)
    (hn : (s.region (n / 16)).nextQueue = some (n % 16, q)) (he : commandEvent n cmd = some e) :
    ∃ t : State, exec .queueAgentPop s = .next t ∧ t.queue (n / 16) (n % 16) = some { q with taken := none, starting := some cmd } ∧
      e ∈ t.agenda ∧ t.mem = s.mem := by
  have he' : commandEvent (16 * (n / 16) + n % 16) cmd = some e := by rwa [Nat.div_add_mod]
  have hx := exec_queueAgentPop hi hq
  rw [if_pos (by simp [ht])] at hx
  have hasks := State.takeCommand_takes hn ht he'
  have hagenda := hasks.mem_agenda (State.mem_agenda_emit ..)
  obtain ⟨es, heq⟩ := hasks
  refine ⟨_, hx, ?_, hagenda, ?_⟩
  · rw [heq, State.queue_of_regions (State.emits_regions ..), State.queue_of_regions (State.emit_regions ..)]
    refine State.queue_onQueue_same _ ?_
    rw [State.queue, State.region_onRegion_same]
    exact hq
  · rw [heq]
    rfl

variable (hs : q.stopped = false) (hpop : q.popping = none) (htak : q.taken = none) (hd : q.detaching = false)
  (hres : q.resetting = none)
include hs hpop htak hd hres

theorem queueAgentPop_pops : exec .queueAgentPop s = .next ((s.agentPop (n / 16) (n % 16) q).takeCommand (n / 16)) := by
  rw [exec_queueAgentPop hi hq, if_neg (by simp [hs, hpop, htak, hd, hres])]

variable {pa : Nat} {v u : State} (hpa : q.pa < untranslated)
  (hc : s.drawn.findCell (controlAgent (n / 16) q.ctx) q.address .qpop = (.cell pa, v)) (hg : (v.granule pa).poison = false)
  (hu : u.queue (n / 16) (n % 16) = some { q with pa := pa })
include hpa hc hg hu

/-- A pop that its cell holds is under way. -/
theorem queueAgentPop_held (hdesk : (v.onQueue (n / 16) (n % 16) fun q => { q with pa := pa }).desk .qpop
      { pa := pa, va := q.cell, ctx := q.ctx, who := agentWaiter (n / 16) (n % 16), seq := s.fresh, prio := q.prio, elen := 64 } = (.held, u))
    (hn : (u.region (n / 16)).nextQueue = none) :
    ∃ t : State, exec .queueAgentPop s = .next t ∧ t.queue (n / 16) (n % 16) = some { q with pa := pa, popping := some s.fresh } ∧
      t.mem = u.mem := by
  have ha : s.agentPop (n / 16) (n % 16) q = u.onQueue (n / 16) (n % 16) fun q => { q with popping := some s.fresh } := by
    simp only [State.agentPop, hpa, if_true, hc, hg, Bool.false_eq_true, if_false, hdesk]
  have hnone := State.nextQueue_onQueue (n % 16) (fun q => { q with popping := some s.fresh }) (fun _ => rfl) (fun _ => rfl) hn
  refine ⟨_, queueAgentPop_pops hi hq hs hpop htak hd hres, ?_, ?_⟩
  all_goals rw [ha, State.takeCommand_none hnone]
  · exact State.queue_onQueue_same _ hu
  · rfl

/-- A pop that gives an element at once brings a command. -/
theorem queueAgentPop_done {val : Nat} {c : List Byte} (hdesk : (v.onQueue (n / 16) (n % 16) fun q => { q with pa := pa }).desk .qpop
      { pa := pa, va := q.cell, ctx := q.ctx, who := agentWaiter (n / 16) (n % 16), seq := s.fresh, prio := q.prio, elen := 64 } =
        (.done 0 val c, u))
    (hn : ((u.onQueue (n / 16) (n % 16) fun q => { q with taken := some c }).region (n / 16)).nextQueue = none) :
    ∃ t : State, exec .queueAgentPop s = .next t ∧ t.queue (n / 16) (n % 16) = some { q with pa := pa, taken := some c } ∧ t.mem = u.mem := by
  have ha : s.agentPop (n / 16) (n % 16) q = u.onQueue (n / 16) (n % 16) fun q => { q with taken := some c } := by
    simp only [State.agentPop, hpa, if_true, hc, hg, Bool.false_eq_true, if_false, hdesk]
  refine ⟨_, queueAgentPop_pops hi hq hs hpop htak hd hres, ?_, ?_⟩
  all_goals rw [ha, State.takeCommand_none hn]
  · exact State.queue_onQueue_same _ hu
  · rfl

end

/-! ## The start of a command (R69, R71) -/

theorem ofBytes_eq_zero {l : List Byte} (h : ∀ b ∈ l, b = 0) : ofBytes l = 0 := by
  induction l with
  | nil => rfl
  | cons b l ih =>
    rw [ofBytes, ih fun c hc => h c (List.mem_cons_of_mem _ hc), h b List.mem_cons_self]
    rfl

/-- A field whose bytes are 0. -/
theorem zeroAt_of_bytes {cmd : List Byte} {off n : Nat} (h : ∀ i, off ≤ i → i < off + n → cmd.getD i 0 = 0) :
    zeroAt cmd off n = true := by
  refine decide_eq_true (ofBytes_eq_zero fun b hb => ?_)
  obtain ⟨i, hi, rfl⟩ := List.mem_iff_getElem.mp hb
  rw [List.length_take, List.length_drop] at hi
  rw [List.getElem_take, List.getElem_drop, ← h (off + i) (by omega) (by omega), List.getD_eq_getElem]

/-- Outside the fabric window an address names no other device. -/
theorem farAway_of_near {va : Nat} (h : isFabric va = false) : farAway va = false := by rw [farAway, h, Bool.false_and]

theorem signed_toInt (v : Nat) : signed 32 v = (BitVec.ofNat 32 v).toInt := by
  rw [BitVec.toInt_eq_toNat_cond, BitVec.toNat_ofNat]
  rfl

section
variable {s : State} {n : Nat} {cmd : List Byte} {q : Queue}

/-- What a command asks of the cell that it has found. -/
def State.commandAsk (s : State) (n : Nat) (cmd : List Byte) (q : Queue) (pa : Nat) (amount : Int) : DeskReq :=
  { va := field cmd 8 8, pa := pa, ctx := q.ctx, who := agentWaiter (n / 16) (n % 16), seq := s.fresh, prio := q.prio, n := amount }

section
variable {op : DeskOp} {amount : Int} {pa : Nat} {u w : State} (again : Event) (hf : isFabric (field cmd 8 8) = false)
  (hc : s.findCell (controlAgent (n / 16) q.ctx) (field cmd 8 8) op = (.cell pa, u)) (hg : (u.granule pa).poison = false)
include hf hc hg

/-- A command that its cell holds waits for the answer. -/
theorem commandCell_held (hdesk : u.drawn.desk op (s.commandAsk n cmd q pa amount) = (.held, w)) :
    s.commandCell n cmd q op amount again = w.beginsWaiting n cmd s.fresh := by
  rw [State.commandAsk] at hdesk
  simp only [State.commandCell, farAway_of_near hf, hf, Bool.false_eq_true, if_false, hc, hg, hdesk]

/-- A command whose operation succeeds at once completes. -/
theorem commandCell_done {st val : Nat} {elem : List Byte}
    (hdesk : u.drawn.desk op (s.commandAsk n cmd q pa amount) = (.done st val elem, w)) (hst : deskFault st = none) :
    s.commandCell n cmd q op amount again = w.beginsAndEnds n cmd := by
  rw [State.commandAsk] at hdesk
  simp only [State.commandCell, farAway_of_near hf, hf, Bool.false_eq_true, if_false, hc, hg, hdesk, hst]

/-- A command whose operation has to wait at the Desk is tried again. -/
theorem commandCell_parked (hdesk : u.drawn.desk op (s.commandAsk n cmd q pa amount) = (.park, w)) :
    s.commandCell n cmd q op amount again = u.emit again := by
  rw [State.commandAsk] at hdesk
  simp only [State.commandCell, farAway_of_near hf, hf, Bool.false_eq_true, if_false, hc, hg, hdesk]

end

variable (h : s.startingAt n cmd = some q)
include h

theorem startingAt_queue : s.queue (n / 16) (n % 16) = some q ∧ q.stopped = false := by
  rw [State.startingAt] at h
  split at h
  · next p hp =>
    split at h
    · next hc =>
      injection h with h
      subst h
      exact ⟨hp, by simpa using (Bool.and_eq_true_iff.mp hc).2⟩
    · exact absurd h (by simp)
  · exact absurd h (by simp)

/-- A command that is due and well formed is performed. -/
theorem command_due {kind : Nat} {ok : Bool} (act : State → Queue → State) (hh : s.headerOk cmd = true) (hk : cmdKind cmd = kind)
    (hok : ok = true) : s.command n kind cmd ok act = act s q := by
  simp [State.command, h, hh, hk, hok]

/-- The bytes of a `WRITE` are stored, and the command completes. -/
theorem commandWrite_near (hd : q.detaching = false) {parts : List (Spot × Nat)} {u : State} (hf : isFabric (field cmd 8 8) = false)
    (hp : s.ownFabricParts (controlAgent (n / 16) q.ctx) .write true (partsOf (field cmd 8 8) (field cmd 16 1)) = (.ok (some parts), u))
    (hu : u.queue (n / 16) (n % 16) = some q) (ht : parts.any (fun p => u.typedAt p.1 p.2) = false) :
    (s.commandWrite n cmd q).QueueGoesOn n q.pending q.running ∧
    (s.commandWrite n cmd q).mem = (u.writeParts 0 .other none .plain parts ((cmd.drop 32).take (field cmd 16 1))).mem := by
  have ho : s.commandWrite n cmd q =
      (u.writeParts 0 .other none .plain parts ((cmd.drop 32).take (field cmd 16 1))).beginsAndEnds n cmd := by
    simp only [State.commandWrite, farAway_of_near hf, hf, Bool.false_eq_true, if_false, hp, ht]
  rw [ho]
  obtain ⟨hq, hm, -⟩ := beginsAndEnds_goesOn cmd ((State.queue_of_tables (State.writeParts_tables ..) ..).trans hu) hd (startingAt_queue h).2
  exact ⟨hq, hm⟩

end

/-! ## The obligation -/

/-- Settles O54: the turn of a queue agent by what its pop finds; each command by the one act that its row performs, after which its
queue goes on; an event record by the message that carries it. -/
theorem queueCommandsRun : Obligations.QueueCommandsRun := by
  unfold Obligations.QueueCommandsRun
  intro s n cmd q queue control
  refine ⟨fun hi hq => ⟨fun e ht hn he => queueAgentPop_takes hi hq ht hn he, fun hs hpop htak hd hres hpa pa v hc hg => ?_⟩,
    fun h hh => ?_, fun source e rest hi hb hu hp hv => ?_⟩
  case refine_1 =>
    intro agent pop found
    split
    · next u hdesk => exact fun hu hn => queueAgentPop_held hi hq hs hpop htak hd hres hpa hc hg hu hdesk hn
    · next val c u hdesk => exact fun hu hn => queueAgentPop_done hi hq hs hpop htak hd hres hpa hc hg hu hdesk hn
    · trivial
  case refine_2 =>
    intro va ended kept cellOf hd
    obtain ⟨hq, hs⟩ := startingAt_queue h
    have cell {i : Instr} {op : DeskOp} {amount : Int} {again : Event} (hx : exec i s = .next (s.commandCell n cmd q op amount again)) :
        cellOf i op amount := by
      intro hf pa u hc hg hu agent ask
      split
      · next w hdesk =>
        intro hw
        obtain ⟨⟨p, hp, hstart, hpend, hrun, -⟩, hm⟩ := beginsWaiting_goesOn cmd hw s.fresh hd hs
        exact ⟨_, p, hx.trans (congrArg _ (commandCell_held again hf hc hg hdesk)), hp, hpend, hstart, hrun, hm⟩
      · next w hdesk =>
        intro hst hw
        obtain ⟨hgo, hm, -⟩ := beginsAndEnds_goesOn cmd hw hd hs
        exact ⟨_, hx.trans (congrArg _ (commandCell_done again hf hc hg hdesk hst)), hgo, hm⟩
      · next hdesk =>
        exact ⟨_, again, hx.trans (congrArg _ (commandCell_parked again hf hc hg hdesk)), State.mem_agenda_emit .., hu⟩
    refine ⟨fun hi hk hz => ?_, fun hi hk hz => ?_, fun hi hk hz => cell (again := .wait n cmd) ?_,
      fun hi hk hz => cell (again := .signal n cmd) ?_, fun hi hk hz hl hl' hf parts u hp hu ht => ?_⟩
    · obtain ⟨hgo, hm, -⟩ := beginsAndEnds_goesOn cmd hq hd hs
      exact ⟨_, (exec_nop hi).trans (congrArg _ (command_due h _ hh hk (zeroAt_of_bytes hz))), hgo, hm⟩
    · intro source hb
      obtain ⟨x, hx, hxs⟩ := State.record_buffers none 0x1 q.cell (cmdTag cmd) hb
      obtain ⟨hgo, hm, hkeep⟩ := beginsAndEnds_goesOn cmd ((State.queue_of_regions (s.record_regions ..) ..).trans hq) hd hs
      exact ⟨_, x, (exec_event hi).trans (congrArg _ (command_due h _ hh hk (zeroAt_of_bytes hz))), hgo, hm.trans (s.record_mem ..),
        hkeep _ _ hx, hxs⟩
    · exact (exec_wait hi).trans (congrArg _ (command_due h _ hh hk (zeroAt_of_bytes hz)))
    · rw [← signed_toInt]
      exact (exec_signal hi).trans (congrArg _ (command_due h _ hh hk (zeroAt_of_bytes hz)))
    · have hzero : zeroAt cmd 17 15 = true := zeroAt_of_bytes hz
      have hok : (zeroAt cmd 17 15 && 1 ≤ field cmd 16 1 && field cmd 16 1 ≤ 32) = true := by simp [hzero, hl, hl']
      exact ⟨_, (exec_write hi).trans (congrArg _ (command_due h _ hh hk hok)), commandWrite_near h hd hf hp hu ht⟩
  case refine_3 =>
    obtain ⟨lost, hh, hbuf, hm⟩ := State.sendRecord_sends hb hu hp hv
    obtain ⟨hlen, hver, hkind, hsrc, hseq, htag, hpay⟩ := e.image_fields (if e.early then 0x10 else s.version 2) lost
    exact ⟨_, _, exec_eventRecordSend hi, hh, rfl, hlen, hver, hkind, hsrc, hseq, htag, hpay, hbuf, hm⟩

end Sys2Proof.Machine
end

section
/-! SUPPORT. The cores of a grid, and a grid whose contexts are discarded (R90, R279, R280, R468). -/

namespace Sys2Proof.Machine

open Sys2Proof

/-! ## Tables -/

/-- What differs from the default at a key stands in the table. -/
theorem mem_of_look {α : Type} {d : α} {m : List (Nat × α)} {i : Nat} (h : look d m i ≠ d) : (i, look d m i) ∈ m := by
  induction m with
  | nil => exact absurd rfl h
  | cons e m ih =>
    rw [look] at h ⊢
    split at h
    · next he => rw [if_pos he, ← he]; exact List.mem_cons_self
    · next he => rw [if_neg he]; exact List.mem_cons_of_mem _ (ih h)

theorem look_map {α β : Type} (f : α → β) (d : α) (m : List (Nat × α)) (i : Nat) :
    look (f d) (m.map fun e => (e.1, f e.2)) i = f (look d m i) := by
  induction m with
  | nil => rfl
  | cons e m ih =>
    rw [List.map_cons, look, look, ih]
    split <;> rfl

/-! ## The cores of a grid -/

theorem State.coresOf_of_cores {s t : State} (h : t.cores = s.cores) (g : Nat) : t.coresOf g = s.coresOf g := by
  rw [State.coresOf, h]
  rfl

/-- A core that a grid has stands among the grid's cores. -/
theorem State.mem_coresOf {s : State} {n g : Nat} (h : (s.core n).grid = some g) : n ∈ (s.coresOf g).map (·.1) := by
  have hne : s.core n ≠ {} := fun he => by rw [he] at h; exact absurd h (by simp)
  exact List.mem_map.mpr ⟨(n, s.core n), List.mem_filter.mpr ⟨mem_of_look hne, by simpa using h⟩, rfl⟩

/-- The grid that each core is reserved for. -/
def State.coreGrids (s : State) : List (Nat × Option Nat) := s.cores.map fun e => (e.1, e.2.grid)

theorem State.core_grid (s : State) (n : Nat) : (s.core n).grid = look none s.coreGrids n := (look_map Core.grid {} s.cores n).symm

theorem State.length_coresOf (s : State) (g : Nat) : (s.coresOf g).length = (s.coreGrids.filter fun e => e.2 == some g).length := by
  rw [State.coreGrids, List.filter_map, List.length_map]
  rfl

/-- Cores that are returned clean read as after reset (R468). -/
theorem State.core_cleaned {s : State} {l : List Nat} {n : Nat} (h : n ∈ l) :
    (l.foldl (fun s n => s.cleanCore n {}) s).core n = {} := by
  have hcore (s : State) (m : Nat) : (s.cleanCore m {}).core n = if m = n then {} else s.core n := look_put ..
  refine foldl_reaches (P := fun _ => True) (Q := fun t : State => t.core n = {}) h trivial (fun _ _ _ _ => trivial) (fun t _ => ?_)
    fun t m ht => ?_
  · rw [hcore, if_pos rfl]
  · rw [hcore, ht, ite_self]

/-! ## The end of a grid that has cores -/

theorem State.cancelFar_onlySends (s : State) (k : Nat) : s.OnlySends (s.cancelFar k) := by
  rw [State.cancelFar]
  split
  · split
    · split_ifs
      · exact s.onlySends_refl
      · exact s.send_onlySends ..
    · exact s.onlySends_refl
  · exact s.onlySends_refl

theorem State.discardContexts_grid {s : State} {g : Nat} {x : Grid} (h : s.grid g = some x) :
    (s.discardContexts g).grid g = some { x with undealt := [] } := by
  rw [State.discardContexts]
  refine State.grid_onGrid_same _ ((State.grid_of_grids ?_ g).trans h)
  obtain ⟨_, _, _, _, _, ht⟩ := State.foldl_onlySends State.cancelFar State.cancelFar_onlySends (s.gridSlots g) s
  have hgrids : ((s.gridSlots g).foldl State.cancelFar s).grids = s.grids := by rw [ht]
  exact hgrids

/-- A grid goes to Ending with what has ended it (R279, R280). -/
theorem State.toEnding_ends {s : State} {g : Nat} {x : Grid} {e : EndCause} (saved : Bool) (h : s.grid g = some x) (he : x.ended = some e) :
    .completionRelease g ∈ (s.toEnding g saved).agenda ∧ ∃ y, (s.toEnding g saved).grid g = some y ∧ y.st = .ending ∧
      y.ended = some { e with saved := saved, stopped := s.strandCount g } := by
  refine ⟨State.mem_agenda_emit .., _, (State.grid_emit ..).trans (State.grid_onGrid_same _ (State.discardContexts_grid h)), rfl, ?_⟩
  dsimp only
  rw [he]
  rfl

/-- A save that cannot be made ends a grid with SAVE_FAULT. -/
theorem State.saveFailed_ends {s : State} {g : Nat} {x : Grid} (h : s.grid g = some x) (he : x.ended = none) (ht : x.thermal = false) :
    .completionRelease g ∈ (s.saveFailed g).agenda ∧ ∃ y e, (s.saveFailed g).grid g = some y ∧ y.st = .ending ∧ y.ended = some e ∧
      e.status = 1 ∧ e.cause = Cause.saveFault.code := by
  have hx := State.grid_onGrid_same (fun x : Grid => { x with
    outcome := if x.ended.isSome then x.outcome else preemptFailed
    ended := match x.ended with
      | some e => some e
      | none => some (if x.thermal then { status := 3, cause := Cause.thermal.code }
                      else { status := 1, cause := Cause.saveFault.code }) }) h
  obtain ⟨ha, y, hy, hst, hend⟩ := State.toEnding_ends (e := { status := 1, cause := Cause.saveFault.code }) false hx
    (by simp [he, ht])
  exact ⟨ha, y, _, hy, hst, hend, rfl, rfl⟩

/-! ## A grid that is saved (R281) -/

theorem State.invalidate_coreGrids (s : State) (pa : Nat) (me : Option Nat) : (s.invalidate pa me).coreGrids = s.coreGrids := by
  rw [State.invalidate]
  split
  · rfl
  · rw [State.coreGrids, State.coreGrids, List.map_map]
    refine List.map_congr_left fun e _ => ?_
    dsimp only [Function.comp]
    split <;> rfl

/-- What a save writes leaves the grids, and the grid of every core. -/
theorem State.writePacked_keeps (s : State) (ps : List (Spot × Nat)) (l : List Packed) :
    (s.writePacked ps l).grids = s.grids ∧ (s.writePacked ps l).coreGrids = s.coreGrids := by
  induction ps generalizing s l with
  | nil => exact ⟨by rw [State.writePacked.eq_def], by rw [State.writePacked.eq_def]⟩
  | cons p ps ih =>
    obtain ⟨sp, n⟩ := p
    cases l with
    | nil => exact ⟨by rw [State.writePacked.eq_def]; cases sp <;> rfl, by rw [State.writePacked.eq_def]; cases sp <;> rfl⟩
    | cons b l =>
      cases sp with
      | mem pa =>
        obtain ⟨bs, gr⟩ := b
        obtain ⟨h1, h2⟩ := ih ((((s.storeData pa bs).onGranule pa fun _ => gr).touch pa true).invalidate pa none) l
        rw [State.writePacked]
        refine ⟨h1.trans ?_, h2.trans ?_⟩
        · rw [State.invalidate_eta, State.touch_eta, State.storeData_eta]
          rfl
        · rw [State.invalidate_coreGrids, State.touch_eta, State.storeData_eta]
          rfl
      | _ => exact ⟨rfl, rfl⟩

/-- The cores of a grid are free, and its slots, whose keys are given. -/
def State.freeCores (s : State) (g : Nat) (ks : List Nat) : State := { s with
  slots := s.slots.map fun e => if ks.contains e.1 then (e.1, {}) else e
  cores := s.cores.map fun e => if e.2.grid == some g then (e.1, {}) else e
  parked := s.parked.filter fun p => !ks.contains p.slot }

theorem State.grid_freeCores (s : State) (g : Nat) (ks : List Nat) (n : Nat) : (s.freeCores g ks).grid n = s.grid n := rfl
theorem State.grid_placeAll (s : State) (n : Nat) : s.placeAll.grid n = s.grid n := rfl

theorem State.freeCores_frees {s : State} {g n : Nat} (ks : List Nat) (h : (s.core n).grid = some g) :
    ((s.freeCores g ks).core n).grid = none := by
  have hmap : (fun e : Nat × Core => if e.2.grid == some g then (e.1, ({} : Core)) else e) =
      fun e => (e.1, if e.2.grid == some g then {} else e.2) := by
    funext e
    split <;> rfl
  have hl := look_map (fun c : Core => if c.grid == some g then ({} : Core) else c) {} s.cores n
  rw [State.core] at h
  simp only [ite_self, h, beq_self_eq_true, if_true] at hl
  rw [State.freeCores, State.core, hmap, hl]

/-- A grid in the Saved state, with the records of its cores and the bays that keep their rectangles. -/
def Grid.intoSaved (x : Grid) (saved : List SavedCore) (affine : List Nat) : Grid := { x with
  st := .saved, outcome := preemptSaved, saved := saved, affine := affine, last := x.rects, rects := [] }

theorem State.becomeSaved_eq {s : State} {x : Grid} (g : Nat) (ht : x.thermal = false) : s.becomeSaved g x =
    ((s.onGrid g fun y => y.intoSaved ((s.coresOf g).map (s.savedCore x)) (s.affineBays g)).freeCores g (s.gridSlots g)).placeAll := by
  rw [State.becomeSaved, if_neg (by simp [ht])]
  rfl

/-- A grid that becomes Saved has given its cores back, and keeps a record of each. -/
theorem State.becomeSaved_saves {s : State} {g : Nat} {x : Grid} (h : s.grid g = some x) (ht : x.thermal = false) :
    (∃ y, (s.becomeSaved g x).grid g = some y ∧ y.st = .saved ∧ y.rects = [] ∧ y.last = x.rects ∧ y.saved.length = (s.coresOf g).length) ∧
    (∀ n, (s.core n).grid = some g → ((s.becomeSaved g x).core n).grid = none) ∧ (s.becomeSaved g x).mem = s.mem := by
  rw [State.becomeSaved_eq g ht, State.grid_placeAll, State.grid_freeCores, State.grid_onGrid_same _ h]
  exact ⟨⟨_, rfl, rfl, rfl, rfl, List.length_map ..⟩,
    fun n hn => State.freeCores_frees (s := s.onGrid g _) (s.gridSlots g) hn, rfl⟩

end Sys2Proof.Machine
end

section
/-! Grids that end and grids that are saved (R72, R81, R83, R279-R283, R468). -/

namespace Sys2Proof.Machine

open Sys2Proof

/-! ## The rows -/

section
variable {s : State} {g : Nat}

theorem exec_triggerRelease {x : Grid} (hi : s.input = .triggerRelease g) (hg : s.grid g = some x) :
    exec .triggerRelease s = .next (s.triggered g x) := by
  show execTriggerRelease s = _
  rw [execTriggerRelease, hi]
  dsimp only
  rw [hg]

theorem exec_completionRelease {x : Grid} (hi : s.input = .completionRelease g) (hg : s.grid g = some x) (hst : x.st = .ending) :
    exec .completionRelease s = .next (s.endingStep g x) := by
  show execCompletionRelease s = _
  rw [execCompletionRelease, hi]
  dsimp only
  rw [hg]
  dsimp only
  rw [hst]
  rfl

theorem exec_preemptBoundary (hi : s.input = .preemptBoundary g) : exec .preemptBoundary s = .next (s.boundary g) := by
  show execPreemptBoundary s = _
  rw [execPreemptBoundary, hi]

theorem exec_saveComplete {x : Grid} (hi : s.input = .saveComplete g) (hg : s.grid g = some x) (hst : x.st = .saving) :
    exec .saveComplete s = .next (s.finishSave g x) := by
  show execSaveComplete s = _
  rw [execSaveComplete, hi]
  dsimp only
  rw [hg]
  dsimp only
  rw [hst]
  rfl

end

/-! ## A counter that is decremented (R72, R83) -/

/-- Outside the fabric window an address stands for itself. -/
theorem atHome_of_near {va : Nat} (h : isFabric va = false) : atHome va = va := by
  rw [atHome, h, Bool.false_and]
  rfl

/-- A counter of this device that is reached is decremented. -/
theorem release_near {s u w : State} {x : Grid} {va tag pa st val : Nat} {elem : List Byte} (hf : isFabric va = false)
    (hc : s.findCell x.agent va .cadd = (.cell pa, u)) (hg : (u.granule pa).poison = false)
    (hcut : u.cutOff (clusterOf (serviceCore x.region)) (u.homeCluster pa) = false)
    (hd : u.desk .cadd { va := va, pa := pa, ctx := x.ctx, who := schedWaiter x.region, seq := tag, prio := x.node.prio, qos := x.node.qos,
                         n := -1 } = (.done st val elem, w)) :
    s.release x va tag = (true, w) := by
  simp only [State.release, farAway_of_near hf, atHome_of_near hf, hc, hg, hcut, Bool.or_self, Bool.false_eq_true, if_false, hd]

/-! ## The release of successors before Ending (R83) -/

section
variable {s : State} {g : Nat} {x : Grid}

/-- When no successor is left, the grid has released them all. -/
theorem releaseAll_last (hg : s.grid g = some x) (hx : x.succAt = x.node.succ) (fault : Bool) (n : Nat) :
    s.releaseAll g fault (n + 1) = s.onGrid g fun x => { x with released := true } := by
  rw [State.releaseAll, hg]
  exact if_pos hx

/-- A successor that can be released now is passed. -/
theorem releaseAll_next {w : State} {fault : Bool} (hg : s.grid g = some x) (hx : x.succAt ≠ x.node.succ)
    (hr : s.releaseSuccessor x fault = (true, w)) (n : Nat) :
    s.releaseAll g fault (n + 1) = (w.onGrid g fun x => { x with succAt := x.succAt + 1 }).releaseAll g fault n := by
  rw [State.releaseAll, hg]
  dsimp only
  rw [if_neg hx, hr]

/-- The first successor of a grid that has not failed, and its counter. -/
theorem releaseSuccessor_first {u1 u2 w : State} {node pred : Nat} (hx : x.succAt = 0)
    (h1 : s.schedNum x.region x.ctx x.node.slist 8 = (.ok (some node), u1))
    (h2 : u1.schedNum x.region x.ctx (node + 64) 8 = (.ok (some pred), u2)) (hp : pred ≠ 0)
    (hr : u2.drawn.release x pred u2.fresh = (true, w)) : s.releaseSuccessor x false = (true, w) := by
  simp only [State.releaseSuccessor, hx, Nat.mul_zero, Nat.add_zero, h1, Bool.false_eq_true, if_false, h2]
  exact hr

/-- A grid with one successor has released it. -/
theorem releaseAll_one {w : State} {fault : Bool} (hg : s.grid g = some x) (h0 : x.succAt = 0) (hn : x.node.succ = 1)
    (hr : s.releaseSuccessor x fault = (true, w)) (hw : w.grid g = some x) :
    s.releaseAll g fault (x.node.succ + 1) =
      (w.onGrid g fun x => { x with succAt := x.succAt + 1 }).onGrid g fun x => { x with released := true } := by
  have hx := State.grid_onGrid_same (fun x : Grid => { x with succAt := x.succAt + 1 }) hw
  have hlast : x.succAt + 1 = x.node.succ := by rw [h0, hn]
  rw [releaseAll_next hg (by omega) hr, hn]
  exact releaseAll_last hx hlast fault 0

/-- A grid whose tasks have triggered, and that has released its successors, has nothing left to do before Ending. -/
theorem triggered_released {t : State} {y : Grid} (hr : x.released = false) (hst : x.st ≠ .ending) (hp : s.postedLeft g x = false)
    (ht : s.releaseAll g false (x.node.succ + 1) = t) (hy : t.grid g = some y) (hyr : y.released = true) : s.triggered g x = t := by
  rw [State.triggered, if_neg (by simpa [hr] using hst), if_neg (by simp [hp]), ht, if_pos (by simp [hy, hyr])]

end

/-! ## The stages of Ending (R72) -/

/-- A grid in Ending goes on to a stage. -/
def State.toStage (s : State) (g n : Nat) : State := (s.onGrid g fun x => { x with stage := n }).emitOnce (.completionRelease g)

/-- A grid has gone on to a stage of Ending, and its next step is due. -/
def State.AtStage (t : State) (g n : Nat) : Prop := .completionRelease g ∈ t.agenda ∧ ∃ y, t.grid g = some y ∧ y.stage = n

theorem State.toStage_mem (s : State) (g n : Nat) : (s.toStage g n).mem = s.mem := State.emitOnce_mem ..

theorem State.toStage_atStage {s : State} {g : Nat} {x : Grid} (h : s.grid g = some x) (n : Nat) : (s.toStage g n).AtStage g n :=
  ⟨State.mem_emitOnce .., _, (State.grid_of_grids (State.emitOnce_grids ..) g).trans (State.grid_onGrid_same _ h), rfl⟩

section
variable {s : State} {g : Nat} {x : Grid}

/-! ### What the grid has begun has ended (step 1) -/

/-- An acknowledgement that is lost stays lost when more packets leave. -/
theorem ackLost_stays {t : State} {ps : List Packet} (hf : t.toFabric = s.toFabric ++ ps) (hd : t.crossingDown = s.crossingDown) (n : Nat)
    (p : Posted) (h : s.ackLost n p = true) : t.ackLost n p = true := by
  rw [State.ackLost] at h ⊢
  rw [hf, List.find?_append]
  split at h
  · next k hk =>
    rw [hk, Option.some_or]
    dsimp only
    rwa [State.cutOff, hd]
  · exact absurd h (by simp)

/-- What has ended stays ended when packets leave. -/
theorem settled_stays {t : State} {ps : List Packet} (hc : t.cores = s.cores) (hp : t.phase = s.phase)
    (hf : t.toFabric = s.toFabric ++ ps) (hd : t.crossingDown = s.crossingDown) (h : s.settled g x = true) : t.settled g x = true := by
  have opens (n : Nat) (l : List Posted) (ho : l.any (fun p => p.grid = g && !(t.phase == .stopped && t.ackLost n p)) = true) :
      l.any (fun p => p.grid = g && !(s.phase == .stopped && s.ackLost n p)) = true := by
    obtain ⟨p, hm, hpo⟩ := List.any_eq_true.mp ho
    refine List.any_eq_true.mpr ⟨p, hm, ?_⟩
    rw [hp] at hpo
    cases hl : s.ackLost n p with
    | true => rwa [ackLost_stays hf hd n p hl] at hpo
    | false => rw [Bool.and_false, Bool.not_false, Bool.and_true, (Bool.and_eq_true_iff.mp hpo).1]
  rw [State.settled, Bool.and_eq_true, Bool.and_eq_true, Bool.not_eq_true', Bool.not_eq_true', List.any_eq_false, List.any_eq_false] at h ⊢
  obtain ⟨⟨h1, h2⟩, h3⟩ := h
  refine ⟨⟨fun e he ho => h1 e (hc ▸ he) (opens _ _ ho), fun c hcs ho => h2 c hcs (opens _ _ ho)⟩, ?_⟩
  rwa [State.coresOf_of_cores hc]

/-- The cancels of saved contexts leave as packets, and change at most the grid. -/
theorem cancelSaved_cases (s : State) (g : Nat) (x : Grid) :
    s.cancelSaved g x = s ∨ ∃ (t : State) (f : Grid → Grid), s.OnlySends t ∧ s.cancelSaved g x = t.onGrid g f := by
  rw [State.cancelSaved]
  dsimp only
  split
  · exact .inl rfl
  · refine .inr ⟨_, _, ?_, rfl⟩
    split
    · exact s.onlySends_refl
    · exact State.foldl_onlySends _ (fun s p => s.send_onlySends p _) _ s

theorem endingStep_settled (hg : s.grid g = some x) (h0 : x.stage = 0) (hw : x.waitSeq = 0) (hh : ∀ h ∈ s.holds, h.who.kind ≠ 1)
    (hs : s.settled g x = true) : (s.endingStep g x).AtStage g 1 ∧ (s.endingStep g x).mem = s.mem := by
  have hdrop : s.dropWait g x = s := by rw [State.dropWait, if_pos hw]
  have hnone : s.holds.filter (fun h => h.who.kind = 1 && h.who.dev = thisDevice && h.who.grid = g && !h.void) = [] := by
    rw [List.filter_eq_nil_iff]
    intro h hm
    simp [hh h hm]
  have hcancel : s.cancelHolds g = s := by rw [State.cancelHolds, hnone, List.foldl_nil]
  obtain ⟨y, hy, hset, hmem⟩ : ∃ y, (s.cancelSaved g x).grid g = some y ∧ (s.cancelSaved g x).settled g x = true ∧
      (s.cancelSaved g x).mem = s.mem := by
    rcases cancelSaved_cases s g x with heq | ⟨t, f, ⟨_, _, _, _, ps, rfl⟩, heq⟩
    · rw [heq]
      exact ⟨x, hg, hs, rfl⟩
    · rw [heq]
      exact ⟨_, State.grid_onGrid_same _ hg, settled_stays (s := s) (ps := ps) rfl rfl rfl rfl hs, rfl⟩
  have hstep : s.endingStep g x = (s.cancelSaved g x).toStage g 1 := by
    simp only [State.endingStep, h0, hdrop, hcancel, hset, if_true]
    rfl
  rw [hstep]
  exact ⟨State.toStage_atStage hy 1, (State.toStage_mem ..).trans hmem⟩

/-! ### The status record (step 2) -/

theorem endingStep_status {u : State} {ps : List (Spot × Nat)} (h1 : x.stage = 1) (hf : isFabric x.errAddr = false)
    (hp : s.ownFabricParts x.agent .write true (sectors 3 x.errAddr 64) = (.ok (some ps), u))
    (ht : ps.any (fun p => u.typedAt p.1 p.2) = false) (hb : u.beyond x.region ps = false) (hu : u.grid g = some x) :
    (s.endingStep g x).AtStage g 2 ∧ (s.endingStep g x).mem = (u.writeParts x.node.qos .other none .plain ps (s.statusRecord x)).mem := by
  have hstep : s.endingStep g x = ((u.writeParts x.node.qos .other none .plain ps (s.statusRecord x)).onGrid g fun x => { x with
      written := true, stage := 2 }).emitOnce (.completionRelease g) := by
    simp only [State.endingStep, h1, State.writeStatus, farAway_of_near hf, atHome_of_near hf, Bool.false_eq_true, if_false, hp, ht, hb]
  have hx := (State.grid_of_tables (State.writeParts_tables u x.node.qos none .plain ps (s.statusRecord x)) g).trans hu
  rw [hstep]
  exact ⟨⟨State.mem_emitOnce .., _, (State.grid_of_grids (State.emitOnce_grids ..) g).trans (State.grid_onGrid_same _ hx), rfl⟩,
    State.emitOnce_mem ..⟩

/-! ### The counter of the launch (step 3) -/

theorem endingStep_counts {w : State} (h2 : x.stage = 2) (hw : x.waitSeq = 0) (hf : isFabric x.counter = false)
    (hr : s.drawn.release x x.counter s.fresh = (true, w)) (hg : w.grid g = some x) :
    (s.endingStep g x).AtStage g 3 ∧ (s.endingStep g x).mem = w.mem := by
  have hstep : s.endingStep g x = w.toStage g 3 := by
    simp only [State.endingStep, h2, hw, bne_self_eq_false, Bool.false_eq_true, if_false, hr, farAway_of_near hf, Bool.false_and]
    rfl
  rw [hstep]
  exact ⟨State.toStage_atStage hg 3, State.toStage_mem ..⟩

/-! ### The queue (step 3) -/

/-- A queue that stops cancels its pop, which changes no byte and no grid (R71). -/
theorem stopQueue_stops {region i : Nat} {q : Queue} (hq : s.queue region i = some q) :
    (s.stopQueue region i).queue region i = some { q with stopped := true } ∧ (s.stopQueue region i).mem = s.mem ∧
    (s.stopQueue region i).grids = s.grids := by
  rw [State.stopQueue]
  have h := State.queue_onQueue_same (fun q : Queue => { q with stopped := true }) hq
  obtain ⟨_, _, _, _, _, ht⟩ := (s.onQueue region i fun q => { q with stopped := true }).cancelPop_onlySends region i
  rw [ht]
  exact ⟨h, rfl, rfl⟩

/-- The queue that has launched a grid counts it as ended, and stops if it is to stop at a failure (R69, R72). -/
def State.queueEnded (s : State) (x : Grid) : State :=
  if (x.ended.any (·.status != 0) && bit x.flags 2) = true then
    (s.onQueue x.region (x.queue % 16) fun q => { q with running := q.running - 1 }).stopQueue x.region (x.queue % 16)
  else s.onQueue x.region (x.queue % 16) fun q => { q with running := q.running - 1 }

/-- The records of a launch that has ended: `GRID_FAULT` and `CMD_DONE` (R73 Table 7). -/
def State.endRecords (s : State) (x : Grid) : State :=
  let s := if x.ended.any (·.status != 0) = true then s.record (sourceOfService x.region) none 0x2 x.errAddr x.tag else s
  if bit x.flags 1 = true then s.record (sourceOfService x.region) none 0x1 x.cell x.tag else s

theorem queueEnded_queue {q : Queue} (hq : s.queue x.region (x.queue % 16) = some q) :
    (s.queueEnded x).queue x.region (x.queue % 16) = some { q with
      running := q.running - 1, stopped := q.stopped || (x.ended.any (·.status != 0) && bit x.flags 2) } ∧
    (s.queueEnded x).mem = s.mem ∧ (s.queueEnded x).grids = s.grids := by
  have hu := State.queue_onQueue_same (fun q : Queue => { q with running := q.running - 1 }) hq
  rw [State.queueEnded]
  split
  · next hc =>
    rw [hc, Bool.or_true]
    exact stopQueue_stops hu
  · next hc =>
    rw [Bool.eq_false_iff.mpr hc, Bool.or_false]
    exact ⟨hu, rfl, rfl⟩

theorem endRecords_keeps (s : State) (x : Grid) : (s.endRecords x).tables = s.tables ∧ (s.endRecords x).mem = s.mem := by
  obtain ⟨h1, h2⟩ := State.ite_record_keeps (x.ended.any (·.status != 0) = true) s (sourceOfService x.region) none 0x2 x.errAddr x.tag
  obtain ⟨h3, h4⟩ := State.ite_record_keeps (bit x.flags 1 = true) _ (sourceOfService x.region) none 0x1 x.cell x.tag
  exact ⟨h3.trans h1, h4.trans h2⟩

/-- While its queue is attached, the end of a grid is counted and recorded there, and the queue proceeds. -/
theorem queueAdvances_here (h : (s.queue x.region (x.queue % 16)).any (·.num = x.attach) = true) : s.queueAdvances x =
    (((s.queueEnded x).endRecords x).dropDetached x.region (x.queue % 16)).emitOnce (.queueAgentPop x.queue) := by
  simp only [State.queueAdvances, h, if_true, Bool.true_and]
  rfl

theorem endingStep_queue {q : Queue} (hg : s.grid g = some x) (h3 : x.stage = 3) (hw : x.waitSeq = 0)
    (hq : s.queue x.region (x.queue % 16) = some q) (hn : q.num = x.attach) (hd : q.detaching = false) :
    (s.endingStep g x).AtStage g 4 ∧ (s.endingStep g x).mem = s.mem ∧
    (s.endingStep g x).queue x.region (x.queue % 16) = some { q with
      running := q.running - 1, stopped := q.stopped || (x.ended.any (·.status != 0) && bit x.flags 2) } ∧
    .queueAgentPop x.queue ∈ (s.endingStep g x).agenda := by
  obtain ⟨hqe, hm, hgr⟩ := queueEnded_queue (x := x) hq
  obtain ⟨htables, hmem⟩ := endRecords_keeps (s.queueEnded x) x
  have hqr := (State.queue_of_tables htables ..).trans hqe
  have hstep : s.endingStep g x = (((s.queueEnded x).endRecords x).emitOnce (.queueAgentPop x.queue)).toStage g 4 := by
    rw [← State.dropDetached_stays hqr hd, ← queueAdvances_here (by simp [hq, hn])]
    simp only [State.endingStep, h3, hw, bne_self_eq_false, Bool.false_eq_true, if_false]
    rfl
  have hx : (((s.queueEnded x).endRecords x).emitOnce (.queueAgentPop x.queue)).grid g = some x := by
    rw [State.grid_of_grids (State.emitOnce_grids ..), State.grid_of_tables htables, State.grid_of_grids hgr, hg]
  rw [hstep]
  refine ⟨State.toStage_atStage hx 4, ?_, ?_, (State.emitOnce_onlyAsks ..).mem_agenda (State.mem_emitOnce ..)⟩
  · rw [State.toStage_mem, State.emitOnce_mem, hmem, hm]
  · exact (State.queue_emitOnce ..).trans ((State.queue_emitOnce ..).trans hqr)

/-! ### The successors and the cores (Done) -/

theorem endingStep_released (hg : s.grid g = some x) (h4 : x.stage = 4) (hr : x.released = true) :
    (s.endingStep g x).AtStage g 5 ∧ (s.endingStep g x).mem = s.mem := by
  have hstep : s.endingStep g x = s.toStage g 5 := by
    simp only [State.endingStep, h4, hr, if_true]
    rfl
  rw [hstep]
  exact ⟨State.toStage_atStage hg 5, State.toStage_mem ..⟩

/-- A grid that is Done is forgotten, and its cores are clean (R78, R468). -/
theorem endingStep_done {u : State} (h5 : x.stage = 5) (hf : isFabric (x.addr + 1) = false)
    (hw : s.rewriteFlags x.agent (x.addr + 1) false = (.ok (some ()), u)) (hc : u.cores = s.cores) :
    (s.endingStep g x).grid g = none ∧ ∀ n, (s.core n).grid = some g → (s.endingStep g x).core n = {} := by
  obtain ⟨t, ht, htg, htc⟩ : ∃ t : State, s.endingStep g x = t.placeAll ∧ (∀ e ∈ t.grids, e.1 ≠ g) ∧
      t.cores = (((u.coresOf g).map (·.1)).foldl (fun s n => s.cleanCore n {}) u).cores := by
    have hfault : s.writeFault x (x.addr + 1) false = (.ok (some ()), u) := by
      rw [State.writeFault, farAway_of_near hf, atHome_of_near hf]
      exact hw
    simp only [State.endingStep, h5, State.finishGrid, hfault]
    exact ⟨_, rfl, fun e he => by simpa using (List.mem_filter.mp he).2, rfl⟩
  rw [ht]
  refine ⟨?_, fun n hn => ?_⟩
  · rw [State.grid_placeAll, State.grid, Option.map_eq_none_iff, List.find?_eq_none]
    exact fun e he => by simpa using htg e he
  · have hmem : n ∈ (u.coresOf g).map (·.1) := by
      rw [State.coresOf_of_cores hc]
      exact State.mem_coresOf hn
    show look {} t.cores n = {}
    rw [htc]
    exact State.core_cleaned hmem

/-! ## The boundary and the save (R279, R280) -/

/-- Hand-back changes no grid. -/
theorem handBacks_grid (ks : List Nat) (n : Nat) : (ks.foldl State.handBack s).grid n = s.grid n :=
  foldl_keeps (fun t : State => t.grid n) _ _ _ fun _ _ _ => rfl

theorem boundary_settled (hg : s.grid g = some x) (hst : x.st = .stopping) (hu : s.unsettled g = false) :
    s.boundary g = if x.node.save = 0 then ((s.gridSlots g).foldl State.handBack s).saveFailed g
      else (((s.gridSlots g).foldl State.handBack s).onGrid g fun x => { x with st := .saving }).emit (.saveComplete g) := by
  rw [State.boundary, hg]
  dsimp only
  rw [hst, if_neg (by simp), if_neg (by simp [hu])]

theorem finishSave_misaligned (h : x.node.save % 0x10000 ≠ 0) : s.finishSave g x = s.saveFailed g := by
  rw [State.finishSave, if_pos (by simpa using h)]

/-- What a save writes before its grid is Saved. -/
def State.savedAreas (s : State) (areas : List (Nat × List Packed)) (places : List (List (Spot × Nat))) : State :=
  (List.range areas.length).foldl (fun s i => s.writePacked (places.getD i []) (areas.getD i (0, [])).2) s.drawn

theorem State.savedAreas_keeps (s : State) (areas : List (Nat × List Packed)) (places : List (List (Spot × Nat))) :
    (s.savedAreas areas places).grids = s.grids ∧ (s.savedAreas areas places).coreGrids = s.coreGrids :=
  ⟨foldl_keeps State.grids _ _ s.drawn fun t _ _ => (t.writePacked_keeps _ _).1,
    foldl_keeps State.coreGrids _ _ s.drawn fun t _ _ => (t.writePacked_keeps _ _).2⟩

theorem finishSave_saved {u : State} {places : List (List (Spot × Nat))} (h : x.node.save % 0x10000 = 0) (he : x.ended = none)
    (hp : s.findAreas x.agent .write (s.saveAreas g x 1) = (.ok (some places), u))
    (ht : ∀ l ∈ places, ∀ p ∈ l, u.typedAt p.1 p.2 = false) :
    s.finishSave g x = (u.savedAreas (s.saveAreas g x 1) places).becomeSaved g x := by
  have hty : (places.any fun l => l.any fun p => u.typedAt p.1 p.2) = false := by
    simp only [List.any_eq_false]
    exact fun l hl ho => by
      obtain ⟨p, hm, hpt⟩ := List.any_eq_true.mp ho
      exact absurd hpt (by simp [ht l hl p hm])
  simp only [State.finishSave, h, he, hp, hty, bne_self_eq_false, Option.isSome_none, Bool.false_eq_true, if_false]
  rfl

end

/-! ## The obligation -/

/-- Settles O56: the release of successors by what is left of them; Ending by its stage; a boundary and a save by whether the save area
can be written. -/
theorem gridsEndAndSave : Obligations.GridsEndAndSave := by
  unfold Obligations.GridsEndAndSave
  intro s g x hg moves counts
  refine ⟨fun hi hr hst hp h0 => ⟨fun hn => ?_, ?_⟩, fun hi hst => ?_, fun hi hst hu => ⟨fun hsave => ?_, fun hsave he ht => ?_⟩,
    fun hi hst => ⟨fun hsave he ht => ?_, fun places u hsave he ht hp hty hgrids hcores => ?_⟩⟩
  case refine_1 =>
    have hall := releaseAll_last hg (h0.trans hn.symm) false x.node.succ
    have hy := State.grid_onGrid_same (fun x : Grid => { x with released := true }) hg
    exact ⟨_, _, (exec_triggerRelease hi hg).trans (congrArg _ (triggered_released hr hst hp hall hy rfl)), hy, rfl, rfl⟩
  case refine_2 =>
    intro node pred u1 u2 hn h1 h2 hpred hf pa u hc hpoison hcut who ask st v e w hdesk hw
    have hsucc := releaseSuccessor_first h0 h1 h2 hpred (release_near hf hc hpoison hcut hdesk)
    have hall := releaseAll_one hg h0 hn hsucc hw
    have hy := State.grid_onGrid_same (fun x : Grid => { x with released := true })
      (State.grid_onGrid_same (fun x : Grid => { x with succAt := x.succAt + 1 }) hw)
    exact ⟨_, _, (exec_triggerRelease hi hg).trans (congrArg _ (triggered_released hr hst hp hall hy rfl)), hy, rfl, rfl⟩
  case refine_3 =>
    have hx := exec_completionRelease hi hg hst
    refine ⟨fun h0 hw hh hs => ⟨_, hx, endingStep_settled hg h0 hw hh hs⟩,
      fun ps u h1 hf hp ht hb hu => ⟨_, hx, endingStep_status h1 hf hp ht hb hu⟩, ?_, fun q h3 hw hq hn hd => ?_,
      fun h4 hr => ⟨_, hx, endingStep_released hg h4 hr⟩, fun u h5 hf hw hc => ⟨_, hx, endingStep_done h5 hf hw hc⟩⟩
    · intro h2 hw hf pa u hc hpoison hcut who ask st v e w hdesk hwg
      exact ⟨_, hx, endingStep_counts h2 hw hf (release_near hf hc hpoison hcut hdesk) hwg⟩
    · intro failed
      obtain ⟨hat, hm, htq, ha⟩ := endingStep_queue hg h3 hw hq hn hd
      refine ⟨_, _, hx, hat, hm, htq, rfl, ?_, ha⟩
      have hfail : x.ended.any (·.status != 0) = true ↔ failed := by simp [failed, Option.any_eq_true]
      rw [← hfail, Bool.or_eq_true, Bool.and_eq_true]
  case refine_4 =>
    have hx := boundary_settled hg hst hu
    rw [if_neg hsave] at hx
    exact ⟨_, _, (exec_preemptBoundary hi).trans (congrArg _ hx),
      (State.grid_emit ..).trans (State.grid_onGrid_same _ ((handBacks_grid ..).trans hg)), rfl, State.mem_agenda_emit ..⟩
  case refine_5 =>
    have hx := boundary_settled hg hst hu
    rw [if_pos hsave] at hx
    obtain ⟨ha, y, e, hy, hyst, hye, h1, h2⟩ := State.saveFailed_ends ((handBacks_grid (s.gridSlots g) g).trans hg) he ht
    exact ⟨_, y, e, (exec_preemptBoundary hi).trans (congrArg _ hx), hy, hyst, hye, h1, h2, ha⟩
  case refine_6 =>
    obtain ⟨-, y, e, hy, hyst, hye, -, hcause⟩ := State.saveFailed_ends hg he ht
    exact ⟨_, y, e, (exec_saveComplete hi hg hst).trans (congrArg _ (finishSave_misaligned hsave)), hy, hyst, hye, hcause⟩
  case refine_7 =>
    obtain ⟨hkg, hkc⟩ := u.savedAreas_keeps (s.saveAreas g x 1) places
    have hcg : (u.savedAreas (s.saveAreas g x 1) places).coreGrids = s.coreGrids := by rw [hkc, State.coreGrids, hcores, State.coreGrids]
    obtain ⟨⟨y, hy, h1, h2, h3, hlen⟩, hfree, hm⟩ :=
      State.becomeSaved_saves ((State.grid_of_grids (hkg.trans hgrids) g).trans hg) ht
    refine ⟨_, y, (exec_saveComplete hi hg hst).trans (congrArg _ (finishSave_saved hsave he hp hty)), hy, h1, h2, h3, ?_,
      fun n hn => hfree n ?_, hm⟩
    · rw [hlen, State.length_coresOf, hcg, State.length_coresOf]
    · rw [State.core_grid, hcg, ← State.core_grid, hn]

end Sys2Proof.Machine
end

section
/-! SUPPORT. The task that a selector takes, and the inbox entry that it frees (R84, R229, R235). -/

namespace Sys2Proof.Machine

open Sys2Proof

/-! ## The choice (R84) -/

/-- The oldest of some tasks is one of them, and none of them is older. -/
theorem oldest_least (ts : List Task) :
    (oldest ts = none → ts = []) ∧ ∀ t, oldest ts = some t → t ∈ ts ∧ ∀ x ∈ ts, t.age ≤ x.age := by
  induction ts using List.reverseRecOn with
  | nil => exact ⟨fun _ => rfl, fun _ h => absurd h (by simp [oldest])⟩
  | append_singleton l a ih =>
    have hstep : oldest (l ++ [a]) = match oldest l with
        | none => some a
        | some x => if a.age < x.age then some a else oldest l := by
      rw [oldest, List.foldl_append]
      rfl
    obtain ⟨hnone, hsome⟩ := ih
    cases ho : oldest l with
    | none =>
      rw [hstep, ho, hnone ho]
      simp
    | some y =>
      obtain ⟨hy, hle⟩ := hsome y ho
      rw [hstep, ho]
      dsimp only
      split
      · next hlt =>
        refine ⟨by simp, fun t ht => ?_⟩
        injection ht with ht
        subst ht
        refine ⟨by simp, fun x hx => ?_⟩
        rcases List.mem_append.mp hx with hx | hx
        · exact hlt.le.trans (hle x hx)
        · rw [List.mem_singleton.mp hx]
      · next hge =>
        refine ⟨by simp, fun t ht => ?_⟩
        injection ht with ht
        subst ht
        refine ⟨List.mem_append_left _ hy, fun x hx => ?_⟩
        rcases List.mem_append.mp hx with hx | hx
        · exact hle x hx
        · rw [List.mem_singleton.mp hx]
          exact Nat.le_of_not_lt hge

/-- The highest priority of some tasks. -/
def topPriority (ts : List Task) : Nat := ts.foldl (fun m t => max m t.prio) 0

theorem topPriority_append (l : List Task) (a : Task) : topPriority (l ++ [a]) = max (topPriority l) a.prio := by
  rw [topPriority, List.foldl_append]
  rfl

theorem le_topPriority {ts : List Task} {x : Task} (h : x ∈ ts) : x.prio ≤ topPriority ts := by
  induction ts using List.reverseRecOn with
  | nil => exact absurd h List.not_mem_nil
  | append_singleton l a ih =>
    rw [topPriority_append]
    rcases List.mem_append.mp h with h | h
    · exact (ih h).trans (le_max_left ..)
    · rw [List.mem_singleton.mp h]
      exact le_max_right ..

/-- Above any number that it exceeds, the highest priority is some task's. -/
theorem exists_above {ts : List Task} {p : Nat} (h : p < topPriority ts) : ∃ x ∈ ts, p < x.prio := by
  induction ts using List.reverseRecOn with
  | nil => exact absurd h (Nat.not_lt_zero p)
  | append_singleton l a ih =>
    rw [topPriority_append, lt_max_iff] at h
    rcases h with h | h
    · obtain ⟨x, hx, hp⟩ := ih h
      exact ⟨x, List.mem_append_left _ hx, hp⟩
    · exact ⟨a, by simp, h⟩

/-- A task that the selector takes by priority and age. -/
def Core.Foremost (c : Core) (t : Task) : Prop :=
  t ∈ c.candidates ∧ t.prio = topPriority c.candidates ∧ ∀ x ∈ c.candidates, x.prio = t.prio → t.age ≤ x.age

theorem Core.foremost_of_oldest {c : Core} {t : Task}
    (h : oldest (c.candidates.filter fun t => t.prio = topPriority c.candidates) = some t) : c.Foremost t := by
  obtain ⟨hm, hle⟩ := (oldest_least _).2 t h
  obtain ⟨hc, hp⟩ := List.mem_filter.mp hm
  have hp : t.prio = topPriority c.candidates := of_decide_eq_true hp
  exact ⟨hc, hp, fun x hx hxp => hle x (List.mem_filter.mpr ⟨hx, decide_eq_true (hxp.trans hp)⟩)⟩

/-- The choice of a selector: the foremost task, or every sixteenth time one of a lower priority where there is one. -/
theorem Core.choose_cases {c : Core} {t : Task} (h : c.choose = some t) :
    (c.Foremost t ∧ (c.selCount = 15 → ∀ x ∈ c.candidates, topPriority c.candidates ≤ x.prio)) ∨
    (c.selCount = 15 ∧ t ∈ c.candidates ∧ t.prio < topPriority c.candidates) := by
  rw [Core.choose] at h
  split at h
  · next h15 =>
    split at h
    · next y hy =>
      injection h with h
      subst h
      obtain ⟨hc, hp⟩ := List.mem_filter.mp ((oldest_least _).2 y hy).1
      exact .inr ⟨h15, hc, of_decide_eq_true hp⟩
    · next hn =>
      refine .inl ⟨foremost_of_oldest h, fun _ x hx => Nat.le_of_not_lt fun hlt => ?_⟩
      have hempty := (oldest_least _).1 hn
      rw [List.filter_eq_nil_iff] at hempty
      exact hempty x hx (decide_eq_true hlt)
  · next h15 => exact .inl ⟨foremost_of_oldest h, fun h => absurd h h15⟩

theorem Core.mem_candidates {c : Core} {t : Task} (h : t ∈ c.candidates) : t ∈ c.runq ++ c.deque.getLast?.toList ∧ t.age ≠ 0 ∧
    (t.kind = 7 ∨ t.kind = 8 ∨ t.cls = 0 ∨ c.hmask.getLsbD t.cls = false) := by
  obtain ⟨hm, hc⟩ := List.mem_filter.mp h
  refine ⟨hm, ?_⟩
  simp only [Core.mayChoose, Bool.and_eq_true, bne_iff_ne, Bool.or_eq_true, decide_eq_true_eq, Bool.not_eq_true'] at hc
  tauto

/-- The rule of R84: the highest priority, the oldest among equals, and every sixteenth time a lower priority where there is one. -/
theorem Core.choose_rule {c : Core} {t : Task} (h : c.choose = some t) : t ∈ c.candidates ∧
    (c.selCount ≠ 15 → ∀ x ∈ c.candidates, x.prio ≤ t.prio ∧ (x.prio = t.prio → t.age ≤ x.age)) ∧
    (c.selCount = 15 → (∃ x ∈ c.candidates, x.prio ≠ t.prio) → ∃ x ∈ c.candidates, t.prio < x.prio) := by
  rcases Core.choose_cases h with ⟨⟨hc, hp, hage⟩, hlow⟩ | ⟨h15, hc, hlt⟩
  · refine ⟨hc, fun _ x hx => ⟨hp ▸ le_topPriority hx, hage x hx⟩, fun h15 ⟨x, hx, hne⟩ => ?_⟩
    exact absurd ((le_topPriority hx).antisymm (hlow h15 x hx)) (hp ▸ hne)
  · exact ⟨hc, fun hn => absurd h15 hn, fun _ _ => exists_above hlt⟩

/-! ## An inbox entry that is freed (R235) -/

/-- The work of a core that waits: its run queue and deque, and the count of its selections. -/
def Core.work (c : Core) : List Task × List Task × Nat := (c.runq, c.deque, c.selCount)

/-- From `s` to `t` inboxes, routers and the agenda have changed: slots, memory and the work of each core stay. -/
structure State.OnlyAdmits (s t : State) : Prop where
  slots : t.slots = s.slots
  mem : t.mem = s.mem
  work : ∀ n, (t.core n).work = (s.core n).work

theorem State.onlyAdmits_refl (s : State) : s.OnlyAdmits s := ⟨rfl, rfl, fun _ => rfl⟩

theorem State.OnlyAdmits.trans {s t u : State} (h : s.OnlyAdmits t) (h' : t.OnlyAdmits u) : s.OnlyAdmits u :=
  ⟨h'.slots.trans h.slots, h'.mem.trans h.mem, fun n => (h'.work n).trans (h.work n)⟩

theorem State.OnlyAsks.onlyAdmits {s t : State} : s.OnlyAsks t → s.OnlyAdmits t := by
  rintro ⟨es, rfl⟩
  exact ⟨rfl, rfl, fun _ => rfl⟩

theorem State.onCore_onlyAdmits (s : State) (n : Nat) (f : Core → Core) (h : ∀ c, (f c).work = c.work) : s.OnlyAdmits (s.onCore n f) := by
  refine ⟨rfl, rfl, fun m => ?_⟩
  rw [State.core_onCore]
  split
  · next hn => exact (h _).trans (by rw [hn])
  · rfl

theorem State.emit_onlyAsks (s : State) (e : Event) : s.OnlyAsks (s.emit e) := ⟨[e], rfl⟩

theorem State.askAnnex_onlyAsks (s : State) (n : Nat) : s.OnlyAsks (s.askAnnex n) := by
  rw [State.askAnnex]
  split
  · exact s.emit_onlyAsks _
  · exact s.onlyAsks_refl

theorem State.onInbox_onlyAdmits (s : State) (n : Nat) (f : List Task → List Task) :
    s.OnlyAdmits ((s.onCore n fun c => { c with inbox := f c.inbox })) := s.onCore_onlyAdmits n _ fun _ => rfl

theorem State.enterInbox_onlyAdmits (s : State) (n : Nat) (m : Task) : s.OnlyAdmits (s.enterInbox n m) := by
  have hdrawn : s.OnlyAdmits s.drawn := ⟨rfl, rfl, fun _ => rfl⟩
  exact hdrawn.trans ((s.drawn.onInbox_onlyAdmits n (· ++ [_])).trans
    ((State.emit_onlyAsks ..).trans (State.askAnnex_onlyAsks ..)).onlyAdmits)

theorem State.joinInbox_onlyAdmits (s : State) (n : Nat) (m : Task) : s.OnlyAdmits (s.joinInbox n m) :=
  (s.onInbox_onlyAdmits n (joined m)).trans ((State.emit_onlyAsks ..).trans (State.askAnnex_onlyAsks ..)).onlyAdmits

theorem State.admitWaiting_onlyAdmits (s : State) (n k : Nat) : s.OnlyAdmits (s.admitWaiting n k) := by
  induction k generalizing s with
  | zero => exact s.onlyAdmits_refl
  | succ k ih =>
    rw [State.admitWaiting]
    split
    · exact s.onlyAdmits_refl
    · next m rest _ =>
      have hleft := State.onCore_onlyAdmits s n (fun c => { c with router := rest }) fun _ => rfl
      split
      · dsimp only
        split
        · exact hleft.trans ((State.joinInbox_onlyAdmits ..).trans (ih _))
        · exact hleft.trans ((State.enterInbox_onlyAdmits ..).trans (ih _))
      · exact s.onlyAdmits_refl

theorem State.leaveInbox_onlyAdmits (s : State) (n : Nat) (id : Option Nat) : s.OnlyAdmits (s.leaveInbox n id) := by
  rw [State.leaveInbox]
  split
  · exact s.onlyAdmits_refl
  · exact (s.onInbox_onlyAdmits n (·.filter fun m => m.inbox != id)).trans
      ((State.admitWaiting_onlyAdmits ..).trans (State.askAnnex_onlyAsks ..).onlyAdmits)

theorem State.entryFreed_onlyAsks (s : State) (n : Nat) : s.OnlyAsks (s.entryFreed n) := by
  rw [State.entryFreed]
  split
  · exact s.onlyAsks_refl
  · exact s.emit_onlyAsks _
  · exact s.emit_onlyAsks _
  · exact ⟨_, rfl⟩

/-! ## A slot that is filled (R84) -/

theorem State.slot_of_slots {s t : State} (h : t.slots = s.slots) (k : Nat) : t.slot k = s.slot k := by
  rw [State.slot, h]
  rfl

theorem exec_taskSelect {s : State} {c : Nat} (hi : s.input = .taskSelect c) (hc : c < 16384) :
    exec .taskSelect s = .next (s.select c) := by
  show execTaskSelect s = _
  rw [execTaskSelect, hi]
  simp only [Nat.not_le.mpr hc, if_false]

/-- A task of the run queue taken for a slot. -/
def State.fillSlot (s : State) (c k : Nat) (t : Task) : State :=
  (s.onCore c fun x => { x with runq := x.runq.erase t, selCount := (x.selCount + 1) % 16, stealWait := false }).onSlot k
    fun sl => { sl with st := .starting, task := some t }

theorem State.select_fills {s : State} {c k : Nat} {t : Task} (hs : s.selects c = true) (hk : s.freeSlot c = some k)
    (ht : (s.core c).choose = some t) (hm : t ∈ (s.core c).runq) :
    s.select c = ((((s.fillSlot c k t).leaveInbox c t.inbox).emit (.taskStart k)).entryFreed c).emit (.taskSelect c) := by
  have hc : (s.core c).runq.contains t = true := by simpa using hm
  simp only [State.select, hs, hk, ht, hc, Bool.not_true, Bool.false_eq_true, if_false]
  rfl

theorem taskSelect_fills {s : State} {c k : Nat} {t : Task} (hi : s.input = .taskSelect c) (hc : c < 16384) (hs : s.selects c = true)
    (hk : s.freeSlot c = some k) (ht : (s.core c).choose = some t) (hm : t ∈ (s.core c).runq) :
    ∃ u, exec .taskSelect s = .next u ∧ (u.slot k).st = .starting ∧ (u.slot k).task = some t ∧
      (u.core c).runq = (s.core c).runq.erase t ∧ (u.core c).deque = (s.core c).deque ∧
      (u.core c).selCount = ((s.core c).selCount + 1) % 16 ∧ .taskStart k ∈ u.agenda ∧ u.mem = s.mem := by
  have hleft := State.leaveInbox_onlyAdmits (s.fillSlot c k t) c t.inbox
  generalize hv : (s.fillSlot c k t).leaveInbox c t.inbox = v at hleft
  have hasks : (v.emit (.taskStart k)).OnlyAsks (((v.emit (.taskStart k)).entryFreed c).emit (.taskSelect c)) :=
    (State.entryFreed_onlyAsks ..).trans (State.emit_onlyAsks ..)
  obtain ⟨hslots, hmem, hwork⟩ := hleft.trans ((v.emit_onlyAsks _).trans hasks).onlyAdmits
  simp only [Core.work, Prod.mk.injEq] at hwork
  obtain ⟨hrunq, hdeque, hcount⟩ := hwork c
  refine ⟨_, (exec_taskSelect hi hc).trans (congrArg _ (hv ▸ State.select_fills hs hk ht hm)), ?_, ?_, ?_, ?_, ?_,
    hasks.mem_agenda (v.mem_agenda_emit _), hmem⟩
  · rw [State.slot_of_slots hslots]
    simp [State.fillSlot]
  · rw [State.slot_of_slots hslots]
    simp [State.fillSlot]
  · rw [hrunq]
    simp [State.fillSlot]
  · rw [hdeque]
    simp [State.fillSlot]
  · rw [hcount]
    simp [State.fillSlot]

end Sys2Proof.Machine
end

section
/-! Tasks that start (R84, R223, R230, R236, R242). -/

namespace Sys2Proof.Machine

open Sys2Proof

/-! ## The registers of a task (R230 Table 6) -/

theorem look_map_range (d : Reg) (a n : Nat) (f : Nat → Reg) (r : Nat) :
    look d ((List.range n).map fun i => (a + i, f i)) r = if a ≤ r ∧ r < a + n then f (r - a) else d := by
  have hfrom (b : Nat) : look d ((List.range' b n).map fun i => (a + i, f i)) r = if a + b ≤ r ∧ r < a + b + n then f (r - a) else d := by
    induction n generalizing b with
    | zero => rw [if_neg (by omega)]; rfl
    | succ n ih =>
      rw [List.range'_succ, List.map_cons, look, ih]
      by_cases h : a + b = r
      · rw [if_pos h, if_pos (by omega), ← h, Nat.add_sub_cancel_left]
      · rw [if_neg h]
        exact if_congr (by omega) rfl rfl
  simpa [List.range_eq_range'] using hfrom 0

theorem look_argRegs (args : List Reg) (r : Nat) :
    look {} (argRegs args) r = if 16 ≤ r ∧ r < 16 + args.length then args.getD (r - 16) {} else {} :=
  look_map_range ..

/-- Above the registers of Table 6 that have a meaning of their own a task starts with its arguments. -/
theorem State.look_startRegs_arg (s : State) (n h : Nat) (t : Task) {i : Nat} (hi : i < t.args.length) :
    look {} (s.startRegs n h t) (16 + i) = t.args.getD i {} := by
  have hne (a : Nat) (ha : a < 16) : a ≠ 16 + i := by omega
  have hargs : look {} (s.startRegs n h t) (16 + i) = look {} (argRegs t.args) (16 + i) := by
    simp only [State.startRegs, List.cons_append, List.nil_append, look, hne _ (by decide : 2 < 16), hne _ (by decide : 3 < 16),
      hne _ (by decide : 13 < 16), hne _ (by decide : 14 < 16), hne _ (by decide : 15 < 16), if_false]
  rw [hargs, look_argRegs, if_pos (by omega), Nat.add_sub_cancel_left]

theorem State.look_startRegs_link (s : State) (n h : Nat) (t : Task) : look {} (s.startRegs n h t) 1 = {} :=
  (look_argRegs t.args 1).trans (if_neg (by omega))

theorem Task.sstat0_fields (t : Task) : bits t.sstat0.toNat 2 0 = t.prio % 8 ∧ bits t.sstat0.toNat 5 3 = t.qos % 8 ∧
    bits t.sstat0.toNat 8 6 = 0 := by
  rw [Task.sstat0, bits_ofNat _ (by decide), bits_ofNat _ (by decide), bits_ofNat _ (by decide)]
  simp only [bits]
  generalize (if t.kind = 0 || t.kind = 7 || t.kind = 8 then 0 else t.cls % 16) = c
  omega

section
variable {s : State} {k : Nat} {t : Task}

theorem exec_taskStart (hi : s.input = .taskStart k) : exec .taskStart s = .next (s.startTask k) := by
  show execTaskStart s = _
  rw [execTaskStart, hi]

theorem exec_annexStart {c : Nat} (hi : s.input = .annexStart c) : exec .annexStart s = .next (s.startAnnex c) := by
  show execAnnexStart s = _
  rw [execAnnexStart, hi]

/-- In `u` the slot `k` is `x`, and the other slots and memory are as in `s`. -/
def State.SlotBecomes (s : State) (k : Nat) (x : Slot) (u : State) : Prop :=
  u.slot k = x ∧ (∀ j, j ≠ k → u.slot j = s.slot j) ∧ u.mem = s.mem

/-- A slot is set once the errors and the parked accesses of its last strand are gone. -/
theorem slotBecomes_set (flips : List Flip) (parked : List Parked) (x : Slot) :
    s.SlotBecomes k x (({ s with flips := flips, parked := parked } : State).setSlot k x) :=
  ⟨look_put_same .., fun _ hj => look_put_ne _ _ _ (Ne.symm hj), rfl⟩

/-- The slot of a task that starts on a core (Table 6). -/
def State.startedSlot (s : State) (k : Nat) (t : Task) : Slot := { (s.slot k).fresh with
  st := .running, regs := s.startRegs (coreOf k) (k % 4) t, pc := lo64 t.entry.data, sstat := t.sstat0 }

/-- The slot of a strand that has migrated, with its portable context (R242). -/
def State.resumedSlot (s : State) (k : Nat) (t : Task) : Slot := { (s.slot k).fresh with
  st := .running, regs := (List.range 16).map fun i => (i, t.args.getD i {}), pc := t.pc
  sstat := BitVec.ofNat 32 (setBits t.sstat.toNat 15 13 0), vcfg := 0 }

/-- The slot of an annex thread that starts (R236). -/
def State.annexSlot (s : State) (c : Nat) : Slot := { (s.slot (slotKey c 3)).fresh with
  st := .running, regs := [], pc := lo64 (s.entryOf c 16).data
  sstat := BitVec.ofNat 32 (8 * s.gridQos ((s.core c).grid.getD 0xFFFF)), task := none }

theorem startTask_starts (hst : (s.slot k).st = .starting) (ht : (s.slot k).task = some t) (hb : isBankSlot k = false) (h7 : t.kind ≠ 7) :
    s.SlotBecomes k (s.startedSlot k t) (s.startTask k) := by
  simp only [State.startTask, hst, ht, hb, h7, Bool.false_eq_true, if_false]
  exact slotBecomes_set ..

theorem startTask_resumes (hst : (s.slot k).st = .starting) (ht : (s.slot k).task = some t) (hb : isBankSlot k = false) (h7 : t.kind = 7) :
    s.SlotBecomes k (s.resumedSlot k t) (s.startTask k) := by
  simp only [State.startTask, hst, ht, hb, h7, Bool.false_eq_true, if_false, if_true]
  exact slotBecomes_set ..

theorem startAnnex_starts {c : Nat} (hd : s.annexDue c = true) (hs : s.selects c = true) :
    s.SlotBecomes (slotKey c 3) (s.annexSlot c) (s.startAnnex c) := by
  rw [State.startAnnex, hd, hs]
  exact slotBecomes_set ..

/-! ## What the registers of a slot that starts read as -/

theorem startedSlot_fields (s : State) (k : Nat) (t : Task) : (s.startedSlot k t).bprio = t.prio % 8 ∧
    (s.startedSlot k t).qos = t.qos % 8 ∧ (s.startedSlot k t).rmode = 0 := t.sstat0_fields

theorem startedSlot_link (s : State) (k : Nat) (t : Task) : (s.startedSlot k t).reg 1 = {} := by
  rw [Slot.reg, if_neg (by decide)]
  exact s.look_startRegs_link (coreOf k) (k % 4) t

theorem startedSlot_arg (s : State) (k : Nat) (t : Task) {i : Nat} (hi : i < t.args.length) :
    (s.startedSlot k t).reg (16 + i) = t.args.getD i {} := by
  rw [Slot.reg, if_neg (by omega)]
  exact s.look_startRegs_arg _ _ _ hi

theorem startedSlot_sender (s : State) (k : Nat) {t : Task} (hk : t.kind = 2 ∨ t.kind = 3) :
    (s.startedSlot k t).reg 13 = t.sender.reg := by
  have hsender : t.hasSender = true := by rcases hk with hk | hk <;> simp [Task.hasSender, hk]
  exact if_pos hsender

theorem resumedSlot_reg (s : State) (k : Nat) (t : Task) {i : Nat} (h0 : 0 < i) (hi : i < 16) :
    (s.resumedSlot k t).reg i = t.args.getD i {} := by
  have hlook := look_map_range {} 0 16 (fun i => t.args.getD i {}) i
  simp only [Nat.zero_add, Nat.sub_zero] at hlook
  rw [Slot.reg, if_neg (by omega)]
  exact hlook.trans (if_pos (by omega))

end

/-! ## The obligation -/

/-- Settles O33: the choice by what `oldest` and the highest priority are; a slot that is filled by the change of the core, with
what the freed entries ask for; a start by the slot that it writes. -/
theorem tasksStart : Obligations.TasksStart := by
  unfold Obligations.TasksStart
  intro s c k
  refine ⟨fun t ht => ?_, fun t hi hc hs hk ht hm => taskSelect_fills hi hc hs hk ht hm, fun t hi hst ht h7 hb hl => ?_,
    fun t hi hst ht h7 hb => ?_, fun hi hd hs => ?_⟩
  · obtain ⟨hc, hnormal, haged⟩ := Core.choose_rule ht
    obtain ⟨hm, hage, hclass⟩ := Core.mem_candidates hc
    exact ⟨hm, hage, hclass, hnormal, haged⟩
  · obtain ⟨hslot, hothers, hmem⟩ := startTask_starts hst ht hb h7
    obtain ⟨hprio, hqos, hrmode⟩ := startedSlot_fields s k t
    refine ⟨_, exec_taskStart hi, ?_⟩
    rw [hslot]
    exact ⟨rfl, rfl, hprio, hqos, hrmode, startedSlot_link .., rfl, rfl, fun i hi => startedSlot_arg s k t hi,
      fun hk => startedSlot_sender s k hk, rfl, rfl, rfl, hothers, hmem⟩
  · refine ⟨_, exec_taskStart hi, ?_⟩
    rw [(startTask_resumes hst ht hb h7).1]
    exact ⟨rfl, rfl, fun i h0 hi => resumedSlot_reg s k t h0 hi⟩
  · obtain ⟨hslot, -, hmem⟩ := startAnnex_starts hd hs
    refine ⟨_, exec_annexStart hi, ?_⟩
    rw [hslot]
    exact ⟨rfl, rfl, fun r => ite_self _, hmem⟩

end Sys2Proof.Machine
end

section
/-! SUPPORT. What the Desks send and write when holds come, go and change (R86, R110, R114, R123, R130, R133-R135). -/

namespace Sys2Proof.Machine

open Sys2Proof

/-! ## Messages of a Desk -/

/-- From `s` to `t` messages have left, and nothing that was on its way is lost. -/
structure State.Announces (s t : State) : Prop where
  sends : s.OnlySends t
  coming : ∀ e ∈ s.coming, e ∈ t.coming

theorem State.announces_refl (s : State) : s.Announces s := ⟨s.onlySends_refl, fun _ h => h⟩

theorem State.Announces.trans {s t u : State} (h : s.Announces t) (h' : t.Announces u) : s.Announces u :=
  ⟨h.sends.trans h'.sends, fun e he => h'.coming e (h.coming e he)⟩

theorem State.Announces.keeps {s t : State} (h : s.Announces t) : t.mem = s.mem ∧ t.holds = s.holds ∧ t.slots = s.slots ∧
    t.grids = s.grids ∧ t.censuses = s.censuses := by
  obtain ⟨_, _, _, _, _, rfl⟩ := h.sends
  exact ⟨rfl, rfl, rfl, rfl, rfl⟩

theorem State.coming_carry (s : State) (h : Header) (e : Event) {x : Event} (hx : x ∈ s.coming) : x ∈ (s.carry h e).coming := by
  simp only [State.coming, State.carry, List.flatMap_append, List.mem_append] at hx ⊢
  tauto

theorem State.carry_announces (s : State) (h : Header) (e : Event) : s.Announces (s.carry h e) :=
  ⟨s.carry_onlySends h e, fun _ hx => s.coming_carry h e hx⟩

theorem State.send_announces (s : State) (p : Packet) (c : Nat) : s.Announces (s.send p c) := by
  refine ⟨s.send_onlySends p c, fun e he => ?_⟩
  have hagenda : (s.send p c).agenda = s.agenda := by rw [s.send_eta]
  rwa [State.coming, hagenda, s.send_net]

theorem State.foldl_announces {α : Type} (f : State → α → State) (h : ∀ (s : State) (a : α), s.Announces (f s a)) (l : List α) (s : State) :
    s.Announces (l.foldl f s) :=
  List.foldlRecOn (motive := fun t => s.Announces t) l f s.announces_refl fun t ht a _ => ht.trans (h t a)

theorem State.sendAnswer_announces (s : State) (wake : Bool) (a : Answer) : s.Announces (s.sendAnswer wake a) := by
  rw [State.sendAnswer]
  split
  · exact s.carry_announces ..
  · exact s.send_announces ..

/-- An answer to a requester of this device is on its way. -/
theorem State.sendAnswer_coming (s : State) {a : Answer} (h : a.who.dev = thisDevice) : .wake a ∈ (s.sendAnswer true a).coming := by
  rw [State.sendAnswer]
  simp only [h, if_true]
  exact s.carry_coming ..

theorem State.sendBoost_announces (s : State) (pa : Nat) (up : Bool) (w : Waiter) (level qos : Nat) :
    s.Announces (s.sendBoost pa up w level qos) := by
  rw [State.sendBoost]
  split
  · exact s.carry_announces ..
  · exact s.send_announces ..

theorem State.tellPriority_announces (s : State) (src : NetAgent) (w : Waiter) (ctx : Nat) (sl : Slot) (before : Nat) :
    s.Announces (s.tellPriority src w ctx sl before) := by
  rw [State.tellPriority]
  split
  · split
    · exact s.announces_refl
    · split
      · exact s.carry_announces ..
      · split
        · split
          · exact s.announces_refl
          · exact s.send_announces ..
        · exact s.announces_refl
  · exact s.announces_refl

/-! ## A cell that is settled (R86, R110) -/

theorem State.updateBoosts_announces (s : State) (pa : Nat) : ∃ t boosts, s.Announces t ∧ s.updateBoosts pa = { t with boosts := boosts } := by
  rw [State.updateBoosts]
  dsimp only
  split
  · exact ⟨s, s.boosts, s.announces_refl, rfl⟩
  · exact ⟨_, _, (State.foldl_announces _ (fun s _ => s.sendBoost_announces ..) _ s).trans
      (State.foldl_announces _ (fun s _ => s.sendBoost_announces ..) _ _), rfl⟩

/-- A cell is settled by writing its image, where it has one, and sending its boosts. -/
theorem State.settleCell_announces (s : State) (pa : Nat) : ∃ u t boosts, (u = s ∨ ∃ v, u = s.store pa (bytesOf 32 v)) ∧
    u.Announces t ∧ s.settleCell pa = { t with boosts := boosts } := by
  rw [State.settleCell]
  dsimp only
  split
  · obtain ⟨t, boosts, ht⟩ := s.updateBoosts_announces pa
    exact ⟨_, t, boosts, .inl rfl, ht⟩
  · obtain ⟨t, boosts, ht⟩ := State.updateBoosts_announces _ pa
    exact ⟨_, t, boosts, .inr ⟨_, rfl⟩, ht⟩

/-- From `s` to `t` Desks have acted: the grids and the censuses stay, and nothing that was on its way is lost. -/
structure State.DeskActs (s t : State) : Prop where
  grids : t.grids = s.grids
  censuses : t.censuses = s.censuses
  coming : ∀ e ∈ s.coming, e ∈ t.coming

theorem State.deskActs_refl (s : State) : s.DeskActs s := ⟨rfl, rfl, fun _ h => h⟩

theorem State.DeskActs.trans {s t u : State} (h : s.DeskActs t) (h' : t.DeskActs u) : s.DeskActs u :=
  ⟨h'.grids.trans h.grids, h'.censuses.trans h.censuses, fun e he => h'.coming e (h.coming e he)⟩

theorem State.Announces.deskActs {s t : State} (h : s.Announces t) : s.DeskActs t := by
  obtain ⟨-, -, -, hgrids, hcensuses⟩ := h.keeps
  exact ⟨hgrids, hcensuses, h.coming⟩

theorem State.foldl_deskActs {α : Type} (f : State → α → State) (h : ∀ (s : State) (a : α), s.DeskActs (f s a)) (l : List α) (s : State) :
    s.DeskActs (l.foldl f s) :=
  List.foldlRecOn (motive := fun t => s.DeskActs t) l f s.deskActs_refl fun t ht a _ => ht.trans (h t a)

theorem State.settleCell_deskActs (s : State) (pa : Nat) : s.DeskActs (s.settleCell pa) := by
  obtain ⟨u, t, boosts, hu, ht, heq⟩ := s.settleCell_announces pa
  have hsu : s.DeskActs u := by
    rcases hu with rfl | ⟨v, rfl⟩
    · exact u.deskActs_refl
    · exact ⟨rfl, rfl, fun _ h => h⟩
  rw [heq]
  obtain ⟨hgrids, hcensuses, hcoming⟩ := hsu.trans ht.deskActs
  exact ⟨hgrids, hcensuses, hcoming⟩

theorem State.settleCell_holds (s : State) (pa : Nat) : (s.settleCell pa).holds = s.holds := by
  obtain ⟨u, t, boosts, hu, ht, heq⟩ := s.settleCell_announces pa
  have hsu : u.holds = s.holds := by rcases hu with rfl | ⟨v, rfl⟩ <;> rfl
  rw [heq]
  exact ht.keeps.2.1.trans hsu

/-- Settling a cell writes nothing beyond its 32 bytes. -/
theorem State.settleCell_byte (s : State) {pa q : Nat} (h : q < pa ∨ pa + 32 ≤ q) : (s.settleCell pa).byte q = s.byte q := by
  obtain ⟨u, t, boosts, hu, ht, heq⟩ := s.settleCell_announces pa
  have hsu : u.byte q = s.byte q := by
    rcases hu with rfl | ⟨v, rfl⟩
    · rfl
    · rw [State.byte_store, bytesOf_length, if_neg (by omega)]
  have htu : t.byte q = u.byte q := by rw [State.byte, ht.keeps.1]; rfl
  rw [heq]
  exact htu.trans hsu

/-! ## A hold that is dropped (R130) -/

/-- What the return of a Desk's entries from the store does with one entry. -/
def State.refillStep (s : State) (desk : Nat) (acc : Nat × Bool × List Hold) (h : Hold) : Nat × Bool × List Hold :=
  if h.stored && s.homeCluster h.pa = desk && !acc.2.1 then
    if acc.1 + h.entries ≤ 256 then (acc.1 + h.entries, false, acc.2.2 ++ [{ h with stored := false }])
    else (acc.1, true, acc.2.2 ++ [h])
  else (acc.1, acc.2.1, acc.2.2 ++ [h])

/-- The entries once those of a Desk have returned. -/
def State.refilled (s : State) (desk : Nat) : List Hold := (s.holds.foldl (s.refillStep desk) (s.listUsed desk, false, [])).2.2

/-- The cells of which entries have returned. -/
def State.refilledCells (s : State) (desk : Nat) : List Nat :=
  ((s.holds.filter fun h => h.stored && !(s.refilled desk).contains h).map (·.pa / 32 * 32)).eraseDups

theorem State.refill_cases (s : State) (desk : Nat) : s.refill desk = s ∨
    s.refill desk = (s.refilledCells desk).foldl State.settleCell { s with holds := s.refilled desk } := by
  rw [State.refill]
  split
  · exact .inr rfl
  · exact .inl rfl

/-- An entry that still lies in the store lay there before. -/
theorem State.mem_refilled {s : State} {desk : Nat} {h : Hold} (hm : h ∈ s.refilled desk) (hs : h.stored = true) : h ∈ s.holds := by
  have hstep : ∀ h ∈ (s.holds.foldl (s.refillStep desk) (s.listUsed desk, false, [])).2.2, h.stored = true → h ∈ s.holds := by
    refine List.foldlRecOn (motive := fun acc : Nat × Bool × List Hold => ∀ h ∈ acc.2.2, h.stored = true → h ∈ s.holds) _ _ (by simp)
      fun acc hacc x hx => ?_
    intro h hm hs
    have hnew : h ∈ acc.2.2 ∨ h = { x with stored := false } ∨ h = x := by
      rw [State.refillStep] at hm
      split_ifs at hm <;> simp only [List.mem_append, List.mem_singleton] at hm <;> tauto
    rcases hnew with hm | rfl | rfl
    · exact hacc h hm hs
    · exact absurd hs (by simp)
    · exact hx
  exact hstep h hm hs

theorem State.refill_deskActs (s : State) (desk : Nat) : s.DeskActs (s.refill desk) := by
  rcases s.refill_cases desk with h | h <;> rw [h]
  · exact s.deskActs_refl
  · have hholds : s.DeskActs { s with holds := s.refilled desk } := ⟨rfl, rfl, fun _ h => h⟩
    exact hholds.trans (State.foldl_deskActs _ State.settleCell_deskActs _ _)

theorem State.dropHold_deskActs (s : State) (h : Hold) : s.DeskActs (s.dropHold h) := by
  have hholds : s.DeskActs { s with holds := s.holds.eraseP fun x => { x with stored := h.stored } = h } := ⟨rfl, rfl, fun _ h => h⟩
  exact hholds.trans (State.refill_deskActs ..)

theorem State.fill_deskActs (s : State) (h : Hold) (st val : Nat) (elem : List Byte) : s.DeskActs (s.fill h st val elem) := by
  rw [State.fill]
  refine (s.dropHold_deskActs h).trans ?_
  split
  · exact (State.sendAnswer_announces ..).deskActs
  · refine State.DeskActs.trans ?_ (State.sendAnswer_announces ..).deskActs
    split
    · exact State.dropHold_deskActs ..
    · exact State.deskActs_refl _

/-! ## Bytes that the holds leave alone -/

/-- No cell with an entry in the hold store meets `n` bytes from `a`. -/
def State.ClearOf (s : State) (a n : Nat) : Prop :=
  ∀ h ∈ s.holds, h.stored = true → h.pa / 32 * 32 + 32 ≤ a ∨ a + n ≤ h.pa / 32 * 32

/-- From `s` to `t` the `n` bytes from `a` stay, and no cell has come into the hold store. -/
structure State.Spares (s : State) (a n : Nat) (t : State) : Prop where
  byte : ∀ q, a ≤ q → q < a + n → t.byte q = s.byte q
  stored : ∀ h ∈ t.holds, h.stored = true → h ∈ s.holds

section
variable {s t u : State} {a n : Nat}

theorem State.spares_refl (s : State) (a n : Nat) : s.Spares a n s := ⟨fun _ _ _ => rfl, fun _ h _ => h⟩

theorem State.Spares.trans (h : s.Spares a n t) (h' : t.Spares a n u) : s.Spares a n u :=
  ⟨fun q h1 h2 => (h'.byte q h1 h2).trans (h.byte q h1 h2), fun x hx hs => h.stored x (h'.stored x hx hs) hs⟩

theorem State.ClearOf.spared (hc : s.ClearOf a n) (h : s.Spares a n t) : t.ClearOf a n :=
  fun x hx hs => hc x (h.stored x hx hs) hs

/-- A run of changes spares what each of them spares while it is clear. -/
theorem State.foldl_spares {α : Type} (f : State → α → State) (l : List α) (hc : s.ClearOf a n)
    (h : ∀ t : State, t.ClearOf a n → ∀ x ∈ l, t.Spares a n (f t x)) : s.Spares a n (l.foldl f s) :=
  List.foldlRecOn (motive := fun t => s.Spares a n t) l f (s.spares_refl a n) fun t ht x hx => ht.trans (h t (hc.spared ht) x hx)

theorem State.Announces.spares (h : s.Announces t) : s.Spares a n t := by
  obtain ⟨hmem, hholds, -⟩ := h.keeps
  exact ⟨fun q _ _ => by rw [State.byte, hmem]; rfl, fun x hx _ => hholds ▸ hx⟩

theorem State.settleCell_spares {pa : Nat} (h : pa + 32 ≤ a ∨ a + n ≤ pa) : s.Spares a n (s.settleCell pa) :=
  ⟨fun q _ _ => s.settleCell_byte (by omega), fun x hx _ => s.settleCell_holds pa ▸ hx⟩

theorem State.refill_spares (hc : s.ClearOf a n) (desk : Nat) : s.Spares a n (s.refill desk) := by
  rcases s.refill_cases desk with h | h <;> rw [h]
  · exact s.spares_refl a n
  · have hholds : s.Spares a n { s with holds := s.refilled desk } := ⟨fun _ _ _ => rfl, fun _ => State.mem_refilled⟩
    refine hholds.trans (State.foldl_spares _ _ (hc.spared hholds) fun t _ m hm => State.settleCell_spares ?_)
    obtain ⟨h, hh, rfl⟩ := List.mem_map.mp (List.mem_eraseDups.mp hm)
    obtain ⟨hh, hs⟩ := List.mem_filter.mp hh
    exact hc h hh (Bool.and_eq_true_iff.mp hs).1

theorem State.dropHold_spares (hc : s.ClearOf a n) (h : Hold) : s.Spares a n (s.dropHold h) := by
  have hholds : s.Spares a n { s with holds := s.holds.eraseP fun x => { x with stored := h.stored } = h } :=
    ⟨fun _ _ _ => rfl, fun x hx _ => List.mem_of_mem_eraseP hx⟩
  exact hholds.trans (State.refill_spares (hc.spared hholds) _)

theorem State.fill_spares (hc : s.ClearOf a n) (h : Hold) (st val : Nat) (elem : List Byte) : s.Spares a n (s.fill h st val elem) := by
  have hdrop := State.dropHold_spares hc h
  rw [State.fill]
  refine hdrop.trans ?_
  split
  · exact (State.sendAnswer_announces ..).spares
  · refine State.Spares.trans ?_ (State.sendAnswer_announces ..).spares
    split
    · exact State.dropHold_spares (hc.spared hdrop) _
    · exact State.spares_refl ..

end

end Sys2Proof.Machine
end

section
/-! Boosts, priorities, cancels and censuses (R85, R106, R123, R134, R135). -/

namespace Sys2Proof.Machine

open Sys2Proof

/-! ## The rows -/

section
variable {s : State} {w : Waiter} {cell id : Nat}

theorem exec_boost {level : Nat} (hi : s.input = .boost w level) : exec .boost s = .next (s.boosted true w level) := by
  show execBoost s = _
  rw [execBoost, hi]

theorem exec_expire {level : Nat} (hi : s.input = .expire w level) : exec .expire s = .next (s.boosted false w level) := by
  show execExpire s = _
  rw [execExpire, hi]

theorem exec_prioset {prio : Nat} (hi : s.input = .prioset cell w prio) : exec .prioset s = .next (s.setPriority cell w prio) := by
  show execPrioset s = _
  rw [execPrioset, hi]

theorem exec_cancel {seq : Nat} (hi : s.input = .cancel cell w seq) : exec .cancel s = .next (s.cancelHold cell w seq) := by
  show execCancel s = _
  rw [execCancel, hi]

theorem exec_censusreq {core : Nat} (hi : s.input = .censusreq id core) : exec .censusreq s = .next (s.censusRequest id core) := by
  show execCensusreq s = _
  rw [execCensusreq, hi]

theorem exec_census {router count : Nat} {sums : List Nat} (hi : s.input = .census id router count sums) :
    exec .census s = .next (s.censusAt id router count sums) := by
  show execCensus s = _
  rw [execCensus, hi]

theorem exec_censusEntryTimeout {router : Nat} (hi : s.input = .censusEntryTimeout id router) :
    exec .censusEntryTimeout s = .next (s.censusTimeout id router) := by
  show execCensusEntryTimeout s = _
  rw [execCensusEntryTimeout, hi]

end

/-! ## Boosts (R85) -/

theorem boostCount_getD (up : Bool) (level : Nat) (b : List Nat) {i : Nat} (hi : i < 8) : (boostCount up level b).getD i 0 =
    if i = level ∧ b.getD i 0 ≠ 65535 then (if up = true then b.getD i 0 + 1 else b.getD i 0 - 1) else b.getD i 0 := by
  rw [boostCount, List.getD_eq_getElem _ _ (by simpa using hi), List.getElem_map, List.getElem_range]
  by_cases hl : i = level
  · by_cases hv : b.getD i 0 = 65535 <;> simp [hl]
  · simp [hl]

/-- A boost or an expiry of a strand on its slot changes the counts of that slot. -/
theorem boosted_slot {s : State} {w : Waiter} {k : Nat} (up : Bool) (level : Nat) (h2 : w.kind ≠ 2) (h3 : w.kind ≠ 3)
    (hs : s.isSaved w = false) (hk : s.slotOf w = some k) :
    (s.onSlot k fun sl => { sl with boosts := boostCount up level sl.boosts }).Announces (s.boosted up w level) := by
  simp only [State.boosted, h2, h3, hs, hk, Bool.false_eq_true, if_false]
  exact State.tellPriority_announces ..

theorem boosted_counts {s : State} {w : Waiter} {k : Nat} (up : Bool) (level : Nat) (h2 : w.kind ≠ 2) (h3 : w.kind ≠ 3)
    (hs : s.isSaved w = false) (hk : s.slotOf w = some k) :
    (s.boosted up w level).mem = s.mem ∧ (s.boosted up w level).holds = s.holds ∧
    (∀ j, j ≠ k → (s.boosted up w level).slot j = s.slot j) ∧
    ∀ i < 8, ((s.boosted up w level).slot k).boosts.getD i 0 =
      if i = level ∧ (s.slot k).boosts.getD i 0 ≠ 65535 then
        (if up = true then (s.slot k).boosts.getD i 0 + 1 else (s.slot k).boosts.getD i 0 - 1)
      else (s.slot k).boosts.getD i 0 := by
  obtain ⟨hmem, hholds, hslots, -⟩ := (boosted_slot up level h2 h3 hs hk).keeps
  refine ⟨hmem, hholds, fun j hj => ?_, fun i hi => ?_⟩
  · rw [State.slot_of_slots hslots, State.slot_onSlot_ne _ _ (Ne.symm hj)]
  · rw [State.slot_of_slots hslots, State.slot_onSlot_same]
    exact boostCount_getD up level _ hi

/-! ## Priorities (R134) -/

theorem setPriority_holds {s : State} {cell : Nat} {w : Waiter} (prio : Nat)
    (h : ∃ h ∈ s.holds, h.pa = cell ∧ h.who = w ∧ h.void = false) : (s.setPriority cell w prio).holds =
      s.holds.map fun h => if h.pa = cell ∧ h.who = w then { h with prio := prio % 8 } else h := by
  obtain ⟨u, hu, heq⟩ : ∃ u, s.Announces u ∧ s.setPriority cell w prio =
      if (u.holds.any fun h => h.pa = cell && h.who = w && !h.void) = true then
        ({ u with holds := u.holds.map fun h => if (h.pa = cell && h.who = w) = true then { h with prio := prio % 8 } else h } :
          State).settleCell cell
      else u := by
    refine ⟨_, ?_, rfl⟩
    split
    · exact s.carry_announces ..
    · exact s.announces_refl
  have hholds := hu.keeps.2.1
  have hany : (u.holds.any fun h => h.pa = cell && h.who = w && !h.void) = true := by
    obtain ⟨h, hm, hpa, hw, hv⟩ := h
    exact List.any_eq_true.mpr ⟨h, hholds ▸ hm, by simp [hpa, hw, hv]⟩
  rw [heq, if_pos hany, State.settleCell_holds]
  simp only [hholds, Bool.and_eq_true, decide_eq_true_eq]

/-! ## Cancels (R135) -/

theorem waiterGone_of_grids {s t : State} (h : t.grids = s.grids) (w : Waiter) : t.waiterGone w = s.waiterGone w := by
  rw [State.waiterGone, State.grid_of_grids h]
  rfl

/-- A hold voided by a cancel: a lock entry stays, any other leaves. -/
def State.voided (s : State) (h : Hold) : State :=
  if h.op = .lacq then { s with holds := s.holds.map fun x => if x = h then { x with void := true } else x } else s.dropHold h

theorem State.voided_deskActs (s : State) (h : Hold) : s.DeskActs (s.voided h) := by
  rw [State.voided]
  split
  · exact ⟨rfl, rfl, fun _ h => h⟩
  · exact s.dropHold_deskActs h

section
variable {s : State} {w : Waiter} {cell seq : Nat}

theorem cancelHold_none (h : ∀ h ∈ s.holdsOn cell, h.who = w → h.seq ≠ seq) : s.cancelHold cell w seq = s := by
  have hf : ((s.holdsOn cell).find? fun h => h.who = w && h.seq = seq) = none :=
    List.find?_eq_none.mpr fun x hx => by simpa using h x hx
  rw [State.cancelHold, hf]

/-- The answer to a waiter whose hold has been cancelled. -/
def Hold.cancelled (h : Hold) (cell : Nat) (w : Waiter) (seq : Nat) : Answer :=
  { who := w, seq := seq, st := 7, op := h.op, val := if h.op = .bsync then h.key else 0, pa := cell, qos := h.qos, ctx := h.ctx }

variable {h : Hold} (hf : ((s.holdsOn cell).find? fun h => h.who = w && h.seq = seq) = some h) (hc : h.cond = none)
include hf hc

theorem cancelHold_some : s.cancelHold cell w seq = State.settleCell (if (s.voided h).waiterGone w = true then s.voided h
    else (s.voided h).sendAnswer true (h.cancelled cell w seq)) cell := by
  simp only [State.cancelHold, hf, hc]
  rfl

theorem cancelHold_voids (hop : h.op = .lacq) : (s.cancelHold cell w seq).holds =
    s.holds.map fun x => if x = h then { x with void := true } else x := by
  have hholds : (s.voided h).holds = s.holds.map fun x => if x = h then { x with void := true } else x := by
    rw [State.voided, if_pos hop]
  rw [cancelHold_some hf hc, State.settleCell_holds, ← hholds]
  split
  · rfl
  · exact (State.sendAnswer_announces ..).keeps.2.1

theorem cancelHold_wakes (hg : s.waiterGone w = false) (hd : w.dev = thisDevice) :
    .wake (h.cancelled cell w seq) ∈ (s.cancelHold cell w seq).coming := by
  rw [cancelHold_some hf hc, waiterGone_of_grids (s.voided_deskActs h).grids, hg]
  exact (State.settleCell_deskActs ..).coming _ (State.sendAnswer_coming _ hd)

end

/-! ## The answer of a participant (R106) -/

section
variable {s : State} {c : Census} {id router count : Nat} {sums : List Nat}

/-- In `u` a census message is on its way, and the rest is as in `t`. -/
def State.Passes (t : State) (e : Event) (u : State) : Prop :=
  e ∈ u.coming ∧ u.agenda = t.agenda ∧ u.mem = t.mem ∧ u.censuses = t.censuses ∧ u.combining = t.combining

theorem State.passCensus_passes (t : State) (src : NetAgent) (id router desk count : Nat) (sums : List Nat) :
    t.Passes (.census id router count sums) (t.passCensus src id router desk count sums) := ⟨t.carry_coming .., rfl, rfl, rfl, rfl⟩

/-- A core of a grid that is placed answers with its own counters. -/
theorem censusCounters_placed {g core : Nat} (mask : Nat) (hc : core < 16384) (hg : ∀ x, s.grid g = some x → x.rects ≠ []) :
    s.censusCounters g core mask = (List.range 16).map fun i => if bit mask i = true then look 0 (s.core core).ev i else 0 := by
  have hsaved : ((s.grid g).bind fun x => x.saved.find? fun c => x.rects = [] &&
      (if core < 16384 then c.place = core
       else c.core.gx = (core - 16384) % 65536 && c.core.gy = (core - 16384) / 65536)) = none := by
    cases hx : s.grid g with
    | none => rfl
    | some x => simp [hg x hx]
  rw [State.censusCounters, hsaved]
  simp only [hc, if_true]

variable (hf : (s.censuses.find? fun c => c.id = id) = some c)
include hf

theorem censusRequest_passes {core : Nat} (hc : core < 16384) (hg : ∀ g, s.grid (s.censusGrid c) = some g → g.rects ≠ []) :
    s.Passes (.census id (clusterOf core) 1 ((List.range 16).map fun i => if bit c.cmask i = true then look 0 (s.core core).ev i else 0))
      (s.censusRequest id core) := by
  have hr : s.censusRouter (s.censusGrid c) core = clusterOf core := if_pos hc
  simp only [State.censusRequest, hf, hr, censusCounters_placed c.cmask hc hg]
  exact s.passCensus_passes ..

/-! ## A message on its way to the Desk (R106) -/

section
variable {e : Combine} (he : (s.combining.find? fun e => e.id = id && e.router = router) = some e)
include he

/-- What the routers on the way add to an entry, and when its subtree has answered. -/
theorem censusAt_combines (hr : router ≠ s.homeCluster c.pa) : s.censusAt id router count sums =
    if ((s.censusCores c).filter fun n => routeMeets (s.censusRouter (s.censusGrid c) n) (s.homeCluster c.pa) router).length ≤
        e.count + count then
      ({ s with combining := s.combining.erase e } : State).passCensus (combiner router) id (nextRouter router (s.homeCluster c.pa))
        (s.homeCluster c.pa) (e.count + count) (addCounters e.sums sums)
    else { s with combining := s.combining.map fun x =>
      if x = e then { e with count := e.count + count, sums := addCounters e.sums sums } else x } := by
  simp only [State.censusAt, hf, hr, if_false, he]

theorem censusTimeout_passes : ({ s with combining := s.combining.erase e } : State).Passes
    (.census id (nextRouter router (s.homeCluster c.pa)) e.count e.sums) (s.censusTimeout id router) := by
  simp only [State.censusTimeout, hf, he]
  exact State.passCensus_passes ..

end

end

/-! ## The Desk (R123) -/

/-- The record of a census (R123 Table 8). -/
def State.censusRecord (s : State) (c : Census) : List Byte :=
  (c.sums.flatMap fun v => bytesOf 4 v) ++ bytesOf 4 c.count ++ bytesOf 2 c.phase ++ bytesOf 2 c.cmask ++
    bytesOf 8 s.time ++ List.replicate 16 0

/-- The three lines of a census' record, fresh in the slice. -/
def State.recordTouched (s : State) (pa : Nat) : State :=
  (List.range 3).foldl (fun s i => (s.touch (pa + 32 + 32 * i) true).invalidate (pa + 32 + 32 * i) none) s

theorem State.recordTouched_keeps (s : State) (pa : Nat) : (s.recordTouched pa).mem = s.mem ∧ (s.recordTouched pa).holds = s.holds ∧
    (s.recordTouched pa).censuses = s.censuses := by
  have h : ((s.recordTouched pa).mem, (s.recordTouched pa).holds, (s.recordTouched pa).censuses) = (s.mem, s.holds, s.censuses) :=
    foldl_keeps (fun t : State => (t.mem, t.holds, t.censuses)) _ _ s fun t i _ => by rw [State.invalidate_eta, State.touch_eta]
  simpa only [Prod.mk.injEq] using h

/-- The census once its record has been written. -/
def State.recorded (s : State) (c : Census) : State :=
  let t := (s.storeData (c.pa + 32) (s.censusRecord c)).recordTouched c.pa
  { t with censuses := t.censuses.filter fun x => x.id != c.id }

/-- The record writes its own bytes alone, and the census leaves. -/
theorem State.recorded_keeps (s : State) (c : Census) : (s.recorded c).mem = (s.store (c.pa + 32) (s.censusRecord c)).mem ∧
    (s.recorded c).holds = s.holds ∧ (s.recorded c).censuses = s.censuses.filter fun x => x.id != c.id := by
  obtain ⟨hmem, hholds, hcensuses⟩ := (s.storeData (c.pa + 32) (s.censusRecord c)).recordTouched_keeps c.pa
  refine ⟨hmem.trans ?_, hholds.trans ?_, ?_⟩
  · rw [State.storeData, State.onGranules_eta]
  · rw [State.storeData_eta]
  · rw [State.recorded, hcensuses, State.storeData_eta]

theorem closeCensus_eq (s : State) (c : Census) : s.closeCensus c =
    ((((s.recorded c).holdsOn c.pa).filter fun h => h.key = c.phase).foldl
      (fun s h => s.fill h 0 (if h.op = .bsync then c.phase else 0)) (s.recorded c)).settleCell c.pa := rfl

/-- A census that has been closed is no longer open. -/
theorem closeCensus_censuses (s : State) (c : Census) : (s.closeCensus c).censuses = s.censuses.filter fun x => x.id != c.id := by
  rw [closeCensus_eq, (State.settleCell_deskActs ..).censuses, (State.foldl_deskActs _ (fun s h => s.fill_deskActs ..) ..).censuses]
  exact (s.recorded_keeps c).2.2

theorem State.bytes_append (s : State) (a m n : Nat) : s.bytes a (m + n) = s.bytes a m ++ s.bytes (a + m) n := by
  induction m generalizing a with
  | zero => rw [Nat.zero_add]; rfl
  | succ m ih => rw [Nat.succ_add, State.bytes, State.bytes, ih, Nat.add_right_comm, List.cons_append]; rfl

theorem State.Spares.bytes {s t : State} {a n : Nat} (h : s.Spares a n t) : t.bytes a n = s.bytes a n := by
  refine List.ext_getElem (by simp only [State.bytes_length]) fun i h1 h2 => ?_
  have hi : i < n := s.bytes_length a n ▸ h2
  have hs := s.bytes_getD a n hi
  have ht := t.bytes_getD a n hi
  rw [h.byte _ (by omega) (by omega), ← hs] at ht
  simpa [List.getD_eq_getElem?_getD, h1, h2] using ht

/-- A closed census leaves its record behind it. -/
theorem closeCensus_bytes {s : State} {c : Census} (hc : s.ClearOf (c.pa + 32) 96) (hl : (s.censusRecord c).length = 96) :
    (s.closeCensus c).bytes (c.pa + 32) 96 = s.censusRecord c := by
  obtain ⟨hmem, hholds, -⟩ := s.recorded_keeps c
  have hclear : (s.recorded c).ClearOf (c.pa + 32) 96 := fun x hx hs => hc x (hholds ▸ hx) hs
  have hfills := State.foldl_spares (fun s h => s.fill h 0 (if h.op = .bsync then c.phase else 0))
    (((s.recorded c).holdsOn c.pa).filter fun h => h.key = c.phase) hclear fun t ht h _ => State.fill_spares ht h 0 _ []
  rw [closeCensus_eq, (hfills.trans (State.settleCell_spares (.inl le_rfl))).bytes, State.bytes_of_mem hmem, ← hl]
  exact State.bytes_store ..

theorem sums_length (sums : List Nat) : (sums.flatMap (bytesOf 4)).length = 4 * sums.length := by
  induction sums with
  | nil => rfl
  | cons v sums ih => rw [List.flatMap_cons, List.length_append, bytesOf_length, ih, List.length_cons]; omega

/-- Sixteen counters and their number stand first in the record. -/
theorem closeCensus_record {s : State} {c : Census} (hc : s.ClearOf (c.pa + 32) 96) (hs : c.sums.length = 16) :
    (s.closeCensus c).bytes (c.pa + 32) 64 = c.sums.flatMap (bytesOf 4) ∧ (s.closeCensus c).num (c.pa + 96) 4 = c.count % 2 ^ 32 := by
  have hsums : (c.sums.flatMap (bytesOf 4)).length = 64 := by rw [sums_length, hs]
  have hl : (s.censusRecord c).length = 96 := by
    simp only [State.censusRecord, List.length_append, bytesOf_length, List.length_replicate, hsums]
  have hbytes := closeCensus_bytes hc hl
  rw [show 96 = 64 + (4 + 28) from rfl, State.bytes_append, State.bytes_append, State.censusRecord] at hbytes
  simp only [List.append_assoc] at hbytes
  obtain ⟨hfirst, hrest⟩ := List.append_inj hbytes (by rw [State.bytes_length]; exact hsums.symm)
  obtain ⟨hcount, -⟩ := List.append_inj hrest (by rw [State.bytes_length, bytesOf_length])
  refine ⟨hfirst, ?_⟩
  rw [State.num, hcount, ofBytes_bytesOf]
  norm_num

section
variable {s : State} {c : Census} {id router count : Nat} {sums : List Nat}

/-- A census to which an answer has been added. -/
def Census.added (c : Census) (count : Nat) (sums : List Nat) : Census :=
  { c with count := c.count + count, sums := addCounters c.sums sums }

/-- The state once an answer has been added to a census. -/
def State.counted (s : State) (id : Nat) (c : Census) : State :=
  { s with censuses := s.censuses.map fun x => if x.id = id then c else x }

/-- An answer at the Desk is added, and the last one closes the census. -/
theorem censusAt_desk (hf : (s.censuses.find? fun c => c.id = id) = some c) : s.censusAt id (s.homeCluster c.pa) count sums =
    if c.total ≤ c.count + count then (s.counted id (c.added count sums)).closeCensus (c.added count sums)
    else s.counted id (c.added count sums) := by
  simp only [State.censusAt, hf, if_true]
  rfl

theorem censusAt_closes (hf : (s.censuses.find? fun c => c.id = id) = some c)
    (hc : ∀ h ∈ s.holds, h.stored = true → h.pa / 32 * 32 ≤ c.pa ∨ c.pa + 128 ≤ h.pa / 32 * 32) (ht : c.total ≤ c.count + count) :
    (∀ x ∈ (s.censusAt id (s.homeCluster c.pa) count sums).censuses, x.id ≠ id) ∧
    (s.censusAt id (s.homeCluster c.pa) count sums).bytes (c.pa + 32) 64 = (addCounters c.sums sums).flatMap (bytesOf 4) ∧
    (s.censusAt id (s.homeCluster c.pa) count sums).num (c.pa + 96) 4 = (c.count + count) % 2 ^ 32 := by
  have hid : c.id = id := by simpa using List.find?_some hf
  have hclear : (s.counted id (c.added count sums)).ClearOf (c.pa + 32) 96 := fun h hm hs => by
    have := hc h hm hs
    omega
  rw [censusAt_desk hf, if_pos ht]
  refine ⟨fun x hx => ?_, closeCensus_record hclear (by simp [Census.added, addCounters])⟩
  rw [closeCensus_censuses] at hx
  simpa [Census.added, hid] using (List.mem_filter.mp hx).2

end

/-- Settles O28: a boost counts on its slot, a priority and a cancel act on their hold, and a census is answered, summed on its
way and closed at its Desk. -/
theorem holdsAndCensuses : Obligations.HoldsAndCensuses := by
  refine ⟨fun s w level => ⟨fun k h2 h3 hsaved hk _ p hp hi => ?_, fun cell prio hi hh => ⟨_, exec_prioset hi, setPriority_holds prio hh⟩,
    fun cell seq h hi hf hc => ⟨_, exec_cancel hi, cancelHold_voids hf hc, cancelHold_wakes hf hc⟩,
    fun cell seq hi hh => by rw [exec_cancel hi, cancelHold_none hh]⟩, fun s c id router count sums hf => ?_⟩
  · rcases List.mem_cons.mp hp with rfl | hp
    · exact ⟨_, exec_boost hi, boosted_counts true level h2 h3 hsaved hk⟩
    · obtain rfl := List.mem_singleton.mp hp
      exact ⟨_, exec_expire hi, boosted_counts false level h2 h3 hsaved hk⟩
  · refine ⟨fun core hi hcore hg => ⟨_, exec_censusreq hi, censusRequest_passes hf hcore hg⟩, fun hi => ⟨?_, ?_⟩,
      fun e hi he => ⟨_, exec_censusEntryTimeout hi, censusTimeout_passes hf he⟩⟩
    · rintro rfl
      by_cases ht : c.total ≤ c.count + count
      · rw [if_pos ht]
        exact fun hc => ⟨_, exec_census hi, censusAt_closes hf hc ht⟩
      · rw [if_neg ht, exec_census hi, censusAt_desk hf, if_neg ht]
        rfl
    · intro hr e he
      dsimp only
      split_ifs with hall
      · exact ⟨_, exec_census hi, by rw [censusAt_combines hf he hr, if_pos hall]; exact State.passCensus_passes ..⟩
      · rw [exec_census hi, censusAt_combines hf he hr, if_neg hall]
        rfl

end Sys2Proof.Machine
end

section
/-! SUPPORT. Grids that are entered, ended unrun and taken up by their launch schedulers (R75-R77, R81, R82). -/

namespace Sys2Proof.Machine

open Sys2Proof

/-! ## The table of grids -/

theorem find?_put {α : Type} (m : List (Nat × α)) (i : Nat) (x : α) : (put m i x).find? (fun e => e.1 = i) = some (i, x) := by
  induction m with
  | nil => simp [put]
  | cons e m ih =>
    obtain ⟨k, v⟩ := e
    rw [put]
    split
    · simp
    · split
      · simp
      · next hk _ => simpa [hk] using ih

/-- A number that is not in use is free. -/
theorem freeId_not_mem {used : List Nat} {n i k : Nat} (h : freeId used n i = some k) : k ∉ used := by
  induction n generalizing i with
  | zero => exact absurd h (by simp [freeId])
  | succ n ih =>
    rw [freeId] at h
    split at h
    · exact ih h
    · next hu =>
      injection h with h
      exact fun hm => hu (by simpa [h] using hm)

/-- While fewer than 65535 grids are live, the next one has a number of its own (R111). -/
theorem newGridNumber_free {s : State} (h : s.grids.length < 65535) : s.grid s.newGridNumber = none := by
  obtain ⟨j, -, hj, hfree⟩ := exists_not_mem_of_length_lt (used := s.grids.map (·.1)) 0 (by rwa [List.length_map])
  have hnot : s.newGridNumber ∉ s.grids.map (·.1) := by
    rw [State.newGridNumber]
    cases hf : freeId (s.grids.map (·.1)) (65535 - s.nextGrid) s.nextGrid with
    | some k => exact freeId_not_mem hf
    | none =>
      have hlt : j < s.nextGrid := by
        by_contra hge
        obtain ⟨k, hk⟩ := freeId_some (n := 65535 - s.nextGrid) (Nat.le_of_not_lt hge) (by omega) hfree
        rw [hk] at hf
        exact absurd hf (by simp)
      obtain ⟨k, hk⟩ := freeId_some (n := s.nextGrid) (Nat.zero_le j) (by omega) hfree
      rw [hk]
      exact freeId_not_mem hk
  cases hg : s.grid s.newGridNumber with
  | none => rfl
  | some x => exact absurd (State.grid_key hg) hnot

/-! ## A launch that ends without having run -/

/-- A launch before its tasks run goes to Ending, with a cause unless its status is 0. -/
theorem State.endUnrun_ends {s : State} {g : Nat} {x : Grid} (status : Nat) (c : Cause) (addr : Nat) (h : s.grid g = some x)
    (hu : x.st.unrun = true) : ∃ y, (s.endUnrun g status c addr).grid g = some y ∧ y.st = .ending ∧
      y.ended = if x.ended.isSome || status = 0 then x.ended else some { status := status, cause := c.code, taddr := addr } := by
  rw [State.endUnrun, h]
  simp only [Option.any_some, hu, Bool.not_true, Bool.false_eq_true, if_false]
  exact ⟨_, (State.grid_emit ..).trans (State.grid_onGrid_same _ h), rfl, rfl⟩

/-! ## A grid that is entered (R75-R77) -/

/-- The grid of a launch as it is handed to its scheduler. -/
def State.handed (s : State) (n : Nat) (cmd : List Byte) (q : Queue) (node : Node) : Grid :=
  { num := s.newGridNumber, node := node, addr := field cmd 8 8, counter := field cmd 16 8, errAddr := field cmd 24 8,
    ctx := field cmd 32 2, tag := cmdTag cmd, flags := cmdFlags cmd, queue := n, region := n / 16, gw := node.gw,
    attach := q.num, cell := q.cell }

/-- The state once the grid has been entered. -/
def State.entered (s : State) (n : Nat) (cmd : List Byte) (q : Queue) (node : Node) : State :=
  { s.begins n cmd with
    grids := put (s.begins n cmd).grids s.newGridNumber (s.handed n cmd q node), nextGrid := (s.newGridNumber + 1) % 65535
    outcomes := without (s.begins n cmd).outcomes s.newGridNumber }

section
variable (s : State) (n : Nat) (cmd : List Byte) (q : Queue) (node : Node)

theorem handOff_eq (hp : node.pred = 0) : s.handOff n cmd q node =
    ((s.entered n cmd q node).onGrid s.newGridNumber fun x => { x with st := .ready }).emit (.launchReady s.newGridNumber) :=
  if_pos hp

theorem entered_grid : (s.entered n cmd q node).grid s.newGridNumber = some (s.handed n cmd q node) := by
  rw [State.grid, State.entered, find?_put, Option.map_some]

/-- The entry of a grid leaves the memory and the queues. -/
theorem entered_keeps : (s.entered n cmd q node).mem = (s.begins n cmd).mem ∧
    (s.entered n cmd q node).regions = (s.begins n cmd).regions := ⟨rfl, rfl⟩

end

/-! ## Commands that begin or fail -/

section
variable {s : State} {n : Nat} {q : Queue} (cmd : List Byte) (hq : s.queue (n / 16) (n % 16) = some q) (hd : q.detaching = false)
include hq hd

/-- A command that begins without an answer to wait for leaves its queue to the next, and the memory and the grids as they are. -/
theorem begins_goesOn (hs : q.stopped = false) : (s.begins n cmd).QueueGoesOn n q.pending (q.running + 1) ∧
    (s.begins n cmd).mem = s.mem ∧ (s.begins n cmd).grids = s.grids := by
  have h := State.queue_onQueue_same (fun q : Queue => { q with
    starting := none, running := q.running + 1, pending := ((none : Option Nat).map fun t => (t, cmd)).toList ++ q.pending }) hq
  rw [State.begins, State.dropDetached_stays h hd]
  exact ⟨⟨_, (State.queue_emitOnce ..).trans h, rfl, rfl, rfl, hs⟩, State.emitOnce_mem .., State.emitOnce_grids ..⟩

/-- A command that is refused stops its queue, and the grids stay. -/
theorem refuse_stops (c : Cause) : (∃ p, (s.refuse n c cmd).queue (n / 16) (n % 16) = some p ∧ p.stopped = true) ∧
    (s.refuse n c cmd).grids = s.grids := by
  have h := State.queue_onQueue_same (fun q : Queue => { q with starting := none }) hq
  obtain ⟨hstop, -, hgrids⟩ := stopQueue_stops h
  have heq : s.refuse n c cmd = ((s.onQueue (n / 16) (n % 16) fun q => { q with starting := none }).stopQueue (n / 16) (n % 16)).record
      (sourceOfService (n / 16)) none 0x3 (c.code % 65536 + q.cell % 2 ^ 48 * 2 ^ 16) (cmdTag cmd) := by
    rw [State.refuse, State.commandFailed, hq]
    exact State.dropDetached_stays ((State.queue_of_regions (State.record_regions ..) ..).trans hstop) hd
  rw [heq]
  exact ⟨⟨_, (State.queue_of_regions (State.record_regions ..) ..).trans hstop, rfl⟩, (State.record_grids ..).trans hgrids⟩

/-- A launch without predecessors is ready at once. -/
theorem handOff_ready {node : Node} (hs : q.stopped = false) (hp : node.pred = 0) :
    (s.handOff n cmd q node).grid s.newGridNumber = some { s.handed n cmd q node with st := .ready } ∧
    .launchReady s.newGridNumber ∈ (s.handOff n cmd q node).agenda ∧ (s.handOff n cmd q node).mem = s.mem ∧
    (s.handOff n cmd q node).QueueGoesOn n q.pending (q.running + 1) := by
  obtain ⟨⟨p, hp', hgoes⟩, hmem, -⟩ := begins_goesOn cmd hq hd hs
  obtain ⟨hm, hr⟩ := entered_keeps s n cmd q node
  rw [handOff_eq s n cmd q node hp]
  refine ⟨(State.grid_emit ..).trans (State.grid_onGrid_same _ (entered_grid s n cmd q node)), State.mem_agenda_emit .., ?_, ?_⟩
  · rw [State.emit_mem, State.onGrid_mem, hm, hmem]
  · have hreg : (((s.entered n cmd q node).onGrid s.newGridNumber fun x => { x with st := .ready }).emit
        (.launchReady s.newGridNumber)).regions = (s.begins n cmd).regions := by rw [State.emit_regions, State.onGrid_regions, hr]
    exact ⟨p, (State.queue_of_regions hreg ..).trans hp', hgoes⟩

end

/-! ## The rows -/

section
variable {s : State} {g : Nat} {x : Grid}

theorem exec_launch {n : Nat} {cmd : List Byte} (hi : s.input = .launch n cmd) :
    exec .launch s = .next (s.command n 1 cmd (zeroAt cmd 34 30) fun s q => s.launch n cmd q) := by
  show execLaunch s = _
  rw [execLaunch, hi]

theorem exec_launchReady (hi : s.input = .launchReady g) (hg : s.grid g = some x) (hst : x.st = .ready) :
    exec .launchReady s = .next (s.readyStep g x) := by
  show execLaunchReady s = _
  rw [execLaunchReady, hi]
  simp only [hg, hst]
  rfl

end

/-! ## A launch that starts (R75, R76) -/

/-- A record that has been read is handed off or refused. -/
theorem launch_read {s u : State} {n : Nat} {cmd : List Byte} {gs : List Got} (q : Queue) (ha : field cmd 8 8 % 64 = 0)
    (hb : ∀ e ∈ s.grids, ¬(e.2.ctx = field cmd 32 2 ∧ e.2.addr = field cmd 8 8))
    (hr : s.schedGranules (n / 16) (field cmd 32 2) (field cmd 8 8) 16 = (.ok (some gs), u)) :
    s.launch n cmd q = if nodeOk gs then u.handOff n cmd q (nodeOf gs) else u.refuse n .nodeFormat cmd := by
  have hany : (s.grids.any fun e => e.2.ctx = field cmd 32 2 && e.2.addr = field cmd 8 8) = false :=
    List.any_eq_false.mpr fun e he => by simpa using hb e he
  simp only [State.launch, ha, hany, hr, bne_self_eq_false, Bool.false_eq_true, if_false]

/-! ## Ready (R81, R82) -/

/-- A launch has ended with a cause. -/
def State.FailsWith (t : State) (g : Nat) (c : Cause) : Prop :=
  ∃ y, t.grid g = some y ∧ y.st = .ending ∧ y.ended = some { status := 1, cause := c.code }

/-- A launch has entered Placing with a width. -/
def State.PlacesWide (t : State) (g w : Nat) : Prop :=
  .placeGrid g ∈ t.agenda ∧ ∃ y, t.grid g = some y ∧ y.st = .placing ∧ y.gw = w

section
variable {s u : State} {g : Nat} {x : Grid}

theorem State.endUnrun_fails (c : Cause) (h : s.grid g = some x) (hu : x.st.unrun = true) (he : x.ended = none) :
    (s.endUnrun g 1 c).FailsWith g c := by
  obtain ⟨y, hy, hst, hend⟩ := State.endUnrun_ends 1 c 0 h hu
  exact ⟨y, hy, hst, by rw [hend, he]; rfl⟩

theorem State.enterPlacing_places (w : Nat) (h : s.grid g = some x) : (s.enterPlacing g w).PlacesWide g w :=
  ⟨State.mem_agenda_emit .., _, (State.grid_emit ..).trans (State.grid_onGrid_same _ ((State.grid_drawn s g).trans h)), rfl, rfl⟩

theorem readyStep_read {f : Nat} (h : s.schedNum x.region x.ctx (x.addr + 1) 1 = (.ok (some f), u)) : s.readyStep g x =
    if bit f 7 = true ∧ x.node.runafter = false then u.endUnrun g 1 .predFault
    else if x.node.indirect = true then u.readCount g x else u.enterPlacing g x.node.gw := by
  simp only [State.readyStep, h, Bool.and_eq_true, Bool.not_eq_true']

theorem readCount_read {w : Nat} (h : s.schedNum x.region x.ctx x.node.icount 4 = (.ok (some w), u)) : s.readCount g x =
    if w = 0 then u.endUnrun g 0 .none
    else if w % x.node.stages ≠ 0 ∨ 16368 < w * x.node.gh then u.endUnrun g 1 .launchShape else u.enterPlacing g w := by
  cases w with
  | zero => simp only [State.readCount, h, if_true]
  | succ w => simp only [State.readCount, h, Nat.succ_ne_zero, if_false, Bool.or_eq_true, bne_iff_ne, decide_eq_true_eq]

/-- An indirect count ends the launch, or becomes its width. -/
theorem readCount_goes {w : Nat} (h : s.schedNum x.region x.ctx x.node.icount 4 = (.ok (some w), u)) (hg : u.grid g = some x)
    (hst : x.st = .ready) (he : x.ended = none) :
    if w = 0 then ∃ y, (s.readCount g x).grid g = some y ∧ y.st = .ending ∧ y.ended = none
    else if w % x.node.stages ≠ 0 ∨ 16368 < w * x.node.gh then (s.readCount g x).FailsWith g .launchShape
    else (s.readCount g x).PlacesWide g w := by
  have hu : x.st.unrun = true := by rw [hst]; rfl
  rw [readCount_read h]
  split_ifs
  · obtain ⟨y, hy, hend, hnone⟩ := State.endUnrun_ends 0 .none 0 hg hu
    exact ⟨y, hy, hend, by rw [hnone, he]; rfl⟩
  · exact State.endUnrun_fails _ hg hu he
  · exact State.enterPlacing_places w hg

/-- A ready launch ends as its predecessors or its count say, or enters Placing. -/
theorem readyStep_goes {f : Nat} (h : s.schedNum x.region x.ctx (x.addr + 1) 1 = (.ok (some f), u)) (hg : u.grid g = some x)
    (hst : x.st = .ready) (he : x.ended = none) :
    if bit f 7 = true ∧ x.node.runafter = false then (s.readyStep g x).FailsWith g .predFault
    else if x.node.indirect = false then (s.readyStep g x).PlacesWide g x.node.gw
    else ∀ w v, u.schedNum x.region x.ctx x.node.icount 4 = (.ok (some w), v) → v.grid g = some x →
      if w = 0 then ∃ y, (s.readyStep g x).grid g = some y ∧ y.st = .ending ∧ y.ended = none
      else if w % x.node.stages ≠ 0 ∨ 16368 < w * x.node.gh then (s.readyStep g x).FailsWith g .launchShape
      else (s.readyStep g x).PlacesWide g w := by
  rw [readyStep_read h]
  by_cases hp : bit f 7 = true ∧ x.node.runafter = false
  · rw [if_pos hp, if_pos hp]
    exact State.endUnrun_fails _ hg (by rw [hst]; rfl) he
  · rw [if_neg hp, if_neg hp]
    cases x.node.indirect with
    | false => exact State.enterPlacing_places _ hg
    | true => exact fun w v hc hv => readCount_goes hc hv hst he

end

end Sys2Proof.Machine
end

section
/-! SUPPORT. Rectangles for the bays of a grid, and the cores reserved there (R78). -/

namespace Sys2Proof.Machine

open Sys2Proof

/-- A run of changes reaches `Q` where every change keeps `P`, the change at `a` makes `Q` of `P`, and those at the other members
keep `Q`. -/
theorem foldl_reaches_of_mem {α β : Type} {P Q : β → Prop} {f : β → α → β} {l : List α} {a : α} {b : β} (ha : a ∈ l) (hb : P b)
    (keep : ∀ b x, P b → P (f b x)) (make : ∀ b, P b → Q (f b a)) (stay : ∀ b, ∀ x ∈ l, x ≠ a → Q b → Q (f b x)) :
    Q (l.foldl f b) := by
  induction l using List.reverseRecOn with
  | nil => exact absurd ha List.not_mem_nil
  | append_singleton l y ih =>
    rw [List.foldl_append]
    by_cases hy : y = a
    · subst hy
      exact make _ (List.foldlRecOn (motive := P) l f hb fun b hb x _ => keep b x hb)
    · have hal : a ∈ l := (List.mem_append.mp ha).resolve_right fun h => hy (List.mem_singleton.mp h).symm
      exact stay _ y (by simp) hy (ih hal fun b x hx => stay b x (List.mem_append_left _ hx))

/-! ## The search -/

theorem firstPlace_some {α : Type} {f : Nat → Option α} {n p : Nat} {a : α} (h : firstPlace f n p = some a) : ∃ k, f k = some a := by
  induction n generalizing p with
  | zero => exact absurd h (by simp [firstPlace])
  | succ n ih =>
    rw [firstPlace] at h
    cases hf : f p with
    | some b => exact ⟨p, by simpa [hf] using h⟩
    | none => exact ih (by simpa [hf] using h)

/-- Every bay that has been packed fits beside those before it. -/
theorem packBays_fits {fits : Nat → Nat × Nat → List (Nat × Nat) → Bool} {bs : List Nat} {acc rs : List (Nat × Nat)}
    (h : packBays fits bs acc = some rs) : acc <+: rs ∧ rs.length = acc.length + bs.length ∧ ∀ i < bs.length,
      fits (bs.getD i 0) (rs.getD (acc.length + i) (0, 0)) (rs.take (acc.length + i)) = true := by
  induction bs generalizing acc with
  | nil =>
    rw [packBays] at h
    injection h with h
    subst h
    exact ⟨⟨[], List.append_nil _⟩, rfl, fun i hi => absurd hi (Nat.not_lt_zero i)⟩
  | cons b bs ih =>
    rw [packBays] at h
    obtain ⟨p, hp⟩ := firstPlace_some h
    dsimp only at hp
    obtain ⟨hfit, hrest⟩ : fits b (p % 128, p / 128) acc = true ∧ packBays fits bs (acc ++ [(p % 128, p / 128)]) = some rs := by
      split at hp
      · next hf => exact ⟨hf, hp⟩
      · exact absurd hp (by simp)
    obtain ⟨⟨tail, rfl⟩, hlen, hfits⟩ := ih hrest
    refine ⟨⟨(p % 128, p / 128) :: tail, by simp⟩, by simpa [Nat.add_assoc, Nat.add_comm 1] using hlen, fun i hi => ?_⟩
    cases i with
    | zero => simpa using hfit
    | succ i =>
      have := hfits i (by simpa using hi)
      rwa [List.length_append, List.length_singleton, Nat.add_right_comm, Nat.add_assoc] at this

theorem findPlace_packs {s : State} {x : Grid} {idle : Bool} {rs : List (Nat × Nat)} (h : s.findPlace x idle = some rs) :
    ∃ whole, packBays (s.bayFits x idle whole) (List.range (x.gw * x.node.gh)) [] = some rs := by
  rw [State.findPlace] at h
  dsimp only at h
  split at h
  · exact absurd h (by simp)
  · cases hw : packBays (s.bayFits x idle true) (List.range (x.gw * x.node.gh)) [] with
    | some r => exact ⟨true, by simpa [hw] using h⟩
    | none =>
      rw [hw] at h
      dsimp only [Option.orElse_none, Option.orElse] at h
      split at h
      · exact absurd h (by simp)
      · exact ⟨false, h⟩

theorem bayFits_free {s : State} {x : Grid} {whole : Bool} {b : Nat} {r : Nat × Nat} {taken : List (Nat × Nat)}
    (h : s.bayFits x false whole b r taken = true) : r.1 + x.node.bw ≤ 128 ∧
      (∀ a ∈ taken, rectsMeet x.node.bw x.node.bh r a = false) ∧
      ∀ n ∈ rectCores x.node.bw x.node.bh r.1 r.2, s.isHole n = false → (s.core n).grid = none := by
  simp only [State.bayFits, Bool.and_eq_true, Bool.false_or, decide_eq_true_eq] at h
  obtain ⟨⟨⟨⟨⟨⟨hw, -⟩, -⟩, -⟩, hmeet⟩, -⟩, ⟨-, hfree⟩, -⟩ := h
  refine ⟨hw, by simpa using hmeet, fun n hn hh => ?_⟩
  simpa using List.all_eq_true.mp hfree n (List.mem_filter.mpr ⟨hn, by simp [hh]⟩)

/-! ## Places of a grid -/

/-- The core at a number of a bay. -/
def Grid.placeOf (x : Grid) (rs : List (Nat × Nat)) (e : Nat × Nat) : Nat :=
  coreAt ((rs.getD e.1 (0, 0)).1 + e.2 % x.node.bw) ((rs.getD e.1 (0, 0)).2 + e.2 / x.node.bw)

/-- The bays of a grid and the numbers of their cores. -/
def Grid.seats (x : Grid) (rs : List (Nat × Nat)) : List (Nat × Nat) :=
  (List.range rs.length).flatMap fun b => (List.range (x.node.bw * x.node.bh)).map fun q => (b, q)

/-- Rectangles that a grid can have: each on the device, apart from each other, and on free cores. -/
structure State.FreeAt (s : State) (x : Grid) (rs : List (Nat × Nat)) : Prop where
  wide : ∀ b < rs.length, (rs.getD b (0, 0)).1 + x.node.bw ≤ 128
  apart : ∀ b < rs.length, ∀ a < b, rectsMeet x.node.bw x.node.bh (rs.getD b (0, 0)) (rs.getD a (0, 0)) = false
  free : ∀ e ∈ x.seats rs, s.isHole (x.placeOf rs e) = false → (s.core (x.placeOf rs e)).grid = none

theorem Grid.mem_seats {x : Grid} {rs : List (Nat × Nat)} {e : Nat × Nat} :
    e ∈ x.seats rs ↔ e.1 < rs.length ∧ e.2 < x.node.bw * x.node.bh := by
  obtain ⟨b, q⟩ := e
  simp [Grid.seats]

/-- A search that succeeds finds rectangles that the grid can have. -/
theorem findPlace_freeAt {s : State} {x : Grid} {rs : List (Nat × Nat)} (h : s.findPlace x false = some rs) : s.FreeAt x rs := by
  obtain ⟨whole, hp⟩ := findPlace_packs h
  obtain ⟨-, hlen, hfits⟩ := packBays_fits hp
  have hfit (b : Nat) (hb : b < rs.length) : s.bayFits x false whole b (rs.getD b (0, 0)) (rs.take b) = true := by
    have hb' : b < (List.range (x.gw * x.node.gh)).length := by simpa [hlen] using hb
    simpa only [List.getD_eq_getElem _ _ hb', List.getElem_range, List.length_nil, Nat.zero_add] using hfits b hb'
  refine ⟨fun b hb => (bayFits_free (hfit b hb)).1, fun b hb a ha => (bayFits_free (hfit b hb)).2.1 _ ?_, fun e he hh => ?_⟩
  · rw [List.getD_eq_getElem _ _ (ha.trans hb)]
    exact List.mem_take_iff_getElem.mpr ⟨a, by omega, rfl⟩
  · obtain ⟨hb, hq⟩ := Grid.mem_seats.mp he
    exact (bayFits_free (hfit e.1 hb)).2.2 _ (List.mem_map.mpr ⟨e.2, List.mem_range.mpr hq, rfl⟩) hh

theorem rectsMeet_of_common {bw bh i j k l : Nat} {r a : Nat × Nat} (hi : i < bw) (hk : k < bw) (hj : j < bh) (hl : l < bh)
    (hx : r.1 + i = a.1 + k) (hy : r.2 + j = a.2 + l) : rectsMeet bw bh r a = true := by
  simp only [rectsMeet, Bool.and_eq_true, decide_eq_true_eq]
  omega

/-- Two seats of a grid are two cores. -/
theorem State.FreeAt.placeOf_inj {s : State} {x : Grid} {rs : List (Nat × Nat)} (h : s.FreeAt x rs) {d e : Nat × Nat}
    (hd : d ∈ x.seats rs) (he : e ∈ x.seats rs) (heq : x.placeOf rs d = x.placeOf rs e) : d = e := by
  obtain ⟨hdb, hdq⟩ := Grid.mem_seats.mp hd
  obtain ⟨heb, heq'⟩ := Grid.mem_seats.mp he
  have hw : 0 < x.node.bw := Nat.pos_of_ne_zero fun h0 => by simp [h0] at hdq
  have hdm := Nat.mod_lt d.2 hw
  have hem := Nat.mod_lt e.2 hw
  have hdd : d.2 / x.node.bw < x.node.bh := Nat.div_lt_of_lt_mul hdq
  have hed : e.2 / x.node.bw < x.node.bh := Nat.div_lt_of_lt_mul heq'
  have hdw := h.wide d.1 hdb
  have hew := h.wide e.1 heb
  rw [Grid.placeOf, Grid.placeOf, coreAt, coreAt] at heq
  have hx : (rs.getD d.1 (0, 0)).1 + d.2 % x.node.bw = (rs.getD e.1 (0, 0)).1 + e.2 % x.node.bw := by omega
  have hy : (rs.getD d.1 (0, 0)).2 + d.2 / x.node.bw = (rs.getD e.1 (0, 0)).2 + e.2 / x.node.bw := by omega
  have hbay : d.1 = e.1 := by
    rcases Nat.lt_trichotomy d.1 e.1 with hlt | heq | hgt
    · exact absurd (rectsMeet_of_common hem hdm hed hdd hx.symm hy.symm) (Bool.eq_false_iff.mp (h.apart e.1 heb d.1 hlt))
    · exact heq
    · exact absurd (rectsMeet_of_common hdm hem hdd hed hx hy) (Bool.eq_false_iff.mp (h.apart d.1 hdb e.1 hgt))
  rw [hbay] at hx hy
  refine Prod.ext hbay ?_
  rw [← Nat.div_add_mod d.2 x.node.bw, ← Nat.div_add_mod e.2 x.node.bw, Nat.add_left_cancel hx, Nat.add_left_cancel hy]

/-! ## The reservation -/

/-- A core as it is reserved for a grid. -/
def Grid.seated (x : Grid) (g : Nat) (e : Nat × Nat) : Core :=
  { grid := some g, gx := e.1 % x.gw * x.node.bw + e.2 % x.node.bw, gy := e.1 / x.gw * x.node.bh + e.2 / x.node.bw, bay := e.1 }

/-- A core of a grid reserved, unless it is a hole. -/
def State.reserveOne (g : Nat) (x : Grid) (rs : List (Nat × Nat)) (s : State) (e : Nat × Nat) : State :=
  if s.isHole (x.placeOf rs e) then s else s.cleanCore (x.placeOf rs e) (x.seated g e)

section
variable {s : State} {g : Nat} {x : Grid} {rs : List (Nat × Nat)}

theorem reserve_eq (s : State) (g : Nat) (x : Grid) (rs : List (Nat × Nat)) : s.reserve g x rs =
    (x.seats rs).foldl (State.reserveOne g x rs) (s.onGrid g fun x => { x with rects := rs }) := by
  rw [Grid.seats, List.foldl_flatMap]
  simp only [List.foldl_map]
  rfl

theorem State.core_cleanCore (s : State) (m n : Nat) (c : Core) : (s.cleanCore m c).core n = if m = n then c else s.core n := look_put ..

theorem State.reserveOne_grids (s : State) (e : Nat × Nat) : (s.reserveOne g x rs e).grids = s.grids := by
  rw [State.reserveOne]
  split <;> rfl

theorem State.reserveOne_isHole (s : State) (e : Nat × Nat) (n : Nat) : (s.reserveOne g x rs e).isHole n = s.isHole n := by
  rw [State.reserveOne]
  split <;> rfl

theorem reserve_grid (h : s.grid g = some x) : (s.reserve g x rs).grid g = some { x with rects := rs } := by
  rw [reserve_eq, State.grid_of_grids (foldl_keeps State.grids _ _ _ fun t e _ => t.reserveOne_grids e)]
  exact State.grid_onGrid_same _ h

/-- A seat that is no hole is reserved for the grid. -/
theorem reserve_core (hf : s.FreeAt x rs) {e : Nat × Nat} (he : e ∈ x.seats rs) (hh : s.isHole (x.placeOf rs e) = false) :
    (s.reserve g x rs).core (x.placeOf rs e) = x.seated g e := by
  rw [reserve_eq]
  refine foldl_reaches_of_mem (P := fun t : State => t.isHole (x.placeOf rs e) = false)
    (Q := fun t : State => t.core (x.placeOf rs e) = x.seated g e) he hh (fun t d ht => (t.reserveOne_isHole ..).trans ht) (fun t ht => ?_)
    fun t d hd hne ht => ?_
  · rw [State.reserveOne, ht]
    exact (State.core_cleanCore ..).trans (if_pos rfl)
  · rw [State.reserveOne]
    split
    · exact ht
    · rw [State.core_cleanCore, if_neg fun hp => hne (hf.placeOf_inj hd he hp), ht]

end

end Sys2Proof.Machine
end

section
/-! Launches that are placed (R78). -/

namespace Sys2Proof.Machine

open Sys2Proof

variable {s : State} {g : Nat} {x : Grid}

theorem exec_placeGrid (hi : s.input = .placeGrid g) (hg : s.grid g = some x) (hst : x.st = .placing) :
    exec .placeGrid s = .next (s.place g x) := by
  show execPlaceGrid s = _
  rw [execPlaceGrid, hi]
  simp only [hg, hst]
  rfl

/-- A grid that has been placed: reserved at its rectangles, and about to be set up. -/
def State.placed (s : State) (g : Nat) (x : Grid) (rs : List (Nat × Nat)) : State :=
  (((s.reserve g x rs).onGrid g fun x => { x with st := .dealing, setUp := none }).emit (.coreSetup g)).placeAll

theorem State.placed_core (s : State) (g : Nat) (x : Grid) (rs : List (Nat × Nat)) (n : Nat) :
    (s.placed g x rs).core n = (s.reserve g x rs).core n := rfl

theorem State.placed_grid {rs : List (Nat × Nat)} (h : s.grid g = some x) : ∃ y, (s.placed g x rs).grid g = some y ∧ y.st = .dealing ∧
    y.rects = rs :=
  ⟨_, (State.grid_placeAll ..).trans ((State.grid_emit ..).trans (State.grid_onGrid_same _ (reserve_grid h))), rfl, rfl⟩

theorem State.placed_agenda (s : State) (g : Nat) (x : Grid) (rs : List (Nat × Nat)) : .coreSetup g ∈ (s.placed g x rs).agenda :=
  List.mem_append_left _ (State.mem_agenda_emit ..)

section
variable (hp : s.limiter.preempted = false) (hn : s.nextToPlace g x = true) (hr : x.resuming = false)
include hp hn hr

theorem place_placed {rs : List (Nat × Nat)} (hf : s.findPlace x false = some rs) : s.place g x = s.placed g x rs := by
  simp only [State.place, hp, hn, hr, hf, Bool.not_true, Bool.or_self, Bool.false_eq_true, if_false]
  rfl

/-- A grid that no idle device could hold ends. -/
theorem place_fails (hg : s.grid g = some x) (hst : x.st = .placing) (he : x.ended = none) (hf : s.findPlace x false = none)
    (hi : s.findPlace x true = none) : (s.place g x).FailsWith g .placement := by
  have heq : s.place g x = (s.endUnrun g 1 .placement).placeAll := by
    simp only [State.place, hp, hn, hr, hf, hi, Bool.not_true, Bool.or_self, Option.isSome_none, Bool.false_eq_true, if_false]
  rw [heq]
  exact State.endUnrun_fails (s := s) _ hg (by rw [hst]; rfl) he

end

/-- Each core of a grid that is placed was free and has its coordinates in the grid. -/
theorem placed_seats {rs : List (Nat × Nat)} (hf : s.findPlace x false = some rs) {b i : Nat} {r : Nat × Nat} (hr : rs[b]? = some r)
    (hi : i < x.node.bw * x.node.bh) (hh : s.isHole (coreAt (r.1 + i % x.node.bw) (r.2 + i / x.node.bw)) = false) :
    (s.core (coreAt (r.1 + i % x.node.bw) (r.2 + i / x.node.bw))).grid = none ∧
    (s.placed g x rs).core (coreAt (r.1 + i % x.node.bw) (r.2 + i / x.node.bw)) = x.seated g (b, i) := by
  obtain ⟨hb, hrb⟩ := List.getElem?_eq_some_iff.mp hr
  have hplace : x.placeOf rs (b, i) = coreAt (r.1 + i % x.node.bw) (r.2 + i / x.node.bw) := by
    rw [Grid.placeOf, List.getD_eq_getElem _ _ hb, hrb]
  have hseat : (b, i) ∈ x.seats rs := Grid.mem_seats.mpr ⟨hb, hi⟩
  have hfree := findPlace_freeAt hf
  rw [← hplace] at hh ⊢
  exact ⟨hfree.free _ hseat hh, (State.placed_core ..).trans (reserve_core hfree hseat hh)⟩

end Sys2Proof.Machine
end

section
/-! SUPPORT. Set-up, dealing and footprint copies (R79, R80, R469). -/

namespace Sys2Proof.Machine

open Sys2Proof

/-! ## Registers of a core set up (R469) -/

theorem writeLsplit_grids (s : State) (n v : Nat) : (s.writeLsplit n v).grids = s.grids := by
  rw [State.writeLsplit]
  dsimp only
  split
  · rfl
  · split <;> rfl

/-- A register of a core that is written leaves the grids. -/
theorem writeCoreCR_grids (s : State) (n cr : Nat) (v : Reg) : (s.writeCoreCR n cr v).grids = s.grids := by
  rw [State.writeCoreCR.eq_def]
  dsimp only
  split
  · split <;> rfl
  · exact writeLsplit_grids ..
  all_goals rfl

theorem applySetUp_grids (s : State) (u : SetUp) (n : Nat) : (s.applySetUp u n).grids = s.grids := by
  have hvals : ((List.zip [12, 13, 14, 15, 17, 20, 16] u.vals).foldl
      (fun (s : State) (e : Nat × Nat) => s.writeCoreCR n e.1 (exactData e.2)) s).grids = s.grids :=
    foldl_keeps State.grids _ _ s fun t e _ => writeCoreCR_grids t n e.1 _
  have hite {c : Prop} [Decidable c] {t : State} (cr : Nat) (v : Reg) : (if c then t.writeCoreCR n cr v else t).grids = t.grids := by
    split
    · exact writeCoreCR_grids ..
    · rfl
  rw [State.applySetUp]
  exact (hite ..).trans ((hite ..).trans hvals)

/-- A set-up without an image asks for the next step at once. -/
theorem beginSetUp_asks {s : State} {g : Nat} {x : Grid} {u : SetUp} (h : s.grid g = some x) (hc : u.clen = 0) :
    (s.beginSetUp g x u).grid g = some { x with setUp := some u } ∧ .coreSetup g ∈ (s.beginSetUp g x u).agenda := by
  rw [State.beginSetUp, if_pos hc]
  exact ⟨(State.grid_emit ..).trans (State.grid_onGrid_same _ h), State.mem_agenda_emit ..⟩

/-- The state of the cores of a grid once its set-up has been written to them. -/
def State.setUpDone (s : State) (g : Nat) (u : SetUp) : State := ((s.coresOf g).map (·.1)).foldl (fun s n => s.applySetUp u n) s

/-- Once the images are in place, the tasks of a grid whose footprints fit are listed for dealing. -/
theorem finishSetUp_lists {s : State} {g : Nat} {x : Grid} {u : SetUp} (h : s.grid g = some x)
    (hc : ∀ e ∈ s.coresOf g, ∀ q ∈ e.2.cq, q.foot ≠ some codeFoot) (hf : (s.setUpDone g u).feetFit g x = true) :
    (s.finishSetUp g x u).grid g =
      some { x with undealt := (s.setUpDone g u).dealList g x, trig := ((s.setUpDone g u).dealList g x).length } ∧
    .dealTask g ∈ (s.finishSetUp g x u).agenda := by
  have hany : ((s.coresOf g).any fun e => e.2.cq.any fun q => q.foot == some codeFoot) = false :=
    List.any_eq_false.mpr fun e he => by simpa using hc e he
  have hgrid : (s.setUpDone g u).grid g = some x :=
    (State.grid_of_grids (foldl_keeps State.grids _ _ s fun t n _ => applySetUp_grids t u n) g).trans h
  have heq : s.finishSetUp g x u = ((s.setUpDone g u).onGrid g fun y => { y with
      undealt := (s.setUpDone g u).dealList g x, trig := ((s.setUpDone g u).dealList g x).length }).emit (.dealTask g) := by
    rw [State.setUpDone] at hf
    simp only [State.finishSetUp, hany, hf, Bool.not_true, Bool.false_eq_true, if_false]
    rfl
  rw [heq]
  exact ⟨(State.grid_emit ..).trans (State.grid_onGrid_same _ hgrid), State.mem_agenda_emit ..⟩

/-! ## One task dealt (R79) -/

/-- A dealt task as it enters the run queue of its core. -/
def Task.queued (k : Task) (x : Grid) (fresh : Nat) : Task :=
  { k with inbox := none, age := if x.node.foots = [] then fresh + 1 else 0 }

/-- The state once a dealt task has entered the run queue of its core. -/
def State.enqueued (s : State) (x : Grid) (k : Task) : State :=
  s.drawn.onCore (k.inbox.getD 0) fun c => { c with
    runq := c.runq ++ [k.queued x s.fresh], stealWait := c.stealWait && x.node.foots != [] }

/-- A message that waits for an entry of a run queue looks again. -/
def State.looksAgain (s : State) (n : Nat) : State := if (s.core n).firstUnready.isSome then s.emitOnce (.messageReady n) else s

theorem dealOne_eq (s : State) (g : Nat) (x : Grid) (k : Task) : s.dealOne g x k =
    if x.node.foots = [] then ((s.enqueued x k).looksAgain (k.inbox.getD 0)).emit (.taskSelect (k.inbox.getD 0))
    else ((s.enqueued x k).looksAgain (k.inbox.getD 0)).emit (.footprintCopy g (k.inbox.getD 0) (k.dealt.getD 0)) := rfl

theorem dealOne_onlyAsks (s : State) (g : Nat) (x : Grid) (k : Task) : (s.enqueued x k).OnlyAsks (s.dealOne g x k) := by
  have hlooks (t : State) (n : Nat) : t.OnlyAsks (t.looksAgain n) := by
    rw [State.looksAgain]
    split
    · exact State.emitOnce_onlyAsks ..
    · exact State.onlyAsks_refl _
  rw [dealOne_eq]
  split
  · exact (hlooks ..).trans (State.emit_onlyAsks ..)
  · exact (hlooks ..).trans (State.emit_onlyAsks ..)

/-- A dealt task is ready to be selected, or its footprints are copied first. -/
theorem dealOne_asks (s : State) (g : Nat) (x : Grid) (k : Task) :
    (if x.node.foots = [] then .taskSelect (k.inbox.getD 0) else .footprintCopy g (k.inbox.getD 0) (k.dealt.getD 0)) ∈
      (s.dealOne g x k).agenda := by
  rw [dealOne_eq]
  split
  · exact State.mem_agenda_emit ..
  · exact State.mem_agenda_emit ..

/-! ## The last task dealt -/

/-- From `s` to `t` the last task of a grid has been dealt: the grid is no longer in Dealing. -/
structure State.LeavesDealing (s : State) (g : Nat) (t : State) : Prop where
  cores : t.cores = s.cores
  agenda : ∀ e ∈ s.agenda, e ∈ t.agenda
  grid : ∀ x, s.grid g = some x → x.st ≠ .dealing → ∃ y, t.grid g = some y ∧ y.undealt = x.undealt ∧ y.st ≠ .dealing

theorem State.LeavesDealing.trans {s t u : State} {g : Nat} (h : s.LeavesDealing g t) (h' : t.LeavesDealing g u) : s.LeavesDealing g u := by
  refine ⟨h'.cores.trans h.cores, fun e he => h'.agenda e (h.agenda e he), fun x hx hst => ?_⟩
  obtain ⟨y, hy, hundealt, hyst⟩ := h.grid x hx hst
  obtain ⟨z, hz, hzundealt, hzst⟩ := h'.grid y hy hyst
  exact ⟨z, hz, hzundealt.trans hundealt, hzst⟩

theorem State.leavesDealing_refl (s : State) (g : Nat) : s.LeavesDealing g s := ⟨rfl, fun _ h => h, fun x hx hst => ⟨x, hx, rfl, hst⟩⟩

theorem thermalStop_leavesDealing (s : State) (g : Nat) : s.LeavesDealing g (s.thermalStop g) := by
  by_cases hrun : ∃ x, s.grid g = some x ∧ x.st = .running
  · obtain ⟨x, hx, hst⟩ := hrun
    have hstop := State.grid_onGrid_same (fun x : Grid => { x with st := .stopping, outcome := preemptBusy }) hx
    rw [State.thermalStop_running hx hst]
    refine ⟨rfl, fun e he => List.mem_append_left _ he, fun y hy _ => ?_⟩
    obtain rfl : x = y := Option.some.inj (hx.symm.trans hy)
    exact ⟨_, State.grid_onGrid_same _ ((State.grid_emit ..).trans hstop), rfl, by simp⟩
  · rw [State.thermalStop_idle fun x hx hst => hrun ⟨x, hx, hst⟩]
    exact s.leavesDealing_refl g

theorem checkGridEnd_leavesDealing (s : State) (g : Nat) : s.LeavesDealing g (s.checkGridEnd g) := by
  rw [State.checkGridEnd]
  split
  · exact s.leavesDealing_refl g
  · next x hx =>
    split
    · refine ⟨rfl, fun e he => List.mem_append_left _ he, fun y hy _ => ?_⟩
      obtain rfl : x = y := Option.some.inj (hx.symm.trans hy)
      exact ⟨_, (State.grid_emit ..).trans (State.grid_onGrid_same _ hx), rfl, by simp⟩
    · exact s.leavesDealing_refl g

/-! ## Footprint copies (R80) -/

/-- The copy command of a footprint. -/
def Foot.command (f : Foot) (g n l : Nat) (x : Grid) (seq : Nat) : CopyCmd :=
  { op := .copy, dst := exactData (localVA f.dst), src := ⟨withAddr f.handle.data (f.source l), .cap⟩,
    total := f.len, pos := 0, slot := slotKey n 0, grid := g, ctx := x.ctx, prio := x.node.prio, qos := x.node.qos, foot := some l,
    seq := seq }

/-- The copy of a footprint is queued at its core. -/
def State.startFoot (g n l : Nat) (x : Grid) (s : State) (f : Foot) : State :=
  (s.drawn.onCore n fun k => { k with cq := k.cq ++ [f.command g n l x s.fresh] }).emitOnce (copyEvent n)

theorem startFoot_cq (g n l : Nat) (x : Grid) (s : State) (f : Foot) :
    ((s.startFoot g n l x f).core n).cq = (s.core n).cq ++ [f.command g n l x s.fresh] := by
  obtain ⟨es, h⟩ := (s.drawn.onCore n fun k => { k with cq := k.cq ++ [f.command g n l x s.fresh] }).emitOnce_onlyAsks (copyEvent n)
  rw [State.startFoot, h, State.core_emits, State.core_onCore_same]
  rfl

theorem forall₂_getElem? {α β : Type} {R : α → β → Prop} {l : List α} {m : List β} (h : List.Forall₂ R l m) {i : Nat} {a : α} {b : β}
    (ha : l[i]? = some a) (hb : m[i]? = some b) : R a b := by
  obtain ⟨hi, rfl⟩ := List.getElem?_eq_some_iff.mp ha
  obtain ⟨hj, rfl⟩ := List.getElem?_eq_some_iff.mp hb
  exact h.get hi hj

/-- The copies of the footprints are queued in their order. -/
theorem startFeet_cq (g n l : Nat) (x : Grid) (fs : List Foot) (s : State) :
    ∃ qs, ((fs.foldl (State.startFoot g n l x) s).core n).cq = (s.core n).cq ++ qs ∧
      List.Forall₂ (fun (f : Foot) (q : CopyCmd) => ∃ seq, q = f.command g n l x seq) fs qs := by
  induction fs generalizing s with
  | nil => exact ⟨[], by simp, .nil⟩
  | cons f fs ih =>
    obtain ⟨qs, hcq, hqs⟩ := ih (s.startFoot g n l x f)
    exact ⟨f.command g n l x s.fresh :: qs, by rw [List.foldl_cons, hcq, startFoot_cq, List.append_assoc]; rfl, .cons ⟨_, rfl⟩ hqs⟩

end Sys2Proof.Machine
end

section
/-! Launches from hand-off to dealing (R75-R80, R82, R469). -/

namespace Sys2Proof.Machine

open Sys2Proof

section
variable {s : State} {g : Nat} {x : Grid}

/-! ## The rows -/

section
variable (hi : s.input = .coreSetup g) (hg : s.grid g = some x) (hst : x.st = .dealing) (ht : x.trig = 0)
include hi hg hst ht

theorem exec_coreSetup_reads (hs : x.setUp = none) : exec .coreSetup s = .next (s.readSetUp g x) := by
  show execCoreSetup s = _
  rw [execCoreSetup, hi]
  simp [hg, hst, ht, hs]

theorem exec_coreSetup_finishes {u : SetUp} (hs : x.setUp = some u) : exec .coreSetup s = .next (s.finishSetUp g x u) := by
  show execCoreSetup s = _
  rw [execCoreSetup, hi]
  simp [hg, hst, ht, hs]

end

theorem exec_dealTask (hi : s.input = .dealTask g) (hg : s.grid g = some x) (hst : x.st = .dealing) (hu : x.undealt ≠ []) :
    exec .dealTask s = .next (s.deal g x) := by
  show execDealTask s = _
  rw [execDealTask, hi]
  simp [hg, hst, hu]

theorem exec_footprintCopy {n l : Nat} (hi : s.input = .footprintCopy g n l) (hl : l ≠ codeFoot) (hg : s.grid g = some x) :
    exec .footprintCopy s = .next (s.footStep g n l x) := by
  show execFootprintCopy s = _
  rw [execFootprintCopy, hi]
  simp only [hl, hg, if_false]

/-! ## Dealing (R79) -/

theorem dealFirst_head {k : Task} {rest : List Task} (hq : (s.core (k.inbox.getD 0)).runq.length < 64)
    (hi : (s.core (k.inbox.getD 0)).inbox = []) : s.dealFirst [] (k :: rest) = (rest, some k) := by
  have hb : s.dealBlocked (k.inbox.getD 0) k.age = false := by simp [State.dealBlocked, hi, hq]
  rw [State.dealFirst]
  simp [hb]

/-- The state once the first task of a grid has been dealt. -/
def State.dealtFirst (s : State) (g : Nat) (x : Grid) (k : Task) (rest : List Task) : State :=
  (s.drawn.onGrid g fun x => { x with undealt := rest }).dealOne g x k

/-- A grid runs once its last task has been dealt. -/
def State.running (s : State) (g : Nat) : State := s.onGrid g fun x => { x with st := .running }

/-- A grid runs, and may be stopped or end at once. -/
def State.lastDealt (s : State) (g : Nat) : State :=
  (if (s.running g).limiter.preempted then (s.running g).thermalStop g else s.running g).checkGridEnd g

theorem deal_head {k : Task} {rest : List Task} (hu : x.undealt = k :: rest) (hq : (s.core (k.inbox.getD 0)).runq.length < 64)
    (hi : (s.core (k.inbox.getD 0)).inbox = []) : s.deal g x =
      if rest = [] then (s.dealtFirst g x k rest).lastDealt g else (s.dealtFirst g x k rest).emit (.dealTask g) := by
  rw [State.deal, hu, dealFirst_head hq hi]
  rfl

/-- A dealt task stands last in the run queue of its core, and its grid has the rest left to deal. -/
theorem dealtFirst_keeps (hg : s.grid g = some x) (k : Task) (rest : List Task) :
    (s.dealtFirst g x k rest).grid g = some { x with undealt := rest } ∧
    ((s.dealtFirst g x k rest).core (k.inbox.getD 0)).runq = (s.core (k.inbox.getD 0)).runq ++ [k.queued x (s.fresh + 1)] ∧
    (if x.node.foots = [] then .taskSelect (k.inbox.getD 0) else .footprintCopy g (k.inbox.getD 0) (k.dealt.getD 0)) ∈
      (s.dealtFirst g x k rest).agenda := by
  refine ⟨?_, ?_, dealOne_asks ..⟩
  · obtain ⟨es, h⟩ := dealOne_onlyAsks (s.drawn.onGrid g fun x => { x with undealt := rest }) g x k
    rw [State.dealtFirst, h, State.grid_emits, State.enqueued, State.grid_onCore, State.grid_drawn]
    exact State.grid_onGrid_same _ ((State.grid_drawn ..).trans hg)
  · obtain ⟨es, h⟩ := dealOne_onlyAsks (s.drawn.onGrid g fun x => { x with undealt := rest }) g x k
    rw [State.dealtFirst, h, State.core_emits, State.enqueued, State.core_onCore_same]
    rfl

theorem lastDealt_leavesDealing (s : State) (g : Nat) : (s.running g).LeavesDealing g (s.lastDealt g) := by
  rw [State.lastDealt]
  refine State.LeavesDealing.trans ?_ (checkGridEnd_leavesDealing ..)
  split
  · exact thermalStop_leavesDealing ..
  · exact State.leavesDealing_refl ..

section
variable {k : Task} {rest : List Task} (hg : s.grid g = some x) (hst : x.st = .dealing) (hu : x.undealt = k :: rest)
  (hq : (s.core (k.inbox.getD 0)).runq.length < 64) (hi : (s.core (k.inbox.getD 0)).inbox = [])
include hg hst hu hq hi

/-- What dealing leaves of the state once the first task has been dealt. -/
theorem deal_goesOn : (s.deal g x).cores = (s.dealtFirst g x k rest).cores ∧
    (∀ e ∈ (s.dealtFirst g x k rest).agenda, e ∈ (s.deal g x).agenda) ∧
    ∃ y, (s.deal g x).grid g = some y ∧ y.undealt = rest ∧
      if rest = [] then y.st ≠ .dealing else y.st = .dealing ∧ .dealTask g ∈ (s.deal g x).agenda := by
  have hgrid := (dealtFirst_keeps hg k rest).1
  rw [deal_head hu hq hi]
  split
  · obtain ⟨hcores, hkeep, hend⟩ := lastDealt_leavesDealing (s.dealtFirst g x k rest) g
    exact ⟨hcores, hkeep, hend _ (State.grid_onGrid_same _ hgrid) (by simp)⟩
  · exact ⟨rfl, fun e he => List.mem_append_left _ he, _, (State.grid_emit ..).trans hgrid, rfl, hst, State.mem_agenda_emit ..⟩

/-- The dealt task is ready, or waits for its footprints. -/
theorem deal_queues : ((s.deal g x).core (k.inbox.getD 0)).runq = (s.core (k.inbox.getD 0)).runq ++ [k.queued x (s.fresh + 1)] ∧
    if x.node.foots = [] then (k.queued x (s.fresh + 1)).age ≠ 0 ∧ .taskSelect (k.inbox.getD 0) ∈ (s.deal g x).agenda
    else (k.queued x (s.fresh + 1)).age = 0 ∧ .footprintCopy g (k.inbox.getD 0) (k.dealt.getD 0) ∈ (s.deal g x).agenda := by
  obtain ⟨hcores, hkeep, -⟩ := deal_goesOn hg hst hu hq hi
  obtain ⟨-, hrunq, hask⟩ := dealtFirst_keeps hg k rest
  have hask := hkeep _ hask
  refine ⟨by rw [State.core, hcores]; exact hrunq, ?_⟩
  by_cases hf : x.node.foots = []
  · rw [if_pos hf] at hask ⊢
    exact ⟨by simp [Task.queued, hf], hask⟩
  · rw [if_neg hf] at hask ⊢
    exact ⟨by simp [Task.queued, hf], hask⟩

end

/-! ## Footprint copies (R80) -/

section
variable {n l : Nat} {k : Task} (hst : x.st = .dealing ∨ x.st = .running) (hcq : ∀ q ∈ (s.core n).cq, q.foot ≠ some l)
    (hf : ((s.core n).runq.find? fun t => t.dealt = some l && t.age = 0) = some k)
include hst hcq hf

theorem footStep_due : s.footStep g n l x =
    if k.pins = [] then s.beginFeet g n l x else (s.drawn.onDealt n l fun t => { t with age := s.fresh + 1 }).emit (.taskSelect n) := by
  have hgo : (x.st != .dealing && x.st != .running) = false := by rcases hst with h | h <;> simp [h]
  have hany : ((s.core n).cq.any fun q => q.foot == some l) = false := List.any_eq_false.mpr fun q hq => by simpa using hcq q hq
  simp only [State.footStep, hgo, hany, hf, Bool.false_eq_true, if_false]

/-- A task whose copies have ended is ready. -/
theorem footStep_readies (hp : k.pins ≠ []) : (∃ t ∈ ((s.footStep g n l x).core n).runq, t.dealt = some l ∧ t.age ≠ 0) ∧
    .taskSelect n ∈ (s.footStep g n l x).agenda := by
  have hk := List.find?_some hf
  obtain ⟨hdealt, -⟩ := Bool.and_eq_true_iff.mp hk
  rw [footStep_due hst hcq hf, if_neg hp, State.core_emit, State.onDealt, State.core_onCore_same]
  refine ⟨⟨{ k with age := s.fresh + 1 }, List.mem_map.mpr ⟨k, List.mem_of_find?_eq_some hf, if_pos ?_⟩, of_decide_eq_true hdealt,
    Nat.succ_ne_zero _⟩, State.mem_agenda_emit ..⟩
  simpa using hk

/-- The copies of a task whose ranges are free begin, one for each footprint. -/
theorem footStep_copies (hp : k.pins = []) (hb : ∀ f ∈ x.node.foots, inBounds f.handle.data (f.source l) f.len = true)
    (hpin : ∀ r ∈ x.node.foots.map (fun f => (f.dst, f.len)), ∀ p ∈ s.pinned n l, pinMeets r p = false) :
    ∃ qs, ((s.footStep g n l x).core n).cq = (s.core n).cq ++ qs ∧
      List.Forall₂ (fun (f : Foot) (q : CopyCmd) => ∃ seq, q = f.command g n l x seq) x.node.foots qs := by
  have hin : (x.node.foots.find? fun f => !inBounds f.handle.data (f.source l) f.len) = none :=
    List.find?_eq_none.mpr fun f hm => by simp [hb f hm]
  have hmeet : ((x.node.foots.map fun f => (f.dst, f.len)).any fun r => (s.pinned n l).any (pinMeets r)) = false :=
    List.any_eq_false.mpr fun r hr => by simpa using hpin r hr
  obtain ⟨qs, hqs, hall⟩ := startFeet_cq g n l x x.node.foots
    (s.onDealt n l fun t => { t with pins := x.node.foots.map fun f => (f.dst, f.len) })
  have heq : s.footStep g n l x = x.node.foots.foldl (State.startFoot g n l x)
      (s.onDealt n l fun t => { t with pins := x.node.foots.map fun f => (f.dst, f.len) }) := by
    rw [footStep_due hst hcq hf, if_pos hp]
    simp only [State.beginFeet, hin, hmeet, Bool.false_eq_true, if_false]
    rfl
  rw [heq, hqs, State.onDealt, State.core_onCore_same]
  exact ⟨qs, rfl, hall⟩

end

end

/-- Settles O55: a launch is handed off or refused, becomes ready, is placed, set up and dealt, and its footprints are copied. -/
theorem launchesProceed : Obligations.LaunchesProceed := by
  refine ⟨fun s u n cmd q gs hi hs hh hk hz => ?_, fun s g x hg => ⟨fun u f hi hst he hr hu =>
    ⟨_, exec_launchReady hi hg hst, readyStep_goes hr hu hst he⟩, fun rs hi hst hp hn hr hf _ => ?_, fun hi hst hp hn hr he hf hidle => ?_,
    fun hi hst ht => ⟨fun hs hset hdef => ?_, fun u hs hc => ?_⟩, fun k rest hi hst hu => ?_, fun n l k hi hl hst hcq hf =>
    ⟨fun hp => ?_, fun hp hb hpin => ?_⟩⟩⟩
  · intro va ctx ha hbusy hread hq hd hlen
    have hrow : exec .launch s = .next (if nodeOk gs then u.handOff n cmd q (nodeOf gs) else u.refuse n .nodeFormat cmd) := by
      rw [exec_launch hi, command_due hs _ hh hk (zeroAt_of_bytes fun i h1 h2 => hz i h1 (by omega)), launch_read q ha hbusy hread]
    refine ⟨fun hok => ?_, fun hok hpred => ?_⟩
    · obtain ⟨⟨p, hp, hps⟩, hgrids⟩ := refuse_stops cmd hq hd .nodeFormat
      exact ⟨_, p, by rw [hrow, if_neg (by simp [hok])], hp, hps, hgrids⟩
    · obtain ⟨hgrid, hagenda, hmem, p, hp, hps, -, hrun, -⟩ := handOff_ready cmd hq hd (startingAt_queue hs).2 hpred
      exact ⟨_, p, _, _, by rw [hrow, if_pos hok], hp, hps, hrun, newGridNumber_free hlen, hgrid, rfl, rfl, rfl, rfl, rfl, rfl, rfl,
        hagenda, hmem⟩
  · obtain ⟨y, hy, hyst, hyr⟩ := State.placed_grid (rs := rs) hg
    refine ⟨_, y, (exec_placeGrid hi hg hst).trans (by rw [place_placed hp hn hr hf]), hy, hyst, hyr, State.placed_agenda .., ?_⟩
    intro b r hb i hlt c hh
    obtain ⟨hfree, hseat⟩ := placed_seats (g := g) hf hb hlt hh
    exact ⟨hfree, by rw [hseat]; exact ⟨rfl, rfl, rfl, rfl⟩⟩
  · obtain ⟨y, hy, hyst, hend⟩ := place_fails hp hn hr hg hst he hf hidle
    exact ⟨_, y, exec_placeGrid hi hg hst, hy, hyst, hend⟩
  · obtain ⟨hgrid, hagenda⟩ := beginSetUp_asks (u := {}) hg rfl
    refine ⟨_, _, (exec_coreSetup_reads hi hg hst ht hs).trans ?_, hgrid, rfl, hagenda⟩
    simp only [State.readSetUp, hset, hdef, if_true]
  · intro v hf
    obtain ⟨hgrid, hagenda⟩ := finishSetUp_lists hg hc hf
    exact ⟨_, _, exec_coreSetup_finishes hi hg hst ht hs, hgrid, rfl, rfl, hst, hagenda⟩
  · intro n hq hin
    obtain ⟨-, -, y, hy, hrest, hnext⟩ := deal_goesOn hg hst hu hq hin
    obtain ⟨hrunq, hask⟩ := deal_queues hg hst hu hq hin
    exact ⟨_, y, k.queued x (s.fresh + 1), exec_dealTask hi hg hst (by simp [hu]), hy, hrest, hrunq, rfl, rfl, rfl, hnext, hask⟩
  · obtain ⟨⟨t, ht, hdealt, hage⟩, hagenda⟩ := footStep_readies (g := g) (x := x) hst hcq hf hp
    exact ⟨_, t, exec_footprintCopy hi hl hg, ht, hdealt, hage, hagenda⟩
  · obtain ⟨qs, hqs, hall⟩ := footStep_copies (g := g) hst hcq hf hp hb hpin
    refine ⟨_, qs, exec_footprintCopy hi hl hg, hqs, hall.length_eq.symm, fun i f q hif hiq => ?_⟩
    obtain ⟨seq, rfl⟩ := forall₂_getElem? hall hif hiq
    exact ⟨rfl, rfl, rfl, rfl, rfl⟩

end Sys2Proof.Machine
end

section
/-! The room for a hold (R130, R132) where a cell lies in a page table: parked accesses take the places of holds (R164), and an
operation that changes its own cell there changes which accesses a drain parks before it looks for room. -/

namespace Sys2Proof.Machine

open Sys2Proof

/-- An element whose hold has 255 entries, and one whose hold has as many as the hold store of a die (R130). -/
@[irreducible] def listedElement : List Byte := List.replicate (254 * 32) 0
@[irreducible] def storedElement : List Byte := List.replicate (2097151 * 32) 0

theorem length_listedElement : listedElement.length = 254 * 32 := by rw [listedElement, List.length_replicate]
theorem length_storedElement : storedElement.length = 2097151 * 32 := by rw [storedElement, List.length_replicate]

/-- A device with a typed cell at 0x800, which is also the root table of context 0 (its context entry is the number at 0): the first
8 bytes of the cell are the table entry of an access to 0x2000000, which the copy engine has parked, and which
counts at the cell's Desk while that entry has `dr`. One hold leaves one place in the list of that Desk, another fills the hold
store of its die. -/
def tableCell (type : Nat) (cell : List Host.Cell) : State where
  mem := [(0, 1), (1, 8)] ++ cell
  granules := [(64, { ctype := type })]
  holds := [{ pa := 0x800, who := {}, op := .qpush, prio := 0, seq := 0, elem := listedElement },
    { pa := 0x800, who := {}, op := .qpush, prio := 0, seq := 0, elem := storedElement, stored := true }]
  parked := [{ die := 0, slot := 0, ctx := 0, va := 0x2000000, engine := true }]

section
variable {s : State}

theorem homeCluster_tableCell (hs : s.leftOut = []) : s.homeCluster 0x800 = 16 := by
  simp [State.homeCluster, State.presentCluster, State.presentCluster.go, hs]
  decide

theorem listHolds_tableCell (hs : s.leftOut = []) (hh : s.holds = (tableCell 0 []).holds) : s.listHolds 16 = 255 := by
  simp [State.listHolds, hh, tableCell, homeCluster_tableCell hs, Hold.entries, length_listedElement, ceilDiv]

theorem entries_stored {h : Hold} (he : h.elem = storedElement) : h.entries = 2097152 := by
  have hn : ceilDiv (2097151 * 32) 32 = 2097151 := by decide
  rw [Hold.entries, he, length_storedElement, hn]

theorem storeUsed_tableCell (hs : s.leftOut = []) (hh : s.holds = (tableCell 0 []).holds) : 2097152 ≤ s.storeUsed 0 := by
  have hsum : ((s.holds.filter fun h => h.stored && s.homeCluster h.pa / 256 = 0).map Hold.entries).sum = 2097152 := by
    simp [hh, tableCell, homeCluster_tableCell hs, entries_stored]
  rw [State.storeUsed, hsum]
  exact Nat.le_add_right ..

theorem listUsed_tableCell (hs : s.leftOut = []) (hh : s.holds = (tableCell 0 []).holds) :
    s.listUsed 16 = min 256 (255 + s.parkedAt.count 16) := by
  rw [State.listUsed, listHolds_tableCell hs hh]

/-- Where the access is not parked, the list has room for one entry. -/
theorem listUsed_of_not_parked (hs : s.leftOut = []) (hh : s.holds = (tableCell 0 []).holds) (hp : s.parkedAt = []) :
    s.listUsed (s.homeCluster 0x800) = 255 := by
  rw [homeCluster_tableCell hs, listUsed_tableCell hs hh, hp]
  rfl

/-- Where it is parked, no hold finds room. -/
theorem makeHold_of_parked {h : Hold} (hs : s.leftOut = []) (hh : s.holds = (tableCell 0 []).holds) (hp : s.parkedAt = [16])
    (hpa : h.pa = 0x800) : s.makeHold h = none := by
  have hd : s.homeCluster h.pa = 16 := hpa ▸ homeCluster_tableCell hs
  have hn : 1 ≤ h.entries := Nat.le_add_right ..
  have hu : s.listUsed 16 = 256 := by rw [listUsed_tableCell hs hh, hp]; rfl
  have ht : 2097152 ≤ s.storeUsed (16 / 256) := storeUsed_tableCell hs hh
  rw [State.makeHold, hd, hu, if_neg (by omega), if_neg (by omega)]

end

/-- Without soft errors, a Desk answers what the operation on a cell of its type answers (R112, R115). -/
theorem State.desk_fst {s : State} {op : DeskOp} {r : DeskReq} (hf : s.flips = []) (ht : op.typeOk (s.cellType r.pa) = true) :
    (s.desk op r).1 = (deskAct op s r).1 := by
  simp only [State.desk, hf, if_true, ht, Bool.not_true, Bool.false_eq_true, if_false]
  split <;> rename_i h <;> rw [h]

/-- The lock whose next ticket makes the table entry valid; `dr` of the entry is bit 16 of the ticket that is served. -/
def tableLock : State := tableCell 3 [(0x806, 1)]

theorem image_tableLock : tableLock.image 0x800 = 2 ^ 48 := by decide +kernel

/-- R125, R132: LACQ takes ticket 0, after which the parked access counts and no room is left for the hold. -/
theorem lacq_tableLock : (tableLock.desk .lacq { pa := 0x800 }).1 = .done 8 0 [] := by
  have hm : (tableLock.setField 0x800 31 0 1).makeHold (DeskReq.hold { pa := 0x800 } .lacq) = none :=
    makeHold_of_parked rfl rfl (by decide +kernel) rfl
  have hbusy : lockFree (2 ^ 48) = false := by decide
  have hticket : bits (2 ^ 48) 31 0 = 0 := by decide
  rw [State.desk_fst rfl rfl]
  simp only [deskAct, deskLacq, image_tableLock, hbusy, hticket, Bool.false_eq_true, if_false, Nat.zero_add, hm]

/-- Refutes O24: LACQ on a lock that lies in a page table is refused with HOLD_EXHAUSTED although there was room for its hold before
it took its ticket (R125, R130, R164). -/
theorem not_countersAndLocks : ¬ Obligations.CountersAndLocks := by
  unfold Obligations.CountersAndLocks
  intro h
  have hroom : tableLock.listUsed (tableLock.homeCluster 0x800) = 255 := listUsed_of_not_parked rfl rfl (by decide +kernel)
  have hno := lacq_tableLock
  have hi := image_tableLock
  obtain ⟨-, hlock⟩ := h tableLock { pa := 0x800 } rfl rfl
  replace hlock := hlock rfl
  generalize tableLock = s at *
  obtain ⟨-, hheld, -⟩ := hlock
  have hbusy : ¬(bits (s.image 0x800) 31 0 = bits (s.image 0x800) 63 32 ∧ bits (s.image 0x800) 79 77 = 0) := by
    rw [hi]
    decide
  have hlacq := (hheld hbusy).2
  rw [if_pos (Bool.or_eq_true_iff.mpr (.inl (decide_eq_true (by rw [hroom]))))] at hlacq
  obtain ⟨t, hd, -⟩ := hlacq
  rw [hd] at hno
  cases hno

/-- The barrier whose next arrival makes the table entry name a table in HBM, by the address in bits 46 to 32 of the entry; its
`dr` is bit 16 of the arrivals that are left. -/
def tableBarrier : State := tableCell 2 [(0x800, 1), (0x804, 0xC0), (0x806, 1)]

theorem image_tableBarrier : tableBarrier.image 0x800 = 0x100C000000001 := by decide +kernel

/-- R121, R132: BSYNC counts its arrival, after which the parked access counts and no room is left for the hold. -/
theorem bsync_tableBarrier : (tableBarrier.desk .bsync { pa := 0x800 }).1 = .done 8 0 [] := by
  have harrive : tableBarrier.arrive { pa := 0x800 } = (some 0, tableBarrier.setField 0x800 63 32 0x100BF) := by
    rw [State.arrive, image_tableBarrier]
    rfl
  have hphase : (tableBarrier.setField 0x800 63 32 0x100BF).phaseDone 0x800 0 = false := by decide +kernel
  have hm : (tableBarrier.setField 0x800 63 32 0x100BF).makeHold (DeskReq.hold { pa := 0x800 } .bsync 0) = none :=
    makeHold_of_parked rfl rfl (by decide +kernel) rfl
  rw [State.desk_fst rfl rfl]
  simp only [deskAct, deskBsync, harrive, hphase, Bool.false_eq_true, if_false, hm]

/-- Refutes O25: BSYNC on a barrier that lies in a page table is refused with HOLD_EXHAUSTED although there was room in the hold list
before it counted its arrival (R121, R130, R164). -/
theorem not_barriersQueuesConditions : ¬ Obligations.BarriersQueuesConditions := by
  unfold Obligations.BarriersQueuesConditions
  intro h
  obtain ⟨hbarrier, -⟩ := h tableBarrier { pa := 0x800 } rfl rfl
  obtain ⟨-, harrives, -⟩ := hbarrier rfl
  have hleft : bits (tableBarrier.image 0x800) 63 32 = 0x100C0 := by
    rw [image_tableBarrier]
    decide
  have hroom : tableBarrier.listUsed (tableBarrier.homeCluster 0x800) = 255 := listUsed_of_not_parked rfl rfl (by decide +kernel)
  obtain ⟨-, hheld, -⟩ := harrives (hleft.trans_ne (by decide))
  obtain ⟨t, hd, -⟩ := hheld (.inl (hleft.trans_ne (by decide))) (decide_eq_true (by rw [hroom]))
  have hno := bsync_tableBarrier
  rw [hd] at hno
  cases hno

end Sys2Proof.Machine
end

section
/-! SUPPORT. Answers that reach the instruction that awaits them, and refused requests that are sent again (R112, R133, R385). -/

namespace Sys2Proof.Machine

open Sys2Proof

/-- An answer without a fault completes an instruction that neither joins nor has an area: its register is written. -/
theorem completeCell_ok (la gd : Nat) (op : DeskOp) (va sel st val : Nat) (elem : List Byte) (s : State) (h : deskFault st = none) :
    completeCell la gd op va none false sel st val elem s =
      .ok ((), (s.writeReg s.cur gd (cellResult op st val sel elem)).retire la) := by
  unfold completeCell
  rw [h]
  rfl

/-- The answer that a slot awaits completes its instruction (R385). -/
theorem State.cellAnswered_ok {s : State} {k la va pa : Nat} {gd : Nat} {op : DeskOp} {a : Answer}
    (hw : (s.slot k).await = some (.cell a.seq op gd va pa none false la)) (hop : op ≠ .query) (hf : deskFault a.st = none) :
    s.cellAnswered k a =
      let w := ({ s with cur := k } : State).onSlot k fun sl => { sl with
        st := if sl.st = .held then .running else sl.st, await := none, due := 0 }
      { (w.writeReg w.cur gd (cellResult op a.st a.val 0 a.elem)).retire la with cur := s.cur } := by
  simp only [State.cellAnswered, hw, bne_self_eq_false, Bool.false_eq_true, if_false, if_neg hop, completeCell_ok _ _ _ _ _ _ _ _ _ hf]

/-- An answer for a strand of a placed grid goes to its slot (R133). -/
theorem State.answered_placed {s : State} {a : Answer} {k : Nat} (ht : a.task = none) (hadd : a.op ≠ .bpendadd)
    (hsub : a.op ≠ .bpendsub) (hk : a.who.kind = 1) (hs : s.isSaved a.who = false) (hset : s.settling a.who = false)
    (hslot : s.slotOf a.who = some k) : s.answered a = s.cellAnswered k a := by
  simp only [State.answered, ht, hadd, hsub, decide_false, Bool.or_self, if_false, hk, hs, hset, hslot, Bool.false_eq_true]

/-- A wake-up, and a result that is no refusal, is the answer of its requester (R133). -/
theorem exec_wake {s : State} {a : Answer} (h : s.input = .wake a) : exec .wake s = .next (s.answered a) := by
  simp only [exec, execWake, h]

theorem exec_result {s : State} {a : Answer} (h : s.input = .result a) (hst : a.st ≠ 11) :
    exec .result s = .next (s.answered a) := by
  simp only [exec, execResult, h, if_neg hst]

/-- A refused request that was sent waits to be sent again (R112). -/
theorem State.refusedByDesk_waits {s : State} {a : Answer} {q : Packet} {op : DeskOp} {r : DeskReq} (hq : q ∈ s.toFabric)
    (hop : q.op = .cell op r) (hw : r.who = a.who) (hs : r.seq = a.seq) :
    ∃ q', (s.refusedByDesk a).resend = s.resend ++ [(a.who, .fabricPacket q')] ∧ (s.refusedByDesk a).slots = s.slots ∧
      (s.refusedByDesk a).holds = s.holds ∧ ∃ op r', q'.op = .cell op r' ∧ r'.who = a.who ∧ r'.seq = a.seq := by
  unfold State.refusedByDesk
  split
  · next hnone =>
    have := List.find?_eq_none.mp hnone q hq
    simp [hop, hw, hs] at this
  · next q' hsome =>
    have hq' := List.find?_some hsome
    split at hq'
    · next op' r' hop' =>
      simp only [Bool.and_eq_true, decide_eq_true_eq] at hq'
      refine ⟨q', ?_, ?_, ?_, op', r', hop', hq'⟩ <;> (dsimp only; split <;> rfl)
    · exact absurd hq' Bool.false_ne_true

end Sys2Proof.Machine
end
section
/-! ANSWERS COMPLETE (O27). -/

namespace Sys2Proof.Machine

open Sys2Proof

/-- Settles O27: the instruction of the slot runs to its end with the answer; a refused request joins the requests to be sent
again, and is sent through a port that is up. -/
theorem answersComplete : Obligations.AnswersComplete := by
  unfold Obligations.AnswersComplete
  refine fun s a k va pa la gd op => ⟨?_, ?_, ?_⟩
  · intro ht hadd hsub hk hs hset hslot hw hop hst w p hp hin
    have hf : deskFault a.st = none := by rcases hst with h | h <;> rw [h] <;> rfl
    have hlocal : a.st ≠ 11 := by omega
    have hans := (s.answered_placed ht hadd hsub hk hs hset hslot).trans (State.cellAnswered_ok hw hop hf)
    refine ⟨_, w.wrote_retire gd _ la, ?_⟩
    simp only [List.mem_cons, List.not_mem_nil, or_false] at hp
    rcases hp with rfl | rfl
    · rw [exec_wake hin, hans]
    · rw [exec_result hin hlocal, hans]
  · intro q r hin hst hq hop hw hs
    obtain ⟨q', hr, hsl, hh, hq'⟩ := State.refusedByDesk_waits hq hop hw hs
    refine ⟨s.refusedByDesk a, q', ?_, hr, hsl, hh, hq'⟩
    simp only [exec, execResult, hin, if_pos hst]
  · intro w q hin hup hone
    obtain ⟨q', hq', hl⟩ := ({ s with resend := s.resend.filter fun e => e.1 != w } : State).send_leaves q q.cluster hup
    refine ⟨_, q', ?_, ?_, hq', hl.op, hl.dst, hl.addr⟩
    · simp only [exec, execDeskResend, hin, hone, List.foldl_cons, List.foldl_nil]
    · rw [State.send_eta]

end Sys2Proof.Machine
end

section
/-! SUPPORT. What the units' work leaves in order: the canonical form of memory (notes/assumptions/5.md) and, where it is asked
for, the ports that are up. Here are the rules for the shapes of which the model is built: a change of other parts of the state, a
choice, a run of changes, an act. -/

namespace Sys2Proof.Machine

open Sys2Proof

/-- What is followed through the work of a unit: the canonical form of memory, or else the ports that are up. It speaks of the memory
and the ports alone. -/
def PartsIntact : Option (List Nat) → List Host.Cell → List (Nat × Port) → Prop
  | none, mem, _ => Memory.wf mem = true
  | some up, _, ports => ((List.range 32).filter fun p => bits (look {} ports p).fpctl.toNat 3 2 = 2) = up

/-- The memory has the canonical form (`up = none`), or the ports that are up are those of a list. The Desks keep both; writes of
unit registers and the links keep the first. -/
def State.Intact (up : Option (List Nat)) (s : State) : Prop := PartsIntact up s.mem s.ports

theorem State.MemoryCanonical.intact {s : State} (h : s.MemoryCanonical) : s.Intact none := h
theorem State.Intact.memoryCanonical {s : State} (h : s.Intact none) : s.MemoryCanonical := h
theorem State.intact_upPorts (s : State) : s.Intact (some s.upPorts) := rfl
theorem State.Intact.upPorts {s : State} {l : List Nat} (h : s.Intact (some l)) : s.upPorts = l := h

theorem upPorts_of_fpctl {s t : State} (h : ∀ n, (t.port n).fpctl = (s.port n).fpctl) : t.upPorts = s.upPorts := by
  simp only [State.upPorts, h]

namespace State.Intact
variable {s t : State} {α β : Type} {up : Option (List Nat)}

/-- The same fact, read of a state that differs in other parts only: `State.Intact s` and `State.Intact t` are then equal by
definition, and `h.same` proves the second where `h` is the first. -/
theorem same (h : t.Intact up) : t.Intact up := h

/-- What leaves the memory and the states of the ports keeps the state in order. -/
theorem sameUp (h : s.Intact up) (e : t.mem = s.mem) (e' : ∀ n, (t.port n).fpctl = (s.port n).fpctl) : t.Intact up := by
  cases up with
  | none =>
    refine State.MemoryCanonical.intact ?_
    rw [State.MemoryCanonical, e]
    exact h.memoryCanonical
  | some l => exact (upPorts_of_fpctl e').trans h.upPorts

theorem ite {c : Prop} [Decidable c] (hs : s.Intact up) (ht : t.Intact up) : (if c then s else t).Intact up := by
  split <;> assumption

theorem ite_snd {c : Prop} [Decidable c] {p q : α × State} (hp : p.2.Intact up) (hq : q.2.Intact up) :
    (if c then p else q).2.Intact up := by
  split <;> assumption

/-- The state of an answer that has been taken apart. -/
theorem snd {p : α × State} {x : α} (h : p.2.Intact up) (e : p = (x, t)) : t.Intact up := by
  rw [e] at h
  exact h

/-- The state of an answer with two parts. -/
theorem snd_snd {p : α × β × State} {x : α} {y : β} (h : p.2.2.Intact up) (e : p = (x, y, t)) : t.Intact up := by
  rw [e] at h
  exact h

theorem foldl {l : List α} {f : State → α → State} (h : s.Intact up) (hf : ∀ t, ∀ x ∈ l, t.Intact up → (f t x).Intact up) :
    (l.foldl f s).Intact up :=
  List.foldlRecOn (motive := State.Intact up) l f h fun t ht x hx => hf t x hx ht

theorem foldl_snd {l : List α} {f : β × State → α → β × State} {p : β × State} (h : p.2.Intact up)
    (hf : ∀ q : β × State, ∀ x ∈ l, q.2.Intact up → (f q x).2.Intact up) : (l.foldl f p).2.Intact up :=
  List.foldlRecOn (motive := fun q : β × State => q.2.Intact up) l f h fun q hq x hx => hf q x hx hq

/-! ### Writes of memory -/

theorem store {pa : Nat} {bs : List Byte} (h : s.Intact up) : (s.store pa bs).Intact up := by
  cases up with
  | none => exact Memory.wf_write _ _ _ h
  | some => exact h

theorem fillFrame {frame size : Nat} {pattern : List Byte} (h : s.Intact up) : (s.fillFrame frame size pattern).Intact up := by
  cases up with
  | none => exact Memory.wf_write _ _ _ h
  | some => exact h

theorem wipe {pa n : Nat} (h : s.Intact up) : (s.wipe pa n).Intact up := by
  cases up with
  | none => exact Memory.wf_filter _ _ h
  | some => exact h

end State.Intact

/-! ## Acts -/

/-- The states in which an instruction stops are in order. -/
def Stop.Intact : Stop → Prop
  | .trap _ s | .done s => s.Intact none
  | .wait => True
  | .again f => ∀ s : State, s.Intact none → (f s).Intact none

/-- Where an act leads from a state. -/
def LeadsIntact {α : Type} : Except Stop (α × State) → Prop
  | .ok (_, s) => s.Intact none
  | .error e => e.Intact

/-- An act leads from a state in order to states in order. -/
def KeepsIntact {α : Type} (a : Act α) : Prop := ∀ s : State, s.Intact none → LeadsIntact (a s)

namespace KeepsIntact
variable {α β : Type} {a : Act α} {f : α → Act β} {g : State → State} {s t : State} {x : α}

theorem bind (ha : KeepsIntact a) (hf : ∀ x, KeepsIntact (f x)) : KeepsIntact (a >>= f) := by
  intro s hs
  have h := ha s hs
  rw [Act.bind_apply]
  revert h
  cases a s with
  | ok p => exact fun h => hf p.1 p.2 h
  | error e => exact fun h => h

theorem get {f : State → Act β} (hf : ∀ s : State, s.Intact none → KeepsIntact (f s)) : KeepsIntact (MonadState.get >>= f) :=
  fun s hs => hf s hs s hs

theorem pure : KeepsIntact (Pure.pure x : Act α) := fun _ hs => hs
theorem set (hs : s.Intact none) : KeepsIntact (MonadStateOf.set s) := fun _ _ => hs
theorem changed (hg : ∀ s : State, s.Intact none → (g s).Intact none) : KeepsIntact (modify g) := fun s hs => hg s hs

theorem ite {c : Prop} [Decidable c] {b : Act α} (ha : KeepsIntact a) (hb : KeepsIntact b) : KeepsIntact (if c then a else b) := by
  split <;> assumption

theorem raise {t : TrapInfo} : KeepsIntact (Machine.raise (α := α) t) := fun _ hs => hs
theorem trap {c : Cause} {n : Nat} : KeepsIntact (Machine.trap (α := α) c n) := raise
theorem waitHere : KeepsIntact (Machine.waitHere (α := α)) := fun _ _ => trivial
theorem waitAfter (hg : ∀ s : State, s.Intact none → (g s).Intact none) : KeepsIntact (Machine.waitAfter (α := α) g) := fun _ _ => hg
theorem finishWith (hs : s.Intact none) : KeepsIntact (Machine.finishWith (α := α) s) := fun _ _ => hs

/-- What would follow a stop is not reached. -/
theorem stop (ha : KeepsIntact a) (h : ∀ s, ∃ e, a s = .error e) : KeepsIntact (a >>= f) := by
  intro s hs
  have hc := ha s hs
  obtain ⟨e, he⟩ := h s
  rw [he] at hc
  rw [Act.bind_error he]
  exact hc

/-- An act that is made where a condition holds, before what follows in both cases. -/
theorem optional {c : Prop} [Decidable c] {a : Act Unit} {f : Unit → Act β} (ha : KeepsIntact a) (hf : ∀ x, KeepsIntact (f x)) :
    KeepsIntact (if c then a >>= f else f ()) := .ite (.bind ha hf) (hf ())

/-- A choice of an act, before what follows in both cases. -/
theorem choice {c : Prop} [Decidable c] {b : Act α} (ha : KeepsIntact a) (hb : KeepsIntact b) (hf : ∀ x, KeepsIntact (f x)) :
    KeepsIntact (if c then a >>= f else b >>= f) := .ite (.bind ha hf) (.bind hb hf)

/-- An act made for each entry of a list. -/
theorem forIn {γ : Type} {l : List γ} {b : β} {f : γ → β → Act (ForInStep β)} (hf : ∀ y b, KeepsIntact (f y b)) :
    KeepsIntact (ForIn.forIn l b f) := by
  induction l generalizing b with
  | nil => exact .pure
  | cons y l ih =>
    rw [List.forIn_cons]
    refine .bind (hf y b) fun r => ?_
    cases r with
    | done b => exact .pure
    | yield b => exact ih

theorem ok (ha : KeepsIntact a) (hs : s.Intact none) (h : a s = .ok (x, t)) : t.Intact none := by
  have hc := ha s hs
  rw [h] at hc
  exact hc

theorem trapped {t' : TrapInfo} (ha : KeepsIntact a) (hs : s.Intact none) (h : a s = .error (.trap t' t)) : t.Intact none := by
  have hc := ha s hs
  rw [h] at hc
  exact hc

theorem done (ha : KeepsIntact a) (hs : s.Intact none) (h : a s = .error (.done t)) : t.Intact none := by
  have hc := ha s hs
  rw [h] at hc
  exact hc

theorem again (ha : KeepsIntact a) (hs : s.Intact none) (h : a s = .error (.again g)) : (g s).Intact none := by
  have hc := ha s hs
  rw [h] at hc
  exact hc s hs

end KeepsIntact

/-! ## Answers -/

/-- Where a step leads is in order. -/
def AnswersIntact (a : Answered) : Prop := ∀ t : State, a = .next t → t.Intact none

theorem AnswersIntact.next {s : State} (h : s.Intact none) : AnswersIntact (.next s) := by
  rintro _ ⟨⟩
  exact h

theorem AnswersIntact.ite {c : Prop} [Decidable c] {a b : Answered} (ha : AnswersIntact a) (hb : AnswersIntact b) :
    AnswersIntact (if c then a else b) := by
  split <;> assumption

end Sys2Proof.Machine
end

section
/-! SUPPORT. What the units' work leaves in order (`State.Intact`), part 1. Each lemma follows the branches of
one function of the model. Here: parts of the state, paging, operands, unit registers and places of memory. -/

namespace Sys2Proof.Machine

open Sys2Proof

set_option autoImplicit true

section
variable {s : State} {up : Option (List Nat)}

/-! ## Parts -/

theorem State.Intact.onSlot (h : s.Intact up) : (s.onSlot k f).Intact up := h.same
theorem State.Intact.onCore (h : s.Intact up) : (s.onCore n f).Intact up := h.same
theorem State.Intact.onCluster (h : s.Intact up) : (s.onCluster n f).Intact up := h.same
theorem State.Intact.onRegion (h : s.Intact up) : (s.onRegion n f).Intact up := h.same
theorem State.Intact.onPort (h : s.Intact none) : (s.onPort n f).Intact none := h.same
theorem State.Intact.onHostStream (h : s.Intact up) : (s.onHostStream n f).Intact up := h.same
theorem State.Intact.onArray (h : s.Intact up) : (s.onArray c a f).Intact up := h.same
theorem State.Intact.onGrid (h : s.Intact up) : (s.onGrid n f).Intact up := h.same
theorem State.Intact.emit (h : s.Intact up) : (s.emit e).Intact up := h.same
theorem State.Intact.emits (h : s.Intact none) : (s.emits es).Intact none := h.same
theorem State.Intact.drawn (h : s.Intact up) : s.drawn.Intact up := h.same
theorem State.Intact.onGranule (h : s.Intact up) : (s.onGranule pa f).Intact up := h.same

theorem State.Intact.onGranules_go {t : State} (h : t.Intact up) : (State.onGranules.go f t g n).Intact up := by
  induction n generalizing t g with
  | zero => exact h
  | succ n ih => exact ih h.same

theorem State.Intact.onGranules (h : s.Intact up) : (s.onGranules pa n f).Intact up := h.onGranules_go
theorem State.Intact.setTag (h : s.Intact up) : (s.setTag pa t).Intact up := h.same
theorem State.Intact.storeData (h : s.Intact up) : (s.storeData pa bs bnd).Intact up := State.Intact.onGranules h.store.same
theorem State.Intact.storeCap (h : s.Intact none) : (s.storeCap pa r).Intact none := h.storeData.setTag
theorem State.Intact.poison (h : s.Intact up) : (s.poison pa).Intact up := h.same
theorem State.Intact.count (h : s.Intact up) : (s.count c n amount).Intact up := .ite h.same h

theorem State.Intact.record {source : Nat} {payload : Nat} (h : s.Intact up) : (s.record source sev kind payload tag).Intact up :=
  .ite (.ite h.same h.same) h.same

theorem State.Intact.openRecord {source : Nat} (h : s.Intact up) : (s.openRecord source sev kind contents tag).Intact up :=
  h.record

theorem State.Intact.corrected {region : Nat} {place : Nat} (h : s.Intact up) : (s.corrected region structure_ place).Intact up :=
  h.openRecord

theorem State.Intact.enterSlice (h : s.Intact up) : (s.enterSlice cls pa n).Intact up := .ite h h.same
theorem State.Intact.carry (h : s.Intact up) : (s.carry hd act).Intact up := h.same

theorem State.Intact.carryAll (h : s.Intact up) : (s.carryAll hd copies).Intact up := by
  dsimp only [State.carryAll]
  split
  · exact h
  · exact h.same

theorem State.Intact.carryTo {cores : List Nat} (h : s.Intact up) : (s.carryTo hd cores act).Intact up :=
  h.foldl fun _ _ _ h => h.carryAll

theorem State.Intact.fillGroups (h : s.Intact up) : (s.fillGroups p n).Intact up :=
  h.sameUp (by rw [s.fillGroups_eta]) fun q => s.fillGroups_fpctl p n q

theorem State.Intact.post (h : s.Intact up) : (s.post p q).Intact up :=
  h.sameUp (by rw [s.post_eta]) fun n => s.post_fpctl p q n

theorem State.Intact.send {cluster : Nat} (h : s.Intact up) : (s.send p cluster).Intact up := by
  dsimp only [State.send]
  split
  · exact h
  · exact State.Intact.post h.same

theorem State.Intact.toUbgen (h : s.Intact none) : (s.toUbgen m).Intact none := State.Intact.fillGroups h.same

/-! ## Paging -/

theorem State.Intact.mendWord {bits : Nat} (h : s.Intact up) : (s.mendWord at_ bits).Intact up := by
  dsimp only [State.mendWord]
  split
  · exact .ite (State.Intact.corrected h.same) (State.Intact.record h.same)
  · exact .ite (.ite (State.Intact.corrected h.same) (State.Intact.record h.same))
      (.ite (State.Intact.corrected (State.Intact.count h.same)) (State.Intact.record h.same))
  · exact h.same

theorem State.Intact.mendMemory (h : s.Intact up) : (s.mendMemory pa n).Intact up := by
  unfold State.mendMemory
  refine State.Intact.foldl h fun _ _ _ h => ?_
  split
  · exact .ite h.mendWord h
  · exact .ite h.mendWord h
  · exact h

theorem State.Intact.mendWalk (h : s.Intact up) : (s.mendWalk ctx va).Intact up := by
  dsimp only [State.mendWalk]
  split
  · exact h
  · exact h.mendMemory.foldl fun _ _ _ h => h.mendMemory

theorem State.Intact.translate (h : s.Intact up) : (s.translate cache ctx va).2.Intact up := by
  have hm : (s.mendWalk ctx va).Intact up := h.mendWalk
  dsimp only [State.translate]
  split
  · exact h
  · split
    · split
      · exact hm.same
      · exact hm
    · split
      · exact .ite_snd hm (.ite_snd hm.same hm.same)
      · refine .ite_snd ?_ hm.same
        split
        · exact hm.same
        · exact hm.same

/-! ## Ops -/

theorem State.Intact.onHere (h : s.Intact none) : (s.onHere f).Intact none := h.same
theorem KeepsIntact.illegal {α : Type} : KeepsIntact (Machine.illegal (α := α)) := .get fun _ _ => .raise
theorem KeepsIntact.atLevels : KeepsIntact (atLevels allowed) := .get fun _ _ => .ite .pure (.ite .trap .illegal)

theorem KeepsIntact.enter : KeepsIntact (enter allowed srcs dsts) := by
  dsimp only [Machine.enter]
  refine .bind .atLevels fun _ => .get fun _ _ => ?_
  split
  · exact .stop .illegal fun _ => ⟨_, rfl⟩
  · split
    · exact .stop .waitHere fun _ => ⟨_, rfl⟩
    · split
      · exact .stop .raise fun _ => ⟨_, rfl⟩
      · split
        · exact .ite .waitHere .trap
        · exact .pure

theorem State.Intact.takeElement (h : s.Intact none) : (takeElement r q s).2.Intact none := by
  dsimp only [Machine.takeElement]
  split
  · exact h
  · exact .ite h.same h.same

theorem State.Intact.correctedRegister (h : s.Intact none) : (s.correctedRegister n).Intact none :=
  .ite (State.Intact.corrected h.same) h.count.corrected

theorem KeepsIntact.source : KeepsIntact (source r) := by
  dsimp only [Machine.source]
  refine .get fun _ h => ?_
  split
  · exact .bind (.set h.takeElement) fun _ => .pure
  · split
    · exact .pure
    · refine .optional .trap fun _ => .bind ?_ fun _ => ?_
      · exact .set (State.Intact.foldl h.same fun _ _ _ h => h.correctedRegister)
      · exact .pure

theorem KeepsIntact.exactSource : KeepsIntact (exactSource r) := .bind .source fun _ => .ite .trap .pure
theorem KeepsIntact.refuseBounded : KeepsIntact (refuseBounded v) := .ite .trap .pure

theorem KeepsIntact.sources : KeepsIntact (Machine.sources rs) := by
  induction rs with
  | nil => exact .pure
  | cons r rs ih => exact .bind .source fun _ => .bind ih fun _ => .pure

theorem State.Intact.writeReg (h : s.Intact up) : (s.writeReg k r v).Intact up := .ite h h.same
theorem KeepsIntact.result : KeepsIntact (result r v) := .changed fun _ h => h.writeReg
theorem State.Intact.retired (h : s.Intact none) : s.retired.Intact none := .ite h h.count
theorem State.Intact.retire (h : s.Intact none) : (State.retire la s).Intact none := State.Intact.retired h.same
theorem KeepsIntact.retire {la : Look} : KeepsIntact (Machine.retire la) := .changed fun _ h => h.retire

theorem State.Intact.answerCall (h : s.Intact none) : (s.answerCall src t r status rcode vals).Intact none :=
  .ite h.same h.send

theorem State.Intact.endGrid (h : s.Intact up) : (s.endGrid n e).Intact up := by
  dsimp only [State.endGrid]
  split
  · exact h
  · exact .ite h (.ite (.ite h h.same) (.ite h.same (.ite h.same h.same)))

theorem State.Intact.freeBankSlot (h : s.Intact none) : (s.freeBankSlot k).Intact none := h.same

theorem State.Intact.endBankTask (h : s.Intact none) : (s.endBankTask k).Intact none := by
  dsimp only [State.endBankTask]
  refine State.Intact.freeBankSlot ?_
  split
  · split
    · exact .ite h.answerCall h
    · exact h
  · exact h

theorem State.Intact.bankFault (h : s.Intact none) : (s.bankFault k t).Intact none := by
  dsimp only [State.bankFault]
  refine State.Intact.freeBankSlot ?_
  split
  · split
    · exact .ite h h.answerCall
    · exact h.endGrid
  · exact h

theorem State.Intact.handBack (h : s.Intact none) : (s.handBack k).Intact none := h.same

theorem State.Intact.tryBind (h : s.Intact none) : (s.tryBind k v).2.Intact none := by
  refine .ite_snd h ?_
  dsimp only
  exact State.Intact.onSlot (h.foldl fun _ _ _ h => h.same)

theorem State.Intact.carryDesk (h : s.Intact none) : (s.carryDesk src die op r e).Intact none := h.same
theorem State.Intact.flushBarrier (h : s.Intact none) : (s.flushBarrier k).Intact none := .ite h h.same
theorem State.Intact.reportTrap (h : s.Intact none) : (s.reportTrap k service).Intact none := h.same

theorem State.Intact.takeTrap (h : s.Intact none) : (s.takeTrap t la).Intact none := by
  dsimp only [State.takeTrap]
  split
  · exact h.bankFault
  · split
    · refine State.Intact.onSlot ?_
      split
      · exact h.flushBarrier.handBack.onSlot.count
      · exact .ite h.flushBarrier.handBack.onSlot.count h.flushBarrier.handBack.onSlot
    · refine State.Intact.reportTrap (State.Intact.onSlot ?_)
      split
      · exact h.flushBarrier.handBack.onSlot.count
      · exact .ite h.flushBarrier.handBack.onSlot.count h.flushBarrier.handBack.onSlot
    · refine State.Intact.reportTrap (State.Intact.record (State.Intact.onSlot ?_))
      split
      · exact h.flushBarrier.handBack.onSlot.count
      · exact .ite h.flushBarrier.handBack.onSlot.count h.flushBarrier.handBack.onSlot
    · split
      · refine State.Intact.endGrid ?_
        split
        · exact h.flushBarrier.handBack.onSlot.count
        · exact .ite h.flushBarrier.handBack.onSlot.count h.flushBarrier.handBack.onSlot
      · refine State.Intact.onSlot ?_
        split
        · exact h.flushBarrier.handBack.onSlot.count
        · exact .ite h.flushBarrier.handBack.onSlot.count h.flushBarrier.handBack.onSlot

theorem State.Intact.lateFault (h : s.Intact none) : (s.lateFault k g t).Intact none := by
  dsimp only [State.lateFault]
  split
  · exact State.Intact.endGrid (.ite h.flushBarrier.onSlot h)
  · exact .ite h.bankFault (h.same (t := { s with cur := k })).takeTrap.same

theorem State.Intact.resume (h : s.Intact none) : (s.resume k).Intact none := by
  unfold State.resume
  extract_lets t v u
  have ht : t.Intact none := h.onSlot
  clear_value t
  have hu : u.Intact none := by
    refine .ite ht ?_
    split
    · exact ht.tryBind.snd ‹_›
    · exact (ht.tryBind.snd ‹_›).onSlot
  exact hu.onSlot

theorem State.Intact.jumpTo (h : s.Intact none) : (s.jumpTo pc).Intact none := .ite (State.Intact.endBankTask
    (State.Intact.retired h.same)) (State.Intact.retired h.same)

theorem KeepsIntact.jumpTo : KeepsIntact (jumpTo pc) := .changed fun _ h => h.jumpTo

theorem AnswersIntact.settle {a : Act Unit} (ha : KeepsIntact a) (h : s.Intact none) : AnswersIntact (Machine.settle la a s) := by
  have hc := ha s h
  revert hc
  unfold Machine.settle
  cases a s with
  | ok p => exact fun hc => .next hc
  | error e =>
    cases e with
    | trap t u => exact fun hc => .next (State.Intact.takeTrap hc)
    | wait => exact fun _ => .next h.same
    | again f => exact fun hc => .next (State.Intact.same (hc s h))
    | done u => exact fun hc => .next hc

/-! ## Units -/

theorem State.Intact.writeNrctl (h : s.Intact up) : (s.writeNrctl src r v).Intact up := .ite h.same h
theorem State.Intact.setPortState (h : s.Intact none) : (s.setPortState p st).Intact none := h.onPort.record

theorem State.Intact.portDown (h : s.Intact none) : (s.portDown p st).Intact none := by
  dsimp only [State.portDown]
  split
  · exact h.onPort.setPortState.onPort
  · refine State.Intact.foldl h.onPort.setPortState fun _ _ _ h => ?_
    split
    · exact h.post
    · exact h

theorem State.Intact.writeFpctlDown (h : s.Intact none) : (s.writeFpctlDown src p).Intact none := .ite h.onPort.portDown h

theorem State.Intact.writeFpctlEn (h : s.Intact none) : (s.writeFpctlEn src p en).Intact none := by
  dsimp only [State.writeFpctlEn]
  split
  · exact .ite (.ite h.onPort.onPort.setPortState h.onPort) (.ite (.ite h.onPort h.onPort.portDown) h.onPort.onPort)
  · exact h

theorem State.Intact.writeFpctl (h : s.Intact none) : (s.writeFpctl src p v).Intact none :=
  .ite (.ite h.onPort.writeFpctlDown h.writeFpctlEn) h

theorem State.Intact.writeFshare (h : s.Intact none) : (s.writeFshare src p v).Intact none := .ite (.ite h.record h.onPort) h
theorem State.Intact.writeHshare (h : s.Intact up) : (s.writeHshare src m v).Intact up := .ite h.same h
theorem State.Intact.writeSshare (h : s.Intact up) : (s.writeSshare src d v).Intact up := .ite h.same h
theorem State.Intact.writeHlin (h : s.Intact up) : (s.writeHlin src m v).Intact up := .ite h.same h
theorem State.Intact.writeCtxbase (h : s.Intact up) : (s.writeCtxbase src v).Intact up := .ite h.same h
theorem State.Intact.writeEltab (h : s.Intact up) : (s.writeEltab src v).Intact up := .ite h.same h
theorem State.Intact.writeRtab (h : s.Intact up) : (s.writeRtab src v).Intact up := .ite h.same h
theorem State.Intact.writeXctl (h : s.Intact up) : (s.writeXctl src c a v).Intact up := .ite h.same h
theorem State.Intact.writeMqctl (h : s.Intact up) : (s.writeMqctl src n v).Intact up := .ite h.same h

theorem State.Intact.writeUnit (h : s.Intact none) : (s.writeUnit src u v).Intact none := by
  unfold State.writeUnit
  split
  · exact h.writeRtab
  · exact h.writeCtxbase
  · exact h.writeEltab
  · exact h.writeNrctl
  · exact h.writeSshare
  · exact h.writeHshare
  · exact h.writeHlin
  · exact h.writeFshare
  · exact h.writeFpctl
  · exact .ite h.same h
  · exact h.writeXctl
  · exact h.writeMqctl
  · exact h
  · exact h
  · exact h
  · exact h

theorem State.Intact.writeBankEntry (h : s.Intact up) : (s.writeBankEntry src b i v).Intact up := .ite h.same h
theorem State.Intact.writeBankCode (h : s.Intact up) : (s.writeBankCode src b off bs).Intact up := .ite h.store h

/-! ## Spots -/

theorem State.Intact.resolve (h : s.Intact up) : (s.resolve a va n u acq).2.Intact up := by
  unfold State.resolve
  split
  · exact h
  · exact h
  · split
    · exact h
    · exact .ite_snd h h
  · split
    · exact h
    · split
      · exact h
      · split <;> exact h
  · split
    · exact h
    · split
      · exact h.translate.snd ‹_›
      · exact h.translate.snd ‹_›
      · split
        · exact h.translate.snd ‹_›
        · split
          · exact h.translate.snd ‹_›
          · exact h.translate.snd ‹_›
          · split
            · exact .ite_snd (h.translate.snd ‹_›) (h.translate.snd ‹_›)
            · exact h.translate.snd ‹_›

theorem State.Intact.writeDescriptor (h : s.Intact up) : (s.writeDescriptor c i v).Intact up := .ite h.same h
theorem State.Intact.writeImage (h : s.Intact up) : (s.writeImage k r v).Intact up := .ite h h.writeReg

theorem State.Intact.writeEngine (h : s.Intact up) : (s.writeEngine c o bs kind).Intact up := by
  dsimp only [State.writeEngine]
  split
  · refine State.Intact.onCore ?_
    split
    · refine State.Intact.emit ?_
      split
      · split
        · exact h.storeData.setTag
        · exact h.storeData.onGranules
        · exact h.storeData
      · exact h
    · split
      · split
        · exact h.storeData.setTag
        · exact h.storeData.onGranules
        · exact h.storeData
      · exact h
  · split
    · refine State.Intact.emit ?_
      split
      · split
        · exact h.storeData.setTag
        · exact h.storeData.onGranules
        · exact h.storeData
      · exact h
    · split
      · split
        · exact h.storeData.setTag
        · exact h.storeData.onGranules
        · exact h.storeData
      · exact h

theorem State.Intact.writeMem (h : s.Intact up) : (s.writeMem pa bs kind).Intact up := by
  dsimp only [State.writeMem]
  split
  · exact h.storeData
  · exact h.storeData.setTag
  · split
    · exact h.storeData.onCore
    · exact h.storeData.onGranules

theorem State.Intact.writeSpot (h : s.Intact none) : (s.writeSpot w sp bs kind).Intact none := by
  unfold State.writeSpot
  split
  · exact h.writeMem
  · exact h.writeMem
  · exact h
  · exact h
  · exact .ite h.writeImage h
  · exact h.writeDescriptor
  · exact h.writeEngine
  · split
    · exact h.writeBankCode
    · exact h.writeBankEntry
    · exact h.writeUnit

theorem State.Intact.freeWay (h : s.Intact up) : (s.freeWay pa).Intact up := by
  dsimp only [State.freeWay]
  split
  · exact h
  · split
    · exact h.same
    · exact h

theorem State.Intact.touch (h : s.Intact up) : (s.touch pa dirty).Intact up := .ite h h.freeWay.same
theorem State.Intact.invalidate (h : s.Intact up) : (s.invalidate pa me).Intact up := .ite h h.same

/-! ## Operands -/

theorem KeepsIntact.checkBase : KeepsIntact (checkBase c ea n align perms) :=
  .bind .refuseBounded fun _ => .optional .trap fun _ => .ite .trap .pure

theorem KeepsIntact.scopeOperand : KeepsIntact (scopeOperand r) := by
  unfold Machine.scopeOperand
  refine .bind .exactSource fun _ => ?_
  split
  · exact .pure
  · exact .trap

/-! ## Flags -/

theorem State.Intact.tally (h : s.Intact none) : (s.tally c t).Intact none := h.count.count.count.count

end

end Sys2Proof.Machine
end

section
/-! SUPPORT. What the units' work leaves in order (`State.Intact`), part 2. Each lemma follows the branches of
one function of the model. Here: memory, integer and control instructions, loads and stores, the Desk. -/

namespace Sys2Proof.Machine

open Sys2Proof

set_option autoImplicit true

section
variable {s : State} {up : Option (List Nat)}

/-! ## Memory -/

theorem State.Intact.parkAccess (h : s.Intact none) : (s.parkAccess k ctx va).Intact none := .ite h h.same
theorem State.Intact.askPage (h : s.Intact none) : (s.askPage ctx va).Intact none := .ite h h.same

theorem KeepsIntact.findParts : KeepsIntact (Machine.findParts u acq parts) := by
  induction parts with
  | nil => exact .pure
  | cons p parts ih =>
    refine .get fun s h => ?_
    dsimp only
    split
    · exact .bind (.set h.resolve) fun _ => .ite (.stop .waitHere fun _ => ⟨_, rfl⟩) (.bind ih fun _ => .pure)
    · exact .waitAfter fun _ h => h.parkAccess
    · exact .waitAfter fun _ h => h.askPage
    · exact .trap
    · exact .trap

theorem State.Intact.beforeRead (h : s.Intact up) : (s.beforeRead cls sp n).Intact up := by
  dsimp only [State.beforeRead]
  split
  · exact State.Intact.touch (.ite h.enterSlice h.enterSlice.mendMemory)
  · exact .ite h.enterSlice h.enterSlice.mendMemory
  · exact .ite h.enterSlice h.enterSlice.mendMemory
  · exact h

theorem State.Intact.readParts (h : s.Intact none) : (s.readParts cls parts).2.Intact none := by
  induction parts generalizing s with
  | nil => exact h
  | cons p parts ih => exact ih h.beforeRead

theorem State.Intact.afterWrite (h : s.Intact up) : (s.afterWrite cls me sp n).Intact up := by
  unfold State.afterWrite
  split
  · exact .ite h.enterSlice.touch.invalidate h
  · exact h.enterSlice
  · exact h

theorem State.Intact.writeParts (h : s.Intact none) : (s.writeParts cls w me kind parts bs).Intact none := by
  induction parts generalizing s bs with
  | nil => exact h
  | cons p parts ih => exact ih h.writeSpot.afterWrite

theorem State.Intact.ownFabricParts (h : s.Intact none) : (s.ownFabricParts a u acq parts).2.Intact none := by
  induction parts generalizing s with
  | nil => exact h
  | cons p parts ih =>
    unfold State.ownFabricParts
    split
    · have h' := h.resolve.snd ‹_›
      split
      · exact h'
      · split
        · exact (ih h').snd ‹_›
        · exact ih h'
    · exact h.resolve.snd ‹_›
    · exact (h.resolve.snd ‹_›).askPage
    · exact h.resolve.snd ‹_›
    · exact h.resolve.snd ‹_›

theorem KeepsIntact.waitOutside {α : Type} : KeepsIntact (Machine.waitOutside (α := α) s t va) :=
  .waitAfter fun _ h => by
    dsimp only
    exact .ite (h.same (t := State.emits _ _)).parkAccess h.same

theorem KeepsIntact.fetch : KeepsIntact (fetch c ea n align perms u) := by
  dsimp only [Machine.fetch]
  refine .bind .checkBase fun _ => .get fun _ h => ?_
  split
  · split
    · exact .pure
    · split
      · exact .bind (.set (h.ownFabricParts.snd ‹_›)) fun _ => .pure
      · exact .waitOutside
      · exact .bind (.set (h.ownFabricParts.snd ‹_›).readParts) fun _ => .ite .pure .pure
  · exact .bind .findParts fun _ => .get fun _ h1 => .bind (.set h1.readParts) fun _ => .optional .trap fun _ => .pure

theorem KeepsIntact.takeEntry : KeepsIntact (takeEntry) := by
  unfold Machine.takeEntry
  refine .get fun _ _ => ?_
  split
  · exact .pure
  · exact .waitHere

theorem KeepsIntact.sendAway : KeepsIntact (sendAway p unroutable) :=
  .changed fun _ h => .ite h.count.emit h.count.send

theorem KeepsIntact.takeBoard {count : Nat} : KeepsIntact (takeBoard gd count kind ea) :=
  .bind .takeEntry fun _ => .get fun _ h => .bind (.set h.same) fun _ => .pure

theorem KeepsIntact.expectReply {count : Nat} : KeepsIntact (expectReply gd count kind ea p) :=
  .bind .takeBoard fun _ => .get fun _ _ => .sendAway

theorem State.Intact.mark (h : s.Intact none) : (s.mark k r m).Intact none := .ite h h.same

theorem State.Intact.evictLine (h : s.Intact none) : (s.evictLine n).Intact none := by
  dsimp only [State.evictLine]
  split
  · exact h
  · split
    · exact h
    · split <;> exact h.same

theorem State.Intact.fillPortion (h : s.Intact none) : (s.fillPortion k ea).Intact none := by
  dsimp only [State.fillPortion]
  split
  · exact h
  · split
    · exact .ite h h.evictLine.onCore
    · exact h

theorem KeepsIntact.load : KeepsIntact (load la gd gs1 off n align sgn) := by
  dsimp only [Machine.load]
  refine .bind .enter fun _ => .bind .source fun _ => .bind .fetch fun _ => ?_
  split
  · exact .bind .result fun _ => .bind (.changed fun _ h => .ite h.fillPortion h) fun _ => .retire
  · exact .bind (.changed fun _ h => h.mark) fun _ => .retire
  · exact .bind .expectReply fun _ => .retire

theorem KeepsIntact.loadCap : KeepsIntact (loadCap la gd gs1 off) := by
  dsimp only [Machine.loadCap]
  refine .bind .enter fun _ => .bind .source fun _ => .bind .fetch fun _ => ?_
  split
  · exact .bind .result fun _ => .retire
  · exact .bind (.changed fun _ h => h.mark) fun _ => .retire
  · exact .bind .expectReply fun _ => .retire

theorem State.Intact.visibleAt (h : s.Intact none) : (s.visibleAt k n parts).Intact none := h.same

theorem State.Intact.countStore (h : s.Intact none) : (s.countStore k n).Intact none := .ite (State.Intact.flushBarrier h.same)
    h.same

theorem KeepsIntact.takePosted : KeepsIntact (takePosted dev ea n barrier call) := by
  dsimp only [Machine.takePosted]
  refine .get fun _ h => ?_
  split
  · exact .waitHere
  · exact .bind (.set h.same) fun _ => .pure

theorem KeepsIntact.storeRefused : KeepsIntact (storeRefused e dev ea) := .changed fun _ h => h.lateFault

theorem KeepsIntact.storeAt {count : Bool} : KeepsIntact (storeAt c ea bs kind align perms count) := by
  dsimp only [Machine.storeAt]
  refine .bind .checkBase fun _ => .get fun _ h => ?_
  split
  · split
    · exact .bind .takePosted fun _ => .bind (.changed fun _ h => .ite h.countStore h) fun _ => .sendAway
    · split
      · exact .bind (.set (h.ownFabricParts.snd ‹_›)) fun _ => .storeRefused
      · exact .waitOutside
      · split
        · exact .bind (.set (h.ownFabricParts.snd ‹_›)) fun _ => .storeRefused
        · refine .set ?_
          exact .ite (h.ownFabricParts.snd ‹_›).writeParts.countStore.visibleAt (h.ownFabricParts.snd ‹_›).writeParts
  · refine .bind .findParts fun _ => .get fun _ h1 => ?_
    exact .optional .trap fun _ => .set (.ite h1.writeParts.countStore.visibleAt h1.writeParts)

theorem KeepsIntact.store : KeepsIntact (store la gs1 gs2 off n align) := by
  unfold Machine.store
  refine .bind .enter fun _ => .bind .source fun _ => .bind .source fun _ => ?_
  exact .bind .refuseBounded fun _ => .bind .storeAt fun _ => .retire

theorem KeepsIntact.awaitEarlier : KeepsIntact (awaitEarlier pod) := .get fun _ _ => .ite .waitHere .pure

/-! ## Integer -/

theorem KeepsIntact.registerOp : KeepsIntact (registerOp gd gs1 gs2 f) := by
  unfold Machine.registerOp
  exact .bind .enter fun _ => .bind .source fun _ => .bind .source fun _ => .bind .result fun _ => .retire

theorem KeepsIntact.immediateOp : KeepsIntact (immediateOp rd rs1 b f) := by
  unfold Machine.immediateOp
  split
  · exact .retire
  · exact .bind .enter fun _ => .bind .source fun _ => .bind .result fun _ => .retire

theorem KeepsIntact.upperOp : KeepsIntact (upperOp rd v) :=
  .ite .retire (.bind .enter fun _ => .get fun _ _ => .bind .result fun _ => .retire)

theorem AnswersIntact.execLui (h : s.Intact none) : AnswersIntact (execLui rd imm s) := .settle .upperOp h
theorem AnswersIntact.execAuipc (h : s.Intact none) : AnswersIntact (execAuipc rd imm s) := .settle .upperOp h
theorem AnswersIntact.execAddi (h : s.Intact none) : AnswersIntact (execAddi rd rs1 imm s) := .settle .immediateOp h
theorem AnswersIntact.execSlti (h : s.Intact none) : AnswersIntact (execSlti rd rs1 imm s) := .settle .immediateOp h
theorem AnswersIntact.execSltiu (h : s.Intact none) : AnswersIntact (execSltiu rd rs1 imm s) := .settle .immediateOp h
theorem AnswersIntact.execXori (h : s.Intact none) : AnswersIntact (execXori rd rs1 imm s) := .settle .immediateOp h
theorem AnswersIntact.execOri (h : s.Intact none) : AnswersIntact (execOri rd rs1 imm s) := .settle .immediateOp h
theorem AnswersIntact.execAndi (h : s.Intact none) : AnswersIntact (execAndi rd rs1 imm s) := .settle .immediateOp h
theorem AnswersIntact.execAddiw (h : s.Intact none) : AnswersIntact (execAddiw rd rs1 imm s) := .settle .immediateOp h
theorem AnswersIntact.execSlli (h : s.Intact none) : AnswersIntact (execSlli rd rs1 sh s) := .settle .immediateOp h
theorem AnswersIntact.execSrli (h : s.Intact none) : AnswersIntact (execSrli rd rs1 sh s) := .settle .immediateOp h
theorem AnswersIntact.execSrai (h : s.Intact none) : AnswersIntact (execSrai rd rs1 sh s) := .settle .immediateOp h
theorem AnswersIntact.execSlliw (h : s.Intact none) : AnswersIntact (execSlliw rd rs1 sh s) := .settle .immediateOp h
theorem AnswersIntact.execSrliw (h : s.Intact none) : AnswersIntact (execSrliw rd rs1 sh s) := .settle .immediateOp h
theorem AnswersIntact.execSraiw (h : s.Intact none) : AnswersIntact (execSraiw rd rs1 sh s) := .settle .immediateOp h
theorem AnswersIntact.execAdd (h : s.Intact none) : AnswersIntact (execAdd gd gs1 gs2 s) := .settle .registerOp h
theorem AnswersIntact.execSub (h : s.Intact none) : AnswersIntact (execSub gd gs1 gs2 s) := .settle .registerOp h
theorem AnswersIntact.execSll (h : s.Intact none) : AnswersIntact (execSll gd gs1 gs2 s) := .settle .registerOp h
theorem AnswersIntact.execSlt (h : s.Intact none) : AnswersIntact (execSlt gd gs1 gs2 s) := .settle .registerOp h
theorem AnswersIntact.execSltu (h : s.Intact none) : AnswersIntact (execSltu gd gs1 gs2 s) := .settle .registerOp h
theorem AnswersIntact.execXor (h : s.Intact none) : AnswersIntact (execXor gd gs1 gs2 s) := .settle .registerOp h
theorem AnswersIntact.execSrl (h : s.Intact none) : AnswersIntact (execSrl gd gs1 gs2 s) := .settle .registerOp h
theorem AnswersIntact.execSra (h : s.Intact none) : AnswersIntact (execSra gd gs1 gs2 s) := .settle .registerOp h
theorem AnswersIntact.execOr (h : s.Intact none) : AnswersIntact (execOr gd gs1 gs2 s) := .settle .registerOp h
theorem AnswersIntact.execAnd (h : s.Intact none) : AnswersIntact (execAnd gd gs1 gs2 s) := .settle .registerOp h
theorem AnswersIntact.execAddw (h : s.Intact none) : AnswersIntact (execAddw gd gs1 gs2 s) := .settle .registerOp h
theorem AnswersIntact.execSubw (h : s.Intact none) : AnswersIntact (execSubw gd gs1 gs2 s) := .settle .registerOp h
theorem AnswersIntact.execSllw (h : s.Intact none) : AnswersIntact (execSllw gd gs1 gs2 s) := .settle .registerOp h
theorem AnswersIntact.execSrlw (h : s.Intact none) : AnswersIntact (execSrlw gd gs1 gs2 s) := .settle .registerOp h
theorem AnswersIntact.execSraw (h : s.Intact none) : AnswersIntact (execSraw gd gs1 gs2 s) := .settle .registerOp h
theorem AnswersIntact.execMul (h : s.Intact none) : AnswersIntact (execMul gd gs1 gs2 s) := .settle .registerOp h
theorem AnswersIntact.execMulh (h : s.Intact none) : AnswersIntact (execMulh gd gs1 gs2 s) := .settle .registerOp h
theorem AnswersIntact.execMulhsu (h : s.Intact none) : AnswersIntact (execMulhsu gd gs1 gs2 s) := .settle .registerOp h
theorem AnswersIntact.execMulhu (h : s.Intact none) : AnswersIntact (execMulhu gd gs1 gs2 s) := .settle .registerOp h
theorem AnswersIntact.execDiv (h : s.Intact none) : AnswersIntact (execDiv gd gs1 gs2 s) := .settle .registerOp h
theorem AnswersIntact.execDivu (h : s.Intact none) : AnswersIntact (execDivu gd gs1 gs2 s) := .settle .registerOp h
theorem AnswersIntact.execRem (h : s.Intact none) : AnswersIntact (execRem gd gs1 gs2 s) := .settle .registerOp h
theorem AnswersIntact.execRemu (h : s.Intact none) : AnswersIntact (execRemu gd gs1 gs2 s) := .settle .registerOp h
theorem AnswersIntact.execMulw (h : s.Intact none) : AnswersIntact (execMulw gd gs1 gs2 s) := .settle .registerOp h
theorem AnswersIntact.execDivw (h : s.Intact none) : AnswersIntact (execDivw gd gs1 gs2 s) := .settle .registerOp h
theorem AnswersIntact.execDivuw (h : s.Intact none) : AnswersIntact (execDivuw gd gs1 gs2 s) := .settle .registerOp h
theorem AnswersIntact.execRemw (h : s.Intact none) : AnswersIntact (execRemw gd gs1 gs2 s) := .settle .registerOp h
theorem AnswersIntact.execRemuw (h : s.Intact none) : AnswersIntact (execRemuw gd gs1 gs2 s) := .settle .registerOp h

/-! ## Control -/

theorem KeepsIntact.checkTarget : KeepsIntact (checkTarget t) := .ite .trap .pure

theorem KeepsIntact.branch : KeepsIntact (branch c rs1 rs2 off) := by
  dsimp only [Machine.branch]
  refine .bind .enter fun _ => .bind .source fun _ => .bind .source fun _ => .bind .refuseBounded fun _ => ?_
  exact .bind .refuseBounded fun _ => .get fun _ _ => .ite (.bind .checkTarget fun _ => .jumpTo) .jumpTo

theorem AnswersIntact.execBeq (h : s.Intact none) : AnswersIntact (execBeq rs1 rs2 off s) := .settle .branch h
theorem AnswersIntact.execBne (h : s.Intact none) : AnswersIntact (execBne rs1 rs2 off s) := .settle .branch h
theorem AnswersIntact.execBlt (h : s.Intact none) : AnswersIntact (execBlt rs1 rs2 off s) := .settle .branch h
theorem AnswersIntact.execBge (h : s.Intact none) : AnswersIntact (execBge rs1 rs2 off s) := .settle .branch h
theorem AnswersIntact.execBltu (h : s.Intact none) : AnswersIntact (execBltu rs1 rs2 off s) := .settle .branch h
theorem AnswersIntact.execBgeu (h : s.Intact none) : AnswersIntact (execBgeu rs1 rs2 off s) := .settle .branch h

theorem AnswersIntact.execJal (h : s.Intact none) : AnswersIntact (execJal rd off s) := by
  dsimp only [Machine.execJal]
  exact .settle (.bind .enter fun _ => .get fun _ _ => .bind .checkTarget fun _ => .bind .result fun _ => .jumpTo) h

theorem KeepsIntact.jalrTarget : KeepsIntact (jalrTarget v off) := by
  dsimp only [Machine.jalrTarget]
  split
  · exact .trap
  · exact .ite .trap .pure
  · exact .ite .trap .pure
  · exact .pure

theorem AnswersIntact.execJalr (h : s.Intact none) : AnswersIntact (execJalr rd rs1 imm s) := by
  dsimp only [Machine.execJalr]
  exact .settle (.bind .enter fun _ => .bind .source fun _ => .bind .jalrTarget fun _ => .bind .checkTarget fun _ =>
      .get fun _ _ => .bind .result fun _ => .jumpTo) h

/-! ## LoadStore -/

theorem AnswersIntact.execLdI8 (h : s.Intact none) : AnswersIntact (execLdI8 rd rs1 imm s) := .settle .load h
theorem AnswersIntact.execLdI16 (h : s.Intact none) : AnswersIntact (execLdI16 rd rs1 imm s) := .settle .load h
theorem AnswersIntact.execLdI32 (h : s.Intact none) : AnswersIntact (execLdI32 rd rs1 imm s) := .settle .load h
theorem AnswersIntact.execLdI64 (h : s.Intact none) : AnswersIntact (execLdI64 rd rs1 imm s) := .settle .load h
theorem AnswersIntact.execLdN8 (h : s.Intact none) : AnswersIntact (execLdN8 rd rs1 imm s) := .settle .load h
theorem AnswersIntact.execLdN16 (h : s.Intact none) : AnswersIntact (execLdN16 rd rs1 imm s) := .settle .load h
theorem AnswersIntact.execLdN32 (h : s.Intact none) : AnswersIntact (execLdN32 rd rs1 imm s) := .settle .load h
theorem AnswersIntact.execStI8 (h : s.Intact none) : AnswersIntact (execStI8 rs2 rs1 imm s) := .settle .store h
theorem AnswersIntact.execStI16 (h : s.Intact none) : AnswersIntact (execStI16 rs2 rs1 imm s) := .settle .store h
theorem AnswersIntact.execStI32 (h : s.Intact none) : AnswersIntact (execStI32 rs2 rs1 imm s) := .settle .store h
theorem AnswersIntact.execStI64 (h : s.Intact none) : AnswersIntact (execStI64 rs2 rs1 imm s) := .settle .store h
theorem AnswersIntact.execLdlI8 (h : s.Intact none) : AnswersIntact (execLdlI8 la gd gs1 off s) := .settle .load h
theorem AnswersIntact.execLdlN8 (h : s.Intact none) : AnswersIntact (execLdlN8 la gd gs1 off s) := .settle .load h
theorem AnswersIntact.execLdlI16 (h : s.Intact none) : AnswersIntact (execLdlI16 la gd gs1 off s) := .settle .load h
theorem AnswersIntact.execLdlN16 (h : s.Intact none) : AnswersIntact (execLdlN16 la gd gs1 off s) := .settle .load h
theorem AnswersIntact.execLdlI32 (h : s.Intact none) : AnswersIntact (execLdlI32 la gd gs1 off s) := .settle .load h
theorem AnswersIntact.execLdlN32 (h : s.Intact none) : AnswersIntact (execLdlN32 la gd gs1 off s) := .settle .load h
theorem AnswersIntact.execLdlI64 (h : s.Intact none) : AnswersIntact (execLdlI64 la gd gs1 off s) := .settle .load h
theorem AnswersIntact.execLdq (h : s.Intact none) : AnswersIntact (execLdq la gd gs1 off s) := .settle .load h
theorem AnswersIntact.execStlI8 (h : s.Intact none) : AnswersIntact (execStlI8 la gs1 gs2 off s) := .settle .store h
theorem AnswersIntact.execStlI16 (h : s.Intact none) : AnswersIntact (execStlI16 la gs1 gs2 off s) := .settle .store h
theorem AnswersIntact.execStlI32 (h : s.Intact none) : AnswersIntact (execStlI32 la gs1 gs2 off s) := .settle .store h
theorem AnswersIntact.execStlI64 (h : s.Intact none) : AnswersIntact (execStlI64 la gs1 gs2 off s) := .settle .store h
theorem AnswersIntact.execStq (h : s.Intact none) : AnswersIntact (execStq la gs1 gs2 off s) := .settle .store h

theorem AnswersIntact.execSbB (h : s.Intact none) : AnswersIntact (execSbB la gs1 gs2 off s) := by
  unfold Machine.execSbB
  exact .settle (.bind .enter fun _ => .bind .source fun _ => .bind .source fun _ => .bind .storeAt fun _ => .retire) h

theorem AnswersIntact.execCld (h : s.Intact none) : AnswersIntact (execCld la gd gs1 off s) := .settle .loadCap h

theorem AnswersIntact.execCst (h : s.Intact none) : AnswersIntact (execCst la gs1 gs2 off s) := by
  dsimp only [Machine.execCst]
  exact .settle (.bind .enter fun _ => .bind .source fun _ => .bind .source fun _ => .bind .refuseBounded fun _ =>
      .bind .storeAt fun _ => .retire) h

theorem KeepsIntact.awaitReleases : KeepsIntact (awaitReleases) := .get fun _ _ => .ite .waitHere .pure

theorem KeepsIntact.holdForReply : KeepsIntact (holdForReply) := by
  unfold Machine.holdForReply
  refine .changed fun _ h => ?_
  split
  · exact .ite h.same h
  · exact h

theorem KeepsIntact.acquireLoad : KeepsIntact (acquireLoad la gd gs1 off n) := by
  unfold Machine.acquireLoad
  exact .bind .awaitReleases fun _ => .get fun _ _ => .bind .load fun _ => .ite .holdForReply .pure

theorem AnswersIntact.execLdacqI64 (h : s.Intact none) : AnswersIntact (execLdacqI64 la gd gs1 off s) :=
  .settle .acquireLoad h

theorem AnswersIntact.execLdacqQ (h : s.Intact none) : AnswersIntact (execLdacqQ la gd gs1 off s) := .settle .acquireLoad h

theorem KeepsIntact.releaseStore : KeepsIntact (releaseStore la gs1 gs2 off n) :=
  .bind .awaitEarlier fun _ => .store

theorem AnswersIntact.execStrelI64 (h : s.Intact none) : AnswersIntact (execStrelI64 la gs1 gs2 off s) :=
  .settle .releaseStore h

theorem AnswersIntact.execStrelQ (h : s.Intact none) : AnswersIntact (execStrelQ la gs1 gs2 off s) := .settle .releaseStore h
theorem KeepsIntact.awaitReads : KeepsIntact (awaitReads) := .get fun _ _ => .ite .waitHere .pure

theorem AnswersIntact.execFenceRel (h : s.Intact none) : AnswersIntact (execFenceRel la gs1 s) := by
  unfold Machine.execFenceRel
  exact .settle (.bind .enter fun _ => .bind .scopeOperand fun _ => .bind .awaitEarlier fun _ => .retire) h

theorem AnswersIntact.execFenceAcq (h : s.Intact none) : AnswersIntact (execFenceAcq la gs1 s) := by
  unfold Machine.execFenceAcq
  exact .settle (.bind .enter fun _ => .bind .scopeOperand fun _ => .bind .awaitReads fun _ => .retire) h

theorem AnswersIntact.execFenceFull (h : s.Intact none) : AnswersIntact (execFenceFull la gs1 s) := by
  unfold Machine.execFenceFull
  exact .settle (.bind .enter fun _ => .bind .scopeOperand fun _ => .bind .awaitReads fun _ => .bind .awaitEarlier fun _ =>
      .retire) h

theorem AnswersIntact.execFence (h : s.Intact none) : AnswersIntact (execFence _imm _rs1 _rd s) :=
  .settle (.bind .enter fun _ => .bind .awaitReads fun _ => .retire) h

theorem AnswersIntact.execPref (h : s.Intact none) : AnswersIntact (execPref la gs1 off hint s) := by
  dsimp only [Machine.execPref]
  refine .settle (.bind .enter fun _ => .bind .exactSource fun _ => .get fun _ _ => ?_) h
  split
  · exact .bind (.changed fun _ h => .ite h.touch.fillPortion h.touch) fun _ => .retire
  · exact .retire

theorem KeepsIntact.pinLine : KeepsIntact (pinLine gs1 off) := by
  dsimp only [Machine.pinLine]
  refine .bind .source fun _ => .bind .checkBase fun _ => ?_
  split
  · exact .pure
  · refine .bind .findParts fun _ => ?_
    split <;> exact .pure

theorem AnswersIntact.execPin (h : s.Intact none) : AnswersIntact (execPin la gd gs1 off s) := by
  dsimp only [Machine.execPin]
  refine .settle (.bind .enter fun _ => .bind .pinLine fun _ => .get fun _ h1 => ?_) h
  split
  · exact .bind .result fun _ => .retire
  · split
    · exact .bind .result fun _ => .retire
    · split
      · exact .bind .result fun _ => .retire
      · exact .bind (.set h1.touch.same) fun _ => .bind .result fun _ => .retire

theorem AnswersIntact.execUnpin (h : s.Intact none) : AnswersIntact (execUnpin la gd gs1 off s) := by
  dsimp only [Machine.execUnpin]
  refine .settle (.bind .enter fun _ => .bind .pinLine fun _ => .get fun _ h1 => ?_) h
  split
  · exact .bind .result fun _ => .retire
  · split
    · exact .bind (.set h1.same) fun _ => .bind .result fun _ => .retire
    · exact .bind .result fun _ => .retire

theorem AnswersIntact.execCflush (h : s.Intact none) : AnswersIntact (execCflush la gs1 off s) := by
  dsimp only [Machine.execCflush]
  refine .settle (.bind .enter fun _ => .bind .pinLine fun _ => ?_) h
  split
  · refine .bind ?_ fun _ => ?_
    · refine .changed fun _ h => ?_
      change State.Intact _ (List.foldl _ _ _)
      exact State.Intact.foldl h.same fun _ _ _ h => h.same
    · exact .retire
  · refine .bind ?_ fun _ => ?_
    · refine .changed fun _ h => ?_
      split
      · exact .ite h h.send
      · exact h
    · exact .retire

theorem State.Intact.atomicAt (h : s.Intact none) : (s.atomicAt cls op pa n sgn a b).2.2.Intact none := by
  have h' : (s.beforeRead cls (.atm pa) n).Intact none := h.beforeRead
  dsimp only [State.atomicAt]
  split
  · exact h'
  · exact .ite h'.storeData h'

theorem KeepsIntact.atomic : KeepsIntact (Machine.atomic op n sgn flag ord gd gs1 srcs) := by
  unfold Machine.atomic
  refine .bind .enter fun _ => .bind .exactSource fun _ => .bind .sources fun _ => ?_
  extract_lets a b ea finishAt retired found released checked
  have hfinish : ∀ pa away, KeepsIntact (finishAt pa away) := fun pa away => .get fun s h => by
    have h' := h.atomicAt (cls := s.here.qos) (op := op) (pa := pa) (n := n) (sgn := sgn) (a := a) (b := b)
    dsimp only
    split
    · exact .bind (.set h') fun _ => .trap
    · exact .set h'.mark.mark
    · exact .bind (.set h') fun _ => .bind .result fun _ => .ite .result .pure
  have hretired : ∀ r, KeepsIntact (retired r) := fun _ => .retire
  have hfound : ∀ r, KeepsIntact (found r) := by
    intro r
    dsimp only [found]
    split
    · refine .ite (.bind .expectReply fun _ => .bind .holdForReply hretired) (.get fun s h => ?_)
      split
      · have h' := h.ownFabricParts.snd ‹_›
        exact .bind (.set h') fun _ => .ite (.bind (.set h'.mark.mark) hretired) (.bind (hfinish _ _) hretired)
      · exact .bind .waitOutside hretired
      · exact .bind (.set (h.ownFabricParts.snd ‹_›).mark.mark) hretired
    · refine .bind .findParts fun _ => ?_
      split
      · exact .get fun s h => .ite (.stop .trap fun _ => ⟨_, rfl⟩) (.bind (hfinish _ _) hretired)
      · exact .stop .trap fun _ => ⟨_, rfl⟩
  have hreleased : ∀ r, KeepsIntact (released r) := fun _ => .optional .awaitReleases hfound
  have hchecked : ∀ r, KeepsIntact (checked r) := fun _ => .bind .checkBase fun _ => .optional .awaitEarlier hreleased
  exact .optional .trap hchecked

theorem AnswersIntact.execAfadd (h : s.Intact none) : AnswersIntact (execAfadd ord wd gd gs1 gs2 s) := .settle .atomic h
theorem AnswersIntact.execAswap (h : s.Intact none) : AnswersIntact (execAswap ord wd gd gs1 gs2 s) := .settle .atomic h
theorem AnswersIntact.execAcas64 (h : s.Intact none) : AnswersIntact (execAcas64 ord gd gs1 gs2 s) := .settle .atomic h
theorem AnswersIntact.execAcas128 (h : s.Intact none) : AnswersIntact (execAcas128 ord gd gs1 gs2 s) := .settle .atomic h
theorem AnswersIntact.execAmax (h : s.Intact none) : AnswersIntact (execAmax ord wd gd gs1 gs2 s) := .settle .atomic h
theorem AnswersIntact.execAmin (h : s.Intact none) : AnswersIntact (execAmin ord wd gd gs1 gs2 s) := .settle .atomic h
theorem AnswersIntact.execAand (h : s.Intact none) : AnswersIntact (execAand ord wd gd gs1 gs2 s) := .settle .atomic h
theorem AnswersIntact.execAor (h : s.Intact none) : AnswersIntact (execAor ord wd gd gs1 gs2 s) := .settle .atomic h
theorem AnswersIntact.execAxor (h : s.Intact none) : AnswersIntact (execAxor ord wd gd gs1 gs2 s) := .settle .atomic h

/-! ## Desk -/

theorem State.Intact.materialise (h : s.Intact up) : (s.materialise ctx va).Intact up := by
  dsimp only [State.materialise]
  split
  · exact h
  · split
    · exact .ite h.fillFrame.store.same h
    · exact h

theorem State.Intact.findCell (h : s.Intact none) : (s.findCell a va op).2.Intact none := by
  dsimp only [State.findCell]
  split
  · exact h
  · split
    · exact h
    · exact h
    · exact h
    · exact h
    · split
      · exact .ite_snd (h.resolve.snd ‹_›) (.ite (h.resolve.snd ‹_›) (h.resolve.snd ‹_›).mendMemory)
      · split
        · split
          · split
            · exact (h.resolve.snd ‹_›).materialise.resolve.snd ‹_›
            · exact (h.resolve.snd ‹_›).materialise.resolve.snd ‹_›
          · exact (h.resolve.snd ‹_›).materialise.resolve.snd ‹_›
          · exact (h.resolve.snd ‹_›).materialise.resolve.snd ‹_›
        · exact h.resolve.snd ‹_›
      · exact h.resolve.snd ‹_›
      · exact h.resolve.snd ‹_›

theorem State.Intact.putImage (h : s.Intact up) : (s.putImage pa v t).Intact up := h.storeData.onGranule.touch.invalidate
theorem State.Intact.setField (h : s.Intact up) : (s.setField pa hi lo x).Intact up := h.store
theorem State.Intact.sendBoost (h : s.Intact up) : (s.sendBoost pa upward w level qos).Intact up := .ite h.same h.send

theorem State.Intact.updateBoosts (h : s.Intact up) : (s.updateBoosts pa).Intact up := by
  dsimp only [State.updateBoosts]
  split
  · exact h
  · change State.Intact _ (List.foldl _ _ _)
    refine State.Intact.foldl ?_ fun _ _ _ h => ?_
    · exact h.foldl fun _ _ _ h => h.sendBoost
    · exact h.sendBoost

theorem State.Intact.settleCell (h : s.Intact up) : (s.settleCell pa).Intact up := .ite h.updateBoosts h.store.updateBoosts

theorem State.Intact.reportSpill {desk : Nat} (h : s.Intact up) : (s.reportSpill desk had).Intact up := .ite h
    (State.Intact.record h.same)

theorem State.Intact.makeHold {t : State} (h : s.Intact up) (e : s.makeHold hd = some t) : t.Intact up := by
  dsimp only [State.makeHold] at e
  split at e
  · obtain rfl := Option.some.inj e
    exact h.same
  · split at e
    · obtain rfl := Option.some.inj e
      exact State.Intact.reportSpill h.same
    · exact absurd e nofun

theorem State.Intact.refill {desk : Nat} (h : s.Intact up) : (s.refill desk).Intact up := by
  dsimp only [State.refill]
  split
  · exact State.Intact.foldl h.same fun _ _ _ h => h.settleCell
  · exact h

theorem State.Intact.dropHold (h : s.Intact up) : (s.dropHold hd).Intact up := State.Intact.refill h.same
theorem State.Intact.sendAnswer {fill : Bool} (h : s.Intact up) : (s.sendAnswer fill a).Intact up := .ite h.same h.send

theorem State.Intact.fill (h : s.Intact up) : (s.fill hd st val elem).Intact up := by
  dsimp only [State.fill]
  split
  · exact h.dropHold.sendAnswer
  · refine State.Intact.sendAnswer ?_
    split
    · exact h.dropHold.dropHold
    · exact h.dropHold

/-- The register of a continuation's record at an index, as `State.readTask` reads it. -/
def State.readTaskReg (s : State) (a : Agent) (va i : Nat) : Option Reg × State :=
  match s.resolve a (va + 16 * i) 16 .read false with
  | (.spot sp, s) =>
    let s := s.beforeRead 0 sp 16
    let g := s.readSpot sp 16
    if g.poison then (none, s)
    else
      let d : Word128 := BitVec.ofNat 128 (ofBytes g.bytes)
      (some ⟨d, if g.bnd then .bounded else if g.tag then (if d.getLsbD 121 then .sealed else .cap) else .exact⟩, s)
  | (_, s) => (none, s)

theorem State.Intact.readTaskReg (h : s.Intact up) : (s.readTaskReg a va i).2.Intact up := by
  unfold State.readTaskReg
  split
  · exact .ite_snd (h.resolve.snd ‹_›).beforeRead (h.resolve.snd ‹_›).beforeRead
  · exact h.resolve.snd ‹_›

/-- The record of a continuation is read register by register. -/
theorem State.readTask_snd (s : State) (a : Agent) (va : Nat) : (s.readTask a va).2 =
    ((((s.readTaskReg a va 0).2.readTaskReg a va 1).2.readTaskReg a va 2).2.readTaskReg a va 3).2 := by
  unfold State.readTask
  dsimp only
  split <;> rfl

theorem State.Intact.readTask (h : s.Intact up) : (s.readTask a va).2.Intact up := by
  rw [State.readTask_snd]
  exact h.readTaskReg.readTaskReg.readTaskReg.readTaskReg

theorem State.Intact.fireContinuation (h : s.Intact up) : (s.fireContinuation pa).Intact up := by
  dsimp only [State.fireContinuation]
  split
  · exact (h.setField.readTask.snd ‹_›).sendAnswer
  · exact (h.setField.readTask.snd ‹_›).record

theorem State.Intact.atZero (h : s.Intact up) : (s.atZero pa).Intact up := by
  dsimp only [State.atZero]
  split
  · exact State.Intact.fireContinuation (h.foldl fun _ _ _ h => h.fill)
  · exact h.foldl fun _ _ _ h => h.fill

theorem State.Intact.deskCadd (h : s.Intact up) : (deskCadd s r).2.Intact up :=
  .ite_snd h (.ite_snd h (.ite h.setField.atZero h.setField))

theorem State.Intact.deskCwait (h : s.Intact up) : (deskCwait s r).2.Intact up := by
  unfold Machine.deskCwait
  split
  · exact h
  · split
    · exact h.makeHold ‹_›
    · exact h

theorem State.Intact.deskCarm (h : s.Intact up) : (deskCarm s r).2.Intact up := by
  unfold Machine.deskCarm
  extract_lets v v₁ v₂ v₃ v₄ v₅ armed t
  have ht : t.Intact up := h.store
  clear_value t armed
  exact .ite_snd h (.ite_snd h (.ite_snd h (.ite ht.fireContinuation ht)))

theorem State.Intact.deskCdisarm (h : s.Intact up) : (deskCdisarm s r).2.Intact up := h.setField

theorem State.Intact.closeCensus (h : s.Intact up) : (s.closeCensus c).Intact up := by
  dsimp only [State.closeCensus]
  refine State.Intact.settleCell (State.Intact.foldl ?_ fun _ _ _ h => ?_)
  · change State.Intact _ (List.foldl _ _ _)
    exact h.storeData.foldl fun _ _ _ h => h.touch.invalidate
  · exact h.fill

theorem State.Intact.askCensus {cores : List Nat} (h : s.Intact up) : (s.askCensus c cores).Intact up :=
  h.carryTo.foldl fun _ _ _ h => h.same

theorem State.Intact.completePhase (h : s.Intact up) : (s.completePhase pa).Intact up := by
  unfold State.completePhase
  extract_lets v p v' written t cores c drawn u
  have ht : t.Intact up := h.store.same (t := t)
  have hu : u.Intact up := ht.same
  exact .ite (ht.foldl fun _ _ _ h => h.fill) (.ite hu.closeCensus hu.askCensus)

theorem State.Intact.arrive (h : s.Intact up) : (s.arrive r).2.Intact up :=
  .ite_snd h (.ite (State.Intact.completePhase h.setField.same) h.setField.same)

theorem State.Intact.deskBarrive (h : s.Intact up) : (deskBarrive s r).2.Intact up := by
  unfold Machine.deskBarrive
  split <;> exact h.arrive.snd ‹_›

theorem State.Intact.deskBwait (h : s.Intact up) : (deskBwait s r).2.Intact up := by
  dsimp only [Machine.deskBwait]
  split
  · exact h
  · split
    · exact h.makeHold ‹_›
    · exact h

theorem State.Intact.deskBsync (h : s.Intact up) : (deskBsync s r).2.Intact up := by
  unfold Machine.deskBsync
  split
  · exact h.arrive.snd ‹_›
  · split
    · exact h.arrive.snd ‹_›
    · split
      · exact (h.arrive.snd ‹_›).makeHold ‹_›
      · exact h

theorem State.Intact.deskBpendadd (h : s.Intact up) : (deskBpendadd s r).2.Intact up := h.setField

theorem State.Intact.deskBpendsub (h : s.Intact up) : (deskBpendsub s r).2.Intact up :=
  .ite h.setField.completePhase h.setField

theorem State.Intact.grantLock (h : s.Intact up) : (s.grantLock pa w).Intact up := h.store

theorem State.Intact.deskLacq (h : s.Intact up) : (deskLacq s r).2.Intact up := by
  dsimp only [Machine.deskLacq]
  split
  · exact h.setField.grantLock
  · split
    · exact h.setField.makeHold ‹_›
    · exact h

theorem State.Intact.deskLtry (h : s.Intact up) : (deskLtry s r).2.Intact up := .ite_snd h.setField.grantLock h

theorem State.Intact.serveNext (h : s.Intact up) : (s.serveNext pa n serving).Intact up := by
  induction n generalizing s serving with
  | zero => exact h.setField
  | succ n ih =>
    unfold State.serveNext
    split
    · split
      · exact ih h.dropHold
      · exact h.setField.grantLock.fill
    · exact h.setField.setField.setField

theorem State.Intact.deskLrel (h : s.Intact up) : (deskLrel s r).2.Intact up := .ite_snd h.serveNext h

theorem State.Intact.bufferSpot (h : s.Intact up) : (s.bufferSpot a va n u).2.Intact up := by
  have hr : (match s.resolve a va n u false with
      | (.materialise, s) => (s.materialise a.ctx va).resolve a va n u false
      | r => r).2.Intact up := by
    split
    · exact (h.resolve.snd ‹_›).materialise.resolve
    · exact h.resolve
  dsimp only [State.bufferSpot]
  split
  · split
    · exact hr.snd ‹_›
    · exact hr.snd ‹_›
  · exact hr

theorem State.Intact.readElement (h : s.Intact up) : (s.readElement a parts).2.Intact up := by
  induction parts generalizing s with
  | nil => exact h
  | cons p parts ih =>
    dsimp only [State.readElement]
    split
    · have h' := h.bufferSpot.snd ‹_›
      split
      · exact h'.beforeRead
      · split
        · exact (ih h'.beforeRead).snd ‹_›
        · exact ih h'.beforeRead
    · exact h.bufferSpot.snd ‹_›
    · exact h.bufferSpot.snd ‹_›

/-- A Desk's write leaves the ports, because it is no control program's (R141). -/
theorem State.Intact.writeSpot_other (h : s.Intact up) : (s.writeSpot .other sp bs kind).Intact up := by
  unfold State.writeSpot
  split
  · exact h.writeMem
  · exact h.writeMem
  · exact h
  · exact h
  · exact .ite h.writeImage h
  · exact h.writeDescriptor
  · exact h.writeEngine
  · split
    · exact h
    · exact h
    · unfold State.writeUnit
      split <;> exact h.same

theorem State.Intact.writeElement {t : State} (h : s.Intact up) (e : s.writeElement a parts bs = .ok t) : t.Intact up := by
  induction parts generalizing s bs with
  | nil =>
    obtain rfl := Except.ok.inj e
    exact h
  | cons p parts ih =>
    unfold State.writeElement at e
    split at e
    · split at e
      · exact absurd e nofun
      · exact ih (h.bufferSpot.snd ‹_›).writeSpot_other.afterWrite e
    · exact absurd e nofun
    · exact absurd e nofun

theorem State.Intact.pushTail {t : State} (h : s.Intact up) (e : s.pushTail pa bs = .ok t) : t.Intact up := by
  dsimp only [State.pushTail] at e
  split at e
  · obtain rfl := Except.ok.inj e
    exact (h.writeElement ‹_›).setField
  · exact absurd e nofun

theorem State.Intact.bufferFailed (h : s.Intact up) : (bufferFailed park s).2.Intact up := .ite_snd h h

theorem State.Intact.deskPush (h : s.Intact up) : (deskPush s r try_).2.Intact up := by
  dsimp only [Machine.deskPush]
  split
  · exact h
  · split
    · exact h.setField.setField.fill
    · split
      · split
        · exact h.pushTail ‹_›
        · exact h.bufferFailed
      · split
        · exact h
        · split
          · exact h.makeHold ‹_›
          · exact h

theorem State.Intact.deskPop (h : s.Intact up) : (deskPop s r try_).2.Intact up := by
  dsimp only [Machine.deskPop]
  split
  · exact h
  · split
    · split
      · exact h
      · split
        · exact h.makeHold ‹_›
        · exact h
    · split
      · exact h.bufferFailed
      · split
        · exact (h.readElement.snd ‹_›).setField
        · split
          · exact ((h.readElement.snd ‹_›).setField.pushTail ‹_›).fill
          · exact h.bufferFailed

theorem State.Intact.deskVwait (h : s.Intact up) : (deskVwait s r).2.Intact up := by
  dsimp only [Machine.deskVwait]
  split
  · exact h
  · split
    · exact h
    · exact (h.makeHold ‹_›).setField.carry

theorem State.Intact.signalHold (h : s.Intact up) : (s.signalHold hd).Intact up := State.Intact.carry (State.Intact.setField
    h.same)

theorem State.Intact.deskVsignal (h : s.Intact up) : (deskVsignal s r).2.Intact up := by
  unfold Machine.deskVsignal
  split
  · exact h
  · exact h.signalHold

theorem State.Intact.deskVbcast (h : s.Intact up) : (deskVbcast s r).2.Intact up := h.foldl fun _ _ _ h => h.signalHold

theorem State.Intact.clearCell (h : s.Intact up) : (s.clearCell pa).Intact up := by
  dsimp only [State.clearCell]
  change State.Intact _ (List.foldl _ _ _)
  refine State.Intact.foldl ?_ fun _ _ _ h => ?_
  · exact h.foldl fun _ _ _ h => h.fill
  · exact h.dropHold

theorem State.Intact.deskFree (h : s.Intact up) : (deskFree s r).2.Intact up := h.clearCell.putImage

theorem State.Intact.deskInit (h : s.Intact up) : (deskInit s r).2.Intact up := by
  dsimp only [Machine.deskInit]
  split
  · exact h
  · split
    · exact h
    · exact h.clearCell.putImage

theorem State.Intact.deskAct (h : s.Intact up) : (deskAct op s r).2.Intact up := by
  unfold Machine.deskAct
  split
  · exact h.same
  · exact h.deskFree
  · exact h.deskInit
  · exact h.deskCadd
  · exact h.deskCwait
  · exact h.deskCarm
  · exact h.deskCdisarm
  · exact h.deskBarrive
  · exact h.deskBwait
  · exact h.deskBsync
  · exact h.deskBpendadd
  · exact h.deskBpendsub
  · exact h.deskLacq
  · exact h.deskLtry
  · exact h.deskLrel
  · exact h.deskPush
  · exact h.deskPop
  · exact h.deskPush
  · exact h.deskPop
  · exact h.deskVwait
  · exact h.deskVsignal
  · exact h.deskVbcast

theorem State.Intact.mendHolds (h : s.Intact up) : (s.mendHolds pa).Intact up := by
  dsimp only [State.mendHolds]
  refine State.Intact.foldl h fun _ _ _ h => ?_
  split
  · split
    · split
      · exact State.Intact.corrected h.same
      · exact State.Intact.foldl h.same fun _ _ _ h => h.endGrid
    · exact h
  · exact h

end

end Sys2Proof.Machine
end

section
/-! SUPPORT. What the units' work leaves in order (`State.Intact`), part 3. Each lemma follows the branches of
one function of the model. Here: the work of a slot, cells, bank units, capabilities, floating point, the Desk's steps. -/

namespace Sys2Proof.Machine

open Sys2Proof

set_option autoImplicit true

section
variable {s : State} {up : Option (List Nat)}

/-! ## Desk -/

theorem State.Intact.desk (h : s.Intact up) : (s.desk op r).2.Intact up := by
  unfold State.desk
  extract_lets t
  have ht : t.Intact up := .ite h h.mendHolds
  split
  · exact ht
  · split
    · exact ht.deskAct.snd ‹_›
    · exact (ht.deskAct.snd ‹_›).settleCell

/-! ## Work -/

theorem State.Intact.askAnnex (h : s.Intact none) : (s.askAnnex n).Intact none := .ite h.same h
theorem State.Intact.enterInbox (h : s.Intact none) : (s.enterInbox n m).Intact none := State.Intact.askAnnex h.same
theorem State.Intact.joinInbox (h : s.Intact none) : (s.joinInbox n second).Intact none := State.Intact.askAnnex h.same

theorem State.Intact.admitWaiting (h : s.Intact none) : (s.admitWaiting n k).Intact none := by
  induction k generalizing s with
  | zero => exact h
  | succ k ih =>
    unfold State.admitWaiting
    split
    · exact h
    · split
      · exact ih (.ite (h.same (t := s.onCore n _)).joinInbox (h.same (t := s.onCore n _)).enterInbox)
      · exact h

theorem State.Intact.deliver (h : s.Intact none) : (s.deliver n m).Intact none := .ite (State.Intact.admitWaiting h.same) h.same

theorem State.Intact.leaveInbox {id : Option Nat} (h : s.Intact none) : (s.leaveInbox n id).Intact none :=
  .ite h (State.Intact.askAnnex (State.Intact.admitWaiting h.same))

theorem State.Intact.discardMessage {id : Option Nat} (h : s.Intact none) : (s.discardMessage n id).Intact none :=
  h.count.leaveInbox

theorem State.Intact.arriveAt (h : s.Intact none) : (s.arriveAt n m).Intact none := by
  unfold State.arriveAt
  split
  · exact h.deliver
  · split
    · split
      · exact .ite h.same h.same
      · exact h.count
    · exact .ite h.count h

theorem State.Intact.entryFreed (h : s.Intact none) : (s.entryFreed n).Intact none := by
  dsimp only [State.entryFreed]
  split
  · exact h
  · exact h.same
  · exact h.same
  · exact h.same

theorem State.Intact.makeReady (h : s.Intact none) : (s.makeReady n).Intact none := by
  unfold State.makeReady
  extract_lets
  split
  · exact h
  · extract_lets
    split
    · exact h
    · split
      · exact h.discardMessage.entryFreed
      · exact (h.same (t := ((State.drawn s).onCore n _).emit _)).entryFreed

theorem State.Intact.askVictim (h : s.Intact none) : (s.askVictim n i).Intact none := by
  unfold State.askVictim
  split
  · exact h.same
  · exact .ite h h.same

theorem State.Intact.beginSteal (h : s.Intact none) : (s.beginSteal n).Intact none := .ite h h.askVictim

theorem State.Intact.select (h : s.Intact none) : (s.select n).Intact none := by
  dsimp only [State.select]
  split
  · exact h
  · split
    · refine State.Intact.emit ?_
      exact .ite (State.Intact.emit (State.Intact.leaveInbox h.same))
          (State.Intact.entryFreed (State.Intact.emit (State.Intact.leaveInbox h.same)))
    · exact h.beginSteal
    · exact h

theorem State.Intact.startTask (h : s.Intact none) : (s.startTask k).Intact none := by
  dsimp only [State.startTask]
  split
  · exact .ite h.same (.ite h.same h.same)
  · exact h

theorem State.Intact.startAnnex (h : s.Intact none) : (s.startAnnex n).Intact none := .ite h.same h

theorem State.Intact.refuseBank (h : s.Intact none) : (s.refuseBank b t c).Intact none := by
  unfold State.refuseBank
  split
  · exact h.answerCall
  · split
    · exact h
    · split
      · exact h.lateFault
      · exact h.endGrid

theorem State.Intact.arriveBank (h : s.Intact none) : (s.arriveBank b t).Intact none :=
  .ite h.refuseBank (.ite h.same h.same)

theorem State.Intact.selectBank (h : s.Intact none) : (s.selectBank b).Intact none := by
  dsimp only [State.selectBank]
  split
  · split
    · exact h.same
    · exact State.Intact.emit (State.Intact.refuseBank h.same)
  · exact h

theorem State.Intact.arrive_ (h : s.Intact none) : (s.arrive_ target m).Intact none := .ite h.arriveBank h.arriveAt

theorem State.Intact.recheckFeet (h : s.Intact none) : (s.recheckFeet n).Intact none := by
  unfold State.recheckFeet
  split
  · exact h
  · exact h.same

theorem State.Intact.releasePins (h : s.Intact none) : (s.releasePins n t).Intact none := by
  unfold State.releasePins
  split
  · exact h
  · split
    · exact h
    · split
      · split
        · exact State.Intact.recheckFeet h.same
        · exact h
      · exact h.recheckFeet

theorem State.Intact.decTrigger (h : s.Intact none) : (s.decTrigger g).Intact none := by
  dsimp only [State.decTrigger]
  split
  · exact h
  · exact .ite h (.ite h.same h.same)

theorem State.Intact.checkGridEnd (h : s.Intact none) : (s.checkGridEnd g).Intact none := by
  unfold State.checkGridEnd
  split
  · exact h
  · exact .ite h.same h

theorem State.Intact.exitSlot (h : s.Intact none) : (s.exitSlot k).Intact none := by
  unfold State.exitSlot
  extract_lets n back task answered freed dropped asked left ready
  clear_value task
  have hback : back.Intact none := h.flushBarrier.handBack
  have hanswered : answered.Intact none := by
    dsimp only [answered]
    split
    · split
      · exact .ite hback.answerCall hback
      · exact hback
    · exact hback
  clear_value answered
  have hasked : asked.Intact none := .ite hanswered.same hanswered.same
  have hleft : left.Intact none := by
    dsimp only [left]
    split
    · exact .ite hasked.releasePins.decTrigger hasked.releasePins
    · exact hasked
  have hready : ready.Intact none := .ite hleft.askAnnex hleft.same
  split
  · exact hready.checkGridEnd
  · exact hready

/-! ## Cells -/

theorem KeepsIntact.returnForked : KeepsIntact (returnForked) := by
  dsimp only [Machine.returnForked]
  refine .get fun _ h => ?_
  split
  · split
    · exact .stop .raise fun _ => ⟨_, rfl⟩
    · exact .bind .source fun _ => .bind .jalrTarget fun _ => .bind .checkTarget fun _ => .jumpTo
  · exact .changed fun _ h => h.retired.exitSlot

theorem KeepsIntact.leaveForked : KeepsIntact (Machine.leaveForked la) := by
  intro s h
  unfold Machine.leaveForked
  split
  · exact (KeepsIntact.returnForked.trapped h ‹_›).takeTrap
  · exact KeepsIntact.returnForked s h

theorem KeepsIntact.completePop : KeepsIntact (Machine.completePop la gd area elem) := by
  refine .bind (.changed fun _ h => h.same) fun _ => .get fun s h => ?_
  split
  · exact .bind (.set (KeepsIntact.storeAt.ok h ‹_›).onHere) fun _ => .changed fun _ h => h.writeReg.retire
  · have hu := KeepsIntact.storeAt.trapped h ‹_›
    exact .finishWith (State.Intact.takeTrap (.ite hu hu.same))
  · exact .finishWith (KeepsIntact.storeAt.done h ‹_›)
  · exact .finishWith h
  · exact .finishWith (KeepsIntact.storeAt.again h ‹_›)

theorem KeepsIntact.completeCell : KeepsIntact (completeCell la gd op va area joining sel st val elem) := by
  dsimp only [Machine.completeCell]
  split
  · exact .stop .raise fun _ => ⟨_, rfl⟩
  · split
    · exact .leaveForked
    · split
      · exact .completePop
      · exact .completePop
      · exact .changed fun _ h => h.writeReg.retire

theorem KeepsIntact.refuseCell : KeepsIntact (refuseCell la gd joining m) :=
  .ite .raise (.changed fun _ h => h.writeReg.mark.retire)

theorem KeepsIntact.flushFirst : KeepsIntact (flushFirst) := by
  dsimp only [Machine.flushFirst]
  exact .get fun _ h => .optional (.waitAfter fun _ h => h.flushBarrier) fun _ => .ite .waitHere .pure

theorem State.Intact.awaitCell (h : s.Intact none) : (s.awaitCell op seq gd va pa la area joining).Intact none := h.same

theorem State.Intact.sendCell {cluster : Nat} (h : s.Intact none) : (s.sendCell p who cluster).Intact none :=
  .ite h.same h.send

theorem KeepsIntact.askRemote : KeepsIntact (askRemote la gd op va dev addr r area joining) :=
  .changed fun _ h => .ite h.same (State.Intact.sendCell h.same)

theorem KeepsIntact.askDesk : KeepsIntact (Machine.askDesk la gd op va pa r area joining) := by
  refine .get fun s h => ?_
  have hd : ∀ q, (s.drawn.desk op q).2.Intact none := fun q => (h.same (t := s.drawn)).desk
  extract_lets q
  split
  · exact .waitHere
  · exact .set ((hd q).snd ‹_›).awaitCell
  · exact .bind (.set ((hd q).snd ‹_›).onHere) fun _ => .completeCell

theorem KeepsIntact.performCell (hprepare : ∀ away, KeepsIntact (prepare away)) :
    KeepsIntact (Machine.performCell la gd op c area joining prepare) := by
  have hask : ∀ away (ask : DeskReq → Act Unit), (∀ r, KeepsIntact (ask r)) →
      KeepsIntact (Machine.flushFirst >>= fun _ => prepare away >>= ask) := fun away ask hq =>
    .bind .flushFirst fun _ => .bind (hprepare away) hq
  refine .get fun s h => ?_
  split
  · exact .trap
  · exact .trap
  · exact .trap
  · refine .ite (.optional .awaitEarlier fun _ => hask _ _ fun _ => .askRemote) ?_
    split
    · exact .bind (.set (h.findCell.snd ‹_›)) fun _ => .refuseCell
    · exact .waitOutside
    · exact .raise
    · have hs := h.findCell.snd ‹_›
      exact .ite (.bind (.set hs) fun _ => .refuseCell)
        (.bind (.set hs) fun _ => .optional .awaitEarlier fun _ => hask _ _ fun _ => .askDesk)
  · split
    · exact .bind (.set (h.findCell.snd ‹_›)) fun _ => .trap
    · exact .waitOutside
    · exact .raise
    · exact .bind (.set (h.findCell.snd ‹_›)) fun _ => .optional .trap fun _ =>
        .optional .awaitEarlier fun _ => hask _ _ fun _ => .askDesk

theorem KeepsIntact.cellCap : KeepsIntact (cellCap c) := .ite .pure .trap
theorem KeepsIntact.alignTo : KeepsIntact (alignTo n va) := .ite .trap .pure

theorem KeepsIntact.plainCell {request : List Reg → DeskReq} : KeepsIntact (plainCell la gd gs1 others op request) :=
  .bind .enter fun _ => .bind .exactSource fun _ => .bind .sources fun _ => .optional .trap fun _ =>
    .bind .cellCap fun _ => .bind .alignTo fun _ => .performCell fun _ => .pure

theorem AnswersIntact.execCntInit (h : s.Intact none) : AnswersIntact (execCntInit gd gs1 gs2 s) := .settle .plainCell h

theorem AnswersIntact.execBarInit (h : s.Intact none) : AnswersIntact (execBarInit gd gs1 gs2 s) := by
  refine .settle (.bind .enter fun _ => .bind .exactSource fun _ => .bind .exactSource fun _ => ?_) h
  extract_lets w ask
  have hask : ∀ rect, KeepsIntact (ask rect) := fun _ =>
    .bind .cellCap fun _ => .bind .alignTo fun _ => .performCell fun _ => .get fun _ _ => .pure
  clear_value ask
  refine .ite (.bind .enter fun _ => .bind .exactSource fun _ => ?_) (.bind .pure hask)
  split
  · exact .bind .pure hask
  · exact .stop .trap fun _ => ⟨_, rfl⟩

theorem AnswersIntact.execLckInit (h : s.Intact none) : AnswersIntact (execLckInit gd gs1 s) := .settle .plainCell h

theorem AnswersIntact.execQueInit (h : s.Intact none) : AnswersIntact (execQueInit gd gs1 gs2 s) :=
  .settle (.bind .enter fun _ => .bind .exactSource fun _ => .bind .exactSource fun _ => .bind .exactSource fun _ =>
    .bind .cellCap fun _ => .optional .trap fun _ => .bind .alignTo fun _ => .performCell fun _ => .pure) h

theorem AnswersIntact.execCndInit (h : s.Intact none) : AnswersIntact (execCndInit gd gs1 s) := .settle .plainCell h
theorem AnswersIntact.execCellFree (h : s.Intact none) : AnswersIntact (execCellFree gd gs1 s) := .settle .plainCell h

theorem AnswersIntact.execCellQuery (h : s.Intact none) : AnswersIntact (execCellQuery la gd gs1 sel s) :=
  .settle .plainCell h

theorem AnswersIntact.execCntAdd (h : s.Intact none) : AnswersIntact (execCntAdd la gd gs1 gs2 s) := .settle .plainCell h
theorem AnswersIntact.execCntWait (h : s.Intact none) : AnswersIntact (execCntWait la gd gs1 s) := .settle .plainCell h
theorem AnswersIntact.execCntDisarm (h : s.Intact none) : AnswersIntact (execCntDisarm la gd gs1 s) := .settle .plainCell h

theorem KeepsIntact.continuationTarget : KeepsIntact (continuationTarget w) := by
  dsimp only [Machine.continuationTarget]
  refine .get fun _ _ => ?_
  split
  · split
    · exact .illegal
    · exact .trap
    · split
      · exact .pure
      · exact .trap
  · exact .pure

theorem AnswersIntact.execCntArm (h : s.Intact none) : AnswersIntact (execCntArm la gd gs1 gs2 s) :=
  .settle (.bind .enter fun _ => .bind .exactSource fun _ => .bind .exactSource fun _ => .bind .exactSource fun _ =>
    .bind .cellCap fun _ => .optional .trap fun _ => .bind .alignTo fun _ => .bind .alignTo fun _ =>
    .bind .continuationTarget fun _ => .performCell fun _ => .get fun _ _ => .pure) h

theorem AnswersIntact.execBarArrive (h : s.Intact none) : AnswersIntact (execBarArrive la gd gs1 s) := .settle .plainCell h
theorem AnswersIntact.execBarWait (h : s.Intact none) : AnswersIntact (execBarWait la gd gs1 gs2 s) := .settle .plainCell h
theorem AnswersIntact.execBarSync (h : s.Intact none) : AnswersIntact (execBarSync la gd gs1 s) := .settle .plainCell h
theorem AnswersIntact.execLckAcq (h : s.Intact none) : AnswersIntact (execLckAcq la gd gs1 s) := .settle .plainCell h
theorem AnswersIntact.execLckTry (h : s.Intact none) : AnswersIntact (execLckTry la gd gs1 s) := .settle .plainCell h
theorem AnswersIntact.execLckRel (h : s.Intact none) : AnswersIntact (execLckRel la gd gs1 s) := .settle .plainCell h

theorem KeepsIntact.readArea : KeepsIntact (readArea a n) := by
  dsimp only [Machine.readArea]
  refine .get fun _ _ => ?_
  split
  · exact .pure
  · refine .bind .fetch fun _ => ?_
    split
    · exact .ite .trap .pure
    · exact .raise
    · exact .bind .expectReply fun _ => .bind .holdForReply fun _ => .get fun _ h1 => .finishWith h1

theorem KeepsIntact.queueOp : KeepsIntact (queueOp la gd gs1 gs2 op push) := by
  refine .bind .enter fun _ => .bind .exactSource fun _ => .bind .exactSource fun _ => .get fun _ _ => ?_
  split
  · exact .completePop
  · exact .bind .cellCap fun _ => .optional .trap fun _ => .bind .alignTo fun _ => .bind .alignTo fun _ =>
      .performCell fun _ => .ite (.bind .readArea fun _ => .pure) .pure

theorem AnswersIntact.execQuePush (h : s.Intact none) : AnswersIntact (execQuePush la gd gs1 gs2 s) := .settle .queueOp h
theorem AnswersIntact.execQuePop (h : s.Intact none) : AnswersIntact (execQuePop la gd gs1 gs2 s) := .settle .queueOp h

theorem AnswersIntact.execQueTrypush (h : s.Intact none) : AnswersIntact (execQueTrypush la gd gs1 gs2 s) :=
  .settle .queueOp h

theorem AnswersIntact.execQueTrypop (h : s.Intact none) : AnswersIntact (execQueTrypop la gd gs1 gs2 s) := .settle .queueOp h

theorem KeepsIntact.lockPlace : KeepsIntact (lockPlace l away) := by
  dsimp only [Machine.lockPlace]
  refine .get fun _ h => ?_
  split
  · exact .ite .pure .trap
  · split
    · split
      · exact .bind (.set (h.findCell.snd ‹_›)) fun _ => .ite .trap .pure
      · exact .raise
      · exact .waitOutside
      · exact .trap
    · exact .trap
  · exact .trap
  · split
    · exact .bind (.set (h.findCell.snd ‹_›)) fun _ => .ite .trap .pure
    · exact .raise
    · exact .waitOutside
    · exact .trap

theorem AnswersIntact.execCndWait (h : s.Intact none) : AnswersIntact (execCndWait la gd gs1 gs2 s) :=
  .settle (.bind .enter fun _ => .bind .exactSource fun _ => .bind .exactSource fun _ => .bind .cellCap fun _ =>
    .bind .cellCap fun _ => .bind .alignTo fun _ => .bind .alignTo fun _ =>
    .performCell fun _ => .bind .lockPlace fun _ => .pure) h

theorem AnswersIntact.execCndSignal (h : s.Intact none) : AnswersIntact (execCndSignal la gd gs1 s) := .settle .plainCell h
theorem AnswersIntact.execCndBcast (h : s.Intact none) : AnswersIntact (execCndBcast la gd gs1 s) := .settle .plainCell h

/-- The state that an act leaves where an answer is the end of its instruction. -/
theorem KeepsIntact.completed {a : Act Unit} (ha : KeepsIntact a) (h : s.Intact none) : (match a s with
    | .ok (_, u) => u
    | .error (.trap x u) => u.takeTrap x la
    | .error .wait => s
    | .error (.again f) => f s
    | .error (.done u) => u).Intact none := by
  split
  · exact ha.ok h ‹_›
  · exact (ha.trapped h ‹_›).takeTrap
  · exact h
  · exact ha.again h ‹_›
  · exact ha.done h ‹_›

theorem State.Intact.cellAnswered (h : s.Intact none) : (s.cellAnswered k a).Intact none := by
  unfold State.cellAnswered
  split
  · split
    · exact h
    · extract_lets t sel u
      have ht : t.Intact none := h.same
      have hu : u.Intact none := KeepsIntact.completed .completeCell ht
      clear_value u
      exact hu.same
  · exact h

theorem State.Intact.cellRefused (h : s.Intact none) : (s.cellRefused k m).Intact none := by
  unfold State.cellRefused
  split
  · extract_lets t u
    have ht : t.Intact none := h.same
    have hu : u.Intact none := KeepsIntact.completed .refuseCell ht
    clear_value u
    exact hu.same
  · exact h

/-! ## BankUnit -/

theorem KeepsIntact.rowFind : KeepsIntact (rowFind acq u va) := by
  unfold Machine.rowFind
  refine .get fun _ h => ?_
  split
  · split
    · exact .waitAfter fun _ h => h.parkAccess
    · exact .trap
    · split
      · exact .trap
      · exact .bind (.set (h.translate.snd ‹_›)) fun _ => .pure
  · exact .trap
  · exact .trap
  · exact .trap
  · exact .trap

theorem KeepsIntact.rowsFind : KeepsIntact (Machine.rowsFind acq u rows) := by
  induction rows with
  | nil => exact .pure
  | cons row rows ih => exact .bind .rowFind fun _ => .bind ih fun _ => .pure

theorem AnswersIntact.execRowop (h : s.Intact none) : AnswersIntact (execRowop la gd gs1 gs2 s) := by
  refine .settle (.bind .enter fun _ => .bind .exactSource fun _ => ?_) h
  extract_lets op two n check
  have hcheck : ∀ c p, KeepsIntact (check c p) := fun _ _ => .ite .pure .trap
  refine .optional .trap fun _ => .optional .illegal fun _ => .optional .enter fun _ => .bind .source fun _ =>
    .bind .source fun _ => .choice .source .pure fun _ => .bind (hcheck _ _) fun _ => .bind (hcheck _ _) fun _ =>
    .optional (hcheck _ _) fun _ => .bind .rowsFind fun _ => .choice .pure .rowsFind fun _ =>
    .choice .rowsFind .pure fun _ => .optional .trap fun _ => .get fun s h => .optional .trap fun _ =>
    .optional .waitHere fun _ => .optional .waitHere fun _ => ?_
  extract_lets eats t inv r perform
  have ht : t.Intact none := .ite h (h.foldl fun _ _ _ h => h.mendMemory)
  clear_value t
  refine .bind (.set ht) fun _ => .optional .trap fun _ => ?_
  dsimp only [perform]
  split
  · exact .set ht.same
  · exact .bind .result fun _ => .retire

theorem State.Intact.rowClean (h : s.Intact none) : (s.rowClean d).Intact none := h.same

theorem State.Intact.rowCopy (h : s.Intact none) : (s.rowCopy d a).Intact none := by
  unfold State.rowCopy
  extract_lets carried t
  have ht : t.Intact none := h.store.same
  exact (ht.same (t := { t with flips := t.flips ++ carried })).foldl fun _ _ _ h => h.same

theorem State.Intact.rowWrite (h : s.Intact none) : (s.rowWrite d bs).Intact none :=
  (h.store.same (t := (s.store d bs).rowClean d)).onGranules

theorem State.Intact.rowMajority (h : s.Intact none) : (s.rowMajority d a b).Intact none := State.Intact.rowWrite h.same
theorem State.Intact.rowNot (h : s.Intact none) : (s.rowNot d a).Intact none := State.Intact.rowWrite h.same
theorem State.Intact.rowAdd (h : s.Intact none) : (s.rowAdd t d a b).Intact none := State.Intact.rowWrite h.same

theorem State.Intact.rowBuffer (h : s.Intact none) : (s.rowBuffer rows).Intact none := by
  dsimp only [State.rowBuffer]
  split
  · exact h
  · exact h.same

theorem State.Intact.rowEffect (h : s.Intact none) : (s.rowEffect r).Intact none := by
  dsimp only [State.rowEffect]
  split
  · exact h.foldl fun _ _ _ h => h.rowCopy
  · exact h.foldl fun _ _ _ h => h.rowWrite
  · exact h.foldl fun _ _ _ h => h.rowMajority
  · exact h.foldl fun _ _ _ h => h.rowNot
  · exact State.Intact.foldl h.same fun _ _ _ h => h.rowAdd
  · exact h.foldl fun _ _ _ h => h.rowWrite
  · exact State.Intact.foldl h fun _ _ _ h => State.Intact.rowCopy (.ite h.rowBuffer h)

theorem State.Intact.rowDone (h : s.Intact none) : (s.rowDone b).Intact none := by
  unfold State.rowDone
  split
  · exact h
  · extract_lets t
    have ht : t.Intact none := h.rowEffect.same
    clear_value t
    split
    · exact ht
    · extract_lets u v
      have hu : u.Intact none := State.Intact.writeReg ht.onSlot
      have hv : v.Intact none := State.Intact.retire hu.same
      exact hv.same

theorem AnswersIntact.execRowOpComplete (h : s.Intact none) : AnswersIntact (execRowOpComplete s) := by
  unfold Machine.execRowOpComplete
  refine .next ?_
  split
  · exact h.rowDone
  · exact h

/-! ## Capability -/

theorem KeepsIntact.capSource : KeepsIntact (capSource r) :=
  .bind .source fun _ => .optional .trap fun _ => .bind .refuseBounded fun _ => .pure

theorem AnswersIntact.execCmov (h : s.Intact none) : AnswersIntact (execCmov _la gd gs1 s) := by
  unfold Machine.execCmov
  exact .settle (.bind .enter fun _ => .bind .source fun _ => .bind .result fun _ => .retire) h

theorem AnswersIntact.execCsetaddr (h : s.Intact none) : AnswersIntact (execCsetaddr _la gd gs1 gs2 s) := by
  unfold Machine.execCsetaddr
  exact .settle (.bind .enter fun _ => .bind .capSource fun _ => .bind .exactSource fun _ => .bind .result fun _ => .retire) h

theorem AnswersIntact.execCincaddr (h : s.Intact none) : AnswersIntact (execCincaddr _la gd gs1 gs2 s) := by
  unfold Machine.execCincaddr
  exact .settle (.bind .enter fun _ => .bind .capSource fun _ => .bind .exactSource fun _ => .bind .result fun _ => .retire) h

theorem AnswersIntact.execCincaddri (h : s.Intact none) : AnswersIntact (execCincaddri _la gd gs1 imm s) := by
  unfold Machine.execCincaddri
  exact .settle (.bind .enter fun _ => .bind .capSource fun _ => .bind .result fun _ => .retire) h

theorem AnswersIntact.execCsetbnd (h : s.Intact none) : AnswersIntact (execCsetbnd _la gd gs1 gs2 s) := by
  unfold Machine.execCsetbnd
  exact .settle (.bind .enter fun _ => .bind .capSource fun _ => .bind .exactSource fun _ => .bind .result fun _ => .retire) h

theorem AnswersIntact.execCandperm (h : s.Intact none) : AnswersIntact (execCandperm _la gd gs1 gs2 s) := by
  dsimp only [Machine.execCandperm]
  exact .settle (.bind .enter fun _ => .bind .capSource fun _ => .bind .exactSource fun _ => .bind .result fun _ => .retire) h

theorem AnswersIntact.execCseal (h : s.Intact none) : AnswersIntact (execCseal _la gd gs1 s) := by
  unfold Machine.execCseal
  exact .settle (.bind .enter fun _ => .bind .exactSource fun _ => .bind .result fun _ => .retire) h

theorem AnswersIntact.execCget (h : s.Intact none) : AnswersIntact (execCget _la gd gs1 sel s) := by
  unfold Machine.execCget
  exact .settle (.bind .enter fun _ => .bind .source fun _ => .bind .result fun _ => .retire) h

/-! ## Float -/

theorem KeepsIntact.floatOp : KeepsIntact (floatOp gd srcs f) := by
  dsimp only [Machine.floatOp]
  refine .bind .enter fun _ => .bind .sources fun _ => .get fun _ h => .bind .result fun _ => ?_
  exact .bind (.changed fun _ h => h.tally) fun _ => .retire

theorem AnswersIntact.execFmaddS (h : s.Intact none) : AnswersIntact (execFmaddS gd gs1 gs2 gs3 s) := .settle .floatOp h
theorem AnswersIntact.execFmsubS (h : s.Intact none) : AnswersIntact (execFmsubS gd gs1 gs2 gs3 s) := .settle .floatOp h
theorem AnswersIntact.execFnmaddS (h : s.Intact none) : AnswersIntact (execFnmaddS gd gs1 gs2 gs3 s) := .settle .floatOp h
theorem AnswersIntact.execFnmsubS (h : s.Intact none) : AnswersIntact (execFnmsubS gd gs1 gs2 gs3 s) := .settle .floatOp h
theorem AnswersIntact.execFaddS (h : s.Intact none) : AnswersIntact (execFaddS gd gs1 gs2 s) := .settle .floatOp h
theorem AnswersIntact.execFsubS (h : s.Intact none) : AnswersIntact (execFsubS gd gs1 gs2 s) := .settle .floatOp h
theorem AnswersIntact.execFmulS (h : s.Intact none) : AnswersIntact (execFmulS gd gs1 gs2 s) := .settle .floatOp h
theorem AnswersIntact.execFdivS (h : s.Intact none) : AnswersIntact (execFdivS gd gs1 gs2 s) := .settle .floatOp h
theorem AnswersIntact.execFsqrtS (h : s.Intact none) : AnswersIntact (execFsqrtS gd gs1 s) := .settle .floatOp h

theorem KeepsIntact.extremeOp : KeepsIntact (extremeOp larger gd gs1 gs2) := by
  unfold Machine.extremeOp
  exact .bind .enter fun _ => .bind .source fun _ => .bind .source fun _ => .bind .result fun _ => .retire

theorem AnswersIntact.execFminS (h : s.Intact none) : AnswersIntact (execFminS gd gs1 gs2 s) := .settle .extremeOp h
theorem AnswersIntact.execFmaxS (h : s.Intact none) : AnswersIntact (execFmaxS gd gs1 gs2 s) := .settle .extremeOp h
theorem AnswersIntact.execFeqS (h : s.Intact none) : AnswersIntact (execFeqS gd gs1 gs2 s) := .settle .floatOp h
theorem AnswersIntact.execFltS (h : s.Intact none) : AnswersIntact (execFltS gd gs1 gs2 s) := .settle .floatOp h
theorem AnswersIntact.execFleS (h : s.Intact none) : AnswersIntact (execFleS gd gs1 gs2 s) := .settle .floatOp h

theorem AnswersIntact.execFcvt (h : s.Intact none) : AnswersIntact (execFcvt gd gs1 src sat dst s) := by
  dsimp only [Machine.execFcvt]
  exact .settle (.optional .illegal fun _ => .bind .enter fun _ => .bind .source fun _ => .get fun _ _ => .bind .result fun _ =>
      .bind (.changed fun _ h => h.tally) fun _ => .retire) h

/-! ## DeskSteps -/

theorem State.Intact.barrierFailed (h : s.Intact none) : (s.barrierFailed r c dstat).Intact none := by
  dsimp only [State.barrierFailed]
  split
  · exact h.lateFault
  · exact .ite h h.endGrid

theorem State.Intact.actingAnswered (h : s.Intact none) : (s.actingAnswered op c st r).Intact none := by
  dsimp only [State.actingAnswered]
  split
  · exact h
  · exact .ite (.ite h (.ite h.same h.dropHold.sendAnswer.settleCell)) h.dropHold.sendAnswer

theorem State.Intact.requestFailed (h : s.Intact none) : (s.requestFailed op r c st).Intact none :=
  .ite h.barrierFailed h.sendAnswer

theorem State.Intact.requestPoisoned (h : s.Intact none) : (s.requestPoisoned op r).Intact none := by
  unfold State.requestPoisoned
  split
  · exact .ite h.barrierFailed h.actingAnswered
  · exact h.requestFailed

theorem State.Intact.performRequest (h : s.Intact none) : (s.performRequest op r again).Intact none := by
  unfold State.performRequest
  split
  · exact h.same
  · split
    · exact h.requestPoisoned
    · split
      · exact h.same
      · exact h.enterSlice.desk.snd ‹_›
      · split
        · split
          · exact .ite (h.enterSlice.desk.snd ‹_›).barrierFailed (h.enterSlice.desk.snd ‹_›).sendAnswer
          · exact h.enterSlice.desk.snd ‹_›
        · split
          · exact (h.enterSlice.desk.snd ‹_›).actingAnswered
          · exact (h.enterSlice.desk.snd ‹_›).sendAnswer

theorem State.Intact.deskRequest (h : s.Intact none) : (s.deskRequest op r again).Intact none := by
  unfold State.deskRequest
  split
  · exact h.performRequest
  · split
    · split
      · split
        · exact (h.findCell.snd ‹_›).performRequest
        · exact (h.findCell.snd ‹_›).emit
        · exact (h.findCell.snd ‹_›).requestFailed
        · exact (h.findCell.snd ‹_›).requestFailed
      · exact .ite h.requestFailed h.sendCell
    · split
      · exact (h.findCell.snd ‹_›).performRequest
      · exact (h.findCell.snd ‹_›).emit
      · exact (h.findCell.snd ‹_›).requestFailed
      · exact (h.findCell.snd ‹_›).requestFailed

theorem State.Intact.continuationArrives (h : s.Intact none) : (s.continuationArrives w t).Intact none := by
  dsimp only [State.continuationArrives]
  split
  · split
    · exact h.arriveAt
    · split
      · exact h
      · split
        · exact h.arriveAt
        · exact h
  · exact h.arriveBank
  · exact h.arriveAt
  · exact h

theorem State.Intact.hostReply (h : s.Intact none) : (s.hostReply r status cause data).Intact none :=
  h.foldl fun _ _ _ h => h.toUbgen

theorem State.Intact.emitOnce (h : s.Intact none) : (s.emitOnce e).Intact none := .ite h h.same

theorem State.Intact.finishAttach (h : s.Intact none) : (s.finishAttach r pa v).Intact none := by
  unfold State.finishAttach
  extract_lets
  refine .ite h.hostReply (.ite h.hostReply ?_)
  split
  · exact h.hostReply
  · exact (h.same (t := (State.drawn s).onRegion _ _)).hostReply.same

theorem State.Intact.askPort (h : s.Intact none) : s.askPort.Intact none := by
  unfold State.askPort
  split
  · exact h.emitOnce
  · exact h

theorem State.Intact.hostAnswered (h : s.Intact none) : (s.hostAnswered n a).Intact none := by
  dsimp only [State.hostAnswered]
  split
  · exact .ite (State.Intact.finishAttach h.same) (State.Intact.hostReply h.same)
  · split
    · exact .ite h (State.Intact.askPort (State.Intact.hostReply h.same))
    · exact h

theorem State.Intact.onQueue {region : Nat} (h : s.Intact none) : (s.onQueue region i f).Intact none := h.same

theorem State.Intact.cancelPop {region : Nat} (h : s.Intact none) : (s.cancelPop region i).Intact none := by
  unfold State.cancelPop
  split
  · exact h
  · exact .ite h.same (.ite h h.send)

theorem State.Intact.stopQueue {region : Nat} (h : s.Intact none) : (s.stopQueue region i).Intact none := State.Intact.cancelPop
    h.same

theorem State.Intact.dropDetached {region : Nat} (h : s.Intact none) : (s.dropDetached region i).Intact none := by
  unfold State.dropDetached
  split
  · exact h
  · exact .ite h.same h

theorem State.Intact.commandDone {region : Nat} (h : s.Intact none) : (s.commandDone region i cmd tag).Intact none := by
  dsimp only [State.commandDone]
  split
  · exact h
  · exact State.Intact.emitOnce (State.Intact.dropDetached (.ite (State.Intact.record h.same) h.same))

theorem State.Intact.commandFailed {region : Nat} (h : s.Intact none) : (s.commandFailed region i cause cmd).Intact none := by
  unfold State.commandFailed
  split
  · exact h
  · exact State.Intact.dropDetached (State.Intact.record (State.Intact.stopQueue h.same))

theorem State.Intact.startedFailed {region : Nat} (h : s.Intact none) : (s.startedFailed region i cause cmd tag).Intact none :=
  State.Intact.commandFailed h.same

theorem State.Intact.resetAnswered {region : Nat} (h : s.Intact none) : (s.resetAnswered region i r status cause).Intact none :=
  .ite (State.Intact.hostReply (State.Intact.emitOnce h.same)) (State.Intact.hostReply h.same)

theorem State.Intact.agentAnswered {region : Nat} (h : s.Intact none) : (s.agentAnswered region y a).Intact none := by
  unfold State.agentAnswered
  split
  · exact h
  · split
    · exact .ite (State.Intact.emitOnce (State.Intact.dropDetached h.same))
        (.ite (State.Intact.emitOnce (State.Intact.dropDetached h.same)) (State.Intact.dropDetached h.same))
    · split
      · exact .ite h.commandDone h.startedFailed
      · exact .ite h.resetAnswered h
      · exact h

theorem State.Intact.endUnrun (h : s.Intact none) : (s.endUnrun g status c addr).Intact none := .ite h h.same
theorem State.Intact.statusLost (h : s.Intact none) : (s.statusLost x).Intact none := h.record

theorem State.Intact.gridAnswered (h : s.Intact none) : (s.gridAnswered g x c).Intact none := by
  dsimp only [State.gridAnswered]
  split
  · exact .ite h.same (State.Intact.endUnrun h.same)
  · exact State.Intact.emitOnce (.ite (State.Intact.statusLost h.same) h.same)

theorem State.Intact.answered (h : s.Intact none) : (s.answered a).Intact none := by
  dsimp only [State.answered]
  split
  · exact h.continuationArrives
  · split
    · split
      · exact h.barrierFailed
      · exact h
    · split
      · split
        · exact h.same
        · split
          · exact h
          · exact .ite h.same h.cellAnswered
      · exact h.hostAnswered
      · exact h.cellAnswered
      · split
        · exact h.gridAnswered
        · exact .ite h.cellAnswered h.agentAnswered
      · exact h

theorem State.Intact.refusedByDesk (h : s.Intact none) : (s.refusedByDesk a).Intact none := by
  dsimp only [State.refusedByDesk]
  split
  · exact h
  · exact .ite h.same h.same

theorem State.Intact.tellPriority (h : s.Intact none) : (s.tellPriority src w ctx sl before).Intact none := by
  unfold State.tellPriority
  split
  · split
    · exact h
    · split
      · exact h.same
      · split
        · exact .ite h h.send
        · exact h
  · exact h

theorem State.Intact.boostCopies {cluster : Nat} (h : s.Intact none) : (s.boostCopies cluster level).Intact none :=
  h.foldl fun _ _ _ h => h.same

theorem State.Intact.boosted (h : s.Intact none) : (s.boosted upward w level).Intact none := by
  dsimp only [State.boosted]
  split
  · split
    · exact .ite h.same (.ite h.same (.ite h.same (State.Intact.send h.same)))
    · exact h.same
  · split
    · exact .ite h.boostCopies h
    · split
      · exact State.Intact.tellPriority h.same
      · split
        · exact h
        · exact State.Intact.tellPriority h.same

theorem State.Intact.setPriority (h : s.Intact none) : (s.setPriority cell w prio).Intact none := by
  unfold State.setPriority
  extract_lets t
  have ht : t.Intact none := by
    dsimp only [t]
    split
    · exact h.same
    · exact h
  clear_value t
  exact .ite (State.Intact.settleCell ht.same) ht

theorem State.Intact.cancelHold (h : s.Intact none) : (s.cancelHold cell w seq).Intact none := by
  unfold State.cancelHold
  split
  · exact h
  · extract_lets voided dropped answered
    have hvoided : voided.Intact none := .ite h.same h.dropHold
    have hdropped : dropped.Intact none := by
      dsimp only [dropped]
      split
      · exact hvoided.foldl fun _ _ _ h => h.dropHold
      · exact hvoided
    exact (State.Intact.ite hdropped hdropped.sendAnswer).settleCell

theorem State.Intact.censusAt {id : Nat} {count : Nat} (h : s.Intact none) : (s.censusAt id router count sums).Intact none := by
  dsimp only [State.censusAt]
  split
  · exact h.same
  · split
    · exact .ite (State.Intact.closeCensus h.same) h.same
    · split <;> exact .ite h.same h.same

theorem State.Intact.censusTimeout {id : Nat} (h : s.Intact none) : (s.censusTimeout id router).Intact none := by
  unfold State.censusTimeout
  split
  · exact h.same
  · exact h.same
  · exact h

theorem State.Intact.censusRequest {id : Nat} {core : Nat} (h : s.Intact none) : (s.censusRequest id core).Intact none := by
  dsimp only [State.censusRequest]
  split
  · exact h
  · exact h.same

theorem AnswersIntact.deskRow (h : s.Intact none) : AnswersIntact (deskRow op r s) := .next h.deskRequest

theorem AnswersIntact.execQuery (h : s.Intact none) : AnswersIntact (execQuery s) := by
  unfold Machine.execQuery
  split
  · exact AnswersIntact.deskRow h
  · exact .next h

theorem AnswersIntact.execFree (h : s.Intact none) : AnswersIntact (execFree s) := by
  unfold Machine.execFree
  split
  · exact AnswersIntact.deskRow h
  · exact .next h

theorem AnswersIntact.execInit (h : s.Intact none) : AnswersIntact (execInit s) := by
  unfold Machine.execInit
  split
  · exact AnswersIntact.deskRow h
  · exact .next h

theorem AnswersIntact.execCadd (h : s.Intact none) : AnswersIntact (execCadd s) := by
  unfold Machine.execCadd
  split
  · exact AnswersIntact.deskRow h
  · exact .next h

theorem AnswersIntact.execCwait (h : s.Intact none) : AnswersIntact (execCwait s) := by
  unfold Machine.execCwait
  split
  · exact AnswersIntact.deskRow h
  · exact .next h

theorem AnswersIntact.execCarm (h : s.Intact none) : AnswersIntact (execCarm s) := by
  unfold Machine.execCarm
  split
  · exact AnswersIntact.deskRow h
  · exact .next h

theorem AnswersIntact.execCdisarm (h : s.Intact none) : AnswersIntact (execCdisarm s) := by
  unfold Machine.execCdisarm
  split
  · exact AnswersIntact.deskRow h
  · exact .next h

theorem AnswersIntact.execBarrive (h : s.Intact none) : AnswersIntact (execBarrive s) := by
  unfold Machine.execBarrive
  split
  · exact AnswersIntact.deskRow h
  · exact .next h

theorem AnswersIntact.execBwait (h : s.Intact none) : AnswersIntact (execBwait s) := by
  unfold Machine.execBwait
  split
  · exact AnswersIntact.deskRow h
  · exact .next h

theorem AnswersIntact.execBsync (h : s.Intact none) : AnswersIntact (execBsync s) := by
  unfold Machine.execBsync
  split
  · exact AnswersIntact.deskRow h
  · exact .next h

theorem AnswersIntact.execBpendadd (h : s.Intact none) : AnswersIntact (execBpendadd s) := by
  unfold Machine.execBpendadd
  split
  · exact AnswersIntact.deskRow h
  · exact .next h

theorem AnswersIntact.execBpendsub (h : s.Intact none) : AnswersIntact (execBpendsub s) := by
  unfold Machine.execBpendsub
  split
  · exact AnswersIntact.deskRow h
  · exact .next h

theorem AnswersIntact.execLacq (h : s.Intact none) : AnswersIntact (execLacq s) := by
  unfold Machine.execLacq
  split
  · exact AnswersIntact.deskRow h
  · exact .next h

theorem AnswersIntact.execLtry (h : s.Intact none) : AnswersIntact (execLtry s) := by
  unfold Machine.execLtry
  split
  · exact AnswersIntact.deskRow h
  · exact .next h

theorem AnswersIntact.execLrel (h : s.Intact none) : AnswersIntact (execLrel s) := by
  unfold Machine.execLrel
  split
  · exact AnswersIntact.deskRow h
  · exact .next h

theorem AnswersIntact.execQpush (h : s.Intact none) : AnswersIntact (execQpush s) := by
  unfold Machine.execQpush
  split
  · exact AnswersIntact.deskRow h
  · exact .next h

theorem AnswersIntact.execQpop (h : s.Intact none) : AnswersIntact (execQpop s) := by
  unfold Machine.execQpop
  split
  · exact AnswersIntact.deskRow h
  · exact .next h

theorem AnswersIntact.execQtrypush (h : s.Intact none) : AnswersIntact (execQtrypush s) := by
  unfold Machine.execQtrypush
  split
  · exact AnswersIntact.deskRow h
  · exact .next h

theorem AnswersIntact.execQtrypop (h : s.Intact none) : AnswersIntact (execQtrypop s) := by
  unfold Machine.execQtrypop
  split
  · exact AnswersIntact.deskRow h
  · exact .next h

theorem AnswersIntact.execVwait (h : s.Intact none) : AnswersIntact (execVwait s) := by
  unfold Machine.execVwait
  split
  · exact AnswersIntact.deskRow h
  · exact .next h

theorem AnswersIntact.execVsignal (h : s.Intact none) : AnswersIntact (execVsignal s) := by
  unfold Machine.execVsignal
  split
  · exact AnswersIntact.deskRow h
  · exact .next h

theorem AnswersIntact.execVbcast (h : s.Intact none) : AnswersIntact (execVbcast s) := by
  unfold Machine.execVbcast
  split
  · exact AnswersIntact.deskRow h
  · exact .next h

theorem AnswersIntact.execResult (h : s.Intact none) : AnswersIntact (execResult s) := by
  unfold Machine.execResult
  split
  · exact .next (.ite h.refusedByDesk h.answered)
  · exact .next h

theorem AnswersIntact.execWake (h : s.Intact none) : AnswersIntact (execWake s) := by
  unfold Machine.execWake
  split
  · exact .next h.answered
  · exact .next h

theorem AnswersIntact.execBoost (h : s.Intact none) : AnswersIntact (execBoost s) := by
  unfold Machine.execBoost
  split
  · exact .next h.boosted
  · exact .next h

theorem AnswersIntact.execExpire (h : s.Intact none) : AnswersIntact (execExpire s) := by
  unfold Machine.execExpire
  split
  · exact .next h.boosted
  · exact .next h

theorem AnswersIntact.execPrioset (h : s.Intact none) : AnswersIntact (execPrioset s) := by
  unfold Machine.execPrioset
  split
  · exact .next h.setPriority
  · exact .next h

theorem AnswersIntact.execCancel (h : s.Intact none) : AnswersIntact (execCancel s) := by
  unfold Machine.execCancel
  split
  · exact .next h.cancelHold
  · exact .next h

theorem AnswersIntact.execCensusreq (h : s.Intact none) : AnswersIntact (execCensusreq s) := by
  unfold Machine.execCensusreq
  split
  · exact .next h.censusRequest
  · exact .next h

theorem AnswersIntact.execCensus (h : s.Intact none) : AnswersIntact (execCensus s) := by
  unfold Machine.execCensus
  split
  · exact .next h.censusAt
  · exact .next h

theorem AnswersIntact.execCensusEntryTimeout (h : s.Intact none) : AnswersIntact (execCensusEntryTimeout s) := by
  unfold Machine.execCensusEntryTimeout
  split
  · exact .next h.censusTimeout
  · exact .next h

theorem AnswersIntact.execDeskResend (h : s.Intact none) : AnswersIntact (execDeskResend s) := by
  dsimp only [Machine.execDeskResend]
  split
  · refine .next (State.Intact.foldl h.same fun _ _ _ h => ?_)
    split
    · exact h.send
    · exact h.same
  · exact .next h

/-! ## Replies -/

theorem State.Intact.boardReplied (h : s.Intact none) : (s.boardReplied n b status m vals).Intact none := by
  unfold State.boardReplied
  extract_lets t u
  have hu : u.Intact none := h.same
  clear_value u
  split
  · exact hu.onSlot
  · exact State.Intact.same (State.Intact.takeTrap (hu.same (t := { u with cur := b.slot })))
  · exact hu.foldl fun _ _ _ h => h.writeReg
  · exact hu.foldl fun _ _ _ h => h.mark

end

end Sys2Proof.Machine
end

section
/-! SUPPORT. What the units' work leaves in order (`State.Intact`), part 4. Each lemma follows the branches of
one function of the model. Here: replies, tasks, and the vector, matrix and copy engines. -/

namespace Sys2Proof.Machine

open Sys2Proof

set_option autoImplicit true

section
variable {s : State} {up : Option (List Nat)}

/-! ## Replies -/

theorem State.Intact.postedAnswered (h : s.Intact none) : (s.postedAnswered n p status rcode dev).Intact none := by
  dsimp only [State.postedAnswered]
  split
  · exact .ite h.same h.same
  · refine State.Intact.lateFault ?_
    split
    · exact State.Intact.carryDesk (State.Intact.drawn (.ite h.same h.same))
    · exact .ite h.same h.same

theorem State.Intact.hostAck (h : s.Intact none) : (s.hostAck r).Intact none := h.toUbgen
theorem State.Intact.hostDone (h : s.Intact none) : (s.hostDone n late tag).Intact none := State.Intact.askPort h.same

theorem State.Intact.hostAsk (h : s.Intact none) : (s.hostAsk n late hd).Intact none :=
  .ite (State.Intact.hostDone (State.Intact.hostReply h.same)) (State.Intact.send h.same)

theorem State.Intact.hostFetched (h : s.Intact none) : (s.hostFetched n late hd r).Intact none :=
  .ite h.hostReply.hostDone (.ite h (.ite h.hostAsk (.ite h.hostReply.hostDone h.hostAck.hostDone)))

theorem State.Intact.attachRefused (h : s.Intact none) : (s.attachRefused n hd r).Intact none := .ite h (State.Intact.hostReply
    h.same)

theorem State.Intact.queueReplied {region : Nat} (h : s.Intact none) : (s.queueReplied region i q r).Intact none := by
  unfold State.queueReplied
  split
  · exact .ite h (State.Intact.dropDetached h.same)
  · split
    · exact .ite h.commandDone h.startedFailed
    · exact .ite h h.resetAnswered
    · exact h

theorem State.Intact.otherReplied (h : s.Intact none) : (s.otherReplied r m).Intact none := by
  dsimp only [State.otherReplied]
  split
  · exact h.hostFetched
  · split
    · exact h.attachRefused
    · split
      · exact h.same
      · split
        · exact h.queueReplied
        · split
          · exact h.gridAnswered
          · split
            · exact h.endGrid
            · split
              · exact h.same
              · exact State.Intact.endGrid h.same
              · exact h.same

theorem State.Intact.replyArrived (h : s.Intact none) : (s.replyArrived r).Intact none := by
  dsimp only [State.replyArrived]
  split
  · exact h.boardReplied
  · split
    · exact h.postedAnswered
    · split
      · exact h.same
      · split
        · exact .ite h h.cellRefused
        · exact h.otherReplied

theorem State.Intact.deadlinePassed {core : Nat} (h : s.Intact none) : (s.deadlinePassed core tag).Intact none := by
  dsimp only [State.deadlinePassed]
  split
  · exact .ite h.same h.boardReplied
  · split
    · exact h
    · split
      · exact h.same
      · split
        · split
          · exact h.cellRefused
          · split
            · exact h.cellRefused.send
            · exact h.cellRefused
        · exact h

theorem State.Intact.postedLapsed {core : Nat} (h : s.Intact none) : (s.postedLapsed core tag).Intact none := by
  unfold State.postedLapsed
  split
  · exact h
  · exact .ite h.same h.postedAnswered

theorem AnswersIntact.execMemoryReply (h : s.Intact none) : AnswersIntact (execMemoryReply s) := by
  unfold Machine.execMemoryReply
  split
  · exact .next h.replyArrived
  · exact .next h

theorem AnswersIntact.execRcallReply (h : s.Intact none) : AnswersIntact (execRcallReply s) := by
  unfold Machine.execRcallReply
  split
  · exact .next h.replyArrived
  · exact .next h

theorem AnswersIntact.execStoreAck (h : s.Intact none) : AnswersIntact (execStoreAck s) := by
  unfold Machine.execStoreAck
  split
  · exact .next h.replyArrived
  · exact .next h

theorem AnswersIntact.execReplyDeadline (h : s.Intact none) : AnswersIntact (execReplyDeadline s) := by
  unfold Machine.execReplyDeadline
  split
  · exact .next h.deadlinePassed
  · exact .next h

theorem AnswersIntact.execPostedTimeout (h : s.Intact none) : AnswersIntact (execPostedTimeout s) := by
  unfold Machine.execPostedTimeout
  split
  · exact .next h.postedLapsed
  · exact .next h

theorem AnswersIntact.execElMaterialise (h : s.Intact none) : AnswersIntact (execElMaterialise s) := by
  unfold Machine.execElMaterialise
  split
  · exact .next (.ite h.same h.materialise)
  · exact .next h

theorem AnswersIntact.execRegisterImageWrite (h : s.Intact none) : AnswersIntact (execRegisterImageWrite s) := by
  unfold Machine.execRegisterImageWrite
  split
  · exact .next h.writeImage
  · exact .next h

/-! ## Tasks -/

theorem KeepsIntact.handleOperand : KeepsIntact (handleOperand r) := .bind .exactSource fun _ => .ite .pure .trap

theorem KeepsIntact.targetOperand : KeepsIntact (targetOperand r) := by
  dsimp only [Machine.targetOperand]
  refine .bind .exactSource fun _ => .get fun _ _ => .optional .illegal fun _ => ?_
  split
  · exact .pure
  · exact .trap

theorem State.Intact.inject (h : s.Intact none) : (s.inject t m).Intact none := by
  dsimp only [State.inject]
  split
  · exact h.same
  · exact h.carryTo
  · exact h.same
  · split
    · split
      · exact h.count.lateFault
      · exact h.count
    · exact h.count.drawn.send

theorem AnswersIntact.execSend (h : s.Intact none) : AnswersIntact (execSend n gd gs2 s) := by
  dsimp only [Machine.execSend]
  exact .settle (.bind .enter fun _ => .bind .targetOperand fun _ => .bind .sources fun _ => .bind (.changed fun _ h =>
      h.inject) fun _ => .retire) h

theorem AnswersIntact.execSpawn (h : s.Intact none) : AnswersIntact (execSpawn n gd gs1 gs2 s) := by
  dsimp only [Machine.execSpawn]
  refine .settle (.bind .enter fun _ => .bind .targetOperand fun _ => .bind .sources fun _ => ?_) h
  refine .bind .handleOperand fun _ => ?_
  split
  · exact .stop .trap fun _ => ⟨_, rfl⟩
  · exact .bind (.changed fun _ h => h.inject) fun _ => .retire

theorem AnswersIntact.execFork (h : s.Intact none) : AnswersIntact (execFork la gd gs1 gs2 s) := by
  dsimp only [Machine.execFork]
  exact .settle (.bind .enter fun _ => .bind .exactSource fun _ => .bind .sources fun _ => .optional .trap fun _ =>
      .bind .awaitEarlier fun _ => .get fun _ h1 => .ite (.bind (.set h1.same) fun _ => .bind .result fun _ => .retire)
      (.optional .waitHere fun _ => .bind .result fun _ => .bind .result fun _ => .bind .result fun _ => .bind .result fun _ =>
      .bind .result fun _ => .bind .result fun _ => .jumpTo)) h

theorem AnswersIntact.execJoin (h : s.Intact none) : AnswersIntact (execJoin la gs1 s) :=
  .settle (.bind .enter fun _ => .optional .enter fun _ => .ite .leaveForked (.bind .exactSource fun _ =>
    .bind .cellCap fun _ => .bind .alignTo fun _ => .performCell fun _ => .pure)) h

theorem AnswersIntact.execExit (h : s.Intact none) : AnswersIntact (execExit _la s) :=
  .settle (.bind .enter fun _ => .changed fun _ h => h.retired.exitSlot) h

theorem AnswersIntact.execYield (h : s.Intact none) : AnswersIntact (execYield la gs1 s) := by
  unfold Machine.execYield
  exact .settle (.bind .enter fun _ => .bind .exactSource fun _ => .bind .retire fun _ => .changed fun _ h => h.same) h

theorem AnswersIntact.execTrigger (h : s.Intact none) : AnswersIntact (execTrigger la s) := by
  dsimp only [Machine.execTrigger]
  refine .settle (.bind .enter fun _ => .get fun _ _ => ?_) h
  split
  · split
    · exact .bind .awaitEarlier fun _ => .bind (.changed fun _ h => State.Intact.decTrigger h.same) fun _ => .retire
    · exact .retire
  · exact .retire

theorem State.Intact.calleeAt (h : s.Intact none) : (s.calleeAt a va).2.Intact none := by
  dsimp only [State.calleeAt]
  split <;> exact h.translate.snd ‹_›

theorem KeepsIntact.calleeOperand : KeepsIntact (calleeOperand t c) := by
  dsimp only [Machine.calleeOperand]
  refine .get fun _ h => ?_
  split
  · refine .optional .illegal fun _ => ?_
    split
    · exact .trap
    · exact .trap
    · exact .pure
  · refine .optional .trap fun _ => ?_
    split
    · exact .pure
    · split
      · exact .trap
      · split
        · exact .pure
        · exact .trap
    · exact .trap
    · split
      · exact .pure
      · split
        · exact .bind (.set (h.calleeAt.snd ‹_›)) fun _ => .pure
        · exact .waitOutside
    · split
      · exact .bind (.set (h.calleeAt.snd ‹_›)) fun _ => .pure
      · exact .waitOutside

theorem KeepsIntact.awaitStores : KeepsIntact (awaitStores ea) := by
  unfold Machine.awaitStores
  refine .get fun _ _ => ?_
  split
  · exact .pure
  · exact .ite .waitHere .pure

theorem State.Intact.sendSlip (h : s.Intact none) : (s.sendSlip u t tag).Intact none := by
  dsimp only [State.sendSlip]
  split
  · exact h.same
  · exact h.same
  · exact .ite h.same h.count.send
  · exact h
  · exact .ite h.same h.count.send
  · exact h.same

theorem KeepsIntact.callOp (htake : ∀ dev ea, KeepsIntact (take dev ea)) :
    KeepsIntact (Machine.callOp levels kind n gs1 gs2 dsts take) := by
  refine .bind .enter fun _ => .bind .exactSource fun _ => .bind .exactSource fun _ => .bind .exactSource fun _ =>
    .bind .sources fun _ => .optional .trap fun _ => .bind .calleeOperand fun _ => ?_
  exact .bind .awaitStores fun _ => .bind (htake _ _) fun _ => .bind (.changed fun _ h => h.sendSlip) fun _ => .retire

theorem AnswersIntact.execRcall (h : s.Intact none) : AnswersIntact (execRcall n r gd gs1 gs2 s) :=
  .settle (.callOp fun _ _ => .takeBoard) h

theorem AnswersIntact.execRpost (h : s.Intact none) : AnswersIntact (execRpost n gs1 gs2 s) :=
  .settle (.callOp fun _ _ => .takePosted) h

theorem AnswersIntact.execRreply (h : s.Intact none) : AnswersIntact (execRreply n gs2 s) := by
  dsimp only [Machine.execRreply]
  refine .settle (.bind .atLevels fun _ => .get fun _ _ => ?_) h
  split
  · split
    · exact .retire
    · split
      · exact .illegal
      · refine .bind .enter fun _ => .bind .sources fun _ => .bind .awaitEarlier fun _ => .bind ?_ fun _ => ?_
        · refine .changed fun _ h => ?_
          split
          · exact State.Intact.answerCall h.same
          · exact h.same
        · exact .retire
  · exact .illegal

theorem State.Intact.depart (h : s.Intact none) : (s.depart k target cls).Intact none := h.same

theorem AnswersIntact.execMigrate (h : s.Intact none) : AnswersIntact (execMigrate la gs1 s) := by
  dsimp only [Machine.execMigrate]
  refine .settle (.bind .enter fun _ => .bind .exactSource fun _ => .get fun _ _ => ?_) h
  split
  · split
    · exact .stop .trap fun _ => ⟨_, rfl⟩
    · split
      · exact .stop (.waitAfter fun _ h => h.same) fun _ => ⟨_, rfl⟩
      · refine .optional .waitHere fun _ => .bind .awaitEarlier fun _ => ?_
        exact .changed fun _ h => h.flushBarrier.onSlot.retired.depart
  · exact .trap

theorem KeepsIntact.maskOp : KeepsIntact (maskOp la gd gs1 f) := by
  dsimp only [Machine.maskOp]
  refine .bind .enter fun _ => .bind .exactSource fun _ => .get fun _ h => ?_
  exact .bind (.set h.same) fun _ => .bind .result fun _ => .retire

theorem AnswersIntact.execHold (h : s.Intact none) : AnswersIntact (execHold la gd gs1 s) := .settle .maskOp h
theorem AnswersIntact.execUnhold (h : s.Intact none) : AnswersIntact (execUnhold la gd gs1 s) := .settle .maskOp h

theorem AnswersIntact.execCatset (h : s.Intact none) : AnswersIntact (execCatset la gs2 sel s) := by
  unfold Machine.execCatset
  exact .settle (.bind .enter fun _ => .bind .exactSource fun _ => .bind (.changed fun _ h =>
      State.Intact.askAnnex h.same) fun _ => .retire) h

theorem AnswersIntact.execAtake (h : s.Intact none) : AnswersIntact (execAtake la gd s) := by
  refine .settle (.bind .enter fun _ => .get fun s h => ?_) h
  extract_lets n retired num base
  split
  · exact .bind .result fun _ => .retire
  · extract_lets had t u v taken
    have hv : v.Intact none := (h.count.same (t := u)).leaveInbox
    refine .optional .waitHere fun _ => .bind (.set (.ite hv.entryFreed hv)) fun _ => .bind .result fun _ =>
      .bind .result fun _ => .bind .result fun _ => .bind .result fun _ => .bind (.forIn fun _ _ => ?_) fun _ => .retire
    exact .bind .result fun _ => .pure

theorem AnswersIntact.execLbsend (h : s.Intact none) : AnswersIntact (execLbsend n gd gs1 gs2 s) := by
  dsimp only [Machine.execLbsend]
  exact .settle (.bind .enter fun _ => .bind .source fun _ => .bind .source fun _ => .bind .sources fun _ =>
      .optional .illegal fun _ => .bind .refuseBounded fun _ => .get fun _ h1 =>
      .ite (.bind (.set (.ite h1 h1.enterInbox)) fun _ => .bind .result fun _ => .retire) (.bind .result fun _ => .retire)) h

theorem AnswersIntact.execBind (h : s.Intact none) : AnswersIntact (execBind la gd sel s) := by
  dsimp only [Machine.execBind]
  refine .settle (.bind .enter fun _ => .get fun _ h1 => ?_) h
  split
  · exact .bind .result fun _ => .retire
  · split
    · exact .bind .result fun _ => .retire
    · exact .bind (.set h1.tryBind) fun _ => .bind .result fun _ => .retire

theorem AnswersIntact.execUnbind (h : s.Intact none) : AnswersIntact (execUnbind la s) := by
  unfold Machine.execUnbind
  exact .settle (.bind .enter fun _ => .bind (.changed fun _ h => .ite h.same h) fun _ => .retire) h

theorem AnswersIntact.execGpos (h : s.Intact none) : AnswersIntact (execGpos la gd sel s) :=
  .settle (.bind .enter fun _ => .get fun _ _ => .bind .result fun _ => .retire) h

theorem State.Intact.answerSteal (h : s.Intact none) : (s.answerSteal thief victim).Intact none := by
  dsimp only [State.answerSteal]
  split
  · exact .ite h.same h.same
  · exact h.same

theorem State.Intact.stolen (h : s.Intact none) : (s.stolen thief victim answer).Intact none := by
  dsimp only [State.stolen]
  split
  · exact .ite h (.ite h.same (State.Intact.emit (State.Intact.count h.same)))
  · exact .ite h.askVictim h
  · exact h

theorem State.Intact.retrySteal (h : s.Intact none) : (s.retrySteal n).Intact none := .ite h (.ite h.same
    (State.Intact.beginSteal h.same))

theorem AnswersIntact.execTaskSelect (h : s.Intact none) : AnswersIntact (execTaskSelect s) := by
  unfold Machine.execTaskSelect
  split
  · exact .next (.ite h.selectBank h.select)
  · exact .next h

theorem AnswersIntact.execTaskStart (h : s.Intact none) : AnswersIntact (execTaskStart s) := by
  unfold Machine.execTaskStart
  split
  · exact .next h.startTask
  · exact .next h

theorem AnswersIntact.execMessageArrival (h : s.Intact none) : AnswersIntact (execMessageArrival s) := by
  unfold Machine.execMessageArrival
  split
  · exact .next h.arrive_
  · exact .next h

theorem AnswersIntact.execMessageReady (h : s.Intact none) : AnswersIntact (execMessageReady s) := by
  unfold Machine.execMessageReady
  split
  · exact .next h.makeReady
  · exact .next h

theorem AnswersIntact.execAnnexStart (h : s.Intact none) : AnswersIntact (execAnnexStart s) := by
  unfold Machine.execAnnexStart
  split
  · exact .next h.startAnnex
  · exact .next h

theorem AnswersIntact.execStealRequest (h : s.Intact none) : AnswersIntact (execStealRequest s) := by
  unfold Machine.execStealRequest
  split
  · exact .next h.answerSteal
  · exact .next h.stolen
  · exact .next h

theorem AnswersIntact.execStealRetry (h : s.Intact none) : AnswersIntact (execStealRetry s) := by
  unfold Machine.execStealRetry
  split
  · exact .next h.retrySteal
  · exact .next h

theorem AnswersIntact.execMigrateArrival (h : s.Intact none) : AnswersIntact (execMigrateArrival s) := by
  unfold Machine.execMigrateArrival
  split
  · exact .next h.arriveAt
  · exact .next h

theorem AnswersIntact.execCallSlip (h : s.Intact none) : AnswersIntact (execCallSlip s) := by
  unfold Machine.execCallSlip
  split
  · exact .next h.arrive_
  · exact .next h

theorem AnswersIntact.execYieldExpiry (h : s.Intact none) : AnswersIntact (execYieldExpiry s) := by
  unfold Machine.execYieldExpiry
  split
  · exact .next (.ite h (.ite h.same h.same))
  · exact .next h

/-! ## Engines -/

theorem KeepsIntact.strandIssuer : KeepsIntact (strandIssuer) := .get fun _ _ => .pure

theorem KeepsIntact.rowOperand : KeepsIntact (rowOperand v dst) :=
  .optional .illegal fun _ => .ite .pure (.ite .illegal .pure)

theorem KeepsIntact.needScratch : KeepsIntact (needScratch off n) := .get fun _ _ => .ite .trap .pure
theorem KeepsIntact.needGranules : KeepsIntact (needGranules off n) := .optional .trap fun _ => .needScratch

theorem KeepsIntact.reserveSlot {bytes : Nat} (htooLong : KeepsIntact tooLong) :
    KeepsIntact (Machine.reserveSlot i bytes tooLong) :=
  .get fun _ h => .optional .trap fun _ => .optional htooLong fun _ => .bind (.set h.same) fun _ => .pure

theorem State.Intact.landSlot (h : s.Intact none) : (s.landSlot c car).Intact none := by
  unfold State.landSlot
  split
  · exact h
  · exact h.same

theorem State.Intact.wakeEngines (h : s.Intact none) : (s.wakeEngines c).Intact none := by
  dsimp only [State.wakeEngines]
  split
  · split
    · exact .ite h h.emitOnce
    · exact State.Intact.emitOnce (.ite h h.emitOnce)
  · refine State.Intact.emitOnce ?_
    split
    · exact .ite h h.emitOnce
    · exact State.Intact.emitOnce (.ite h h.emitOnce)

theorem State.Intact.engineIdle (h : s.Intact none) : (s.engineIdle c).Intact none := by
  dsimp only [State.engineIdle]
  split
  · exact h.wakeEngines.checkGridEnd
  · exact h.wakeEngines

theorem State.Intact.doorDone (h : s.Intact none) : (s.doorDone c block).Intact none := h.same

theorem State.Intact.doorFault (h : s.Intact none) : (s.doorFault c block cause).Intact none := by
  dsimp only [State.doorFault]
  split
  · exact State.Intact.endGrid h.same
  · exact h.same

theorem State.Intact.engineFault {slot : Nat} (h : s.Intact none) : (s.engineFault c block slot door cause addr pc).Intact none :=
  .ite h.doorFault h.lateFault

theorem State.Intact.ring_ (ha : KeepsIntact a) (h : s.Intact none) : (s.ring_ c block again a).Intact none := by
  have hhere : ({ s with cur := slotKey c 0 } : State).Intact none := h.same
  unfold State.ring_
  extract_lets here
  split
  · have ht := ha.ok hhere ‹_›
    exact ht.same
  · exact h.same
  · have ht := ha.again hhere ‹_›
    exact ht.same
  · have ht := ha.trapped hhere ‹_›
    exact State.Intact.doorFault ht.same
  · have ht := ha.done hhere ‹_›
    exact ht.same

theorem KeepsIntact.nextSeq : KeepsIntact (nextSeq) := .get fun _ h => .bind (.set h.same) fun _ => .pure

/-! ## Vector -/

theorem State.Intact.writeElems (h : s.Intact none) : (s.writeElems c f n off es).Intact none := by
  induction n generalizing s off es with
  | zero => exact h
  | succ n ih =>
    unfold State.writeElems
    split
    · exact h
    · exact ih h.writeMem

theorem State.Intact.acceptRange (h : s.Intact none) : (s.acceptRange c off n).2.Intact none := h.onGranules

theorem State.Intact.mendReads (h : s.Intact none) : (s.mendReads c rs).Intact none := by
  unfold State.mendReads
  split
  · exact h
  · exact h.foldl fun _ _ _ h => h.mendMemory

theorem State.Intact.vectorEffect (h : s.Intact none) : (s.vectorEffect c v).Intact none := by
  dsimp only [State.vectorEffect]
  split
  · exact h.acceptRange.count
  · exact .ite h.tally.storeCap h.tally.writeReg
  · exact .ite h.tally.storeCap h.tally.writeReg
  · exact .ite h.tally.storeCap h.tally.writeReg
  · exact h.writeElems.tally

theorem State.Intact.vectorRun (h : s.Intact none) : (s.vectorRun c).Intact none := by
  dsimp only [State.vectorRun]
  split
  · exact h
  · split
    · exact h.emitOnce
    · split
      · exact State.Intact.engineIdle (State.Intact.engineFault (State.Intact.mendReads h.same))
      · refine State.Intact.engineIdle ?_
        exact .ite (State.Intact.doorDone (State.Intact.landSlot (State.Intact.vectorEffect (State.Intact.mendReads h.same))))
            (State.Intact.landSlot (State.Intact.vectorEffect (State.Intact.mendReads h.same)))

theorem AnswersIntact.execVectorCommand (h : s.Intact none) : AnswersIntact (execVectorCommand s) := by
  unfold Machine.execVectorCommand
  refine .next ?_
  split
  · exact h.vectorRun
  · exact h

theorem KeepsIntact.enterVector : KeepsIntact (enterVector v) := by
  dsimp only [Machine.enterVector]
  refine .get fun _ h => .optional .waitHere fun _ => ?_
  exact .bind .nextSeq fun _ => .changed fun _ h => State.Intact.emitOnce h.same

theorem KeepsIntact.issueVector : KeepsIntact (Machine.issueVector io op gd d a b scalar) := by
  refine .optional .trap fun _ => .optional .illegal fun _ => .bind .rowOperand fun ⟨car, _⟩ => .bind .rowOperand fun ⟨_, _⟩ =>
    .bind .rowOperand fun ⟨_, _⟩ => .optional .needScratch fun _ => .optional .needScratch fun _ =>
    .optional .needScratch fun _ => .optional .needScratch fun _ => .get fun s _ => .optional .waitHere fun _ => ?_
  cases car with
  | none => exact .enterVector
  | some i => exact .bind (.reserveSlot .trap) fun _ => .enterVector

theorem KeepsIntact.binaryVector : KeepsIntact (binaryVector op la gd gs1 gs2) := by
  unfold Machine.binaryVector
  refine .bind .enter fun _ => .bind .source fun _ => .bind .source fun _ => .bind .source fun _ => ?_
  exact .bind .strandIssuer fun _ => .bind .issueVector fun _ => .retire

theorem KeepsIntact.unaryVector : KeepsIntact (unaryVector op la gd gs1) := by
  unfold Machine.unaryVector
  refine .bind .enter fun _ => .bind .source fun _ => .bind .source fun _ => ?_
  exact .bind .strandIssuer fun _ => .bind .issueVector fun _ => .retire

theorem KeepsIntact.scalarVector : KeepsIntact (scalarVector op la gd gs1 gs2) := by
  unfold Machine.scalarVector
  refine .bind .enter fun _ => .bind .source fun _ => .bind .source fun _ => .bind .source fun _ => ?_
  exact .bind .strandIssuer fun _ => .bind .issueVector fun _ => .retire

theorem KeepsIntact.reductionVector : KeepsIntact (reductionVector op la gd gs1) := by
  unfold Machine.reductionVector
  exact .bind .enter fun _ => .bind .source fun _ => .bind .strandIssuer fun _ => .bind .issueVector fun _ => .retire

theorem AnswersIntact.execVadd (h : s.Intact none) : AnswersIntact (execVadd la gd gs1 gs2 s) := .settle .binaryVector h
theorem AnswersIntact.execVsub (h : s.Intact none) : AnswersIntact (execVsub la gd gs1 gs2 s) := .settle .binaryVector h
theorem AnswersIntact.execVmul (h : s.Intact none) : AnswersIntact (execVmul la gd gs1 gs2 s) := .settle .binaryVector h
theorem AnswersIntact.execVfma (h : s.Intact none) : AnswersIntact (execVfma la gd gs1 gs2 s) := .settle .binaryVector h
theorem AnswersIntact.execVmax (h : s.Intact none) : AnswersIntact (execVmax la gd gs1 gs2 s) := .settle .binaryVector h
theorem AnswersIntact.execVmin (h : s.Intact none) : AnswersIntact (execVmin la gd gs1 gs2 s) := .settle .binaryVector h
theorem AnswersIntact.execVsel (h : s.Intact none) : AnswersIntact (execVsel la gd gs1 gs2 s) := .settle .binaryVector h
theorem AnswersIntact.execVcmplt (h : s.Intact none) : AnswersIntact (execVcmplt la gd gs1 gs2 s) := .settle .binaryVector h
theorem AnswersIntact.execVand (h : s.Intact none) : AnswersIntact (execVand la gd gs1 gs2 s) := .settle .binaryVector h
theorem AnswersIntact.execVor (h : s.Intact none) : AnswersIntact (execVor la gd gs1 gs2 s) := .settle .binaryVector h
theorem AnswersIntact.execVxor (h : s.Intact none) : AnswersIntact (execVxor la gd gs1 gs2 s) := .settle .binaryVector h
theorem AnswersIntact.execVabs (h : s.Intact none) : AnswersIntact (execVabs la gd gs1 s) := .settle .unaryVector h
theorem AnswersIntact.execVneg (h : s.Intact none) : AnswersIntact (execVneg la gd gs1 s) := .settle .unaryVector h
theorem AnswersIntact.execVexp (h : s.Intact none) : AnswersIntact (execVexp la gd gs1 s) := .settle .unaryVector h
theorem AnswersIntact.execVrcp (h : s.Intact none) : AnswersIntact (execVrcp la gd gs1 s) := .settle .unaryVector h
theorem AnswersIntact.execVrsqrt (h : s.Intact none) : AnswersIntact (execVrsqrt la gd gs1 s) := .settle .unaryVector h
theorem AnswersIntact.execVmov (h : s.Intact none) : AnswersIntact (execVmov la gd gs1 s) := .settle .unaryVector h
theorem AnswersIntact.execVadds (h : s.Intact none) : AnswersIntact (execVadds la gd gs1 gs2 s) := .settle .scalarVector h
theorem AnswersIntact.execVmuls (h : s.Intact none) : AnswersIntact (execVmuls la gd gs1 gs2 s) := .settle .scalarVector h
theorem AnswersIntact.execVsum (h : s.Intact none) : AnswersIntact (execVsum la gd gs1 s) := .settle .reductionVector h
theorem AnswersIntact.execVmaxr (h : s.Intact none) : AnswersIntact (execVmaxr la gd gs1 s) := .settle .reductionVector h
theorem AnswersIntact.execVargmax (h : s.Intact none) : AnswersIntact (execVargmax la gd gs1 s) := .settle .reductionVector h

theorem AnswersIntact.execVcvt (h : s.Intact none) : AnswersIntact (execVcvt la gd gs1 sat fmt s) :=
  .settle (.optional .illegal fun _ => .unaryVector) h

theorem AnswersIntact.execVfill (h : s.Intact none) : AnswersIntact (execVfill la gd gs2 s) := by
  unfold Machine.execVfill
  exact .settle (.bind .enter fun _ => .bind .source fun _ => .bind .source fun _ => .bind .strandIssuer fun _ =>
      .bind .issueVector fun _ => .retire) h

theorem AnswersIntact.execVsetcfg (h : s.Intact none) : AnswersIntact (execVsetcfg la gd gs1 s) := by
  dsimp only [Machine.execVsetcfg]
  refine .settle (.bind .enter fun _ => .bind .exactSource fun _ => ?_) h
  split
  · exact .illegal
  · exact .get fun _ h1 => .bind (.set h1.same) fun _ => .bind .result fun _ => .retire

theorem KeepsIntact.issueAcceptSp : KeepsIntact (issueAcceptSp io len row) := by
  dsimp only [Machine.issueAcceptSp]
  refine .bind .refuseBounded fun _ => .bind .refuseBounded fun _ => ?_
  exact .ite (.stop .illegal fun _ => ⟨_, rfl⟩) (.optional .trap fun _ => .bind .needGranules fun _ => .enterVector)

theorem AnswersIntact.execAccept (h : s.Intact none) : AnswersIntact (execAccept _la gd gs1 s) := by
  dsimp only [Machine.execAccept]
  exact .settle (.bind .enter fun _ => .bind .source fun _ => .bind .result fun _ => .optional (.changed fun _ h =>
      h.count) fun _ => .retire) h

theorem AnswersIntact.execAcceptSp (h : s.Intact none) : AnswersIntact (execAcceptSp la gd gs1 s) := by
  unfold Machine.execAcceptSp
  exact .settle (.bind .enter fun _ => .bind .source fun _ => .bind .source fun _ => .bind .strandIssuer fun _ =>
      .bind .issueAcceptSp fun _ => .retire) h

theorem State.Intact.vectorDoor (h : s.Intact none) : (s.vectorDoor c again v).Intact none := by
  dsimp only [State.vectorDoor]
  split
  · exact .ite h.doorFault h.same
  · refine State.Intact.ring_ ?_ ?_
    · split
      · exact .issueVector
      · exact .issueVector
      · exact .issueVector
      · exact .issueVector
      · exact .issueVector
      · exact .issueAcceptSp
    · exact h.same

theorem AnswersIntact.execVectorDoorbell (h : s.Intact none) : AnswersIntact (execVectorDoorbell s) := by
  unfold Machine.execVectorDoorbell
  refine .next ?_
  split
  · exact h.vectorDoor
  · exact h

/-! ## Matrix -/

theorem AnswersIntact.execCvset (h : s.Intact none) : AnswersIntact (execCvset la gs1 n s) := by
  dsimp only [Machine.execCvset]
  exact .settle (.bind .enter fun _ => .bind .exactSource fun _ => .optional .illegal fun _ => .get fun _ h1 =>
      .ite (.stop .waitHere fun _ => ⟨_, rfl⟩) (.optional .trap fun _ => .bind (.set h1.same) fun _ => .retire)) h

theorem AnswersIntact.execCvpush (h : s.Intact none) : AnswersIntact (execCvpush la n s) := by
  dsimp only [Machine.execCvpush]
  refine .settle (.bind .enter fun _ => .get fun _ h1 => ?_) h
  split
  · exact .ite (.bind (.set (State.Intact.wakeEngines h1.same)) fun _ => .retire) (.waitAfter fun _ h => h.same)
  · exact .optional .waitHere fun _ => .bind (.set h1.landSlot.wakeEngines.onHere) fun _ => .retire

theorem AnswersIntact.execCvquery (h : s.Intact none) : AnswersIntact (execCvquery la gd n s) :=
  .settle (.bind .enter fun _ => .get fun _ _ => .bind .result fun _ => .retire) h

theorem State.Intact.writeAcc (h : s.Intact none) : (s.writeAcc c a es).Intact none := h.storeData
theorem State.Intact.setScale (h : s.Intact none) : (s.setScale c a v).Intact none := h.same
theorem State.Intact.setMark (h : s.Intact none) : (s.setMark c a b).Intact none := h.same

theorem KeepsIntact.enterMu : KeepsIntact (enterMu io op acc whole) := by
  dsimp only [Machine.enterMu]
  refine .get fun _ h => .optional .waitHere fun _ => ?_
  exact .bind .nextSeq fun _ => .changed fun _ h => State.Intact.emitOnce h.same

theorem KeepsIntact.needTile {bytes : Nat} : KeepsIntact (needTile i bytes) := .get fun _ _ => .ite .trap .pure

theorem KeepsIntact.takeSlot : KeepsIntact (takeSlot i) :=
  .get fun _ h => .bind (.set h.same) fun _ => .pure

theorem KeepsIntact.issueTiles : KeepsIntact (issueTiles io fa fb acc ca cb op) := by
  dsimp only [Machine.issueTiles]
  refine .bind .needTile fun _ => .bind .needTile fun _ => .get fun _ _ => .optional .waitHere fun _ => ?_
  exact .bind .takeSlot fun _ => .bind .takeSlot fun _ => .get fun _ _ => .enterMu

theorem KeepsIntact.mmaOp : KeepsIntact (mmaOp form acc ca cb gs3) := by
  unfold Machine.mmaOp
  exact .bind .enter fun _ => .bind .source fun _ => .bind .strandIssuer fun _ => .bind .issueTiles fun _ => .retire

theorem AnswersIntact.execMmaE4e4 (h : s.Intact none) : AnswersIntact (execMmaE4e4 acc ca cb gs3 s) := .settle .mmaOp h
theorem AnswersIntact.execMmaE4e5 (h : s.Intact none) : AnswersIntact (execMmaE4e5 acc ca cb gs3 s) := .settle .mmaOp h
theorem AnswersIntact.execMmaE5e4 (h : s.Intact none) : AnswersIntact (execMmaE5e4 acc ca cb gs3 s) := .settle .mmaOp h
theorem AnswersIntact.execMmaE5e5 (h : s.Intact none) : AnswersIntact (execMmaE5e5 acc ca cb gs3 s) := .settle .mmaOp h
theorem AnswersIntact.execMmaH (h : s.Intact none) : AnswersIntact (execMmaH acc ca cb gs3 s) := .settle .mmaOp h
theorem AnswersIntact.execMmaB (h : s.Intact none) : AnswersIntact (execMmaB acc ca cb gs3 s) := .settle .mmaOp h
theorem AnswersIntact.execMmaS (h : s.Intact none) : AnswersIntact (execMmaS acc ca cb gs3 s) := .settle .mmaOp h
theorem AnswersIntact.execMmaI8 (h : s.Intact none) : AnswersIntact (execMmaI8 acc ca cb gs3 s) := .settle .mmaOp h

theorem AnswersIntact.execMmaNi (h : s.Intact none) : AnswersIntact (execMmaNi acc km1 ca cb gs3 s) :=
  .settle (.optional .illegal fun _ => .mmaOp) h

theorem KeepsIntact.issueMrec : KeepsIntact (Machine.issueMrec io acc fmt ca cb) := by
  refine .optional .illegal fun _ => .get fun s h => ?_
  dsimp only
  exact .optional .trap fun _ => .issueTiles

theorem AnswersIntact.execMrec (h : s.Intact none) : AnswersIntact (execMrec la acc fmt ca cb s) := by
  unfold Machine.execMrec
  exact .settle (.bind .enter fun _ => .bind .strandIssuer fun _ => .bind .issueMrec fun _ => .retire) h

theorem AnswersIntact.execMrload (h : s.Intact none) : AnswersIntact (execMrload la gs1 s) := by
  unfold Machine.execMrload
  exact .settle (.bind .enter fun _ => .bind .exactSource fun _ => .bind (.changed fun _ h => h.same) fun _ => .retire) h

theorem AnswersIntact.execMzero (h : s.Intact none) : AnswersIntact (execMzero la n s) := by
  unfold Machine.execMzero
  exact .settle (.bind .enter fun _ => .bind .strandIssuer fun _ => .bind .enterMu fun _ => .retire) h

theorem AnswersIntact.execAcceptAcc (h : s.Intact none) : AnswersIntact (execAcceptAcc la n s) := by
  unfold Machine.execAcceptAcc
  exact .settle (.bind .enter fun _ => .bind .strandIssuer fun _ => .bind .enterMu fun _ => .retire) h

theorem KeepsIntact.issueDrain : KeepsIntact (issueDrain io acc clear w tag) := by
  dsimp only [Machine.issueDrain]
  refine .bind .refuseBounded fun _ => .bind .refuseBounded fun _ => ?_
  split
  · exact .illegal
  · exact .get fun _ _ => .optional .trap fun _ => .enterMu

theorem AnswersIntact.execMdrain (h : s.Intact none) : AnswersIntact (execMdrain la acc clr gs1 gs2 s) := by
  unfold Machine.execMdrain
  exact .settle (.bind .enter fun _ => .bind .source fun _ => .bind .source fun _ => .bind .strandIssuer fun _ =>
      .bind .issueDrain fun _ => .retire) h

theorem State.Intact.drainWrites (h : s.Intact none) : (s.drainWrites t off kind ok n bs).Intact none := by
  induction n generalizing s off bs with
  | zero => exact h
  | succ n ih => exact ih (.ite h.writeMem h)

theorem State.Intact.drainStep (h : s.Intact none) : (s.drainStep c m d).Intact none := by
  unfold State.drainStep
  extract_lets rs kind t bs
  have ht : t.Intact none := .ite h.writeAcc.setMark.setScale h
  split
  · exact ht.engineFault
  · exact .ite ht.drainWrites.tally.same (ht.same (t := State.drawn t)).drainWrites.engineFault

theorem State.Intact.popSlots (h : s.Intact none) : (s.popSlots c m).Intact none := h.foldl fun _ _ _ h => h.same

theorem State.Intact.muRetire (h : s.Intact none) : (s.muRetire c m).Intact none := by
  dsimp only [State.muRetire]
  refine State.Intact.engineIdle ?_
  exact .ite (State.Intact.doorDone (State.Intact.popSlots h.same)) (State.Intact.popSlots h.same)

theorem State.Intact.muHead (h : s.Intact none) : (s.muHead c f).Intact none := h.same

theorem State.Intact.accStep (h : s.Intact none) : (s.accStep c m float f).Intact none :=
  .ite h.writeAcc.tally h.writeAcc.muHead

theorem State.Intact.markAcc (h : s.Intact none) : (s.markAcc c m scale).Intact none := .ite h.same h

theorem State.Intact.muWork (h : s.Intact none) : (s.muWork c m).Intact none := by
  unfold State.muWork
  split
  · exact h.writeAcc.setMark.setScale
  · exact .ite (h.same (t := s.setMark _ _ _)).count h
  · exact h.drainStep
  · extract_lets t float
    have ht : t.Intact none := .ite h.same h
    exact .ite ht ht.accStep.markAcc
  · exact .ite h h.accStep.markAcc

theorem State.Intact.muStepOf (h : s.Intact none) : (s.muStepOf c).Intact none := by
  dsimp only [State.muStepOf]
  split
  · exact h
  · split
    · exact h.count.mendReads.onCore.engineFault.engineIdle
    · split
      · exact h.count.mendReads.muWork.muHead
      · split
        · exact .ite h.count.mendReads.muWork.muHead.muHead h.count.mendReads.muWork.muHead.muRetire
        · exact h.count.mendReads.muWork.muHead.muRetire

theorem State.Intact.setTurn {cluster : Nat} {turn : Nat × Nat} (h : s.Intact none) : (s.setTurn cluster unit turn run).Intact
    none :=
  h.same

theorem State.Intact.muGrant {cluster : Nat} (h : s.Intact none) : (s.muGrant cluster unit).Intact none := by
  unfold State.muGrant
  extract_lets k
  split
  extract_lets t
  have ht : t.Intact none := by
    refine .ite (h.same (t := s.setTurn _ _ _ _)).muStepOf ?_
    split
    · exact h.same
    · exact h
  exact .ite ht.emitOnce ht

theorem AnswersIntact.execMuStep (h : s.Intact none) : AnswersIntact (execMuStep s) := by
  unfold Machine.execMuStep
  refine .next ?_
  split
  · exact h.muGrant
  · exact h

theorem State.Intact.closeDrain (h : s.Intact none) : (s.closeDrain c).Intact none := by
  dsimp only [State.closeDrain]
  split
  · exact h
  · split
    · refine State.Intact.muRetire ?_
      split
      · exact h
      · exact h
      · exact h.same
    · exact h

theorem AnswersIntact.execDrainClose (h : s.Intact none) : AnswersIntact (execDrainClose s) := by
  unfold Machine.execDrainClose
  refine .next ?_
  split
  · exact h.closeDrain
  · exact h

theorem AnswersIntact.execEwait (h : s.Intact none) : AnswersIntact (execEwait la gd sel s) := by
  dsimp only [Machine.execEwait]
  exact .settle (.bind .enter fun _ => .get fun _ h1 => .ite (.choice .waitHere (.waitAfter fun _ h => h.same) fun _ =>
      .bind (.set h1.same) fun _ => .bind .result fun _ => .retire) (.bind (.set h1.same) fun _ => .bind .result fun _ =>
      .retire)) h

theorem State.Intact.muDoor (h : s.Intact none) : (s.muDoor c again v).Intact none := by
  dsimp only [State.muDoor]
  split
  · exact State.Intact.ring_ (.optional .illegal fun _ => .issueMrec) h.same
  · exact State.Intact.ring_ (.optional .illegal fun _ => .issueDrain) h.same
  · exact State.Intact.ring_ (.optional .illegal fun _ => .enterMu) h.same
  · exact .ite (State.Intact.ring_ .enterMu h.same) h.same
  · exact h.same

theorem AnswersIntact.execMuDoorbell (h : s.Intact none) : AnswersIntact (execMuDoorbell s) := by
  unfold Machine.execMuDoorbell
  refine .next ?_
  split
  · exact h.muDoor
  · exact h

theorem AnswersIntact.execCarouselDescriptorWrite (h : s.Intact none) : AnswersIntact (execCarouselDescriptorWrite s) := by
  unfold Machine.execCarouselDescriptorWrite
  refine .next ?_
  split
  · exact h.writeDescriptor
  · exact h

/-! ## Copy -/

theorem State.Intact.reach (h : s.Intact none) : (s.reach c ctx va n u foot).2.Intact none := by
  dsimp only [State.reach]
  split
  · split
    · split
      · exact .ite_snd (h.resolve.snd ‹_›) (.ite_snd (h.resolve.snd ‹_›) (h.resolve.snd ‹_›))
      · exact h.resolve.snd ‹_›
      · exact (h.resolve.snd ‹_›).askPage
      · exact h.resolve.snd ‹_›
      · exact .ite_snd (h.resolve.snd ‹_›) (.ite_snd (h.resolve.snd ‹_›) (h.resolve.snd ‹_›))
    · exact h
  · split
    · exact .ite_snd (h.resolve.snd ‹_›) (.ite_snd (h.resolve.snd ‹_›) (h.resolve.snd ‹_›))
    · exact h.resolve.snd ‹_›
    · exact (h.resolve.snd ‹_›).askPage
    · exact h.resolve.snd ‹_›
    · exact .ite_snd (h.resolve.snd ‹_›) (.ite_snd (h.resolve.snd ‹_›) (h.resolve.snd ‹_›))

theorem State.Intact.onCopy (h : s.Intact none) : (s.onCopy c seq f).Intact none := h.same

theorem State.Intact.firstRead (h : s.Intact none) : (s.firstRead c q va n sp).2.Intact none := by
  dsimp only [State.firstRead]
  split
  · exact h.beforeRead.onCopy
  · exact h.beforeRead.onCopy
  · exact h.beforeRead

theorem State.Intact.unitRead (h : s.Intact none) : (s.unitRead c q u parts).2.Intact none := by
  induction parts generalizing s with
  | nil => exact h
  | cons p parts ih =>
    unfold State.unitRead
    extract_lets more
    have hmore : ∀ cs (t : State), t.Intact none → (more cs t).2.Intact none := by
      intro cs t ht
      dsimp only [more]
      split
      · exact (ih ht).snd ‹_›
      · exact ih ht
    split
    · exact .ite_snd h (hmore _ _ h)
    · split
      · have h' := h.reach.snd ‹_›
        exact .ite_snd h' (hmore _ _ h'.firstRead)
      · exact h.reach.snd ‹_›
      · exact h.reach.snd ‹_›
      · exact h.reach.snd ‹_›
      · exact h.reach.snd ‹_›

theorem State.Intact.unitTargets (h : s.Intact none) : (s.unitTargets c q src parts cells).2.Intact none := by
  induction parts generalizing s src cells with
  | nil => exact h
  | cons p parts ih =>
    unfold State.unitTargets
    extract_lets alike mine more
    have hmore : ∀ place (t : State), t.Intact none → (more place t).2.Intact none := by
      intro place t ht
      dsimp only [more]
      split
      · exact (ih ht).snd ‹_›
      · exact ih ht
    split
    · have h' := h.reach.snd ‹_›
      exact .ite_snd h' (.ite_snd h' (hmore _ _ h'))
    · exact hmore _ _ (h.reach.snd ‹_›)
    · exact h.reach.snd ‹_›
    · exact h.reach.snd ‹_›
    · exact h.reach.snd ‹_›

theorem State.Intact.unitAt (h : s.Intact none) : (s.unitAt c q pos).2.Intact none := by
  unfold State.unitAt
  extract_lets d a w index
  have hindex : (index s).2.Intact none := by
    dsimp only [index]
    split
    · exact h.unitRead.snd ‹_›
    · exact h.unitRead.snd ‹_›
  split
  · exact h
  · exact h
  · exact h
  · split
    · exact .ite_snd (hindex.snd ‹_›) (hindex.snd ‹_›)
    · exact hindex.snd ‹_›
  · split
    · exact .ite_snd (hindex.snd ‹_›) (hindex.snd ‹_›)
    · exact hindex.snd ‹_›

theorem State.Intact.gatherUnit (h : s.Intact none) : (s.gatherUnit c q pos).2.Intact none := by
  unfold State.gatherUnit
  split
  · exact h.unitAt.snd ‹_›
  · have ht := h.unitAt.snd ‹_›
    extract_lets use read
    have hread : read.2.Intact none := by
      dsimp only [read]
      split
      · exact ht
      · exact ht.unitRead
    clear_value read
    split
    · exact hread
    · split
      · exact hread.unitTargets.snd ‹_›
      · exact hread.unitTargets.snd ‹_›

theorem State.Intact.gatherChunk (h : s.Intact none) : (s.gatherChunk c q last k pos acc).2.Intact none := by
  induction k generalizing s pos acc with
  | zero => exact h
  | succ k ih =>
    unfold State.gatherChunk
    refine .ite_snd h ?_
    split
    · exact .ite_snd (h.gatherUnit.snd ‹_›) (ih (h.gatherUnit.snd ‹_›))
    · exact h.gatherUnit.snd ‹_›

theorem State.Intact.postCopy (h : s.Intact none) : (s.postCopy c q dev addr va cells aligned).Intact none :=
  .ite h.same (State.Intact.send h.same)

theorem State.Intact.placeCells (h : s.Intact none) : (s.placeCells pa cells aligned whole marked bad).Intact none := by
  dsimp only [State.placeCells]
  split
  · exact .ite h.storeData.onGranule.onCore h.storeData.onGranule
  · exact h.storeData.onGranule

theorem State.Intact.landPart (h : s.Intact none) : (s.landPart c q all l).Intact none := by
  dsimp only [State.landPart]
  split
  · exact h.postCopy
  · exact h.placeCells.afterWrite
  · exact h.writeSpot

theorem State.Intact.copyPend (h : s.Intact none) : (s.copyPend q src who op n).Intact none := by
  dsimp only [State.copyPend]
  split
  · exact h
  · exact .ite h h.same

theorem State.Intact.engineSub (h : s.Intact none) : (s.engineSub c q n).Intact none := h.copyPend
theorem State.Intact.landedSub (h : s.Intact none) : (s.landedSub q ls).Intact none := h.foldl fun _ _ _ h => h.copyPend
theorem State.Intact.reportEngine {slot : Nat} (h : s.Intact none) : (s.reportEngine c slot va pc).Intact none := h.same
theorem State.Intact.dropCopy (h : s.Intact none) : (s.dropCopy c seq).Intact none := h.same

theorem State.Intact.writeRecord (h : s.Intact none) : (s.writeRecord c q status cause va).2.Intact none := by
  dsimp only [State.writeRecord]
  split
  · exact h
  · split
    · exact .ite_snd (h.reach.snd ‹_›) (h.reach.snd ‹_›).writeParts
    · exact (h.reach.snd ‹_›).postCopy
    · exact h.reach.snd ‹_›
    · exact .ite (h.reach.snd ‹_›) (h.reach.snd ‹_›).onCopy.reportEngine
    · exact h.reach.snd ‹_›

theorem State.Intact.giveSlot (h : s.Intact none) : (s.giveSlot c car pos).Intact none := by
  dsimp only [State.giveSlot]
  split
  · exact h
  · exact State.Intact.foldl h.same fun _ _ _ h => h.same

theorem State.Intact.endCopy (h : s.Intact none) : (s.endCopy c q e).Intact none := by
  unfold State.endCopy
  split
  refine .ite h ?_
  split
  · exact h.writeRecord.snd ‹_›
  · extract_lets t fault dropped given told asked
    have ht : t.Intact none := (h.writeRecord.snd ‹_›).engineSub
    have hgiven : given.Intact none := .ite (ht.same (t := dropped)).landSlot (ht.same (t := dropped)).giveSlot
    have htold : told.Intact none := .ite hgiven.doorDone hgiven
    have hasked : asked.Intact none := by
      dsimp only [asked]
      split
      · exact htold.emitOnce
      · exact htold
    clear_value asked fault
    split
    · exact (ht.same (t := t.dropCopy _ _)).engineFault.engineIdle
    · refine .ite ht.onCopy.engineIdle ?_
      split
      · exact (hasked.same (t := asked.emit _)).engineIdle
      · exact hasked.engineIdle

theorem State.Intact.askAway (h : s.Intact none) : (s.askAway c q va dev addr).Intact none := .ite h.same (State.Intact.send
    h.same)

theorem State.Intact.footFailed (h : s.Intact none) : (s.footFailed c q l va).Intact none :=
  .ite (State.Intact.endUnrun h.same) (State.Intact.endGrid h.same)

theorem State.Intact.haltCopy (h : s.Intact none) : (s.haltCopy c q hd).Intact none := by
  dsimp only [State.haltCopy]
  split
  · exact .ite h.same h
  · exact h.askAway
  · exact .ite (.ite h h.same) h.same
  · split
    · exact h.footFailed
    · exact h.same
  · split
    · exact h.footFailed
    · exact h.same

theorem State.Intact.chunkOf (h : s.Intact none) : (s.chunkOf c q).Intact none := by
  unfold State.chunkOf
  extract_lets t
  have ht : t.Intact none := h.same
  refine .ite ht.onCopy ?_
  split
  have hu := ht.gatherChunk.snd ‹_›
  split
  · exact hu.haltCopy
  · extract_lets landed placed reported moved kept
    have hplaced : placed.Intact none := hu.foldl fun _ _ _ h => h.landPart
    have hreported : reported.Intact none := .ite hplaced hplaced.landedSub
    have hkept : kept.Intact none := hreported.onCopy
    split
    · exact hkept.haltCopy
    · exact hkept

theorem State.Intact.copyGrant {cluster : Nat} (h : s.Intact none) : (s.copyGrant cluster).Intact none := by
  unfold State.copyGrant
  extract_lets ended turn next granted
  have hended : ended.Intact none := by
    dsimp only [ended]
    split
    · exact h.endCopy
    · exact h
  clear_value next ended
  have hgranted : granted.Intact none := by
    dsimp only [granted]
    split
    · exact (hended.same (t := ended.onCluster _ _)).chunkOf
    · exact hended
  exact .ite hgranted.emitOnce hgranted

theorem AnswersIntact.execCopyChunk (h : s.Intact none) : AnswersIntact (execCopyChunk s) := by
  unfold Machine.execCopyChunk
  refine .next ?_
  split
  · exact h.copyGrant
  · exact h

theorem KeepsIntact.copyCap : KeepsIntact (copyCap r n range perms) := .ite .trap .pure

theorem KeepsIntact.checkCopy : KeepsIntact (Machine.checkCopy a) := by
  unfold Machine.checkCopy
  extract_lets elems regs w words barrierAligned recordAligned barrier record extra sources dest
  have hextra : ∀ r, KeepsIntact (extra r) := fun _ => .optional .copyCap fun _ => .optional .copyCap fun _ =>
    .optional .copyCap fun _ => .optional .trap fun _ => .optional .trap fun _ => .ite .illegal .pure
  have hsources : ∀ r, KeepsIntact (sources r) := by
    intro r
    dsimp only [sources]
    split
    · exact .bind .copyCap hextra
    · exact .bind .copyCap hextra
    · exact .bind .copyCap hextra
    · exact .bind .copyCap hextra
    · exact hextra ()
  refine .optional .trap fun _ => .ite ?_ (hsources ())
  split <;> exact .bind .copyCap hsources

theorem KeepsIntact.issueCopy : KeepsIntact (Machine.issueCopy io a) := by
  refine .bind .checkCopy fun _ => .get fun s h => .optional .illegal fun _ => .optional .waitHere fun _ => ?_
  extract_lets old left whole counted issued
  clear_value old
  have hissued : ∀ place, KeepsIntact (issued place) := by
    refine fun ⟨car, pos, off⟩ => .bind .nextSeq fun seq => .changed fun t ht => ?_
    extract_lets dropped queued
    have hdropped : dropped.Intact none := by
      dsimp only [dropped]
      split
      · exact ht.same
      · exact ht
    have hqueued : queued.Intact none := (hdropped.same (t := dropped.onCore _ _)).copyPend
    exact .ite hqueued.same hqueued.emitOnce
  refine .ite ?_ (.bind .pure hissued)
  split
  · exact .bind .pure hissued
  · exact .bind (.reserveSlot .illegal) fun ⟨_, _⟩ => .bind .pure hissued

theorem KeepsIntact.copyInstr : KeepsIntact (copyInstr op n la gs1 gs2) := by
  dsimp only [Machine.copyInstr]
  refine .get fun _ _ => .bind .enter fun _ => .choice .source .pure fun _ => .bind .sources fun _ => ?_
  exact .bind .source fun _ => .bind .strandIssuer fun _ => .bind .issueCopy fun _ => .retire

theorem AnswersIntact.execCopy (h : s.Intact none) : AnswersIntact (execCopy la gs1 gs2 s) := .settle .copyInstr h
theorem AnswersIntact.execCopy2d (h : s.Intact none) : AnswersIntact (execCopy2d la gs1 gs2 s) := .settle .copyInstr h
theorem AnswersIntact.execGather (h : s.Intact none) : AnswersIntact (execGather la gs1 gs2 s) := .settle .copyInstr h
theorem AnswersIntact.execScatter (h : s.Intact none) : AnswersIntact (execScatter la gs1 gs2 s) := .settle .copyInstr h
theorem AnswersIntact.execFill (h : s.Intact none) : AnswersIntact (execFill la gs1 gs2 s) := .settle .copyInstr h

theorem State.Intact.copyDoor (h : s.Intact none) : (s.copyDoor c again v).Intact none := by
  dsimp only [State.copyDoor]
  split
  · exact h.same
  · exact State.Intact.ring_ .issueCopy h.same

theorem AnswersIntact.execCopyDoorbell (h : s.Intact none) : AnswersIntact (execCopyDoorbell s) := by
  unfold Machine.execCopyDoorbell
  refine .next ?_
  split
  · exact h.copyDoor
  · exact h

theorem AnswersIntact.execSbind (h : s.Intact none) : AnswersIntact (execSbind la n s) := by
  dsimp only [Machine.execSbind]
  exact .settle (.bind .enter fun _ => .get fun _ h1 => .ite .retire (.optional .waitHere fun _ => .bind (.set h1.same) fun _ =>
      .retire)) h

theorem AnswersIntact.execSunbind (h : s.Intact none) : AnswersIntact (execSunbind la n s) := by
  dsimp only [Machine.execSunbind]
  refine .settle (.bind .enter fun _ => .get fun _ h1 => .bind ?_ fun _ => ?_) h
  · exact .set (State.Intact.writeReg (State.Intact.onHere (.ite (State.Intact.emitOnce h1.same) h1.same)))
  · exact .retire

theorem State.Intact.deliverElement (h : s.Intact none) : (s.deliverElement k n).Intact none := by
  dsimp only [State.deliverElement]
  split
  · split
    · exact State.Intact.emitOnce h.same
    · split
      · exact h
      · split
        · exact .ite (h.unitRead.snd ‹_›).onCopy.emitOnce (h.unitRead.snd ‹_›).onSlot.onCopy.emitOnce
        · split
          · exact (h.unitRead.snd ‹_›).haltCopy.emitOnce
          · exact (h.unitRead.snd ‹_›).haltCopy.emitOnce
          · exact (h.unitRead.snd ‹_›).haltCopy
          · exact (h.unitRead.snd ‹_›).haltCopy.emitOnce
  · exact h

theorem AnswersIntact.execStreamElement (h : s.Intact none) : AnswersIntact (execStreamElement s) := by
  unfold Machine.execStreamElement
  refine .next ?_
  split
  · exact h.deliverElement
  · exact h

/-! ## Crossbar -/

theorem State.Intact.calWritten {cluster : Nat} {array : Nat} (h : s.Intact none) : (s.calWritten cluster array off n).Intact
    none :=
  h.same

theorem State.Intact.mendArray {cluster : Nat} {array : Nat} (h : s.Intact none) : (s.mendArray cluster array).Intact none :=
  State.Intact.foldl h.same fun _ _ _ h => .ite (State.Intact.corrected h.same) h.same

end

end Sys2Proof.Machine
end

section
/-! SUPPORT. What the units' work leaves in order (`State.Intact`), part 5. Each lemma follows the branches of
one function of the model. Here: the crossbar, system instructions, the package, start, the links, the host link. -/

namespace Sys2Proof.Machine

open Sys2Proof

set_option autoImplicit true

section
variable {s : State} {up : Option (List Nat)}

/-! ## Crossbar -/

theorem State.Intact.askArray {cluster : Nat} {array : Nat} (h : s.Intact none) : (s.askArray cluster array).Intact none := by
  unfold State.askArray
  split
  · exact h.emitOnce
  · split
    · exact h.emitOnce
    · exact h

theorem State.Intact.xuEnd (h : s.Intact none) : (s.xuEnd c x).Intact none := State.Intact.engineIdle h.same
theorem State.Intact.xuStepped (h : s.Intact none) : (s.xuStepped c x f).Intact none := h.same

theorem State.Intact.serveArray {cluster array : Nat} (h : s.Intact none)
    (hf : ∀ (t : State) c x, t.Intact none → (f t c x).Intact none) : (s.serveArray cluster array e f).Intact none := by
  unfold State.serveArray
  extract_lets _ c t
  have ht : t.Intact none := h.same
  refine .ite ?_ ?_
  · split
    · exact (hf _ _ _ ht).askArray
    · exact ht.askArray
  · split
    · exact h.askArray
    · exact .ite (h.same (t := s.onArray _ _ _)).emitOnce h.askArray

theorem State.Intact.programStep (h : s.Intact none) : (s.programStep c x).Intact none := by
  dsimp only [State.programStep]
  split
  · split
    · exact h.mendReads.xuEnd.lateFault
    · split
      · exact h.mendReads.xuEnd.lateFault
      · split
        · exact h.mendReads.drawn.onArray.xuStepped
        · exact State.Intact.xuEnd (.ite h.mendReads.drawn.onArray h.mendReads.drawn.onArray.writeReg)
  · exact h

theorem AnswersIntact.execXprogRow (h : s.Intact none) : AnswersIntact (execXprogRow s) := by
  unfold Machine.execXprogRow
  refine .next ?_
  split
  · exact State.Intact.serveArray h fun _ _ _ h => h.programStep
  · exact h

theorem State.Intact.calibrateStep (h : s.Intact none) : (s.calibrateStep c x).Intact none := by
  dsimp only [State.calibrateStep]
  split
  · exact .ite h.same (State.Intact.xuEnd h.same)
  · exact h.mendArray.storeData.xuEnd
  · split
    · exact h.mendReads.xuEnd.lateFault
    · exact State.Intact.xuEnd (State.Intact.onArray (.ite h.mendReads.calWritten h.mendReads))
  · exact h

theorem AnswersIntact.execXcalStep (h : s.Intact none) : AnswersIntact (execXcalStep s) := by
  unfold Machine.execXcalStep
  refine .next ?_
  split
  · exact State.Intact.serveArray h fun _ _ _ h => h.calibrateStep
  · exact h

theorem State.Intact.productDone (h : s.Intact none) : (s.productDone k t).Intact none := by
  unfold State.productDone
  split
  · exact h
  · extract_lets freed u done
    have hu : u.Intact none := h.same
    have hdone : done.Intact none := by
      dsimp only [done]
      split
      · exact hu.retire
      · exact hu.takeTrap
    exact hdone.same

theorem State.Intact.productStep (h : s.Intact none) : (s.productStep c x).Intact none := by
  dsimp only [State.productStep]
  split
  · split
    · exact h.mendReads.mendArray.xuEnd.productDone
    · split
      · exact h.mendReads.mendArray.drawn.xuEnd.productDone
      · exact h.mendReads.mendArray.drawn.xuEnd.onArray.count.productDone
      · refine State.Intact.productDone (State.Intact.count ?_)
        exact h.mendReads.mendArray.drawn.xuEnd.foldl fun _ _ _ h => h.writeMem
  · exact h

theorem AnswersIntact.execXuProduct (h : s.Intact none) : AnswersIntact (execXuProduct s) := by
  unfold Machine.execXuProduct
  refine .next ?_
  split
  · exact State.Intact.serveArray h fun _ _ _ h => h.productStep
  · exact h

theorem KeepsIntact.needOwner {array : Nat} : KeepsIntact (needOwner array) := .get fun _ _ => .ite .trap .pure
theorem KeepsIntact.xuOffset : KeepsIntact (xuOffset v) := .optional .illegal fun _ => .pure

theorem KeepsIntact.enterArray {array : Nat} : KeepsIntact (enterArray array op) := by
  dsimp only [Machine.enterArray]
  refine .get fun _ h => .optional .waitHere fun _ => ?_
  exact .bind .nextSeq fun _ => .changed fun _ h => State.Intact.askArray h.same

theorem AnswersIntact.execXprog (h : s.Intact none) : AnswersIntact (execXprog la gd gs1 gs2 s) := by
  dsimp only [Machine.execXprog]
  refine .settle (.bind .enter fun _ => .bind .exactSource fun _ => .bind .exactSource fun _ => ?_) h
  split
  · exact .illegal
  · refine .optional .illegal fun _ => .bind .xuOffset fun _ => .optional .illegal fun _ => ?_
    exact .bind .needScratch fun _ => .bind .needOwner fun _ => .bind .enterArray fun _ => .retire

theorem AnswersIntact.execXcal (h : s.Intact none) : AnswersIntact (execXcal la gs1 gs2 s) := by
  dsimp only [Machine.execXcal]
  refine .settle (.bind .enter fun _ => .bind .exactSource fun _ => .bind .exactSource fun _ => ?_) h
  split
  · exact .illegal
  · refine .optional .illegal fun _ => .bind .xuOffset fun _ => .optional .needGranules fun _ => ?_
    exact .bind .needOwner fun _ => .bind .enterArray fun _ => .retire

theorem AnswersIntact.execXmvm (h : s.Intact none) : AnswersIntact (execXmvm la gd gs1 gs2 s) := by
  dsimp only [Machine.execXmvm]
  refine .settle (.bind .enter fun _ => .bind .exactSource fun _ => .bind .exactSource fun _ => ?_) h
  refine .bind .exactSource fun _ => ?_
  split
  · exact .illegal
  · refine .optional .illegal fun _ => .bind .xuOffset fun _ => .bind .xuOffset fun _ => ?_
    refine .bind .needGranules fun _ => .bind .needGranules fun _ => .bind .needOwner fun _ => ?_
    exact .bind .enterArray fun _ => .changed fun _ h => h.same

theorem AnswersIntact.execXwait (h : s.Intact none) : AnswersIntact (execXwait la gd sel s) := by
  dsimp only [Machine.execXwait]
  refine .settle (.bind .enter fun _ => .get fun _ h1 => ?_) h
  split
  · exact .trap
  · split
    · refine .choice .waitHere (.waitAfter fun _ h => h.same) fun _ => ?_
      exact .bind (.set h1.same) fun _ => .bind .result fun _ => .retire
    · exact .bind (.set h1.same) fun _ => .bind .result fun _ => .retire

/-! ## System -/

theorem State.Intact.writeLsplit (h : s.Intact none) : (s.writeLsplit n v).Intact none := .ite h (State.Intact.wipe h.same)

theorem State.Intact.writeCoreCR (h : s.Intact none) : (s.writeCoreCR n cr v).Intact none := by
  dsimp only [State.writeCoreCR]
  split
  · exact .ite h h.same
  · exact h.writeLsplit
  · exact h.same
  · exact h.same
  · exact h.same
  · exact h.same
  · exact h.same
  · exact h.same
  · exact h.same
  · exact h

theorem State.Intact.writeCR (h : s.Intact none) : (s.writeCR k cr v).Intact none := by
  dsimp only [State.writeCR]
  split
  · exact h.same
  · exact h.same
  · exact h.same
  · exact h.same
  · exact h.same
  · exact h.flushBarrier.onSlot
  · split
    · exact h.same
    · exact h
  · exact .ite h.writeCoreCR h

theorem KeepsIntact.crOp : KeepsIntact (crOp gd src cr bitwise new) := by
  dsimp only [Machine.crOp]
  refine .bind .atLevels fun _ => .optional .illegal fun _ => .bind .enter fun _ => .get fun _ h => ?_
  split
  · exact .bind (.set h.same) fun _ => .bind .result fun _ => .retire
  · refine .bind .exactSource fun _ => .optional .illegal fun _ => ?_
    exact .bind (.changed fun _ h => State.Intact.writeCR h.same) fun _ => .bind .result fun _ => .retire

theorem AnswersIntact.execCrrd (h : s.Intact none) : AnswersIntact (execCrrd _la gd sel s) := .settle .crOp h
theorem AnswersIntact.execCrwr (h : s.Intact none) : AnswersIntact (execCrwr _la gd gs1 sel s) := .settle .crOp h
theorem AnswersIntact.execCrset (h : s.Intact none) : AnswersIntact (execCrset _la gd gs1 sel s) := .settle .crOp h
theorem AnswersIntact.execCrclr (h : s.Intact none) : AnswersIntact (execCrclr _la gd gs1 sel s) := .settle .crOp h

theorem AnswersIntact.execEcall (h : s.Intact none) : AnswersIntact (execEcall s) :=
  .settle (.bind .enter fun _ => .raise) h

theorem AnswersIntact.execEbreak (h : s.Intact none) : AnswersIntact (execEbreak s) :=
  .settle (.bind .enter fun _ => .trap) h

theorem AnswersIntact.execTret (h : s.Intact none) : AnswersIntact (execTret _la s) := by
  dsimp only [Machine.execTret]
  exact .settle (.bind .enter fun _ => .get fun _ _ => .optional .illegal fun _ => .changed fun _ h => h.retired.resume) h

theorem AnswersIntact.execIllegalInstruction (h : s.Intact none) : AnswersIntact (execIllegalInstruction s) := by
  unfold Machine.execIllegalInstruction
  split
  · exact .settle .trap h
  · exact .next h

theorem AnswersIntact.execOverlayTrap (h : s.Intact none) : AnswersIntact (execOverlayTrap s) := by
  unfold Machine.execOverlayTrap
  split
  · exact .settle .trap h
  · exact .next h

theorem KeepsIntact.gridWord : KeepsIntact (gridWord r causeAllowed) :=
  .bind .exactSource fun _ => .optional .illegal fun _ => .pure

theorem State.Intact.preempt (h : s.Intact none) : (s.preempt g).2.Intact none := by
  unfold State.preempt
  split
  · exact h
  · split
    · exact h.same
    · exact h
    · exact h
    · exact .ite_snd h h.same
    · exact .ite_snd h h.same
    · exact h

theorem State.Intact.endByRequest (h : s.Intact none) : (s.endByRequest g cause).2.Intact none := by
  unfold State.endByRequest
  split
  · exact h
  · split
    · exact h
    · exact h
    · exact h
    · exact h
    · exact h.endGrid

theorem AnswersIntact.execGpreempt (h : s.Intact none) : AnswersIntact (execGpreempt la gd gs1 s) := by
  unfold Machine.execGpreempt
  refine .settle (.bind .enter fun _ => .bind .gridWord fun _ => ?_) h
  split
  · refine .get fun _ h1 => ?_
    split
    exact .bind (.set (h1.preempt.snd ‹_›)) fun _ => .bind .result fun _ => .retire

theorem AnswersIntact.execGpreemptEnd (h : s.Intact none) : AnswersIntact (execGpreemptEnd la gd gs1 s) := by
  unfold Machine.execGpreemptEnd
  refine .settle (.bind .enter fun _ => .bind .gridWord fun _ => ?_) h
  split
  · refine .get fun _ h1 => ?_
    split
    exact .bind (.set (h1.endByRequest.snd ‹_›)) fun _ => .bind .result fun _ => .retire

theorem AnswersIntact.execGresume (h : s.Intact none) : AnswersIntact (execGresume la gd gs1 s) := by
  dsimp only [Machine.execGresume]
  refine .settle (.bind .enter fun _ => .bind .gridWord fun _ => .get fun _ h1 => ?_) h
  split
  · exact .bind .result fun _ => .retire
  · split
    · exact .bind .result fun _ => .retire
    · exact .bind (.set h1.same) fun _ => .bind .result fun _ => .retire

theorem AnswersIntact.execPreack (h : s.Intact none) : AnswersIntact (execPreack la gd gs1 s) := by
  dsimp only [Machine.execPreack]
  refine .settle (.bind .enter fun _ => .bind .gridWord fun _ => .get fun _ _ => ?_) h
  split
  · exact .bind .result fun _ => .retire
  · exact .optional .waitHere fun _ => .bind .result fun _ => .retire

theorem KeepsIntact.slotWordOperand : KeepsIntact (slotWordOperand r) :=
  .bind .exactSource fun _ => .optional .illegal fun _ => .pure

theorem State.Intact.savePart (h : s.Intact none) : (s.savePart w sl i sp).Intact none := h.writeSpot.afterWrite

theorem AnswersIntact.execCtxsave (h : s.Intact none) : AnswersIntact (execCtxsave la gd gs1 gs2 s) := by
  refine .settle (.bind .enter fun _ => .bind .slotWordOperand fun ⟨k, _, g⟩ => .bind .exactSource fun _ =>
    .bind .checkBase fun _ => .bind .findParts fun _ => .get fun s h => .optional .trap fun _ => .optional (.set ?_) fun _ =>
    .bind .result fun _ => .retire) h
  exact h.foldl fun _ _ _ h => h.savePart

theorem AnswersIntact.execCtxload (h : s.Intact none) : AnswersIntact (execCtxload la gd gs1 gs2 s) := by
  refine .settle (.bind .enter fun _ => .bind .slotWordOperand fun ⟨k, res, g⟩ => .bind .exactSource fun _ =>
    .optional .checkBase fun _ => .choice .pure .findParts fun parts => .get fun s h => ?_) h
  extract_lets st answered t gots lc regs loaded load
  have hanswered : ∀ r, KeepsIntact (answered r) := fun _ => .bind .result fun _ => .retire
  have ht : t.Intact none := h.foldl fun _ _ _ h => h.beforeRead
  clear_value t
  have hregs : regs.Intact none := ht.foldl fun _ _ _ h => h.writeReg
  clear_value regs
  have hloaded : loaded.Intact none := .ite ht hregs.same
  clear_value loaded
  have hload : ∀ r, KeepsIntact (load r) := fun _ => .bind (.set (.ite hloaded.resume hloaded)) hanswered
  exact .ite (.bind (.set ht) fun _ => .optional .trap hload) (hanswered ())

theorem AnswersIntact.execTdrain (h : s.Intact none) : AnswersIntact (execTdrain la gd gs1 gs2 s) := by
  dsimp only [Machine.execTdrain]
  refine .settle (.bind .enter fun _ => .bind .exactSource fun _ => .bind .exactSource fun _ => ?_) h
  refine .optional .illegal fun _ => .get fun _ h1 => ?_
  split
  · exact .bind .result fun _ => .retire
  · split
    · exact .bind .result fun _ => .retire
    · split
      · exact .bind .result fun _ => .retire
      · exact .bind (.set h1.same) fun _ => .bind .result fun _ => .retire

theorem AnswersIntact.execTconfirm (h : s.Intact none) : AnswersIntact (execTconfirm la gd gs1 s) := by
  dsimp only [Machine.execTconfirm]
  refine .settle (.bind .enter fun _ => .bind .exactSource fun _ => .optional .illegal fun _ => .get fun _ h1 => ?_) h
  split
  · exact .bind .result fun _ => .retire
  · exact .optional .waitHere fun _ => .bind (.set (.ite h1.same h1.same)) fun _ => .bind .result fun _ => .retire

theorem AnswersIntact.execEvrd (h : s.Intact none) : AnswersIntact (execEvrd _la gd sel s) := by
  dsimp only [Machine.execEvrd]
  exact .settle (.bind .atLevels fun _ => .optional .illegal fun _ => .bind .enter fun _ => .get fun _ _ =>
      .bind .result fun _ => .retire) h

theorem AnswersIntact.execEvclr (h : s.Intact none) : AnswersIntact (execEvclr _la gs1 s) := by
  unfold Machine.execEvclr
  exact .settle (.bind .enter fun _ => .bind .exactSource fun _ => .bind (.changed fun _ h => h.same) fun _ => .retire) h

theorem State.Intact.strike (h : s.Intact none) : (s.strike at_ places).Intact none := .ite h.same h.same
theorem State.Intact.strikeMore (h : s.Intact none) : (s.strikeMore at_ n).Intact none := .ite h h.same

theorem State.Intact.injectFault (h : s.Intact none) : (s.injectFault kind pa b c).2.Intact none := by
  unfold State.injectFault
  split
  · exact h
  · extract_lets wide uses t
    have ht : t.Intact none := by
      dsimp only [t]
      split
      · exact .ite h.invalidate h
      · exact h
    clear_value t
    refine .ite_snd h ?_
    split
    · exact ht.same
    · exact ht.same
    · dsimp only
      exact ht.strike
    · dsimp only
      exact ht.strikeMore

theorem AnswersIntact.execFinject (h : s.Intact none) : AnswersIntact (execFinject la gd gs1 sel s) := by
  dsimp only [Machine.execFinject]
  exact .settle (.bind .atLevels fun _ => .bind .enter fun _ => .bind .exactSource fun _ => .ite (.optional .illegal fun _ =>
      .bind .needOwner fun _ => .get fun _ h1 => .ite (.bind .result fun _ => .retire) (.bind (.set h1.same) fun _ =>
      .bind .result fun _ => .retire)) (.optional .illegal fun _ => .get fun _ h1 => .bind (.set h1.injectFault) fun _ =>
      .bind .result fun _ => .retire)) h

theorem AnswersIntact.execNrctlWrite (h : s.Intact none) : AnswersIntact (execNrctlWrite s) := by
  unfold Machine.execNrctlWrite
  split
  · exact .next h.writeNrctl
  · exact .next h

theorem AnswersIntact.execFpctlEn (h : s.Intact none) : AnswersIntact (execFpctlEn s) := by
  unfold Machine.execFpctlEn
  split
  · exact .next h.writeFpctlEn
  · exact .next h

theorem AnswersIntact.execFpctlDown (h : s.Intact none) : AnswersIntact (execFpctlDown s) := by
  unfold Machine.execFpctlDown
  split
  · exact .next h.writeFpctlDown
  · exact .next h

theorem AnswersIntact.execFshareWrite (h : s.Intact none) : AnswersIntact (execFshareWrite s) := by
  unfold Machine.execFshareWrite
  split
  · exact .next h.writeFshare
  · exact .next h

theorem AnswersIntact.execHshareWrite (h : s.Intact none) : AnswersIntact (execHshareWrite s) := by
  unfold Machine.execHshareWrite
  split
  · exact .next h.writeHshare
  · exact .next h

theorem AnswersIntact.execSshareWrite (h : s.Intact none) : AnswersIntact (execSshareWrite s) := by
  unfold Machine.execSshareWrite
  split
  · exact .next h.writeSshare
  · exact .next h

theorem AnswersIntact.execHlinWrite (h : s.Intact none) : AnswersIntact (execHlinWrite s) := by
  unfold Machine.execHlinWrite
  split
  · exact .next h.writeHlin
  · exact .next h

theorem AnswersIntact.execCtxbaseWrite (h : s.Intact none) : AnswersIntact (execCtxbaseWrite s) := by
  unfold Machine.execCtxbaseWrite
  split
  · exact .next h.writeCtxbase
  · exact .next h

theorem AnswersIntact.execEltabWrite (h : s.Intact none) : AnswersIntact (execEltabWrite s) := by
  unfold Machine.execEltabWrite
  split
  · exact .next h.writeEltab
  · exact .next h

theorem AnswersIntact.execRtabWrite (h : s.Intact none) : AnswersIntact (execRtabWrite s) := by
  unfold Machine.execRtabWrite
  split
  · exact .next h.writeRtab
  · exact .next h

theorem AnswersIntact.execXctlWrite (h : s.Intact none) : AnswersIntact (execXctlWrite s) := by
  unfold Machine.execXctlWrite
  split
  · exact .next h.writeXctl
  · exact .next h

theorem AnswersIntact.execMqctlWrite (h : s.Intact none) : AnswersIntact (execMqctlWrite s) := by
  unfold Machine.execMqctlWrite
  split
  · exact .next h.writeMqctl
  · exact .next h

theorem State.Intact.writeRegister (h : s.Intact none) : (s.writeRegister src off width v).Intact none := by
  unfold State.writeRegister
  split
  · exact h.writeBankCode
  · exact .ite h.writeBankEntry h
  · exact .ite h.writeUnit h

theorem AnswersIntact.execRegisterWrite (h : s.Intact none) : AnswersIntact (execRegisterWrite s) := by
  unfold Machine.execRegisterWrite
  split
  · exact .next h.writeRegister
  · exact .next h

/-! ## Package -/

theorem State.Intact.steer (h : s.Intact none) : (s.steer r want).Intact none := .ite h h.same
theorem State.Intact.governor (h : s.Intact none) : (s.governor r occupied capacity).Intact none := State.Intact.steer h.same

theorem AnswersIntact.execGovernorWindow (h : s.Intact none) : AnswersIntact (execGovernorWindow s) := by
  unfold Machine.execGovernorWindow
  split
  · exact .next h.governor
  · exact .next h

theorem AnswersIntact.execLevelStepDone (h : s.Intact none) : AnswersIntact (execLevelStepDone s) := by
  dsimp only [Machine.execLevelStepDone]
  split
  · refine .next ?_
    split
    · exact h.same
    · exact h
  · exact .next h

theorem State.Intact.limiterRecords {entered : Bool} (h : s.Intact none) : (s.limiterRecords stages entered cause).Intact none :=
  h.foldl fun _ _ _ h => h.openRecord

theorem State.Intact.limitRegions (h : s.Intact none) : (s.limitRegions f).Intact none := h.foldl fun _ _ _ h =>
    State.Intact.steer h.same

theorem State.Intact.lowerCeilings (h : s.Intact none) : s.lowerCeilings.Intact none := h.limitRegions
theorem State.Intact.freeCeilings (h : s.Intact none) : s.freeCeilings.Intact none := h.limitRegions

theorem State.Intact.limiterStep (h : s.Intact none) : (s.limiterStep watts average burst).Intact none := by
  unfold State.limiterStep
  extract_lets above st stage moved new cause told
  have hmoved : moved.Intact none := .ite (.ite h.same (.ite h.same h)) (.ite h h.same)
  have htold : told.Intact none := .ite hmoved hmoved.limiterRecords
  exact .ite htold.lowerCeilings (.ite htold.freeCeilings htold)

theorem AnswersIntact.execLimiterSample (h : s.Intact none) : AnswersIntact (execLimiterSample s) := by
  unfold Machine.execLimiterSample
  split
  · exact .next h.limiterStep
  · exact .next h

theorem AnswersIntact.execThermalLimit (h : s.Intact none) : AnswersIntact (execThermalLimit s) := by
  dsimp only [Machine.execThermalLimit]
  split
  · exact .next (.ite h (State.Intact.lowerCeilings (State.Intact.limiterRecords h.same)))
  · exact .next h

theorem AnswersIntact.execThermalLimitExit (h : s.Intact none) : AnswersIntact (execThermalLimitExit s) := by
  dsimp only [Machine.execThermalLimitExit]
  split
  · exact .next (.ite h (.ite (State.Intact.freeCeilings (State.Intact.limiterRecords h.same))
      (State.Intact.limiterRecords h.same)))
  · exact .next h

theorem State.Intact.thermalStop (h : s.Intact none) : (s.thermalStop g).Intact none := by
  unfold State.thermalStop
  split
  · exact .ite h.preempt.onGrid h
  · exact h

theorem State.Intact.thermalRecord {cluster : Nat} (h : s.Intact none) : (s.thermalRecord cluster temp).Intact none :=
  h.openRecord

theorem AnswersIntact.execThermalPreempt (h : s.Intact none) : AnswersIntact (execThermalPreempt s) := by
  dsimp only [Machine.execThermalPreempt]
  split
  · refine .next ?_
    split
    · exact h
    · exact State.Intact.foldl (State.Intact.thermalRecord h.same) fun _ _ _ h => h.thermalStop
  · exact .next h

theorem AnswersIntact.execThermalClear (h : s.Intact none) : AnswersIntact (execThermalClear s) := by
  dsimp only [Machine.execThermalClear]
  split
  · refine .next ?_
    split
    · exact h
    · exact State.Intact.foldl (State.Intact.thermalRecord h.same) fun _ _ _ h => .ite h.same (.ite h.same h)
  · exact .next h

theorem State.Intact.scrub (h : s.Intact none) : (s.scrub p).Intact none := h.foldl fun _ _ _ h => .ite h.mendWord h

theorem AnswersIntact.execSliceScrub (h : s.Intact none) : AnswersIntact (execSliceScrub s) := by
  unfold Machine.execSliceScrub
  split
  · exact .next h.scrub
  · exact .next h

theorem AnswersIntact.execHbmRowScrub (h : s.Intact none) : AnswersIntact (execHbmRowScrub s) := by
  unfold Machine.execHbmRowScrub
  split
  · exact .next h.scrub
  · exact .next h

theorem State.Intact.stopDevice (h : s.Intact none) : s.stopDevice.Intact none := h.same

theorem AnswersIntact.execSoftError (h : s.Intact none) : AnswersIntact (execSoftError s) := by
  unfold Machine.execSoftError
  split
  · refine .next ?_
    split
    · exact h
    · exact .ite h (.ite (State.Intact.corrected h.same) h.same)
    · exact .ite (State.Intact.corrected h.same) h
    · exact h.strikeMore
    · exact h.strikeMore
    · exact h.strikeMore
  · exact .next h

theorem State.Intact.crossingLost (h : s.Intact none) : (s.crossingLost crossing).Intact none := by
  dsimp only [State.crossingLost]
  refine State.Intact.stopDevice (State.Intact.openRecord (State.Intact.drawn ?_))
  exact State.Intact.foldl h.same fun _ _ _ h => h.endGrid

theorem AnswersIntact.execCrossingFail (h : s.Intact none) : AnswersIntact (execCrossingFail s) := by
  dsimp only [Machine.execCrossingFail]
  split
  · exact .next (.ite (State.Intact.crossingLost h.same) h.same)
  · exact .next h

theorem AnswersIntact.execEnforcementWindow (h : s.Intact none) : AnswersIntact (execEnforcementWindow s) := by
  unfold Machine.execEnforcementWindow
  split
  · exact .next h.same
  · exact .next h

/-! ## Start -/

theorem State.Intact.writeRec (h : s.Intact none) : (s.writeRec f).Intact none := .ite h.same h.same
theorem State.Intact.writeEntry (h : s.Intact none) : (s.writeEntry n e).Intact none := h.writeRec

theorem State.Intact.setBanks (h : s.Intact none) : (s.setBanks off).Intact none := State.Intact.foldl h.same fun _ _ _ h =>
    h.same

theorem State.Intact.uncalibrate (h : s.Intact none) : (s.uncalibrate arrays).Intact none := h.foldl fun _ _ _ h => h.same

theorem State.Intact.portUp {version : Nat} (h : s.Intact none) : (s.portUp p version).Intact none :=
  .ite h.onPort.setPortState.fillGroups.same h.onPort.setPortState.fillGroups

theorem State.Intact.trainPort (h : s.Intact none) : (s.trainPort p theirs ours).Intact none := by
  unfold State.trainPort
  split
  · exact h.portUp
  · exact h.openRecord

theorem State.Intact.trainUbgen (h : s.Intact none) : (s.trainUbgen env alone).Intact none := by
  unfold State.trainUbgen
  split
  · exact h.trainPort
  · exact h

theorem State.Intact.reportClosed (h : s.Intact none) : s.reportClosed.Intact none :=
  h.foldl fun _ _ _ h => .ite h.openRecord h

theorem State.Intact.sendWaiting (h : s.Intact none) : s.sendWaiting.Intact none := h.same

theorem State.Intact.openDevice (h : s.Intact none) : s.openDevice.Intact none := by
  unfold State.openDevice
  extract_lets versions t
  have ht : t.Intact none := State.Intact.reportClosed h.same
  clear_value t
  exact State.Intact.sendWaiting ht.same

theorem State.Intact.stepEffect (h : s.Intact none) : (s.stepEffect env n alt).Intact none := by
  dsimp only [State.stepEffect]
  split
  · exact h.writeRec
  · exact h.same
  · split
    · exact State.Intact.foldl h.same fun _ _ _ h => h.same
    · exact h.same
  · exact h.same
  · exact h.same
  · exact h.same
  · exact h.same
  · refine State.Intact.foldl h.setBanks fun _ _ _ h => ?_
    split
    · exact .ite h.store h
    · exact h
  · exact State.Intact.writeEltab (State.Intact.writeCtxbase (h.foldl fun _ _ _ h => h.writeHlin))
  · exact h.uncalibrate
  · exact h.trainUbgen
  · refine State.Intact.foldl h fun _ _ _ h => ?_
    split
    · exact h.trainPort
    · exact h
  · exact h.same
  · exact h.same
  · exact h.openDevice
  · exact h

theorem State.Intact.stepSkipped (h : s.Intact none) : (s.stepSkipped n).Intact none := by
  unfold State.stepSkipped
  split
  · exact h.setBanks
  · exact h.uncalibrate
  · exact h

theorem State.Intact.holdStart (h : s.Intact none) : (s.holdStart env n).Intact none := .ite h.same h.trainUbgen.same
theorem State.Intact.nextStep (h : s.Intact none) : (s.nextStep env n).Intact none := .ite h h.same

theorem State.Intact.giveUp {begun : Bool} (h : s.Intact none) : (s.giveUp env n begun cause).Intact none :=
  .ite h.writeEntry.stepSkipped.nextStep h.writeEntry.holdStart

theorem State.Intact.tryMethod (h : s.Intact none) : (s.tryMethod env n fails cause alt).2.Intact none := by
  dsimp only [State.tryMethod]
  split
  · exact State.Intact.stepEffect (State.Intact.writeEntry (State.Intact.writeEntry h.same))
  · exact State.Intact.writeEntry h.same

theorem State.Intact.runStep (h : s.Intact none) : (s.runStep env n).Intact none := by
  unfold State.runStep
  extract_lets e fails cause
  refine .ite h.giveUp ?_
  split
  · exact (h.tryMethod.snd ‹_›).nextStep
  · exact h.tryMethod.snd ‹_›
  · have ht := h.tryMethod.snd ‹_›
    refine .ite ht.giveUp ?_
    split
    · exact (ht.tryMethod.snd ‹_›).nextStep
    · exact ht.tryMethod.snd ‹_›
    · exact (ht.tryMethod.snd ‹_›).giveUp

theorem State.Intact.reset : State.reset.Intact none := by
  have hmem : State.reset.mem = [] := rfl
  refine State.MemoryCanonical.intact ?_
  rw [State.MemoryCanonical, hmem]
  rfl

theorem State.Intact.beginStart : (s.beginStart env).Intact none := State.Intact.same State.Intact.reset

theorem AnswersIntact.execPowerOn (h : s.Intact none) : AnswersIntact (execPowerOn s) := by
  unfold Machine.execPowerOn
  split
  · exact .next (.ite State.Intact.beginStart (.ite h.runStep h))
  · exact .next h

theorem AnswersIntact.execCarrierReset (h : s.Intact none) : AnswersIntact (execCarrierReset s) := by
  unfold Machine.execCarrierReset
  split
  · exact .next State.Intact.beginStart
  · exact .next h

theorem State.Intact.overran (h : s.Intact none) : (s.overran env n).Intact none :=
  .ite State.Intact.beginStart (.ite h State.Intact.beginStart)

theorem AnswersIntact.execStartWatchdog (h : s.Intact none) : AnswersIntact (execStartWatchdog s) := by
  unfold Machine.execStartWatchdog
  split
  · exact .next (.ite h.overran h)
  · exact .next h

theorem State.Intact.powerDown : (s.powerDown writing).Intact none := State.Intact.same State.Intact.reset

theorem AnswersIntact.execPowerLoss (h : s.Intact none) : AnswersIntact (execPowerLoss s) := by
  unfold Machine.execPowerLoss
  split
  · exact .next State.Intact.powerDown
  · exact .next h

theorem AnswersIntact.execThermalShutdown (h : s.Intact none) : AnswersIntact (execThermalShutdown s) := by
  unfold Machine.execThermalShutdown
  split
  · exact .next State.Intact.powerDown
  · exact .next h

/-! ## Links -/

theorem State.Intact.retrain (h : s.Intact none) : (s.retrain p).Intact none := h.onPort.setPortState
theorem State.Intact.finish (h : s.Intact none) : (s.finish p).Intact none := .ite h.portDown h

theorem State.Intact.acknowledge {ack : Nat} (h : s.Intact none) : (s.acknowledge p ack).Intact none :=
  .ite h h.onPort.fillGroups

theorem State.Intact.replayed (h : s.Intact none) : (s.replayed p).Intact none := by
  dsimp only [State.replayed]
  split
  · exact h
  · exact .ite h.onPort.retrain h.onPort

theorem State.Intact.groupArrives {ack : Nat} (h : s.Intact none) : (s.groupArrives p seq data crc ack again).Intact none := by
  dsimp only [State.groupArrives]
  split
  · exact h
  · split
    · exact .ite h.onPort.retrain h.onPort
    · split
      · exact State.Intact.replayed (State.Intact.acknowledge (.ite h.onPort h))
      · exact State.Intact.finish (State.Intact.acknowledge (.ite h.onPort h))

theorem AnswersIntact.execGroupReceive (h : s.Intact none) : AnswersIntact (execGroupReceive s) := by
  unfold Machine.execGroupReceive
  split
  · exact .next h.groupArrives
  · exact .next h

theorem AnswersIntact.execLaneLockLoss (h : s.Intact none) : AnswersIntact (execLaneLockLoss s) := by
  dsimp only [Machine.execLaneLockLoss]
  split
  · exact .next (.ite h (.ite h.portDown h.retrain))
  · exact .next h

theorem State.Intact.portBack {version : Nat} (h : s.Intact none) : (s.portBack p version).Intact none :=
  .ite h.onPort.setPortState.fillGroups.same h.onPort.setPortState.fillGroups

theorem State.Intact.trained (h : s.Intact none) : (s.trained p ok lowest highest).Intact none := by
  unfold State.trained
  extract_lets q warmed fails failed
  have hwarmed : warmed.Intact none := h.same
  have hfailed : failed.Intact none := h.same
  refine .ite h (.ite ?_ (.ite hfailed.portDown hfailed.retrain))
  split
  · extract_lets up
    have hup : up.Intact none := .ite hwarmed.portUp hwarmed.portBack
    exact .ite hup.sendWaiting hup
  · exact h.portDown.openRecord

theorem AnswersIntact.execRetrainEnd (h : s.Intact none) : AnswersIntact (execRetrainEnd s) := by
  unfold Machine.execRetrainEnd
  split
  · exact .next h.trained
  · exact .next h

theorem State.Intact.sendBack (h : s.Intact none) : (s.sendBack p op).Intact none := h.send

theorem State.Intact.landParts (h : s.Intact none) (hf : ∀ parts (t : State), t.Intact none → (f parts t).Intact none) :
    (s.landParts p u parts f).2.Intact none := by
  unfold State.landParts
  split
  · exact (h.ownFabricParts.snd ‹_›).sendBack
  · exact h.ownFabricParts.snd ‹_›
  · exact hf _ _ (h.ownFabricParts.snd ‹_›)

theorem State.Intact.landLoad (h : s.Intact none) : (s.landLoad p n cap).2.Intact none :=
  State.Intact.landParts h fun _ _ h => .ite h.readParts.sendBack h.readParts.sendBack

theorem State.Intact.landSector (h : s.Intact none) : (s.landSector p).2.Intact none :=
  h.landParts fun _ _ h => State.Intact.sendBack (h.foldl_snd fun _ _ _ h => h.beforeRead)

theorem State.Intact.landed (h : s.Intact none) : (s.landed p parts barrier n).Intact none := by
  dsimp only [State.landed]
  split
  · exact h
  · exact h.same

theorem State.Intact.landStore (h : s.Intact none) : (s.landStore p bs kind poisoned barrier).2.Intact none := by
  dsimp only [State.landStore]
  refine State.Intact.landParts h fun _ _ h => ?_
  split
  · exact h.sendBack
  · refine State.Intact.sendBack (State.Intact.landed ?_)
    split
    · exact h.writeParts
    · refine State.Intact.foldl h.writeParts fun _ _ _ h => ?_
      split
      · exact h.same
      · exact h.same
      · exact h

theorem State.Intact.placeParts (h : s.Intact none) : (s.placeParts p aligned parts cells).Intact none := by
  induction parts generalizing s cells with
  | nil => exact h
  | cons q parts ih =>
    refine ih ?_
    split
    · exact h.placeCells.afterWrite
    · exact h.placeCells.afterWrite
    · exact h.writeSpot

theorem State.Intact.landPlace (h : s.Intact none) : (s.landPlace p cells aligned barrier).2.Intact none :=
  State.Intact.landParts h fun _ _ h => .ite h.sendBack h.placeParts.landed.sendBack

theorem State.Intact.landAtomic (h : s.Intact none) : (s.landAtomic p op n sgn a b).2.Intact none := by
  unfold State.landAtomic
  refine State.Intact.landParts h fun _ _ h => ?_
  split
  · split
    · exact h.sendBack
    · split
      exact .ite h.sendBack (h.atomicAt.snd_snd ‹_›).sendBack
  · exact h

theorem State.Intact.rewriteFlags (h : s.Intact none) : (s.rewriteFlags a va set_).2.Intact none := by
  unfold State.rewriteFlags
  split
  · exact h.ownFabricParts.snd ‹_›
  · exact h.ownFabricParts.snd ‹_›
  · split
    · split
      · exact (h.ownFabricParts.snd ‹_›).readParts.snd ‹_›
      · split
        · exact ((h.ownFabricParts.snd ‹_›).readParts.snd ‹_›).ownFabricParts.snd ‹_›
        · exact ((h.ownFabricParts.snd ‹_›).readParts.snd ‹_›).ownFabricParts.snd ‹_›
        · split
          · exact ((h.ownFabricParts.snd ‹_›).readParts.snd ‹_›).ownFabricParts.snd ‹_›
          · exact (((h.ownFabricParts.snd ‹_›).readParts.snd ‹_›).ownFabricParts.snd ‹_›).writeParts

theorem State.Intact.landLock (h : s.Intact none) : (s.landLock a op r).2.Intact none := by
  unfold State.landLock
  split
  · exact h
  · split <;> exact h.findCell.snd ‹_›

theorem State.Intact.landCell (h : s.Intact none) : (s.landCell p op r).2.Intact none := by
  dsimp only [State.landCell]
  split
  · exact (h.findCell.snd ‹_›).sendBack
  · exact (h.findCell.snd ‹_›).sendAnswer
  · exact h.findCell.snd ‹_›
  · split
    · exact (h.findCell.snd ‹_›).sendBack
    · split
      · exact (h.findCell.snd ‹_›).landLock.snd ‹_›
      · exact ((h.findCell.snd ‹_›).landLock.snd ‹_›).sendBack
      · exact ((h.findCell.snd ‹_›).landLock.snd ‹_›).performRequest

theorem State.Intact.landAt (h : s.Intact none) (hf : ∀ (t : State) pa, t.Intact none → (f t pa).Intact none) :
    (s.landAt p f).2.Intact none := by
  unfold State.landAt
  split
  · exact hf _ _ (h.findCell.snd ‹_›)
  · exact h.findCell.snd ‹_›
  · exact h.findCell.snd ‹_›

theorem State.Intact.landCall (h : s.Intact none) : (s.landCall p t).2.Intact none := by
  dsimp only [State.landCall]
  split
  · exact h.same
  · split
    · exact h.calleeAt.snd ‹_›
    · exact (h.calleeAt.snd ‹_›).carry
    · exact (h.calleeAt.snd ‹_›).answerCall
    · exact h.calleeAt.snd ‹_›

theorem State.Intact.land (h : s.Intact none) : (s.land p).2.Intact none := by
  dsimp only [State.land]
  split
  · exact h.landLoad
  · exact h.landLoad
  · exact h.landSector
  · exact h.landStore
  · exact h.landPlace
  · exact h.landAtomic
  · exact h.landCell
  · exact State.Intact.landAt h fun _ _ h => h.cancelHold
  · exact State.Intact.landAt h fun _ _ h => h.setPriority
  · exact h.boosted
  · exact h.boosted
  · split
    · have ht := h.ownFabricParts.snd ‹_›
      exact ht.same
    · exact h.ownFabricParts.snd ‹_›
    · exact h.ownFabricParts.snd ‹_›
  · split
    · exact (h.rewriteFlags.snd ‹_›).sendBack
    · exact h.rewriteFlags.snd ‹_›
    · exact (h.rewriteFlags.snd ‹_›).sendBack
  · exact h.landCall
  · exact h.same
  · exact h.replyArrived
  · exact h.replyArrived
  · exact h.replyArrived
  · exact h.replyArrived
  · exact h.replyArrived
  · exact .ite h.refusedByDesk h.answered
  · exact h.replyArrived

theorem State.Intact.packetArrives (h : s.Intact none) : (s.packetArrives p).Intact none := by
  dsimp only [State.packetArrives]
  split
  · exact h
  · split
    · split
      · exact h.land.snd ‹_›
      · exact (h.land.snd ‹_›).emit
    · exact .ite h h.same

theorem AnswersIntact.execFabricPacket (h : s.Intact none) : AnswersIntact (execFabricPacket s) := by
  unfold Machine.execFabricPacket
  split
  · exact .next h.packetArrives
  · exact .next h

/-! ## HostLink -/

theorem State.Intact.hostFault (h : s.Intact none) : (s.hostFault r c).Intact none := h.hostReply

theorem State.Intact.serveParts (h : s.Intact none) (hf : ∀ parts (t : State), t.Intact none → (f parts t).Intact none) :
    (s.serveParts r u f).2.Intact none := by
  unfold State.serveParts
  split
  · exact (h.ownFabricParts.snd ‹_›).hostFault
  · exact h.ownFabricParts.snd ‹_›
  · exact hf _ _ (h.ownFabricParts.snd ‹_›)

theorem State.Intact.serveRead (h : s.Intact none) : (s.serveRead r).2.Intact none := by
  unfold State.serveRead
  split
  · exact h.hostAsk
  · refine State.Intact.serveParts h fun _ _ h => ?_
    split
    exact .ite (h.readParts.snd ‹_›).hostFault (h.readParts.snd ‹_›).hostReply

theorem State.Intact.serveWrite (h : s.Intact none) : (s.serveWrite r late).2.Intact none :=
  .ite_snd h.hostAsk (State.Intact.serveParts h fun _ _ h => .ite h.hostFault h.writeParts.hostAck)

theorem State.Intact.hostStatusReply (h : s.Intact none) : (s.hostStatusReply r op st val elem).Intact none := h.hostReply
theorem State.Intact.askFar (h : s.Intact none) : (s.askFar r op q).Intact none := .ite h.hostReply (State.Intact.send h.same)

theorem State.Intact.askHere (h : s.Intact none) : (s.askHere r op q).2.Intact none := by
  dsimp only [State.askHere]
  split
  · exact h
  · exact ((h.same (t := s.drawn)).enterSlice.desk.snd ‹_›).onHostStream
  · exact ((h.same (t := s.drawn)).enterSlice.desk.snd ‹_›).hostStatusReply

theorem State.Intact.serveCell (h : s.Intact none) : (s.serveCell r).2.Intact none := by
  dsimp only [State.serveCell]
  split
  · split
    · exact h.hostStatusReply
    · split
      · exact (h.findCell.snd ‹_›).hostFault
      · exact h.findCell.snd ‹_›
      · exact (h.findCell.snd ‹_›).hostStatusReply
  · split
    · exact .ite_snd (.ite h.askFar h.hostReply) h.askFar
    · split
      · exact (h.findCell.snd ‹_›).hostFault
      · exact (h.findCell.snd ‹_›).hostStatusReply
      · exact h.findCell.snd ‹_›
      · split
        · exact (h.findCell.snd ‹_›).hostFault
        · split
          · exact (h.findCell.snd ‹_›).landLock.snd ‹_›
          · exact ((h.findCell.snd ‹_›).landLock.snd ‹_›).hostReply
          · exact ((h.findCell.snd ‹_›).landLock.snd ‹_›).askHere

theorem State.Intact.cancelStream (h : s.Intact none) : (s.cancelStream n).Intact none := by
  unfold State.cancelStream
  split
  · exact .ite h (.ite (.ite h h.send) h.cancelHold)
  · exact h

theorem State.Intact.askImage (h : s.Intact none) : (s.askImage r ctx va).Intact none := .ite h.hostReply (State.Intact.send
    h.same)

theorem State.Intact.serveAttach (h : s.Intact none) : (s.serveAttach r).2.Intact none := by
  unfold State.serveAttach
  extract_lets va ctx t
  have ht : t.Intact none := h.same
  clear_value t
  refine .ite_snd ht.hostReply (.ite_snd ht.hostReply (.ite_snd ht.askImage ?_))
  split
  · exact (ht.findCell.snd ‹_›).hostReply
  · exact (ht.findCell.snd ‹_›).hostReply
  · exact ht.findCell.snd ‹_›
  · have hu := ht.findCell.snd ‹_›
    exact .ite_snd hu.hostReply hu.finishAttach

theorem State.Intact.serveDetach (h : s.Intact none) : (s.serveDetach r).Intact none := by
  dsimp only [State.serveDetach]
  refine State.Intact.hostReply ?_
  split
  · exact h
  · exact State.Intact.dropDetached (State.Intact.cancelPop h.same)

theorem State.Intact.serveReset (h : s.Intact none) : (s.serveReset r).2.Intact none := by
  unfold State.serveReset
  split
  · exact h.hostReply
  · extract_lets req tag asked
    refine .ite_snd ?_ (.ite_snd h.hostReply ?_)
    · split
      · have ht := h.findCell.snd ‹_›
        split
        · have hd := ht.desk.snd ‹_›
          dsimp only
          exact hd.resetAnswered
        · have hd := ht.desk.snd ‹_›
          dsimp only
          exact hd.hostReply
        · exact ht
      · exact (h.findCell.snd ‹_›).hostReply
      · exact h.findCell.snd ‹_›
      · exact (h.findCell.snd ‹_›).hostReply
    · exact State.Intact.send h.same

theorem State.Intact.serveSetStream (h : s.Intact none) : (s.serveSetStream r).Intact none :=
  .ite h.hostReply (State.Intact.hostReply h.same)

theorem State.Intact.serveNegotiate (h : s.Intact none) : (s.serveNegotiate r).Intact none := by
  dsimp only [State.serveNegotiate]
  split
  · exact h.hostReply
  · exact State.Intact.hostReply (.ite (State.Intact.sendWaiting (State.Intact.reportClosed h.same)) h.same)

theorem State.Intact.serveReadCap (h : s.Intact none) : (s.serveReadCap r).Intact none := .ite h.hostReply h.hostReply
theorem State.Intact.serveReadStart (h : s.Intact none) : (s.serveReadStart r).Intact none := h.hostReply
theorem State.Intact.serveClearStart (h : s.Intact none) : (s.serveClearStart r).Intact none := h.writeRec.hostReply

theorem State.Intact.serveSelectSlot (h : s.Intact none) : (s.serveSelectSlot r).Intact none :=
  .ite h.hostReply (State.Intact.hostReply h.same)

theorem State.Intact.serveAttest (h : s.Intact none) : (s.serveAttest r).Intact none := .ite h.hostReply h.hostReply

theorem State.Intact.controlRead (h : s.Intact none) : (s.controlRead a va n).2.Intact none := by
  unfold State.controlRead
  split
  · exact h
  · split
    · exact h.ownFabricParts.snd ‹_›
    · exact h.ownFabricParts.snd ‹_›
    · split
      exact (h.ownFabricParts.snd ‹_›).readParts.snd ‹_›

theorem State.Intact.relocateOne (h : s.Intact none) : (s.relocateOne a va).2.Intact none := by
  dsimp only [State.relocateOne]
  split
  · exact h.controlRead.snd ‹_›
  · exact h.controlRead.snd ‹_›
  · split
    · exact h.controlRead.snd ‹_›
    · split
      · exact h.controlRead.snd ‹_›
      · split
        · exact (h.controlRead.snd ‹_›).ownFabricParts.snd ‹_›
        · exact (h.controlRead.snd ‹_›).ownFabricParts.snd ‹_›
        · split
          · exact (h.controlRead.snd ‹_›).ownFabricParts.snd ‹_›
          · exact ((h.controlRead.snd ‹_›).ownFabricParts.snd ‹_›).writeParts

theorem State.Intact.relocateAll (h : s.Intact none) : (s.relocateAll r ctx table n i).2.Intact none := by
  induction n generalizing s i with
  | zero => exact h.hostReply
  | succ n ih =>
    unfold State.relocateAll
    split
    · exact (h.relocateOne.snd ‹_›).hostReply
    · exact h.relocateOne.snd ‹_›
    · exact ih (h.relocateOne.snd ‹_›)

theorem State.Intact.serveRelocate (h : s.Intact none) : (s.serveRelocate r).2.Intact none :=
  .ite_snd h.hostReply h.relocateAll

theorem State.Intact.serveSetSetup (h : s.Intact none) : (s.serveSetSetup r).Intact none := State.Intact.hostReply h.same

theorem State.Intact.serveControl (h : s.Intact none) : (s.serveControl r).2.Intact none := by
  unfold State.serveControl
  split
  · exact h.serveAttach
  · exact h.serveDetach
  · exact h.serveReset
  · exact h.serveSetStream
  · exact h.serveNegotiate
  · exact h.serveReadCap
  · exact h.serveReadStart
  · exact h.serveClearStart
  · exact h.serveSelectSlot
  · exact h.serveAttest
  · exact h.serveRelocate
  · exact h.serveSetSetup
  · exact h

theorem State.Intact.askTask {region : Nat} (h : s.Intact none) : (s.askTask region).Intact none := by
  unfold State.askTask
  split
  · split
    · exact h.emitOnce
    · exact h
  · exact h

theorem State.Intact.enqueueTask (h : s.Intact none) : (s.enqueueTask r).Intact none := State.Intact.askTask h.same

theorem State.Intact.performTask {region : Nat} (h : s.Intact none) : (s.performTask region).Intact none := by
  unfold State.performTask
  split
  · exact h
  · split
    · exact (h.serveControl.snd ‹_›).onRegion.askTask
    · exact (h.serveControl.snd ‹_›).askTask

theorem State.Intact.serve (h : s.Intact none) : (s.serve late r).2.Intact none := by
  unfold State.serve
  split
  · exact h.serveRead
  · exact h.serveWrite
  · exact h.serveCell
  · exact h.enqueueTask

theorem State.Intact.tryRequest (h : s.Intact none) : (s.tryRequest n late r).Intact none := by
  dsimp only [State.tryRequest]
  split
  · exact (h.same (t := s.drawn)).serve.snd ‹_›
  · exact ((h.same (t := s.drawn)).serve.snd ‹_›).onHostStream

theorem State.Intact.retryParked (h : s.Intact none) : (s.retryParked n).Intact none :=
  h.foldl fun _ _ _ h => State.Intact.tryRequest h.same

theorem State.Intact.issueRequest (h : s.Intact none) : (s.issueRequest n).Intact none := by
  unfold State.issueRequest
  extract_lets retried tried
  have hretried : retried.Intact none := h.retryParked
  have htried : tried.Intact none := by
    dsimp only [tried]
    split
    · exact .ite (hretried.same (t := ({ retried with lastStream := n } : State).onHostStream _ _)).tryRequest hretried
    · exact hretried
  exact (State.Intact.ite htried htried.emitOnce).askPort

theorem AnswersIntact.execStreamRequestIssue (h : s.Intact none) : AnswersIntact (execStreamRequestIssue s) := by
  unfold Machine.execStreamRequestIssue
  split
  · exact .next h.issueRequest
  · exact .next h

theorem State.Intact.requestArrives (h : s.Intact none) : (s.requestArrives r).Intact none :=
  .ite h (.ite h.hostReply (.ite h.hostReply (.ite h.cancelStream (State.Intact.askPort h.same))))

theorem AnswersIntact.hostRow (h : s.Intact none) : AnswersIntact (hostRow mine r s) := .next (.ite h.requestArrives h)

theorem AnswersIntact.controlRow (h : s.Intact none) : AnswersIntact (controlRow op r s) := by
  unfold Machine.controlRow
  refine .next ?_
  split
  · exact h
  · split
    · exact h.requestArrives
    · split
      · exact .ite h.performTask h
      · exact h

theorem AnswersIntact.execMemoryRead (h : s.Intact none) : AnswersIntact (execMemoryRead s) := by
  unfold Machine.execMemoryRead
  split
  · exact AnswersIntact.hostRow h
  · exact .next h

theorem AnswersIntact.execMemoryWrite (h : s.Intact none) : AnswersIntact (execMemoryWrite s) := by
  unfold Machine.execMemoryWrite
  split
  · exact AnswersIntact.hostRow h
  · exact .next h

theorem AnswersIntact.execCellRequest (h : s.Intact none) : AnswersIntact (execCellRequest s) := by
  unfold Machine.execCellRequest
  split
  · exact AnswersIntact.hostRow h
  · exact .next h

theorem AnswersIntact.execHostCancel (h : s.Intact none) : AnswersIntact (execHostCancel s) := by
  unfold Machine.execHostCancel
  split
  · exact AnswersIntact.hostRow h
  · exact .next h

theorem AnswersIntact.execUnsupportedRequest (h : s.Intact none) : AnswersIntact (execUnsupportedRequest s) := by
  unfold Machine.execUnsupportedRequest
  split
  · exact AnswersIntact.hostRow h
  · exact .next h

theorem AnswersIntact.execAttachQueue (h : s.Intact none) : AnswersIntact (execAttachQueue s) := by
  unfold Machine.execAttachQueue
  split
  · exact AnswersIntact.controlRow h
  · exact .next h

theorem AnswersIntact.execDetachQueue (h : s.Intact none) : AnswersIntact (execDetachQueue s) := by
  unfold Machine.execDetachQueue
  split
  · exact AnswersIntact.controlRow h
  · exact .next h

theorem AnswersIntact.execResetQueue (h : s.Intact none) : AnswersIntact (execResetQueue s) := by
  unfold Machine.execResetQueue
  split
  · exact AnswersIntact.controlRow h
  · exact .next h

theorem AnswersIntact.execSetStream (h : s.Intact none) : AnswersIntact (execSetStream s) := by
  unfold Machine.execSetStream
  split
  · exact AnswersIntact.controlRow h
  · exact .next h

theorem AnswersIntact.execNegotiate (h : s.Intact none) : AnswersIntact (execNegotiate s) := by
  unfold Machine.execNegotiate
  split
  · exact AnswersIntact.controlRow h
  · exact .next h

theorem AnswersIntact.execReadCap (h : s.Intact none) : AnswersIntact (execReadCap s) := by
  unfold Machine.execReadCap
  split
  · exact AnswersIntact.controlRow h
  · exact .next h

theorem AnswersIntact.execReadStart (h : s.Intact none) : AnswersIntact (execReadStart s) := by
  unfold Machine.execReadStart
  split
  · exact AnswersIntact.controlRow h
  · exact .next h

theorem AnswersIntact.execClearStart (h : s.Intact none) : AnswersIntact (execClearStart s) := by
  unfold Machine.execClearStart
  split
  · exact AnswersIntact.controlRow h
  · exact .next h

theorem AnswersIntact.execSelectSlot (h : s.Intact none) : AnswersIntact (execSelectSlot s) := by
  unfold Machine.execSelectSlot
  split
  · exact AnswersIntact.controlRow h
  · exact .next h

theorem AnswersIntact.execAttest (h : s.Intact none) : AnswersIntact (execAttest s) := by
  unfold Machine.execAttest
  split
  · exact AnswersIntact.controlRow h
  · exact .next h

theorem AnswersIntact.execRelocate (h : s.Intact none) : AnswersIntact (execRelocate s) := by
  unfold Machine.execRelocate
  split
  · exact AnswersIntact.controlRow h
  · exact .next h

theorem AnswersIntact.execSetSetup (h : s.Intact none) : AnswersIntact (execSetSetup s) := by
  unfold Machine.execSetSetup
  split
  · exact AnswersIntact.controlRow h
  · exact .next h

theorem State.Intact.sendRecord {source : Nat} (h : s.Intact none) : (s.sendRecord source).Intact none := by
  dsimp only [State.sendRecord]
  split
  · exact h
  · exact .ite h (State.Intact.toUbgen h.same)

theorem AnswersIntact.execEventRecordSend (h : s.Intact none) : AnswersIntact (execEventRecordSend s) := by
  unfold Machine.execEventRecordSend
  split
  · exact .next h.sendRecord
  · exact .next h

/-! ## Preempt -/

theorem State.Intact.cancelFar (h : s.Intact none) : (s.cancelFar k).Intact none := by
  dsimp only [State.cancelFar]
  split
  · split
    · exact .ite h h.send
    · exact h
  · exact h

theorem State.Intact.discardContexts (h : s.Intact none) : (s.discardContexts g).Intact none := by
  dsimp only [State.discardContexts]
  refine State.Intact.onGrid ?_
  change State.Intact _ (List.foldl _ _ _)
  exact h.foldl fun _ _ _ h => h.cancelFar

theorem State.Intact.toEnding (h : s.Intact none) : (s.toEnding g saved).Intact none := h.discardContexts.onGrid.emit
theorem State.Intact.saveFailed (h : s.Intact none) : (s.saveFailed g).Intact none := State.Intact.toEnding h.same

theorem State.Intact.boundary (h : s.Intact none) : (s.boundary g).Intact none := by
  dsimp only [State.boundary]
  split
  · exact h
  · split
    · exact h
    · split
      · exact h.same
      · split
        · exact State.Intact.saveFailed (h.foldl fun _ _ _ h => h.same)
        · exact State.Intact.emit (State.Intact.onGrid (h.foldl fun _ _ _ h => h.same))

theorem AnswersIntact.execPreemptBoundary (h : s.Intact none) : AnswersIntact (execPreemptBoundary s) := by
  unfold Machine.execPreemptBoundary
  split
  · exact .next h.boundary
  · exact .next h

end

end Sys2Proof.Machine
end

section
/-! SUPPORT. What the units' work leaves in order (`State.Intact`), part 6. Each lemma follows the branches of
one function of the model. Here: pre-emption, queues, launch. -/

namespace Sys2Proof.Machine

open Sys2Proof

set_option autoImplicit true

section
variable {s : State} {up : Option (List Nat)}

/-! ## Preempt -/

theorem State.Intact.savePlaces {count : Nat} (h : s.Intact none) : (s.savePlaces a va count u).2.Intact none :=
  h.ownFabricParts

theorem State.Intact.writePacked (h : s.Intact none) : (s.writePacked parts l).Intact none := by
  fun_induction State.writePacked s parts l with
  | case1 s pa _ ps bs g rest ih => exact ih h.storeData.onGranule.touch.invalidate
  | case2 => exact h

theorem State.Intact.findAreas (h : s.Intact none) : (s.findAreas a u areas).2.Intact none := by
  induction areas generalizing s with
  | nil => exact h
  | cons area areas ih =>
    unfold State.findAreas
    split
    · exact h.savePlaces.snd ‹_›
    · exact h.savePlaces.snd ‹_›
    · have ht := h.savePlaces.snd ‹_›
      split
      · exact (ih ht).snd ‹_›
      · exact ih ht

theorem State.Intact.placeAll (h : s.Intact none) : s.placeAll.Intact none := h.same
theorem State.Intact.becomeSaved (h : s.Intact none) : (s.becomeSaved g x).Intact none := .ite h.same h.same

theorem State.Intact.finishSave (h : s.Intact none) : (s.finishSave g x).Intact none := by
  dsimp only [State.finishSave]
  split
  · exact h.saveFailed
  · split
    · exact (h.findAreas.snd ‹_›).saveFailed
    · exact (h.findAreas.snd ‹_›).emit
    · split
      · exact (h.findAreas.snd ‹_›).saveFailed
      · split
        · exact State.Intact.toEnding ((h.findAreas.snd ‹_›).drawn.foldl fun _ _ _ h => h.writePacked)
        · exact State.Intact.becomeSaved ((h.findAreas.snd ‹_›).drawn.foldl fun _ _ _ h => h.writePacked)

theorem State.Intact.updateSaved (h : s.Intact none) : (s.updateSaved g x).Intact none := by
  dsimp only [State.updateSaved]
  split
  · exact h
  · split
    · exact (h.findAreas.snd ‹_›).onGrid
    · exact (h.findAreas.snd ‹_›).emitOnce
    · exact State.Intact.onGrid ((h.findAreas.snd ‹_›).foldl fun _ _ _ h => h.writePacked)

theorem AnswersIntact.execSaveComplete (h : s.Intact none) : AnswersIntact (execSaveComplete s) := by
  unfold Machine.execSaveComplete
  split
  · refine .next ?_
    split
    · exact h
    · exact .ite h.finishSave (.ite h.updateSaved h)
  · exact .next h

theorem State.Intact.unpackWindow {off : Nat} {l : List (Got × Granule)} (h : s.Intact none) :
    (s.unpackWindow n off l).Intact none := by
  induction l generalizing s off with
  | nil => exact h
  | cons e l ih => exact ih h.store.onGranule

theorem State.Intact.restoreCore (h : s.Intact none) : (s.restoreCore sc n bay parts).Intact none :=
  State.Intact.foldl (State.Intact.unpackWindow (State.Intact.unpackWindow h.same)) fun _ _ _ h => h.same

theorem State.Intact.retargetAll (h : s.Intact none) : (s.retargetAll g moves census).Intact none := h.same

theorem State.Intact.wakeSlot (h : s.Intact none) : (s.wakeSlot k).Intact none := by
  unfold State.wakeSlot
  extract_lets sl answered starting yielding due
  have hanswered : answered.Intact none := by
    dsimp only [answered]
    split
    · exact h.onSlot.emit
    · exact h
  have hyielding : yielding.Intact none := .ite (State.Intact.ite hanswered.emit hanswered).emit (.ite hanswered.emit hanswered)
  have hdue : due.Intact none := by
    dsimp only [due]
    split
    · exact .ite hyielding hyielding.emit
    · exact hyielding
  clear_value due
  refine .ite hdue ?_
  split
  · exact hdue.tryBind.snd ‹_›
  · exact (hdue.tryBind.snd ‹_›).onSlot

theorem State.Intact.wakeCore (h : s.Intact none) : (s.wakeCore n).Intact none := by
  dsimp only [State.wakeCore]
  refine State.Intact.emits (State.Intact.recheckFeet (State.Intact.admitWaiting ?_))
  refine State.Intact.foldl ?_ fun _ _ _ h => ?_
  · exact State.Intact.foldl (State.Intact.wakeEngines h.same) fun _ _ _ h => h.askArray
  · exact h.wakeSlot

/-- The step over one record. (The sizes of `recordParts` are kept from being computed.) -/
theorem State.readRecords_cons {sc : SavedCore} {rest : List SavedCore} :
    ∃ areas, s.readRecords x (sc :: rest) = match s.findAreas x.agent .read areas with
      | (.error c, s) => (.error c, s)
      | (.ok none, s) => (.ok none, s)
      | (.ok (some places), s) => match s.readRecords x rest with
        | (.ok (some l), s) => (.ok (some (places.map s.packedAt :: l)), s)
        | r => r := by
  delta State.readRecords State.readRecords._f
  generalize recordParts = parts
  exact ⟨_, rfl⟩

theorem State.Intact.readRecords (h : s.Intact none) : (s.readRecords x l).2.Intact none := by
  induction l generalizing s with
  | nil => exact h
  | cons sc l ih =>
    obtain ⟨areas, e⟩ := State.readRecords_cons (s := s) (x := x) (sc := sc) (rest := l)
    rw [e]
    split
    · exact h.findAreas.snd ‹_›
    · exact h.findAreas.snd ‹_›
    · have hr := ih (h.findAreas.snd ‹_›)
      split
      · exact hr.snd ‹_›
      · exact hr

theorem State.Intact.restoreGrid (h : s.Intact none) (e : s.restoreGrid g = some t) : t.Intact none := by
  unfold State.restoreGrid at e
  split at e
  · cases e
    exact h
  · split at e
    · cases e
      exact (h.readRecords.snd ‹_›).endUnrun
    · nomatch e
    · cases e
      refine State.Intact.checkGridEnd (State.Intact.foldl (State.Intact.onGrid ?_) fun _ _ _ h => h.wakeCore)
      exact State.Intact.foldl (State.Intact.retargetAll (h.readRecords.snd ‹_›)) fun _ _ _ h => h.restoreCore

/-! ## Queues -/

theorem State.Intact.agentAsk {region : Nat} (h : s.Intact none) : (s.agentAsk region tag va op r).Intact none := h.send

theorem State.Intact.agentPop {region : Nat} (h : s.Intact none) : (s.agentPop region i q).Intact none := by
  unfold State.agentPop
  extract_lets tag r popping
  have hpopping : ∀ t : State, t.Intact none → (popping t).Intact none := fun _ h => h.onQueue
  have hd : s.drawn.Intact none := h.same
  refine .ite ?_ (.ite h.stopQueue (hpopping _ hd.agentAsk))
  split
  · exact (hd.findCell.snd ‹_›).emit
  · exact (hd.findCell.snd ‹_›).stopQueue
  · exact (hd.findCell.snd ‹_›).stopQueue
  · have ht := hd.findCell.snd ‹_›
    refine .ite ht.stopQueue ?_
    split
    · exact ht.emit
    · exact hpopping _ (ht.onQueue.desk.snd ‹_›)
    · exact (ht.onQueue.desk.snd ‹_›).onQueue
    · exact (ht.onQueue.desk.snd ‹_›).stopQueue

theorem State.Intact.takeCommand {region : Nat} (h : s.Intact none) : (s.takeCommand region).Intact none := by
  dsimp only [State.takeCommand]
  split
  · exact h
  · split
    · refine State.Intact.emitOnce (State.Intact.emitOnce ?_)
      split
      · exact h.same
      · exact State.Intact.commandFailed h.same
    · refine State.Intact.emitOnce ?_
      split
      · exact h.same
      · exact State.Intact.commandFailed h.same

theorem AnswersIntact.execQueueAgentPop (h : s.Intact none) : AnswersIntact (execQueueAgentPop s) := by
  dsimp only [Machine.execQueueAgentPop]
  split
  · refine .next ?_
    split
    · exact h
    · exact State.Intact.takeCommand (.ite h h.agentPop)
  · exact .next h

theorem State.Intact.begins (h : s.Intact none) : (s.begins n cmd waits).Intact none := State.Intact.emitOnce
    (State.Intact.dropDetached h.same)

theorem State.Intact.beginsAndEnds (h : s.Intact none) : (s.beginsAndEnds n cmd).Intact none := State.Intact.emitOnce
    (State.Intact.commandDone h.same)

theorem State.Intact.beginsWaiting (h : s.Intact none) : (s.beginsWaiting n cmd tag).Intact none := h.begins
theorem State.Intact.refuse (h : s.Intact none) : (s.refuse n c cmd).Intact none := h.commandFailed
theorem State.Intact.malformed (h : s.Intact none) : (s.malformed n cmd).Intact none := State.Intact.commandFailed h.same

theorem State.Intact.command (h : s.Intact none) (hact : ∀ (t : State) q, t.Intact none → (act t q).Intact none) :
    (s.command n kind cmd ok act).Intact none := by
  unfold State.command
  split
  · exact h
  · exact .ite h (.ite h.malformed (hact _ _ h))

theorem State.Intact.commandCell (h : s.Intact none) : (s.commandCell n cmd q op amount again).Intact none := by
  dsimp only [State.commandCell]
  split
  · exact .ite h.refuse (State.Intact.beginsWaiting (State.Intact.agentAsk h.same))
  · split
    · exact (h.findCell.snd ‹_›).refuse
    · exact (h.findCell.snd ‹_›).refuse
    · exact (h.findCell.snd ‹_›).emit
    · split
      · exact (h.findCell.snd ‹_›).refuse
      · split
        · exact (h.findCell.snd ‹_›).emit
        · exact ((h.findCell.snd ‹_›).drawn.desk.snd ‹_›).beginsWaiting
        · split
          · exact ((h.findCell.snd ‹_›).drawn.desk.snd ‹_›).refuse
          · exact ((h.findCell.snd ‹_›).drawn.desk.snd ‹_›).beginsAndEnds

theorem AnswersIntact.execWait (h : s.Intact none) : AnswersIntact (execWait s) := by
  unfold Machine.execWait
  split
  · exact .next (State.Intact.command h fun _ _ h => h.commandCell)
  · exact .next h

theorem AnswersIntact.execSignal (h : s.Intact none) : AnswersIntact (execSignal s) := by
  unfold Machine.execSignal
  split
  · exact .next (State.Intact.command h fun _ _ h => h.commandCell)
  · exact .next h

theorem State.Intact.commandWrite (h : s.Intact none) : (s.commandWrite n cmd q).Intact none := by
  dsimp only [State.commandWrite]
  split
  · exact .ite h.refuse (State.Intact.beginsWaiting (State.Intact.send h.same))
  · split
    · exact (h.ownFabricParts.snd ‹_›).refuse
    · exact (h.ownFabricParts.snd ‹_›).emit
    · exact .ite (h.ownFabricParts.snd ‹_›).refuse (h.ownFabricParts.snd ‹_›).writeParts.beginsAndEnds

theorem AnswersIntact.execWrite (h : s.Intact none) : AnswersIntact (execWrite s) := by
  dsimp only [Machine.execWrite]
  split
  · exact .next (State.Intact.command h fun _ _ h => h.commandWrite)
  · exact .next h

theorem AnswersIntact.execEvent (h : s.Intact none) : AnswersIntact (execEvent s) := by
  unfold Machine.execEvent
  split
  · exact .next (State.Intact.command h fun _ _ h => h.record.beginsAndEnds)
  · exact .next h

theorem AnswersIntact.execNop (h : s.Intact none) : AnswersIntact (execNop s) := by
  unfold Machine.execNop
  split
  · exact .next (State.Intact.command h fun _ _ h => h.beginsAndEnds)
  · exact .next h

/-! ## Launch -/

theorem State.Intact.farAsk {region : Nat} (h : s.Intact none) : (s.farAsk region ctx ask).Intact none := State.Intact.send h.same

theorem State.Intact.farAll {region : Nat} (h : s.Intact none) : (s.farAll region ctx asks).2.Intact none := by
  dsimp only [State.farAll]
  split
  · split
    · exact h
    · exact h.foldl fun _ _ _ h => h.farAsk
  · exact .ite_snd h h.same

theorem State.Intact.schedRead {region : Nat} (h : s.Intact none) : (s.schedRead region ctx parts).2.Intact none := by
  unfold State.schedRead
  refine .ite_snd ?_ ?_
  · split
    · exact h.farAll.snd ‹_›
    · exact h.farAll.snd ‹_›
    · exact h.farAll.snd ‹_›
  · split
    · exact h.ownFabricParts.snd ‹_›
    · exact h.ownFabricParts.snd ‹_›
    · have ht := h.ownFabricParts.snd ‹_›
      exact foldl_snd ht fun _ _ _ h => h.readParts

theorem State.Intact.schedNum {region : Nat} (h : s.Intact none) : (s.schedNum region ctx va n).2.Intact none := by
  unfold State.schedNum
  split <;> exact h.schedRead.snd ‹_›

theorem State.Intact.schedGranules {region : Nat} {count : Nat} (h : s.Intact none) : (s.schedGranules region ctx va
    count).2.Intact none :=
  h.schedRead

theorem State.Intact.waitPred (h : s.Intact none) : (s.waitPred g x).Intact none := by
  dsimp only [State.waitPred]
  split
  · exact .ite h.endUnrun (State.Intact.onGrid (State.Intact.agentAsk h.same))
  · split
    · exact (h.findCell.snd ‹_›).endUnrun
    · exact (h.findCell.snd ‹_›).endUnrun
    · exact (h.findCell.snd ‹_›).emit
    · split
      · exact (h.findCell.snd ‹_›).endUnrun
      · split
        · exact (h.findCell.snd ‹_›).emit
        · exact ((h.findCell.snd ‹_›).drawn.desk.snd ‹_›).onGrid
        · exact ((h.findCell.snd ‹_›).drawn.desk.snd ‹_›).onGrid.emit
        · exact ((h.findCell.snd ‹_›).drawn.desk.snd ‹_›).endUnrun

theorem State.Intact.handOff (h : s.Intact none) : (s.handOff n cmd q node).Intact none :=
  .ite (State.Intact.emit (State.Intact.onGrid h.begins.same)) (State.Intact.waitPred h.begins.same)

theorem State.Intact.launch (h : s.Intact none) : (s.launch n cmd q).Intact none := by
  dsimp only [State.launch]
  split
  · exact h.refuse
  · split
    · exact h.refuse
    · split
      · exact (h.schedGranules.snd ‹_›).refuse
      · exact (h.schedGranules.snd ‹_›).emit
      · exact .ite (h.schedGranules.snd ‹_›).handOff (h.schedGranules.snd ‹_›).refuse

theorem AnswersIntact.execLaunch (h : s.Intact none) : AnswersIntact (execLaunch s) := by
  unfold Machine.execLaunch
  split
  · exact .next (State.Intact.command h fun _ _ h => h.launch)
  · exact .next h

theorem State.Intact.enterPlacing (h : s.Intact none) : (s.enterPlacing g gw).Intact none := h.same

theorem State.Intact.readCount (h : s.Intact none) : (s.readCount g x).Intact none := by
  unfold State.readCount
  split
  · exact (h.schedNum.snd ‹_›).endUnrun
  · exact (h.schedNum.snd ‹_›).emit
  · exact (h.schedNum.snd ‹_›).endUnrun
  · exact .ite (h.schedNum.snd ‹_›).endUnrun (h.schedNum.snd ‹_›).enterPlacing

theorem State.Intact.readyStep (h : s.Intact none) : (s.readyStep g x).Intact none := by
  unfold State.readyStep
  split
  · exact (h.schedNum.snd ‹_›).endUnrun
  · exact (h.schedNum.snd ‹_›).emit
  · split
    · exact (h.schedNum.snd ‹_›).endUnrun
    · exact .ite (h.schedNum.snd ‹_›).readCount (h.schedNum.snd ‹_›).enterPlacing

theorem AnswersIntact.execLaunchReady (h : s.Intact none) : AnswersIntact (execLaunchReady s) := by
  unfold Machine.execLaunchReady
  split
  · refine .next ?_
    split
    · exact h
    · exact .ite h.waitPred (.ite h.readyStep h)
  · exact .next h

theorem State.Intact.cleanCore (h : s.Intact none) : (s.cleanCore n c).Intact none := h.wipe.same

theorem State.Intact.reserve (h : s.Intact none) : (s.reserve g x rs).Intact none := by
  dsimp only [State.reserve]
  exact State.Intact.foldl h.same fun _ _ _ h => h.foldl fun _ _ _ h => .ite h h.cleanCore

theorem State.Intact.place (h : s.Intact none) : (s.place g x).Intact none := by
  unfold State.place
  refine .ite h ?_
  split
  · refine .ite ?_ h.reserve.onGrid.emit.placeAll
    split
    · exact (h.reserve.restoreGrid ‹_›).placeAll
    · exact h.emit
  · exact .ite h h.endUnrun.placeAll

theorem AnswersIntact.execPlaceGrid (h : s.Intact none) : AnswersIntact (execPlaceGrid s) := by
  unfold Machine.execPlaceGrid
  split
  · refine .next ?_
    split
    · exact .ite h.place h
    · exact h
  · exact .next h

theorem State.Intact.beginSetUp (h : s.Intact none) : (s.beginSetUp g x u).Intact none := by
  dsimp only [State.beginSetUp]
  split
  · exact h.same
  · exact State.Intact.foldl h.same fun _ _ _ h => State.Intact.emitOnce h.same

theorem State.Intact.applySetUp (h : s.Intact none) : (s.applySetUp u n).Intact none := by
  dsimp only [State.applySetUp]
  split
  · refine State.Intact.writeCoreCR ?_
    split
    · exact State.Intact.writeCoreCR (h.foldl fun _ _ _ h => h.writeCoreCR)
    · exact h.foldl fun _ _ _ h => h.writeCoreCR
  · split
    · exact State.Intact.writeCoreCR (h.foldl fun _ _ _ h => h.writeCoreCR)
    · exact h.foldl fun _ _ _ h => h.writeCoreCR

theorem State.Intact.finishSetUp (h : s.Intact none) : (s.finishSetUp g x u).Intact none := by
  dsimp only [State.finishSetUp]
  split
  · exact h
  · split
    · exact State.Intact.endUnrun (h.foldl fun _ _ _ h => h.applySetUp)
    · exact State.Intact.emit (State.Intact.onGrid (h.foldl fun _ _ _ h => h.applySetUp))

theorem State.Intact.readSetUp (h : s.Intact none) : (s.readSetUp g x).Intact none := by
  unfold State.readSetUp
  extract_lets va
  refine .ite h.beginSetUp (.ite h.endUnrun ?_)
  split
  · exact (h.schedGranules.snd ‹_›).endUnrun
  · exact (h.schedGranules.snd ‹_›).emit
  · have ht := h.schedGranules.snd ‹_›
    exact .ite ht.beginSetUp ht.endUnrun

theorem AnswersIntact.execCoreSetup (h : s.Intact none) : AnswersIntact (execCoreSetup s) := by
  unfold Machine.execCoreSetup
  split
  · refine .next ?_
    split
    · split
      · exact h
      · split
        · exact h.readSetUp
        · exact h.finishSetUp
    · exact h
  · exact .next h

theorem State.Intact.dealOne (h : s.Intact none) : (s.dealOne g x t).Intact none := by
  dsimp only [State.dealOne]
  split
  · exact State.Intact.emit (.ite (State.Intact.emitOnce h.same) h.same)
  · exact State.Intact.emit (.ite (State.Intact.emitOnce h.same) h.same)

theorem State.Intact.deal (h : s.Intact none) : (s.deal g x).Intact none := by
  dsimp only [State.deal]
  split
  · exact h.same
  · split
    · refine State.Intact.checkGridEnd ?_
      exact .ite (State.Intact.thermalStop (State.Intact.onGrid (State.Intact.dealOne h.same)))
          (State.Intact.onGrid (State.Intact.dealOne h.same))
    · exact State.Intact.emit (State.Intact.dealOne h.same)

theorem AnswersIntact.execDealTask (h : s.Intact none) : AnswersIntact (execDealTask s) := by
  unfold Machine.execDealTask
  split
  · refine .next ?_
    split
    · exact .ite h.deal h
    · exact h
  · exact .next h

theorem State.Intact.beginFeet (h : s.Intact none) : (s.beginFeet g n l x).Intact none := by
  dsimp only [State.beginFeet]
  split
  · exact h.endGrid
  · split
    · exact h
    · exact State.Intact.foldl h.same fun _ _ _ h => State.Intact.emitOnce h.same

theorem State.Intact.footStep (h : s.Intact none) : (s.footStep g n l x).Intact none := by
  unfold State.footStep
  split
  · exact h
  · split
    · exact h
    · split
      · exact h
      · exact .ite h.beginFeet h.same

theorem AnswersIntact.execFootprintCopy (h : s.Intact none) : AnswersIntact (execFootprintCopy s) := by
  unfold Machine.execFootprintCopy
  split
  · refine .next ?_
    split
    · exact h.emitOnce
    · split
      · exact h.footStep
      · exact h
  · exact .next h

theorem State.Intact.release (h : s.Intact none) : (s.release x va tag).2.Intact none := by
  dsimp only [State.release]
  split
  · exact .ite h h.agentAsk
  · split
    · exact h.findCell.snd ‹_›
    · exact h.findCell.snd ‹_›
    · exact h.findCell.snd ‹_›
    · split
      · exact h.findCell.snd ‹_›
      · split
        · exact h.findCell.snd ‹_›
        · exact (h.findCell.snd ‹_›).desk.snd ‹_›

theorem State.Intact.writeFault (h : s.Intact none) : (s.writeFault x va set_).2.Intact none := by
  unfold State.writeFault
  split
  · split <;> exact h.farAll.snd ‹_›
  · exact h.rewriteFlags

theorem State.Intact.succLost (h : s.Intact none) : (s.succLost x va).Intact none := h.record

theorem State.Intact.releaseSuccessor (h : s.Intact none) : (s.releaseSuccessor x fault).2.Intact none := by
  unfold State.releaseSuccessor
  extract_lets entry
  split
  · exact (h.schedNum.snd ‹_›).succLost
  · exact h.schedNum.snd ‹_›
  · have ht := h.schedNum.snd ‹_›
    extract_lets marked
    have hm : marked.2.Intact none := .ite_snd ht.writeFault ht
    clear_value marked
    split
    · exact (hm.snd rfl).succLost
    · exact hm.snd rfl
    · have hu := hm.snd rfl
      split
      · exact (hu.schedNum.snd ‹_›).succLost
      · exact hu.schedNum.snd ‹_›
      · exact hu.schedNum.snd ‹_›
      · have hp := hu.schedNum.snd ‹_›
        exact State.Intact.release hp.same

theorem State.Intact.releaseAll (h : s.Intact none) : (s.releaseAll g fault n).Intact none := by
  induction n generalizing s with
  | zero => exact h
  | succ n ih =>
    unfold State.releaseAll
    split
    · exact h
    · refine .ite h.onGrid ?_
      split
      · exact h.releaseSuccessor.snd ‹_›
      · exact ih (h.releaseSuccessor.snd ‹_›).onGrid

theorem State.Intact.triggered (h : s.Intact none) : (s.triggered g x).Intact none :=
  .ite h (.ite h.same (.ite h.releaseAll h.releaseAll.emit))

theorem AnswersIntact.execTriggerRelease (h : s.Intact none) : AnswersIntact (execTriggerRelease s) := by
  unfold Machine.execTriggerRelease
  split
  · refine .next ?_
    split
    · exact h.triggered
    · exact h
  · exact .next h

theorem State.Intact.dropWait (h : s.Intact none) : (s.dropWait g x).Intact none := by
  dsimp only [State.dropWait]
  split
  · exact h
  · split
    · exact State.Intact.settleCell (State.Intact.dropHold h.same)
    · exact .ite (State.Intact.send h.same) h.same

theorem State.Intact.cancelSaved (h : s.Intact none) : (s.cancelSaved g x).Intact none := by
  dsimp only [State.cancelSaved]
  split
  · exact h
  · refine State.Intact.onGrid ?_
    split
    · exact h
    · exact h.foldl fun _ _ _ h => h.send

theorem State.Intact.cancelHolds (h : s.Intact none) : (s.cancelHolds g).Intact none := h.foldl fun _ _ _ h => h.cancelHold

theorem State.Intact.writeStatus (h : s.Intact none) : (s.writeStatus g x).2.Intact none := by
  unfold State.writeStatus
  extract_lets bs next
  have hnext : ∀ t : State, t.Intact none → (next t).2.Intact none := fun t h => h.same (t := (next t).2)
  clear_value next
  refine .ite_snd (.ite_snd (hnext _ h.statusLost) (hnext _ (.onGrid (.send h.same)))) ?_
  split
  · exact hnext _ (h.ownFabricParts.snd ‹_›).statusLost
  · exact h.ownFabricParts.snd ‹_›
  · have ht := h.ownFabricParts.snd ‹_›
    exact .ite_snd (hnext _ ht.statusLost) (.ite_snd (hnext _ ht) (hnext _ ht.writeParts))

theorem State.Intact.queueAdvances (h : s.Intact none) : (s.queueAdvances x).Intact none := by
  unfold State.queueAdvances
  extract_lets region i faulted here counted stopped faultTold told
  have hcounted : counted.Intact none := .ite h.same h
  have hstopped : stopped.Intact none := .ite hcounted.stopQueue hcounted
  have hfault : faultTold.Intact none := .ite hstopped.record hstopped
  have htold : told.Intact none := .ite hfault.record hfault
  exact .ite htold.dropDetached.emitOnce htold

theorem State.Intact.finishGrid (h : s.Intact none) : (s.finishGrid g x).2.Intact none := by
  dsimp only [State.finishGrid]
  split
  · exact h.writeFault.snd ‹_›
  · refine State.Intact.placeAll ?_
    change State.Intact _ (List.foldl _ _ _)
    exact (h.writeFault.snd ‹_›).foldl fun _ _ _ h => h.cleanCore

theorem State.Intact.endingStep (h : s.Intact none) : (s.endingStep g x).Intact none := by
  dsimp only [State.endingStep]
  split
  · exact .ite h.dropWait.cancelHolds.cancelSaved.onGrid.emitOnce h.dropWait.cancelHolds.cancelSaved.emitOnce
  · exact h.writeStatus.emitOnce
  · split
    · exact h
    · split
      · exact ((h.same (t := s.drawn)).release.snd ‹_›).emitOnce
      · refine State.Intact.emitOnce (State.Intact.onGrid ?_)
        exact .ite ((h.same (t := s.drawn)).release.snd ‹_›).onGrid ((h.same (t := s.drawn)).release.snd ‹_›)
  · exact .ite h h.queueAdvances.onGrid.emitOnce
  · exact .ite (State.Intact.emitOnce h.same) (.ite h.releaseAll.onGrid.emitOnce h.releaseAll.emitOnce)
  · split
    · exact (h.finishGrid.snd ‹_›).emitOnce
    · exact h.finishGrid.snd ‹_›

theorem AnswersIntact.execCompletionRelease (h : s.Intact none) : AnswersIntact (execCompletionRelease s) := by
  unfold Machine.execCompletionRelease
  split
  · refine .next ?_
    split
    · exact .ite h.endingStep h
    · exact h
  · exact .next h

end

end Sys2Proof.Machine
end

section
/-! SUPPORT. What the units' work leaves in order (`State.Intact`), part 7. Each lemma follows the branches of
one function of the model. Here: the network, and a step. -/

namespace Sys2Proof.Machine

open Sys2Proof

set_option autoImplicit true

section
variable {s : State} {up : Option (List Nat)}

/-! ## Network -/

theorem State.Intact.pass (h : s.Intact none) : (s.pass inp p).Intact none := by
  dsimp only [State.pass]
  split
  · exact h.same
  · exact .ite h.same h.same

theorem State.Intact.move (h : s.Intact none) : (s.move q).Intact none := State.Intact.foldl h.same fun _ _ _ h => h.pass

theorem State.Intact.serveSlice (h : s.Intact none) : (s.serveSlice c).Intact none := by
  dsimp only [State.serveSlice]
  split
  · exact h
  · split
    · exact h
    · exact h.same

theorem State.Intact.netTurn (h : s.Intact none) : s.netTurn.Intact none := by
  dsimp only [State.netTurn]
  split
  · exact h
  · refine State.Intact.foldl ?_ fun _ _ _ h => ?_
    · exact State.Intact.foldl h.same fun _ _ _ h => h.move
    · exact h.serveSlice

/-! ## Step -/

theorem State.Intact.tick (h : s.Intact none) : s.tick.Intact none := by
  dsimp only [State.tick]
  refine State.Intact.netTurn ?_
  change State.Intact _ (List.foldl _ _ _)
  exact h.foldl fun _ _ _ h => h.count

theorem State.Intact.passDone (h : s.Intact none) : (s.passDone k n).Intact none := by
  induction n generalizing s with
  | zero => exact h
  | succ n ih =>
    unfold State.passDone
    extract_lets sl
    split
    · exact h
    · exact .ite h.onSlot (.ite (ih h.onSlot) h)

/-- What an instruction or an event does keeps the state in order. -/
theorem AnswersIntact.exec {i : Instr} (h : s.Intact none) : AnswersIntact (exec i s) := by
  cases i with
  | lui => exact .execLui h
  | auipc => exact .execAuipc h
  | jal => exact .execJal h
  | jalr => exact .execJalr h
  | beq => exact .execBeq h
  | bne => exact .execBne h
  | blt => exact .execBlt h
  | bge => exact .execBge h
  | bltu => exact .execBltu h
  | bgeu => exact .execBgeu h
  | ldI8 => exact .execLdI8 h
  | ldI16 => exact .execLdI16 h
  | ldI32 => exact .execLdI32 h
  | ldI64 => exact .execLdI64 h
  | ldN8 => exact .execLdN8 h
  | ldN16 => exact .execLdN16 h
  | ldN32 => exact .execLdN32 h
  | stI8 => exact .execStI8 h
  | stI16 => exact .execStI16 h
  | stI32 => exact .execStI32 h
  | stI64 => exact .execStI64 h
  | addi => exact .execAddi h
  | slti => exact .execSlti h
  | sltiu => exact .execSltiu h
  | xori => exact .execXori h
  | ori => exact .execOri h
  | andi => exact .execAndi h
  | slli => exact .execSlli h
  | srli => exact .execSrli h
  | srai => exact .execSrai h
  | addiw => exact .execAddiw h
  | slliw => exact .execSlliw h
  | srliw => exact .execSrliw h
  | sraiw => exact .execSraiw h
  | add => exact .execAdd h
  | sub => exact .execSub h
  | sll => exact .execSll h
  | slt => exact .execSlt h
  | sltu => exact .execSltu h
  | xor => exact .execXor h
  | srl => exact .execSrl h
  | sra => exact .execSra h
  | or => exact .execOr h
  | and => exact .execAnd h
  | addw => exact .execAddw h
  | subw => exact .execSubw h
  | sllw => exact .execSllw h
  | srlw => exact .execSrlw h
  | sraw => exact .execSraw h
  | mul => exact .execMul h
  | mulh => exact .execMulh h
  | mulhsu => exact .execMulhsu h
  | mulhu => exact .execMulhu h
  | div => exact .execDiv h
  | divu => exact .execDivu h
  | rem => exact .execRem h
  | remu => exact .execRemu h
  | mulw => exact .execMulw h
  | divw => exact .execDivw h
  | divuw => exact .execDivuw h
  | remw => exact .execRemw h
  | remuw => exact .execRemuw h
  | fence imm rs1 rd => exact .execFence (_imm := imm) (_rs1 := rs1) (_rd := rd) h
  | ecall => exact .execEcall h
  | ebreak => exact .execEbreak h
  | ldlI8 => exact .execLdlI8 h
  | ldlN8 => exact .execLdlN8 h
  | ldlI16 => exact .execLdlI16 h
  | ldlN16 => exact .execLdlN16 h
  | ldlI32 => exact .execLdlI32 h
  | ldlN32 => exact .execLdlN32 h
  | ldlI64 => exact .execLdlI64 h
  | ldq => exact .execLdq h
  | stlI8 => exact .execStlI8 h
  | stlI16 => exact .execStlI16 h
  | stlI32 => exact .execStlI32 h
  | stlI64 => exact .execStlI64 h
  | stq => exact .execStq h
  | sbB => exact .execSbB h
  | cld => exact .execCld h
  | cst => exact .execCst h
  | ldacqI64 => exact .execLdacqI64 h
  | ldacqQ => exact .execLdacqQ h
  | strelI64 => exact .execStrelI64 h
  | strelQ => exact .execStrelQ h
  | fenceRel => exact .execFenceRel h
  | fenceAcq => exact .execFenceAcq h
  | fenceFull => exact .execFenceFull h
  | pref => exact .execPref h
  | pin => exact .execPin h
  | unpin => exact .execUnpin h
  | afadd => exact .execAfadd h
  | aswap => exact .execAswap h
  | acas64 => exact .execAcas64 h
  | acas128 => exact .execAcas128 h
  | amax => exact .execAmax h
  | amin => exact .execAmin h
  | aand => exact .execAand h
  | aor => exact .execAor h
  | axor => exact .execAxor h
  | cflush => exact .execCflush h
  | cmov la => exact .execCmov (_la := la) h
  | csetaddr la => exact .execCsetaddr (_la := la) h
  | cincaddr la => exact .execCincaddr (_la := la) h
  | cincaddri la => exact .execCincaddri (_la := la) h
  | csetbnd la => exact .execCsetbnd (_la := la) h
  | candperm la => exact .execCandperm (_la := la) h
  | cseal la => exact .execCseal (_la := la) h
  | cget la => exact .execCget (_la := la) h
  | cellFree => exact .execCellFree h
  | cntInit => exact .execCntInit h
  | barInit => exact .execBarInit h
  | lckInit => exact .execLckInit h
  | queInit => exact .execQueInit h
  | cndInit => exact .execCndInit h
  | cellQuery => exact .execCellQuery h
  | cntAdd => exact .execCntAdd h
  | cntWait => exact .execCntWait h
  | cntArm => exact .execCntArm h
  | cntDisarm => exact .execCntDisarm h
  | barArrive => exact .execBarArrive h
  | barWait => exact .execBarWait h
  | barSync => exact .execBarSync h
  | lckAcq => exact .execLckAcq h
  | lckTry => exact .execLckTry h
  | lckRel => exact .execLckRel h
  | quePush => exact .execQuePush h
  | quePop => exact .execQuePop h
  | queTrypush => exact .execQueTrypush h
  | queTrypop => exact .execQueTrypop h
  | cndWait => exact .execCndWait h
  | cndSignal => exact .execCndSignal h
  | cndBcast => exact .execCndBcast h
  | rowop => exact .execRowop h
  | cvset => exact .execCvset h
  | cvpush => exact .execCvpush h
  | cvquery => exact .execCvquery h
  | mrec => exact .execMrec h
  | mrload => exact .execMrload h
  | mdrain => exact .execMdrain h
  | mzero => exact .execMzero h
  | ewait => exact .execEwait h
  | copy => exact .execCopy h
  | copy2d => exact .execCopy2d h
  | gather => exact .execGather h
  | scatter => exact .execScatter h
  | fill => exact .execFill h
  | sbind => exact .execSbind h
  | sunbind => exact .execSunbind h
  | xprog => exact .execXprog h
  | xcal => exact .execXcal h
  | xmvm => exact .execXmvm h
  | xwait => exact .execXwait h
  | accept la => exact .execAccept (_la := la) h
  | acceptSp => exact .execAcceptSp h
  | acceptAcc => exact .execAcceptAcc h
  | vsetcfg => exact .execVsetcfg h
  | vadd => exact .execVadd h
  | vsub => exact .execVsub h
  | vmul => exact .execVmul h
  | vfma => exact .execVfma h
  | vmax => exact .execVmax h
  | vmin => exact .execVmin h
  | vabs => exact .execVabs h
  | vneg => exact .execVneg h
  | vadds => exact .execVadds h
  | vmuls => exact .execVmuls h
  | vcvt => exact .execVcvt h
  | vexp => exact .execVexp h
  | vrcp => exact .execVrcp h
  | vrsqrt => exact .execVrsqrt h
  | vsum => exact .execVsum h
  | vmaxr => exact .execVmaxr h
  | vargmax => exact .execVargmax h
  | vsel => exact .execVsel h
  | vcmplt => exact .execVcmplt h
  | vand => exact .execVand h
  | vor => exact .execVor h
  | vxor => exact .execVxor h
  | vmov => exact .execVmov h
  | vfill => exact .execVfill h
  | fork => exact .execFork h
  | join => exact .execJoin h
  | spawn => exact .execSpawn h
  | exit la => exact .execExit (_la := la) h
  | yield => exact .execYield h
  | trigger => exact .execTrigger h
  | send => exact .execSend h
  | lbsend => exact .execLbsend h
  | rcall => exact .execRcall h
  | rpost => exact .execRpost h
  | rreply => exact .execRreply h
  | migrate => exact .execMigrate h
  | atake => exact .execAtake h
  | hold => exact .execHold h
  | unhold => exact .execUnhold h
  | catset => exact .execCatset h
  | bind => exact .execBind h
  | unbind => exact .execUnbind h
  | gpos => exact .execGpos h
  | crrd la => exact .execCrrd (_la := la) h
  | crwr la => exact .execCrwr (_la := la) h
  | crset la => exact .execCrset (_la := la) h
  | crclr la => exact .execCrclr (_la := la) h
  | tret la => exact .execTret (_la := la) h
  | ctxsave => exact .execCtxsave h
  | ctxload => exact .execCtxload h
  | preack => exact .execPreack h
  | tdrain => exact .execTdrain h
  | tconfirm => exact .execTconfirm h
  | evrd la => exact .execEvrd (_la := la) h
  | evclr la => exact .execEvclr (_la := la) h
  | finject => exact .execFinject h
  | gpreempt => exact .execGpreempt h
  | gpreemptEnd => exact .execGpreemptEnd h
  | gresume => exact .execGresume h
  | mmaE4e4 => exact .execMmaE4e4 h
  | mmaE4e5 => exact .execMmaE4e5 h
  | mmaE5e4 => exact .execMmaE5e4 h
  | mmaE5e5 => exact .execMmaE5e5 h
  | mmaH => exact .execMmaH h
  | mmaB => exact .execMmaB h
  | mmaS => exact .execMmaS h
  | mmaI8 => exact .execMmaI8 h
  | mmaNi => exact .execMmaNi h
  | fmaddS => exact .execFmaddS h
  | fmsubS => exact .execFmsubS h
  | fnmaddS => exact .execFnmaddS h
  | fnmsubS => exact .execFnmsubS h
  | faddS => exact .execFaddS h
  | fsubS => exact .execFsubS h
  | fmulS => exact .execFmulS h
  | fdivS => exact .execFdivS h
  | fsqrtS => exact .execFsqrtS h
  | fminS => exact .execFminS h
  | fmaxS => exact .execFmaxS h
  | feqS => exact .execFeqS h
  | fltS => exact .execFltS h
  | fleS => exact .execFleS h
  | fcvt => exact .execFcvt h
  | powerOn => exact .execPowerOn h
  | carrierReset => exact .execCarrierReset h
  | startWatchdog => exact .execStartWatchdog h
  | governorWindow => exact .execGovernorWindow h
  | levelStepDone => exact .execLevelStepDone h
  | nrctlWrite => exact .execNrctlWrite h
  | limiterSample => exact .execLimiterSample h
  | thermalLimit => exact .execThermalLimit h
  | thermalPreempt => exact .execThermalPreempt h
  | thermalClear => exact .execThermalClear h
  | thermalShutdown => exact .execThermalShutdown h
  | sliceScrub => exact .execSliceScrub h
  | hbmRowScrub => exact .execHbmRowScrub h
  | crossingFail => exact .execCrossingFail h
  | groupReceive => exact .execGroupReceive h
  | laneLockLoss => exact .execLaneLockLoss h
  | retrainEnd => exact .execRetrainEnd h
  | fpctlEn => exact .execFpctlEn h
  | fpctlDown => exact .execFpctlDown h
  | fshareWrite => exact .execFshareWrite h
  | hshareWrite => exact .execHshareWrite h
  | sshareWrite => exact .execSshareWrite h
  | enforcementWindow => exact .execEnforcementWindow h
  | fabricPacket => exact .execFabricPacket h
  | memoryRead => exact .execMemoryRead h
  | memoryWrite => exact .execMemoryWrite h
  | cellRequest => exact .execCellRequest h
  | hostCancel => exact .execHostCancel h
  | unsupportedRequest => exact .execUnsupportedRequest h
  | streamRequestIssue => exact .execStreamRequestIssue h
  | eventRecordSend => exact .execEventRecordSend h
  | attachQueue => exact .execAttachQueue h
  | detachQueue => exact .execDetachQueue h
  | resetQueue => exact .execResetQueue h
  | setStream => exact .execSetStream h
  | negotiate => exact .execNegotiate h
  | readCap => exact .execReadCap h
  | readStart => exact .execReadStart h
  | clearStart => exact .execClearStart h
  | selectSlot => exact .execSelectSlot h
  | attest => exact .execAttest h
  | relocate => exact .execRelocate h
  | setSetup => exact .execSetSetup h
  | queueAgentPop => exact .execQueueAgentPop h
  | launch => exact .execLaunch h
  | wait => exact .execWait h
  | signal => exact .execSignal h
  | write => exact .execWrite h
  | event => exact .execEvent h
  | nop => exact .execNop h
  | launchReady => exact .execLaunchReady h
  | placeGrid => exact .execPlaceGrid h
  | coreSetup => exact .execCoreSetup h
  | dealTask => exact .execDealTask h
  | footprintCopy => exact .execFootprintCopy h
  | triggerRelease => exact .execTriggerRelease h
  | completionRelease => exact .execCompletionRelease h
  | taskSelect => exact .execTaskSelect h
  | taskStart => exact .execTaskStart h
  | messageArrival => exact .execMessageArrival h
  | messageReady => exact .execMessageReady h
  | annexStart => exact .execAnnexStart h
  | stealRequest => exact .execStealRequest h
  | stealRetry => exact .execStealRetry h
  | migrateArrival => exact .execMigrateArrival h
  | callSlip => exact .execCallSlip h
  | rcallReply => exact .execRcallReply h
  | yieldExpiry => exact .execYieldExpiry h
  | memoryReply => exact .execMemoryReply h
  | storeAck => exact .execStoreAck h
  | postedTimeout => exact .execPostedTimeout h
  | replyDeadline => exact .execReplyDeadline h
  | elMaterialise => exact .execElMaterialise h
  | registerImageWrite => exact .execRegisterImageWrite h
  | hlinWrite => exact .execHlinWrite h
  | ctxbaseWrite => exact .execCtxbaseWrite h
  | eltabWrite => exact .execEltabWrite h
  | rtabWrite => exact .execRtabWrite h
  | xctlWrite => exact .execXctlWrite h
  | mqctlWrite => exact .execMqctlWrite h
  | muDoorbell => exact .execMuDoorbell h
  | copyDoorbell => exact .execCopyDoorbell h
  | vectorDoorbell => exact .execVectorDoorbell h
  | carouselDescriptorWrite => exact .execCarouselDescriptorWrite h
  | registerWrite => exact .execRegisterWrite h
  | query => exact .execQuery h
  | free => exact .execFree h
  | init => exact .execInit h
  | cadd => exact .execCadd h
  | cwait => exact .execCwait h
  | carm => exact .execCarm h
  | cdisarm => exact .execCdisarm h
  | barrive => exact .execBarrive h
  | bwait => exact .execBwait h
  | bsync => exact .execBsync h
  | bpendadd => exact .execBpendadd h
  | bpendsub => exact .execBpendsub h
  | lacq => exact .execLacq h
  | ltry => exact .execLtry h
  | lrel => exact .execLrel h
  | qpush => exact .execQpush h
  | qpop => exact .execQpop h
  | qtrypush => exact .execQtrypush h
  | qtrypop => exact .execQtrypop h
  | vwait => exact .execVwait h
  | vsignal => exact .execVsignal h
  | vbcast => exact .execVbcast h
  | result => exact .execResult h
  | wake => exact .execWake h
  | boost => exact .execBoost h
  | expire => exact .execExpire h
  | prioset => exact .execPrioset h
  | cancel => exact .execCancel h
  | censusreq => exact .execCensusreq h
  | census => exact .execCensus h
  | censusEntryTimeout => exact .execCensusEntryTimeout h
  | deskResend => exact .execDeskResend h
  | muStep => exact .execMuStep h
  | drainClose => exact .execDrainClose h
  | vectorCommand => exact .execVectorCommand h
  | copyChunk => exact .execCopyChunk h
  | streamElement => exact .execStreamElement h
  | xuProduct => exact .execXuProduct h
  | xprogRow => exact .execXprogRow h
  | xcalStep => exact .execXcalStep h
  | rowOpComplete => exact .execRowOpComplete h
  | preemptBoundary => exact .execPreemptBoundary h
  | saveComplete => exact .execSaveComplete h
  | powerLoss => exact .execPowerLoss h
  | softError => exact .execSoftError h
  | illegalInstruction => exact .execIllegalInstruction h
  | overlayTrap => exact .execOverlayTrap h
  | thermalLimitExit => exact .execThermalLimitExit h

theorem AnswersIntact.runWord (h : s.Intact none) : AnswersIntact (runWord w s) := by
  unfold Machine.runWord
  split
  · exact .exec h
  · exact .exec h.same

theorem AnswersIntact.issue (h : s.Intact none) : AnswersIntact (issue k s) := by
  unfold Machine.issue
  extract_lets t u
  have ht : t.Intact none := State.Intact.passDone h.same
  have hu : u.Intact none := by
    dsimp only [u]
    split
    · exact .ite ht ht.mendMemory
    · exact ht
  clear_value u
  split
  · exact .exec hu.same
  · exact .next hu.takeTrap
  · exact .runWord hu

theorem AnswersIntact.issueFirst {l : List Nat} (h : s.Intact none) : AnswersIntact (issueFirst l s) := by
  induction l generalizing s with
  | nil => exact .next h.same
  | cons k l ih =>
    unfold Machine.issueFirst
    have hk : AnswersIntact (Machine.issue k s) := .issue h
    split
    · have ht := hk _ ‹_›
      exact .ite (ih ht.same) (.next ht)
    · exact hk

theorem AnswersIntact.perform (h : s.Intact none) : AnswersIntact (perform e rest s) := .exec h.same

theorem AnswersIntact.step (h : s.Intact none) : AnswersIntact (step s) := by
  unfold Machine.step
  refine .ite ?_ ?_
  · split
    · rintro _ ⟨⟩
    · exact .perform h.tick
    · exact .next h.same
  · extract_lets t
    have ht : t.Intact none := h.tick
    clear_value t
    split
    · exact .next ht
    · exact .issueFirst ht
    · exact .perform ht
    · exact .ite (.perform ht) (.issueFirst ht)

end

end Sys2Proof.Machine
end

section
namespace Sys2Proof.Machine

open Sys2Proof

/-- Settles O6: what every unit keeps in order (`State.Intact`), instruction by instruction and event by event. -/
theorem memoryStaysCanonical : Obligations.MemoryStaysCanonical := by
  intro s t hs ht
  exact (AnswersIntact.step hs.intact t ht).memoryCanonical

end Sys2Proof.Machine
end

section
/-! SUPPORT. Requests that reach a Desk: the rows that perform them, and the RESULT that goes to the requester (O26). -/

namespace Sys2Proof.Machine

open Sys2Proof

/-- In `u`, which follows `t`, the answer is on its way to its requester as a RESULT, on this device or, where a port of `s` is up,
across the fabric. -/
def Answer.SentAsResult (a : Answer) (s t u : State) : Prop :=
  u.mem = t.mem ∧ u.holds = t.holds ∧ u.agenda = t.agenda ∧
    if a.who.dev = thisDevice then .result a ∈ u.coming
    else s.upPorts ≠ [] → ∃ q, u.toFabric = t.toFabric ++ [q] ∧ q.dst = a.who.dev ∧ q.op = .answer a ∧ q.qos = a.qos

theorem State.sendAnswer_sentAsResult {s t : State} (a : Answer) (h : t.upPorts = s.upPorts) :
    a.SentAsResult s t (t.sendAnswer false a) := by
  rw [State.sendAnswer, Answer.SentAsResult]
  split
  · exact ⟨rfl, rfl, rfl, State.carry_coming ..⟩
  · refine ⟨State.send_mem .., (State.send_announces ..).keeps.2.1, by rw [State.send_eta], fun hup => ?_⟩
    obtain ⟨q, hq, hl⟩ := State.send_leaves { dst := a.who.dev, qos := a.qos, ctx := a.ctx, op := .answer a } (t.deskOf a.pa) (h ▸ hup)
    exact ⟨q, hq, hl.dst, hl.op, hl.reply.2.2.2.1⟩

/-- What is performed at its Desk leaves the ports as they are. -/
theorem State.upPorts_of_desk {s t : State} {op : DeskOp} {r : DeskReq} {d : DeskOut}
    (h : (s.enterSlice r.qos r.pa 32).desk op r = (d, t)) : t.upPorts = s.upPorts :=
  (s.intact_upPorts.enterSlice.desk.snd h).upPorts

/-! ## A request at its cell -/

section
variable {s t : State} {op : DeskOp} {r : DeskReq} {e : Event}

/-- The answer to a request, with what the Desk says. -/
def DeskReq.answer (r : DeskReq) (op : DeskOp) (st val : Nat) (elem : List Byte) : Answer :=
  { who := r.who, seq := r.seq, st := st, op := op, val := val, elem := elem, pa := r.pa, qos := r.qos, ctx := r.ctx }

theorem performRequest_parked (hp : s.cellParked r.pa = true) : s.performRequest op r e = s.emit e := by
  rw [State.performRequest, if_pos hp]

theorem performRequest_poisoned (hp : ¬s.cellParked r.pa = true) (hg : (s.granule r.pa).poison = true)
    (hc : ¬(op = .bpendadd ∨ op = .bpendsub)) (ha : r.acting = none) :
    s.performRequest op r e = s.sendAnswer false (r.answer op 9 0 []) := by
  rw [State.performRequest, if_neg hp, if_pos hg]
  simp only [State.requestPoisoned, ha, State.requestFailed]
  rw [if_neg (by simpa using hc)]
  rfl

section
variable (hp : ¬s.cellParked r.pa = true) (hg : ¬(s.granule r.pa).poison = true)
include hp hg

theorem performRequest_park (hd : (s.enterSlice r.qos r.pa 32).desk op r = (.park, t)) : s.performRequest op r e = s.emit e := by
  rw [State.performRequest, if_neg hp, if_neg hg, hd]

theorem performRequest_held (hd : (s.enterSlice r.qos r.pa 32).desk op r = (.held, t)) : s.performRequest op r e = t := by
  rw [State.performRequest, if_neg hp, if_neg hg, hd]

variable {st val : Nat} {elem : List Byte}

/-- A count of a store or copy that succeeds is not answered. -/
theorem performRequest_counted (hd : (s.enterSlice r.qos r.pa 32).desk op r = (.done 0 val elem, t))
    (hc : op = .bpendadd ∨ op = .bpendsub) : s.performRequest op r e = t := by
  rw [State.performRequest, if_neg hp, if_neg hg, hd]
  simp only
  rw [if_pos (by simpa using hc)]
  rfl

theorem performRequest_done (hd : (s.enterSlice r.qos r.pa 32).desk op r = (.done st val elem, t))
    (hc : ¬(op = .bpendadd ∨ op = .bpendsub)) (ha : r.acting = none) :
    s.performRequest op r e = t.sendAnswer false (r.answer op st val elem) := by
  rw [State.performRequest, if_neg hp, if_neg hg, hd]
  simp only [ha]
  rw [if_neg (by simpa using hc)]
  rfl

end

end

/-- Settles O26: each request is a row of its Desk, whose RESULT is sent (`State.sendAnswer_sentAsResult`) from ports that the Desk
leaves as they are. -/
theorem deskRequests : Obligations.DeskRequests := by
  intro s r hpa p hp counts answers hin
  have hexec : exec p.1 s = .next (s.performRequest p.2.2 r p.2.1) := by
    have hrow : exec p.1 { s with input := p.2.1 } = deskRow p.2.2 r { s with input := p.2.1 } := by fin_cases hp <;> rfl
    have hs : ({ s with input := p.2.1 } : State) = s := by rw [← hin]
    rw [hs] at hrow
    rw [hrow, deskRow, State.deskRequest, if_pos (show r.pa < untranslated from hpa), hin]
  have hanswers (t : State) (st val : Nat) (elem : List Byte) (ht : t.upPorts = s.upPorts)
      (h : s.performRequest p.2.2 r p.2.1 = t.sendAnswer false (r.answer p.2.2 st val elem)) : answers t st val elem :=
    ⟨_, hexec.trans (congrArg _ h), State.sendAnswer_sentAsResult (r.answer p.2.2 st val elem) ht⟩
  clear_value answers
  split
  · next hparked => rw [hexec, performRequest_parked hparked]
  · next hparked =>
    split
    · next hpoison => exact fun hc ha => hanswers s 9 0 [] rfl (performRequest_poisoned hparked hpoison hc ha)
    · next hpoison =>
      rw [hexec]
      split
      · next t hd => rw [performRequest_park hparked hpoison hd]
      · next t hd => rw [performRequest_held hparked hpoison hd]
      · next st val elem t hd =>
        split
        · next hc =>
          rintro rfl
          rw [performRequest_counted hparked hpoison hd hc]
        · next hc =>
          exact fun ha => hanswers t st val elem (State.upPorts_of_desk hd) (performRequest_done hparked hpoison hd hc ha)

end Sys2Proof.Machine
end

section
/-! SUPPORT. `rowop` as an instruction: the checks of R203 in their order, the translation of its rows, and the operation begun. -/

namespace Sys2Proof.Machine

open Sys2Proof

/-! ## Translation keeps the issuing slot (R164, R203) -/

@[simp] theorem State.record_cur (s : State) (src : Nat) (sev : Option Nat) (kind payload tag : Nat) :
    (s.record src sev kind payload tag).cur = s.cur := by rw [s.record_eta]

theorem State.mendWord_cur (s : State) (at_ : Store) (n : Nat) : (s.mendWord at_ n).cur = s.cur := by
  cases at_ with
  | slice q => rw [State.mendWord]; split_ifs <;> simp [State.corrected, State.countError, State.poison, State.openRecord]
  | memory q => rw [State.mendWord]; split_ifs <;> simp [State.corrected, State.countBank, State.poison, State.openRecord]
  | _ => rfl

theorem State.mendMemory_cur (s : State) (pa n : Nat) : (s.mendMemory pa n).cur = s.cur :=
  foldl_keeps State.cur _ _ _ fun t f _ => by
    split
    · exact (apply_ite State.cur ..).trans (by rw [t.mendWord_cur, ite_self])
    · exact (apply_ite State.cur ..).trans (by rw [t.mendWord_cur, ite_self])
    · rfl

theorem State.mendWalk_cur (s : State) (ctx va : Nat) : (s.mendWalk ctx va).cur = s.cur := by
  rw [State.mendWalk]
  split
  · rfl
  · exact (foldl_keeps State.cur _ _ _ fun t e _ => t.mendMemory_cur e 8).trans (s.mendMemory_cur ..)

theorem State.translate_cur (s : State) (cache ctx va : Nat) : (s.translate cache ctx va).2.cur = s.cur := by
  rw [State.translate]
  split
  · rfl
  · rw [← s.mendWalk_cur ctx va]
    generalize s.mendWalk ctx va = m
    have hfill : (match m.walk ctx va with
        | .leaf l _ => m.fillCache cache ctx l
        | _ => m).cur = m.cur := by split <;> rfl
    dsimp only
    split
    · exact hfill
    · split
      · split_ifs <;> rfl
      · split_ifs
        · exact hfill
        · rfl

theorem rowFind_cur {acq : Bool} {use : Use} {va : Nat} {s t : State} {r : Leaf × Nat} (h : rowFind acq use va s = .ok (r, t)) :
    t.cur = s.cur := by
  have hc := s.translate_cur (s.cacheFor (s.agentOf s.cur) va) (s.ctxOf s.cur) va
  rw [rowFind, Act.bind_ok (Act.get_apply s)] at h
  cases hr : regionOfVA va with
  | translated =>
    rcases hu : s.translate (s.cacheFor (s.agentOf s.cur) va) (s.ctxOf s.cur) va with ⟨w, u⟩
    rw [hu] at hc
    simp only [hr, hu] at h
    cases w with
    | leaf l e =>
      cases hl : u.leafCheck l va acq use with
      | some c =>
        simp only [hl] at h
        cases h
      | none =>
        simp only [hl] at h
        cases h
        exact hc
    | park => cases h
    | fail c => cases h
  | _ =>
    rw [hr] at h
    cases h

theorem rowsFind_cur {acq : Bool} {use : Use} {vas : List Nat} {s t : State} {rs : List (Leaf × Nat)}
    (h : rowsFind acq use vas s = .ok (rs, t)) : t.cur = s.cur := by
  induction vas generalizing s rs with
  | nil =>
    cases h
    rfl
  | cons va vas ih =>
    rw [rowsFind, Act.bind_apply] at h
    split at h
    · next hrow =>
      rw [Act.bind_apply] at h
      split at h
      · next hrest =>
        cases h
        exact (ih hrest).trans (rowFind_cur hrow)
      · cases h
    · cases h

/-! ## Running the checks (R203) -/

/-- A check that does not stop the instruction. -/
theorem Act.guard_ok {α : Type} {c : Bool} {a : Act Unit} {f : Unit → Act α} {s : State} (h : c = false) :
    (if c = true then a >>= f else f ()) s = f () s := by rw [if_neg (by simp [h])]

/-- An act that is made where a condition holds, and then leaves the state as it is. -/
theorem Act.optional_ok {α : Type} {c : Prop} [Decidable c] {a : Act Unit} {f : Unit → Act α} {s : State}
    (h : c → a s = .ok ((), s)) : (if c then a >>= f else f ()) s = f () s := by
  split
  · next hc => exact Act.bind_ok (h hc)
  · rfl

/-- One of two acts, with the answer of the one that is made. -/
theorem Act.choice_ok {α β : Type} {c : Prop} [Decidable c] {a b : Act α} {f : α → Act β} {s t : State} {x : α}
    (h : if c then a s = .ok (x, t) else b s = .ok (x, t)) : (if c then a >>= f else b >>= f) s = f x t := by
  split
  · next hc => exact Act.bind_ok (by rwa [if_pos hc] at h)
  · next hc => exact Act.bind_ok (by rwa [if_neg hc] at h)

/-- A capability covers whole rows with a permission (R203 check 2). -/
def Reg.coversRows (c : Reg) (n p : Nat) : Bool := capOk c (capAddr c.data) (1024 * n) [p] && capAddr c.data % 1024 = 0

theorem Reg.coversRows_of {c : Reg} {n p : Nat} (h : c.tag = .cap ∧ inBounds c.data (capAddr c.data) (1024 * n) = true ∧
    hasPerm c.data p = true ∧ capAddr c.data % 1024 = 0) : c.coversRows n p = true := by
  obtain ⟨htag, hbounds, hperm, halign⟩ := h
  simp [Reg.coversRows, capOk, htag, hbounds, hperm, halign]

theorem rowReadsB_iff (op : Nat) : rowReadsB op = true ↔ op = 2 ∨ op = 4 ∨ op = 5 := by
  simp [rowReadsB, or_assoc]

theorem rowWordOk_of {w : Nat} (ho : bits w 3 0 ≤ 6) (hw : w < 2 ^ 15) (hn : bits w 3 0 = 5 → bits w 8 4 ≤ 15) :
    rowWordOk w = true := by
  simp only [rowWordOk, Nat.div_eq_of_lt hw, Bool.and_eq_true, Bool.or_eq_true, decide_eq_true_eq, bne_iff_ne]
  exact ⟨⟨ho, trivial⟩, imp_iff_not_or.mp hn⟩

/-- `rowop` passes checks 1 and 2 of R203: its strand reads the operands, the control word is allowed, and the capabilities cover
the rows. -/
structure State.RowopAllowed (s : State) (gd gs1 gs2 : RegNo) : Prop where
  level : levelOf s.cur = .b
  word : s.Readable gd
  dest : s.Readable gs1
  source : s.Readable gs2
  writable : s.Writable gd
  unmarked : (s.value gd).tag ≠ .bounded
  wordOk : rowWordOk (s.value gd).data.toNat = true
  coversD : (s.value gs1).coversRows (rowCount (s.value gd).data.toNat) permW = true
  coversA : (s.value gs2).coversRows (rowCount (s.value gd).data.toNat) permR = true
  sourceB : rowReadsB (bits (s.value gd).data.toNat 3 0) = true →
    gs2 ≠ 0 ∧ gs2 ≠ 31 ∧ s.Readable (gs2 + 1) ∧ (s.value (gs2 + 1)).coversRows (rowCount (s.value gd).data.toNat) permR = true

/-- The rows that the operands name are translated one operand after another (R203 check 3), which ends in the state `u`; `rzero` reads
no row of `gs2`, and the model translates none (notes/assumptions/47.md). -/
structure State.FindsRows (s : State) (gs1 gs2 : RegNo) (op n : Nat) (ds as_ bs : List (Leaf × Nat)) (u1 u2 u : State) : Prop where
  dest : rowsFind (acqOf (s.value gs1)) .write (rowVAs (s.value gs1) n) s = .ok (ds, u1)
  source : if op = 1 then as_ = [] ∧ u2 = u1 else rowsFind (acqOf (s.value gs2)) .read (rowVAs (s.value gs2) n) u1 = .ok (as_, u2)
  sourceB : if rowReadsB op = true then rowsFind (acqOf (s.value (gs2 + 1))) .read (rowVAs (s.value (gs2 + 1)) n) u2 = .ok (bs, u)
    else bs = [] ∧ u = u2

/-- The rows that are read as data, so that poison in them stops the operation (R203 check 6). -/
def rowsEaten (op : Nat) (d a b : List Nat) : List Nat := (if 2 ≤ op && op ≤ 5 then a ++ b else []) ++ if op = 2 then d else []

/-- Rows that have been found pass checks 4 to 6 of R203 for slot `k`, and the operation has nothing to wait for. -/
structure State.RowsReady (u : State) (k op : Nat) (ds as_ bs : List (Leaf × Nat)) : Prop where
  placed : ∀ r ∈ ds ++ as_ ++ bs, r.1.rl = true ∧ r.1.cm = false ∧ r.1.el = false ∧ u.bankOfPA r.2 = bankOf k
  writes : ∀ r ∈ ds, u.mustWait k 0 (.mem r.2) 1024 true = false
  reads : ∀ r ∈ as_ ++ bs, u.mustWait k 0 (.mem r.2) 1024 false = false
  alone : (u.bank (bankOf k)).rowop = none
  sound : u.flips = []
  clean : ∀ r ∈ rowsEaten op (ds.map (·.2)) (as_.map (·.2)) (bs.map (·.2)), u.rowPoisoned r = false

/-- The bank unit has begun a row operation, which its slot awaits (R204). -/
def State.rowBegun (s : State) (gd la op : Nat) (d a b : List Nat) : State :=
  let r : RowOp := { slot := s.cur, op := op, d := d, a := a, b := b, inv := ((d.flatMap linesOfRow).filter s.lineHeld).length }
  (((s.cohere d (a ++ b)).onBank (bankOf s.cur) fun x => { x with rowop := some r }).onHere fun sl =>
    { sl with await := some (.rowop gd la) }).emit (.rowOpComplete (bankOf s.cur))

section
variable {s u1 u2 u : State} {la : Look} {gd gs1 gs2 : RegNo} {op n k : Nat} {ds as_ bs : List (Leaf × Nat)}

theorem State.FindsRows.cur (h : s.FindsRows gs1 gs2 op n ds as_ bs u1 u2 u) : u.cur = s.cur := by
  have hdest : u1.cur = s.cur := rowsFind_cur h.dest
  have hsource : u2.cur = u1.cur := by
    have hs := h.source
    split at hs
    · rw [hs.2]
    · exact rowsFind_cur hs
  have hsourceB : u.cur = u2.cur := by
    have hs := h.sourceB
    split at hs
    · exact rowsFind_cur hs
    · rw [hs.2]
  rw [hsourceB, hsource, hdest]

theorem State.FindsRows.source_found (h : s.FindsRows gs1 gs2 op n ds as_ bs u1 u2 u) :
    if op = 1 then (pure [] : Act _) u1 = .ok (as_, u2)
    else rowsFind (acqOf (s.value gs2)) .read (rowVAs (s.value gs2) n) u1 = .ok (as_, u2) := by
  have hs := h.source
  split at hs
  · next hc =>
    rw [if_pos hc, hs.1, hs.2]
    rfl
  · next hc => rwa [if_neg hc]

/-- The second source is searched through the register that was read for it. -/
theorem State.FindsRows.sourceB_found (h : s.FindsRows gs1 gs2 op n ds as_ bs u1 u2 u) :
    let b := if rowReadsB op = true then s.value (gs2 + 1) else {}
    if rowReadsB op = true then rowsFind (acqOf b) .read (rowVAs b n) u2 = .ok (bs, u) else (pure [] : Act _) u2 = .ok (bs, u) := by
  intro b
  have hs := h.sourceB
  split at hs
  · next hc => rwa [if_pos hc, show b = s.value (gs2 + 1) from if_pos hc]
  · next hc =>
    rw [if_neg hc, hs.1, hs.2]
    rfl

theorem State.RowsReady.any_unplaced (h : u.RowsReady k op ds as_ bs) :
    ((ds ++ as_ ++ bs).any fun r => !r.1.rl || r.1.cm || r.1.el) = false := by
  rw [List.any_eq_false]
  intro r hr
  obtain ⟨hrl, hcm, hel, -⟩ := h.placed r hr
  simp [hrl, hcm, hel]

theorem State.RowsReady.any_elsewhere (h : u.RowsReady k op ds as_ bs) :
    ((ds ++ as_ ++ bs).any fun r => u.bankOfPA r.2 != bankOf k) = false := by
  rw [List.any_eq_false]
  intro r hr
  obtain ⟨-, -, -, hbank⟩ := h.placed r hr
  simp [hbank]

theorem State.RowsReady.none_waits (h : u.RowsReady k op ds as_ bs) :
    ((ds.map (·.2)).any (fun r => u.mustWait k 0 (.mem r) 1024 true) ||
      (as_.map (·.2) ++ bs.map (·.2)).any fun r => u.mustWait k 0 (.mem r) 1024 false) = false := by
  rw [← List.map_append, List.any_map, List.any_map, Bool.or_eq_false_iff, List.any_eq_false, List.any_eq_false]
  exact ⟨fun r hr => by simp [h.writes r hr], fun r hr => by simp [h.reads r hr]⟩

theorem State.RowsReady.none_poisoned (h : u.RowsReady k op ds as_ bs) :
    (rowsEaten op (ds.map (·.2)) (as_.map (·.2)) (bs.map (·.2))).any u.rowPoisoned = false := by
  rw [List.any_eq_false]
  exact fun r hr => by simp [h.clean r hr]

theorem State.RowopAllowed.not_illegal (h : s.RowopAllowed gd gs1 gs2) :
    (rowReadsB (bits (s.value gd).data.toNat 3 0) && (gs2 = 0 || gs2 = 31)) = false := by
  rw [Bool.and_eq_false_imp]
  intro hc
  obtain ⟨h0, h31, -⟩ := h.sourceB hc
  simpa using ⟨h0, h31⟩

theorem State.RowopAllowed.sourceB_read (h : s.RowopAllowed gd gs1 gs2) :
    let two := rowReadsB (bits (s.value gd).data.toNat 3 0)
    let b := if two = true then s.value (gs2 + 1) else {}
    if two = true then Machine.source (gs2 + 1) s = .ok (b, s) else (pure {} : Act Reg) s = .ok (b, s) := by
  intro two b
  by_cases hc : two = true
  · rw [if_pos hc, show b = s.value (gs2 + 1) from if_pos hc]
    exact source_ready (h.sourceB hc).2.2.1
  · rw [if_neg hc, show b = {} from if_neg hc]
    rfl

/-- `rowop` whose operands pass every check begins, or answers the status that refuses it (R203 check 7). -/
theorem execRowop_ready (hok : s.RowopAllowed gd gs1 gs2) (hw : op = bits (s.value gd).data.toNat 3 0)
    (hf : s.FindsRows gs1 gs2 op (rowCount (s.value gd).data.toNat) ds as_ bs u1 u2 u) (hr : u.RowsReady s.cur op ds as_ bs) :
    let d := ds.map (·.2)
    let a := as_.map (·.2)
    let b := bs.map (·.2)
    execRowop la gd gs1 gs2 s = .next (if u.rowStatus op d a b = 0 then u.rowBegun gd.toNat la.toNat op d a b
      else (u.writeReg u.cur gd.toNat (exactData (u.rowStatus op d a b))).retire la.toNat) := by
  intro d a b
  subst hw
  rw [← hf.cur] at hr
  have hword : exactSource gd s = .ok (s.value gd, s) := exactSource_ready hok.word hok.unmarked
  have hdest : source gs1 s = .ok (s.value gs1, s) := source_ready hok.dest
  have hsource : source gs2 s = .ok (s.value gs2, s) := source_ready hok.source
  refine settle_ok ?_
  refine (Act.bind_ok (enter_ready (by simp [hok.level]) (by simp [hok.word, hok.dest, hok.source]) (by simp [hok.writable]))).trans ?_
  refine (Act.bind_ok hword).trans ?_
  refine (Act.guard_ok (by simpa using hok.wordOk)).trans ?_
  refine (Act.guard_ok hok.not_illegal).trans ?_
  refine (Act.optional_ok fun hc => enter_ready (by simp [hok.level]) (by simpa using (hok.sourceB hc).2.2.1) (by simp)).trans ?_
  refine (Act.bind_ok hdest).trans ?_
  refine (Act.bind_ok hsource).trans ?_
  refine (Act.choice_ok hok.sourceB_read).trans ?_
  refine (Act.bind_ok (congrFun (if_pos hok.coversD) s)).trans ?_
  refine (Act.bind_ok (congrFun (if_pos hok.coversA) s)).trans ?_
  refine (Act.optional_ok fun hc => congrFun (if_pos ?_) s).trans ?_
  · rw [if_pos hc]
    exact (hok.sourceB hc).2.2.2
  refine (Act.bind_ok hf.dest).trans ?_
  refine (Act.choice_ok hf.source_found).trans ?_
  refine (Act.choice_ok hf.sourceB_found).trans ?_
  refine (Act.guard_ok hr.any_unplaced).trans ?_
  refine (Act.bind_ok (Act.get_apply u)).trans ?_
  refine (Act.guard_ok hr.any_elsewhere).trans ?_
  refine (Act.guard_ok hr.none_waits).trans ?_
  refine (Act.guard_ok (by rw [hr.alone]; rfl)).trans ?_
  simp only [if_pos hr.sound]
  refine (Act.bind_ok (Act.set_apply ..)).trans ?_
  refine (Act.guard_ok hr.none_poisoned).trans ?_
  cases hst : u.rowStatus (bits (s.value gd).data.toNat 3 0) d a b with
  | zero => rfl
  | succ st => rfl

end

section
variable (s : State) (gd la op : Nat) (d a b : List Nat)

theorem State.rowBegun_rowop : ((s.rowBegun gd la op d a b).bank (bankOf s.cur)).rowop = some
    ⟨s.cur, op, d, a, b, ((d.flatMap linesOfRow).filter s.lineHeld).length⟩ := by
  dsimp only [State.rowBegun]
  rw [State.bank_emit, State.bank_onHere, State.bank_onBank_same]

theorem State.rowBegun_await : (s.rowBegun gd la op d a b).here.await = some (.rowop gd la) := by
  dsimp only [State.rowBegun, State.onHere, State.here]
  rw [State.slot_emit]
  exact congrArg Slot.await (State.slot_onSlot_same ..)

theorem State.rowBegun_mem : (s.rowBegun gd la op d a b).mem = s.mem := rfl

theorem State.mem_agenda_rowBegun : .rowOpComplete (bankOf s.cur) ∈ (s.rowBegun gd la op d a b).agenda := State.mem_agenda_emit ..

end

end Sys2Proof.Machine
end

section
/-! SUPPORT. What a row operation writes (R202, R205): its rows one after another, and the elements of the vertical layout. -/

namespace Sys2Proof.Machine

open Sys2Proof

/-! ## Rows of bytes -/

theorem State.bytes_congr {s t : State} {a n : Nat} (h : ∀ j < n, t.byte (a + j) = s.byte (a + j)) : t.bytes a n = s.bytes a n := by
  refine List.ext_getElem (by simp only [State.bytes_length]) fun i h1 h2 => ?_
  have hi : i < n := s.bytes_length a n ▸ h2
  have hb := h i hi
  rw [← s.bytes_getD a n hi, ← t.bytes_getD a n hi] at hb
  simpa [List.getD_eq_getElem?_getD, h1, h2] using hb

/-- From `s` to `t` the row at `d` takes the bytes `bs`; other bytes and the slots stay. -/
structure State.WritesRow (s : State) (d : Nat) (bs : List Byte) (t : State) : Prop where
  length : bs.length = 1024
  mem : t.mem = (s.store d bs).mem
  slots : t.slots = s.slots

/-- From `s` to `t` the first `n` rows of `d` take the bytes of `f`; bytes outside them stay. -/
structure State.RowsWritten (s : State) (d : List Nat) (f : Nat → List Byte) (n : Nat) (t : State) : Prop where
  rows : ∀ i < n, t.bytes (d.getD i 0) 1024 = f i
  others : ∀ q, (∀ i < n, q < d.getD i 0 ∨ d.getD i 0 + 1024 ≤ q) → t.byte q = s.byte q

/-- Row `i` of `l` lies apart from the rows of `d` before row `i`, so that writing them leaves it as it was. -/
def RowsClear (d l : List Nat) : Prop :=
  ∀ i < d.length, ∀ k < i, d.getD k 0 + 1024 ≤ l.getD i 0 ∨ l.getD i 0 + 1024 ≤ d.getD k 0

theorem rows_apart {p q : Nat} (hp : p % 1024 = 0) (hq : q % 1024 = 0) (h : p ≠ q) : p + 1024 ≤ q ∨ q + 1024 ≤ p := by omega

section
variable {s t u : State} {d l : List Nat} {f : Nat → List Byte} {n i : Nat} {bs : List Byte}

theorem rowsClear_of (hd : ∀ p ∈ d, p % 1024 = 0) (hl : ∀ p ∈ l, p % 1024 = 0) (hlen : l.length = d.length)
    (h : ∀ i k : Nat, d[i]? ≠ none → d[i]? = l[k]? → k ≤ i) : RowsClear d l := by
  intro i hi k hk
  have hk' : k < d.length := by omega
  have hi' : i < l.length := by omega
  rw [List.getD_eq_getElem _ _ hk', List.getD_eq_getElem _ _ hi']
  refine rows_apart (hd _ (List.getElem_mem _)) (hl _ (List.getElem_mem _)) fun he => ?_
  have := h k i (by simp [hk']) (by simp [hk', hi', he])
  omega

theorem rowsClear_self (hd : ∀ p ∈ d, p % 1024 = 0) (hn : d.Nodup) : RowsClear d d :=
  rowsClear_of hd hd rfl fun i k hi h => by
    have hi : i < d.length := by simpa using hi
    exact ((List.getElem?_inj hi hn).mp h).ge

theorem State.WritesRow.bytes {p : Nat} (h : s.WritesRow p bs t) : t.bytes p 1024 = bs := by
  rw [State.bytes_of_mem h.mem, ← h.length, State.bytes_store]

theorem State.WritesRow.byte {p q : Nat} (h : s.WritesRow p bs t) (hq : q < p ∨ p + 1024 ≤ q) : t.byte q = s.byte q := by
  have hstore := s.byte_store p bs q
  rw [if_neg (by rw [h.length]; omega), State.byte, ← h.mem] at hstore
  exact hstore

theorem State.RowsWritten.next (hd : RowsClear d d) (hi : i < d.length) (h : s.RowsWritten d f i t)
    (hw : t.WritesRow (d.getD i 0) (f i) u) : s.RowsWritten d f (i + 1) u where
  rows k hk := by
    rcases Nat.lt_succ_iff_lt_or_eq.mp hk with hk | rfl
    · rw [← h.rows k hk]
      refine State.bytes_congr fun j hj => hw.byte ?_
      have := hd i hi k hk
      omega
    · exact hw.bytes
  others q hq := (hw.byte (hq i (Nat.lt_succ_self i))).trans (h.others q fun k hk => hq k (by omega))

theorem State.RowsWritten.of_mem (h : s.RowsWritten d f n t) (hm : u.mem = t.mem) : s.RowsWritten d f n u where
  rows i hi := (State.bytes_of_mem hm ..).trans (h.rows i hi)
  others q hq := by
    rw [State.byte, hm]
    exact h.others q hq

/-- A source row still holds what it held at first when its turn comes. -/
theorem State.RowsWritten.source (h : s.RowsWritten d f i t) (hi : i < d.length) (hl : RowsClear d l) :
    t.bytes (l.getD i 0) 1024 = s.bytes (l.getD i 0) 1024 :=
  State.bytes_congr fun j hj => h.others _ fun k hk => by
    have := hl i hi k hk
    omega

/-- What holds at first and goes on by each step holds after all of them. -/
theorem foldl_range_induction {P : Nat → State → Prop} {g : State → Nat → State} (h0 : P 0 s)
    (h : ∀ i < n, ∀ t, P i t → P (i + 1) (g t i)) : P n ((List.range n).foldl g s) := by
  induction n with
  | zero => exact h0
  | succ n ih =>
    rw [List.range_succ, List.foldl_append]
    exact h n (Nat.lt_succ_self n) _ (ih fun i hi => h i (by omega))

theorem State.rowsWritten_zero : s.RowsWritten d f 0 s := ⟨fun _ h => absurd h (Nat.not_lt_zero _), fun _ _ => rfl⟩

/-- An operation writes its rows in ascending order. -/
theorem State.rowsWritten_foldl (hd : RowsClear d d) {g : State → Nat → State}
    (h : ∀ i < d.length, ∀ t, s.RowsWritten d f i t → t.WritesRow (d.getD i 0) (f i) (g t i)) :
    s.RowsWritten d f d.length ((List.range d.length).foldl g s) :=
  foldl_range_induction State.rowsWritten_zero fun i hi t ht => ht.next hd hi (h i hi t ht)

end

/-! ## One row (R202 Table 7) -/

section
variable {s : State} {bs : List Byte}

theorem State.rowWrite_writesRow (d : Nat) (h : bs.length = 1024) : s.WritesRow d bs (s.rowWrite d bs) where
  length := h
  mem := by rw [State.rowWrite, State.onGranules_eta]; rfl
  slots := by rw [State.rowWrite, State.onGranules_eta]; rfl

theorem State.rowCopy_writesRow (d a : Nat) : s.WritesRow d (s.bytes a 1024) (s.rowCopy d a) where
  length := s.bytes_length ..
  mem := foldl_keeps State.mem _ _ _ fun _ _ _ => rfl
  slots := foldl_keeps State.slots _ _ _ fun _ _ _ => rfl

/-- A change of parts other than memory and the slots may come before the row is written. -/
theorem State.WritesRow.after {s u t : State} {d : Nat} {bs : List Byte} (h : u.WritesRow d bs t) (hm : u.mem = s.mem)
    (hs : u.slots = s.slots) : s.WritesRow d bs t :=
  ⟨h.length, by rw [h.mem, State.store, State.store, hm], h.slots.trans hs⟩

theorem rowsWith_length (g : Byte → Byte → Byte → Byte) (x y z : List Byte) : (rowsWith g x y z).length = 1024 := by
  rw [rowsWith, List.length_map, List.length_range]

theorem rowsWith_getD (g : Byte → Byte → Byte → Byte) (x y z : List Byte) {j : Nat} (h : j < 1024) :
    (rowsWith g x y z).getD j 0 = g (x.getD j 0) (y.getD j 0) (z.getD j 0) := by
  simp [rowsWith, List.getD_eq_getElem?_getD, h]

theorem verticalRow_length (vs : List Nat) (i : Nat) : (verticalRow vs i).length = 1024 := by
  rw [verticalRow, List.length_map, List.length_range]

theorem State.rowMajority_writesRow (d a b : Nat) :
    s.WritesRow d (rowsWith majority (s.bytes a 1024) (s.bytes b 1024) (s.bytes d 1024)) (s.rowMajority d a b) :=
  (State.rowWrite_writesRow d (rowsWith_length ..)).after rfl rfl

theorem State.rowNot_writesRow (d a : Nat) : s.WritesRow d ((s.bytes a 1024).map fun b => ~~~b) (s.rowNot d a) :=
  (State.rowWrite_writesRow d (by rw [List.length_map, State.bytes_length])).after rfl rfl

theorem State.rowAdd_writesRow (t d a b : Nat) : s.WritesRow d
    (rowsWith (fun x y c => x ^^^ y ^^^ c) (s.bytes a 1024) (s.bytes b 1024) (s.spare t (tempRow 3))) (s.rowAdd t d a b) :=
  (State.rowWrite_writesRow d (rowsWith_length ..)).after rfl rfl

theorem State.rowBuffer_keeps (l : List Nat) : (s.rowBuffer l).mem = s.mem ∧ (s.rowBuffer l).slots = s.slots := by
  cases l <;> exact ⟨rfl, rfl⟩

/-- A row of `rmove`, with the rows that the buffer takes in before it. -/
theorem State.rowMove_writesRow (l : List Nat) (d a : Nat) : s.WritesRow d (s.bytes a 1024) ((s.rowBuffer l).rowCopy d a) := by
  obtain ⟨hm, hs⟩ := s.rowBuffer_keeps l
  rw [← State.bytes_of_mem hm]
  exact (State.rowCopy_writesRow d a).after hm hs

/-- The row of T3 of a subarray after it has been set. -/
theorem State.spare_setSpare (pa : Nat) (bs : List Byte) : (s.setSpare pa (tempRow 3) bs).spare pa (tempRow 3) = bs := by
  rw [State.spare, if_neg (by decide), if_neg (by decide)]
  refine (congrArg (fun b : Bank => look (List.replicate 1024 0) b.rows _) (State.bank_onBank_same ..)).trans ?_
  exact look_put_same ..

theorem State.spare_rowWrite (d pa i : Nat) : (s.rowWrite d bs).spare pa i = s.spare pa i := by
  rw [State.rowWrite, State.onGranules_eta]
  rfl

theorem State.spare_rowAdd (t d a b : Nat) : (s.rowAdd t d a b).spare t (tempRow 3) =
    rowsWith majority (s.bytes a 1024) (s.bytes b 1024) (s.spare t (tempRow 3)) := by
  rw [State.rowAdd, State.spare_rowWrite, State.spare_setSpare]

end

/-! ## The result (R202, R205) -/

/-- The carries into row `i` of a sum: those of the row below it (R205). -/
def State.carryRow (s : State) (a b : List Nat) : Nat → List Byte
  | 0 => List.replicate 1024 0
  | i + 1 => rowsWith majority (s.bytes (a.getD i 0) 1024) (s.bytes (b.getD i 0) 1024) (s.carryRow a b i)

/-- Element `e` of the operand whose rows are `l` (R205). -/
def State.element (s : State) (l : List Nat) (e : Nat) : Nat := vertical (l.map fun p => s.bytes p 1024) e

/-- The bytes that row `i` of the destination takes from the rows as they stand in `s` (R202 Table 7). -/
def RowOp.resultRow (r : RowOp) (s : State) (i : Nat) : List Byte :=
  match r.op with
  | 1 => List.replicate 1024 0
  | 2 => rowsWith majority (s.bytes (r.a.getD i 0) 1024) (s.bytes (r.b.getD i 0) 1024) (s.bytes (r.d.getD i 0) 1024)
  | 3 => (s.bytes (r.a.getD i 0) 1024).map fun b => ~~~b
  | 4 => rowsWith (fun x y c => x ^^^ y ^^^ c) (s.bytes (r.a.getD i 0) 1024) (s.bytes (r.b.getD i 0) 1024) (s.carryRow r.a r.b i)
  | 5 => verticalRow ((List.range 8192).map fun e => s.element r.a e * s.element r.b e) i
  | _ => s.bytes (r.a.getD i 0) 1024

section
variable {s : State} {r : RowOp}

/-- The operation finds each source row as it was at first. -/
structure RowOp.Ordered (r : RowOp) : Prop where
  dest : RowsClear r.d r.d
  source : r.op ≠ 1 → r.op ≠ 5 → RowsClear r.d r.a
  sourceB : r.op = 2 ∨ r.op = 4 → RowsClear r.d r.b

/-- Aligned rows, none of them written before it is read, are found as they were. -/
theorem RowOp.ordered (hn : r.d.Nodup) (hal : ∀ p ∈ r.d ++ r.a ++ r.b, p % 1024 = 0)
    (h : r.op ≠ 5 → (r.op ≠ 1 → r.a.length = r.d.length) ∧ (r.op = 2 ∨ r.op = 4 → r.b.length = r.d.length) ∧
      ∀ i j : Nat, r.d[i]? ≠ none → (r.d[i]? = r.a[j]? ∨ r.d[i]? = r.b[j]?) → j ≤ i) : r.Ordered := by
  have hd : ∀ p ∈ r.d, p % 1024 = 0 := fun p hp => hal p (by simp [hp])
  have ha : ∀ p ∈ r.a, p % 1024 = 0 := fun p hp => hal p (by simp [hp])
  have hb : ∀ p ∈ r.b, p % 1024 = 0 := fun p hp => hal p (by simp [hp])
  refine ⟨rowsClear_self hd hn, fun h1 h5 => ?_, fun h24 => ?_⟩
  · obtain ⟨hlen, -, hle⟩ := h h5
    exact rowsClear_of hd ha (hlen h1) fun i k hi hik => hle i k hi (.inl hik)
  · obtain ⟨-, hlen, hle⟩ := h (by omega)
    exact rowsClear_of hd hb (hlen h24) fun i k hi hik => hle i k hi (.inr hik)

/-- `radd` writes its rows from the lowest bit upwards, with the carry of each row in T3. -/
theorem State.rowEffect_sum (h : r.Ordered) (h4 : r.op = 4) : s.RowsWritten r.d (r.resultRow s) r.d.length (s.rowEffect r) := by
  obtain ⟨slot, op, d, a, b, inv⟩ := r
  subst h4
  have ha := h.source (by simp) (by simp)
  have hb := h.sourceB (by simp)
  refine (foldl_range_induction (P := fun i t => s.RowsWritten d (RowOp.resultRow ⟨slot, 4, d, a, b, inv⟩ s) i t ∧
    t.spare (d.getD 0 0) (tempRow 3) = s.carryRow a b i) ⟨?_, State.spare_setSpare ..⟩ ?_).1
  · exact State.rowsWritten_zero.of_mem rfl
  · rintro i hi t ⟨ht, hc⟩
    have hw := t.rowAdd_writesRow (d.getD 0 0) (d.getD i 0) (a.getD i 0) (b.getD i 0)
    have hs := t.spare_rowAdd (d.getD 0 0) (d.getD i 0) (a.getD i 0) (b.getD i 0)
    rw [ht.source hi ha, ht.source hi hb, hc] at hw hs
    exact ⟨ht.next h.dest hi hw, hs⟩

/-- A row operation writes each row of its destination, and nothing else in memory (R202). -/
theorem State.rowEffect_rowsWritten (h : r.Ordered) : s.RowsWritten r.d (r.resultRow s) r.d.length (s.rowEffect r) := by
  obtain ⟨slot, op, d, a, b, inv⟩ := r
  match op with
  | 0 =>
    refine State.rowsWritten_foldl h.dest fun i hi t ht => ?_
    have hw := t.rowCopy_writesRow (d.getD i 0) (a.getD i 0)
    rwa [ht.source hi (h.source (by simp) (by simp))] at hw
  | 1 => exact State.rowsWritten_foldl h.dest fun i hi t ht => State.rowWrite_writesRow _ (List.length_replicate ..)
  | 2 =>
    refine State.rowsWritten_foldl h.dest fun i hi t ht => ?_
    have hw := t.rowMajority_writesRow (d.getD i 0) (a.getD i 0) (b.getD i 0)
    rwa [ht.source hi (h.source (by simp) (by simp)), ht.source hi (h.sourceB (by simp)), ht.source hi h.dest] at hw
  | 3 =>
    refine State.rowsWritten_foldl h.dest fun i hi t ht => ?_
    have hw := t.rowNot_writesRow (d.getD i 0) (a.getD i 0)
    rwa [ht.source hi (h.source (by simp) (by simp))] at hw
  | 4 => exact State.rowEffect_sum h rfl
  | 5 => exact State.rowsWritten_foldl h.dest fun i hi t ht => State.rowWrite_writesRow _ (verticalRow_length ..)
  | n + 6 =>
    refine State.rowsWritten_foldl h.dest fun i hi t ht => ?_
    have hmove := t.rowMove_writesRow ((a.drop i).take 8) (d.getD i 0) (a.getD i 0)
    have hcopy := t.rowCopy_writesRow (d.getD i 0) (a.getD i 0)
    rw [ht.source hi (h.source (by simp) (by simp))] at hmove hcopy
    dsimp only
    split
    · exact hmove
    · exact hcopy

end

theorem State.rowEffect_slots (s : State) (r : RowOp) : (s.rowEffect r).slots = s.slots := by
  obtain ⟨slot, op, d, a, b, inv⟩ := r
  match op with
  | 0 => exact foldl_keeps State.slots _ _ _ fun t _ _ => (t.rowCopy_writesRow ..).slots
  | 1 => exact foldl_keeps State.slots _ _ _ fun _ _ _ => (State.rowWrite_writesRow _ (List.length_replicate ..)).slots
  | 2 => exact foldl_keeps State.slots _ _ _ fun t _ _ => (t.rowMajority_writesRow ..).slots
  | 3 => exact foldl_keeps State.slots _ _ _ fun t _ _ => (t.rowNot_writesRow ..).slots
  | 4 => exact foldl_keeps State.slots _ _ _ fun t _ _ => (t.rowAdd_writesRow ..).slots
  | 5 => exact foldl_keeps State.slots _ _ _ fun _ _ _ => (State.rowWrite_writesRow _ (verticalRow_length ..)).slots
  | n + 6 =>
    refine foldl_keeps State.slots _ _ _ fun t i _ => ((State.rowCopy_writesRow ..).slots).trans ?_
    split
    · exact (State.rowBuffer_keeps _).2
    · rfl

/-! ## The vertical layout (R205) -/

theorem bit_eq_testBit (v i : Nat) : bit v i = v.testBit i := by
  rw [bit, Nat.testBit_eq_decide_div_mod_eq]

theorem vertical_nil (e : Nat) : vertical [] e = 0 := rfl

theorem vertical_cons (x : List Byte) (xs : List (List Byte)) (e : Nat) :
    vertical (x :: xs) e = 2 * vertical xs e + ((x.getD (e / 8) 0).getLsbD (e % 8)).toNat := by
  rw [vertical, List.foldr_cons, Bool.toNat, Bool.cond_eq_ite]
  rfl

theorem vertical_lt (xs : List (List Byte)) (e : Nat) : vertical xs e < 2 ^ xs.length := by
  induction xs with
  | nil => rw [vertical_nil]; decide
  | cons x xs ih =>
    rw [vertical_cons, List.length_cons, Nat.pow_succ]
    have := Bool.toNat_le ((x.getD (e / 8) 0).getLsbD (e % 8))
    omega

/-- Bit `i` of an element stands in row `i` of its operand. -/
theorem testBit_vertical (xs : List (List Byte)) (e i : Nat) :
    (vertical xs e).testBit i = ((xs.getD i []).getD (e / 8) 0).getLsbD (e % 8) := by
  induction xs generalizing i with
  | nil => simp [vertical_nil]
  | cons x xs ih =>
    rw [vertical_cons]
    cases i with
    | zero =>
      rw [Nat.testBit_zero, List.getD_cons_zero]
      cases (x.getD (e / 8) 0).getLsbD (e % 8) <;> simp
    | succ i =>
      rw [Nat.testBit_succ, List.getD_cons_succ, ← ih]
      congr 1
      have := Bool.toNat_le ((x.getD (e / 8) 0).getLsbD (e % 8))
      omega

/-- A number given bit by bit. -/
theorem testBit_foldl_bits (g : Nat → Bool) (n : Nat) :
    ((List.range n).foldl (fun v j => v + if g j then 2 ^ j else 0) 0 < 2 ^ n) ∧
      ∀ k < n, ((List.range n).foldl (fun v j => v + if g j then 2 ^ j else 0) 0).testBit k = g k := by
  induction n with
  | zero => exact ⟨Nat.one_pos, fun k hk => absurd hk (Nat.not_lt_zero k)⟩
  | succ n ih =>
    obtain ⟨hlt, hbit⟩ := ih
    rw [List.range_succ, List.foldl_append]
    generalize (List.range n).foldl _ 0 = v at hlt hbit
    rw [List.foldl_cons, List.foldl_nil]
    have hadd : v + (if g n = true then 2 ^ n else 0) < 2 ^ (n + 1) := by
      rw [Nat.pow_succ]
      split <;> omega
    refine ⟨hadd, fun k hk => ?_⟩
    have hlow : k < n → v.testBit k = g k := hbit k
    cases hg : g n with
    | false =>
      rcases Nat.lt_succ_iff_lt_or_eq.mp hk with hk | rfl
      · simpa using hlow hk
      · simpa [hg] using Nat.testBit_lt_two_pow hlt
    | true =>
      rw [if_pos rfl, Nat.add_comm]
      rcases Nat.lt_succ_iff_lt_or_eq.mp hk with hk | rfl
      · rw [Nat.testBit_two_pow_add_gt hk, hlow hk]
      · rw [Nat.testBit_two_pow_add_eq, Nat.testBit_lt_two_pow hlt, hg]
        rfl

theorem testBit_verticalRow (vs : List Nat) (i : Nat) {e : Nat} (he : e < 8192) :
    ((verticalRow vs i).getD (e / 8) 0).getLsbD (e % 8) = (vs.getD e 0).testBit i := by
  have hb : e / 8 < 1024 := by omega
  have hj : e % 8 < 8 := by omega
  rw [verticalRow, List.getD_eq_getElem?_getD, List.getElem?_map, List.getElem?_range hb, Option.map_some, Option.getD_some,
    BitVec.getLsbD_ofNat, (testBit_foldl_bits _ 8).2 _ hj, bit_eq_testBit, Nat.div_add_mod]
  simp [hj]

/-- The sum of the bits with their weights, from `2 ^ m` upwards. -/
theorem sum_bits_eq_element (s : State) (l : List Nat) {e : Nat} (he : e < 8192) (m : Nat) :
    (((l.zipIdx m).map fun p => if bit (s.byte (p.1 + e / 8)).toNat (e % 8) = true then 2 ^ p.2 else 0).sum) = 2 ^ m * s.element l e := by
  induction l generalizing m with
  | nil => rfl
  | cons p l ih =>
    have hbyte := s.bytes_getD p 1024 (show e / 8 < 1024 by omega)
    have hcons : s.element (p :: l) e = 2 * s.element l e + ((s.byte (p + e / 8)).getLsbD (e % 8)).toNat := by
      rw [← hbyte]
      exact vertical_cons ..
    rw [List.zipIdx_cons, List.map_cons, List.sum_cons, ih, hcons, bit_eq_testBit, ← BitVec.getLsbD, Nat.pow_succ]
    cases (s.byte (p + e / 8)).getLsbD (e % 8) with
    | false =>
      rw [if_neg Bool.false_ne_true, Bool.toNat_false]
      ring
    | true =>
      rw [if_pos rfl, Bool.toNat_true]
      ring

section
variable {s t : State} {l a b : List Nat} {e i n : Nat}

theorem State.testBit_element (hi : i < l.length) :
    (s.element l e).testBit i = ((s.bytes (l.getD i 0) 1024).getD (e / 8) 0).getLsbD (e % 8) := by
  rw [State.element, testBit_vertical]
  simp [List.getD_eq_getElem?_getD, hi]

/-- Rows that hold the bits of a number hold its low bits as an element. -/
theorem State.RowsWritten.element {d : List Nat} {f : Nat → List Byte} (h : s.RowsWritten d f d.length t) {v : Nat}
    (hv : ∀ i < d.length, ((f i).getD (e / 8) 0).getLsbD (e % 8) = v.testBit i) : t.element d e = v % 2 ^ d.length := by
  refine Nat.eq_of_testBit_eq fun i => ?_
  rw [Nat.testBit_mod_two_pow]
  by_cases hi : i < d.length
  · rw [State.testBit_element hi, h.rows i hi, hv i hi, decide_eq_true hi, Bool.true_and]
  · have hlt := vertical_lt (d.map fun p => t.bytes p 1024) e
    rw [List.length_map] at hlt
    rw [decide_eq_false hi, Bool.false_and]
    exact Nat.testBit_lt_two_pow (lt_of_lt_of_le hlt (Nat.pow_le_pow_right (by decide) (by omega)))

/-- The carries that `radd` keeps in T3 are those of binary addition. -/
theorem State.getLsbD_carryRow (ha : a.length = n) (hb : b.length = n) (he : e < 8192) (hi : i ≤ n) :
    ((s.carryRow a b i).getD (e / 8) 0).getLsbD (e % 8) =
      BitVec.carry i (BitVec.ofNat n (s.element a e)) (BitVec.ofNat n (s.element b e)) false := by
  induction i with
  | zero =>
    rw [State.carryRow, BitVec.carry_zero, List.getD_replicate _ (show e / 8 < 1024 by omega)]
    exact BitVec.getLsbD_zero
  | succ i ih =>
    have hi' : i < n := hi
    rw [BitVec.carry_succ, ← ih (by omega), BitVec.getLsbD_ofNat, BitVec.getLsbD_ofNat, State.testBit_element (by omega),
      State.testBit_element (by omega), State.carryRow, rowsWith_getD _ _ _ _ (by omega)]
    simp [majority, hi']

/-- The exclusive or of the bits and the carry is the bit of the sum. -/
theorem State.getLsbD_sumRow (ha : a.length = n) (hb : b.length = n) (he : e < 8192) (hi : i < n) :
    ((rowsWith (fun x y c => x ^^^ y ^^^ c) (s.bytes (a.getD i 0) 1024) (s.bytes (b.getD i 0) 1024) (s.carryRow a b i)).getD
      (e / 8) 0).getLsbD (e % 8) = (s.element a e + s.element b e).testBit i := by
  have hsum := BitVec.getLsbD_add hi (BitVec.ofNat n (s.element a e)) (BitVec.ofNat n (s.element b e))
  rw [← BitVec.ofNat_add, BitVec.getLsbD_ofNat, BitVec.getLsbD_ofNat, BitVec.getLsbD_ofNat, decide_eq_true hi, Bool.true_and, Bool.true_and,
    Bool.true_and] at hsum
  rw [hsum, ← State.getLsbD_carryRow ha hb he hi.le, State.testBit_element (by omega), State.testBit_element (by omega),
    rowsWith_getD _ _ _ _ (by omega), BitVec.getLsbD_xor, BitVec.getLsbD_xor, Bool.xor_assoc]

end

/-! ## Rows and elements of a result (R202, R205) -/

section
variable {s t : State} {r : RowOp} {i j e n : Nat}

theorem State.RowsWritten.byte {d : List Nat} {f : Nat → List Byte} (h : s.RowsWritten d f n t) (hi : i < n) (hj : j < 1024) :
    t.byte (d.getD i 0 + j) = (f i).getD j 0 := by
  rw [← h.rows i hi, State.bytes_getD _ _ _ hj]

/-- The bytes of a row that is copied, cleared, complemented or set to the majority. -/
theorem RowOp.resultRow_getD (hj : j < 1024) :
    let z := (r.resultRow s i).getD j 0
    let x := s.byte (r.a.getD i 0 + j)
    let y := s.byte (r.b.getD i 0 + j)
    let d := s.byte (r.d.getD i 0 + j)
    (r.op = 0 ∨ r.op = 6 → z = x) ∧ (r.op = 1 → z = 0) ∧ (r.op = 3 → z = ~~~x) ∧
      (r.op = 2 → z = (x &&& y) ||| (x &&& d) ||| (y &&& d)) := by
  intro z x y d
  have hx : (s.bytes (r.a.getD i 0) 1024).getD j 0 = x := s.bytes_getD _ _ hj
  have hy : (s.bytes (r.b.getD i 0) 1024).getD j 0 = y := s.bytes_getD _ _ hj
  have hd : (s.bytes (r.d.getD i 0) 1024).getD j 0 = d := s.bytes_getD _ _ hj
  refine ⟨?_, fun h => ?_, fun h => ?_, fun h => ?_⟩
  · rintro (h | h) <;> simp only [z, RowOp.resultRow, h, hx]
  · simp only [z, RowOp.resultRow, h, List.getD_replicate _ hj]
  · have hlen : j < (s.bytes (r.a.getD i 0) 1024).length := by rwa [State.bytes_length]
    rw [← hx, List.getD_eq_getElem _ _ hlen]
    simp only [z, RowOp.resultRow, h]
    rw [List.getD_eq_getElem _ _ (by rwa [List.length_map]), List.getElem_map]
  · simp only [z, RowOp.resultRow, h, rowsWith_getD _ _ _ _ hj, hx, hy, hd, majority]

theorem State.element_sum (h : s.RowsWritten r.d (r.resultRow s) r.d.length t) (h4 : r.op = 4) (ha : r.a.length = r.d.length)
    (hb : r.b.length = r.d.length) (he : e < 8192) : t.element r.d e = (s.element r.a e + s.element r.b e) % 2 ^ r.d.length :=
  h.element fun i hi => by
    simp only [RowOp.resultRow, h4]
    exact State.getLsbD_sumRow ha hb he hi

theorem State.element_product (h : s.RowsWritten r.d (r.resultRow s) r.d.length t) (h5 : r.op = 5) (he : e < 8192) :
    t.element r.d e = s.element r.a e * s.element r.b e % 2 ^ r.d.length :=
  h.element fun i _ => by
    simp only [RowOp.resultRow, h5]
    rw [testBit_verticalRow _ _ he]
    simp [List.getD_eq_getElem?_getD, he]

end

/-! ## The end (R204) -/

section
variable {s : State} {bank gd la : Nat} {r : RowOp}

/-- The operation has its effect, the bank unit is free for the next, and its slot goes on. -/
theorem State.rowDone_ends (hr : (s.bank bank).rowop = some r) (ha : (s.slot r.slot).await = some (.rowop gd la)) :
    (s.rowDone bank).mem = (s.rowEffect r).mem ∧ ((s.rowDone bank).bank bank).rowop = none ∧
      ((s.rowDone bank).slot r.slot).await = none ∧ ((s.rowDone bank).slot r.slot).pc = (s.slot r.slot).pc + 4 := by
  unfold State.rowDone
  split
  · next h => exact absurd (hr.symm.trans h) (Option.some_ne_none r)
  next r' h =>
  obtain rfl : r = r' := Option.some.inj (hr.symm.trans h)
  extract_lets u
  have hmem : u.mem = (s.rowEffect r).mem := rfl
  have hrowop : (u.bank bank).rowop = none := congrArg Bank.rowop (State.bank_onBank_same ..)
  have hslot : u.slot r.slot = s.slot r.slot := State.slot_of_slots (s := s) (s.rowEffect_slots r) r.slot
  clear_value u
  have hawait : (u.slot r.slot).rowAwait = some (gd, la) := by rw [hslot, Slot.rowAwait, ha]
  split
  · next h => exact absurd (hawait.symm.trans h) (Option.some_ne_none _)
  next gd' la' h =>
  obtain ⟨rfl, rfl⟩ : gd = gd' ∧ la = la' := by simpa using hawait.symm.trans h
  extract_lets t
  have hmem' : t.mem = u.mem := by rw [State.writeReg_mem, State.onSlot_mem]
  have hbank' : t.bank bank = u.bank bank := by rw [State.bank_writeReg, State.bank_onSlot]
  have hslot' : (t.slot r.slot).await = none ∧ (t.slot r.slot).pc = (s.slot r.slot).pc := by
    rw [State.slot_writeReg, if_pos rfl, State.slot_onSlot_same, hslot, Slot.setReg]
    split <;> exact ⟨rfl, rfl⟩
  clear_value t
  have hend := ({ t with cur := r.slot } : State).retire_slot la r.slot
  rw [if_pos rfl] at hend
  refine ⟨?_, ?_, ?_, ?_⟩
  · exact (State.retire_mem ..).trans (hmem'.trans hmem)
  · have hbank : (({ t with cur := r.slot } : State).retire la).bank bank = t.bank bank := by
      rw [State.bank, State.retire_banks]
      rfl
    exact (congrArg Bank.rowop (hbank.trans hbank')).trans hrowop
  · exact (congrArg Slot.await hend).trans hslot'.1
  · exact (congrArg Slot.pc hend).trans (congrArg (· + 4) hslot'.2)

end

end Sys2Proof.Machine
end

section
/-! Row operations of a bank unit (R199-R205). -/

namespace Sys2Proof.Machine

open Sys2Proof

/-- Settles O51: the checks lead to `State.rowBegun` or to the status (`execRowop_ready`); at the end the rows written are those of
`RowOp.resultRow`, whose bits make the elements of a sum or a product. -/
theorem rowOperationsRun : Obligations.RowOperationsRun := by
  unfold Obligations.RowOperationsRun
  refine ⟨?_, ?_⟩
  · intro s la gd gs1 gs2 ds as_ bs u1 u2 u3 hlevel hword hdest hsource hwritable hexact w op n two names hop hw hn hcd hca hcb
      hds has hbs hplaced hwrites hreads halone hsound d a b hclean
    have hbits : op = bits w 3 0 := by simp [op, bits]
    have htwo : rowReadsB op = true ↔ two := rowReadsB_iff op
    have hok : s.RowopAllowed gd gs1 gs2 := {
      level := hlevel, word := hword, dest := hdest, source := hsource, writable := hwritable, unmarked := hexact
      wordOk := rowWordOk_of (hbits ▸ hop) hw (hbits ▸ hn)
      coversD := Reg.coversRows_of hcd
      coversA := Reg.coversRows_of hca
      sourceB := fun hc => by
        obtain ⟨h0, h31, hread, hcovers⟩ := hcb (htwo.mp (hbits ▸ hc))
        exact ⟨h0, h31, hread, Reg.coversRows_of hcovers⟩ }
    have hf : s.FindsRows gs1 gs2 op n ds as_ bs u1 u2 u3 := ⟨hds, has, by simpa only [htwo] using hbs⟩
    have hr : u3.RowsReady s.cur op ds as_ bs :=
      ⟨hplaced, hwrites, hreads, halone, hsound, by simpa only [rowsEaten, Bool.and_eq_true, decide_eq_true_eq] using hclean⟩
    have hexec := execRowop_ready (la := la) hok hbits hf hr
    have hcur := hf.cur
    split
    · next hst =>
      exact ⟨_, _, hexec.trans (congrArg _ (if_pos hst)), hcur ▸ u3.rowBegun_rowop .., rfl, rfl, rfl, rfl, rfl, u3.rowBegun_await ..,
        u3.rowBegun_mem .., hcur ▸ u3.mem_agenda_rowBegun ..⟩
    · next hst => exact ⟨_, hexec.trans (congrArg _ (if_neg hst)), u3.wrote_retire ..⟩
  · intro s bank gd la r hin hr ha hnodup halign hne hop hsrc
    have hrows := State.rowEffect_rowsWritten (s := s) (RowOp.ordered hnodup halign hsrc)
    obtain ⟨hmem, hrowop, hawait, hpc⟩ := State.rowDone_ends hr ha
    have hdone : s.RowsWritten r.d (r.resultRow s) r.d.length (s.rowDone bank) := hrows.of_mem hmem
    refine ⟨_, ?_, hrowop, hawait, hpc, fun pa hpa => hdone.others pa fun i hi => ?_, fun i hi j hj => ?_, ?_⟩
    · show execRowOpComplete s = _
      rw [execRowOpComplete, hin]
    · rw [List.getD_eq_getElem _ _ hi]
      exact hpa _ (List.getElem_mem hi)
    · rw [hdone.byte hi hj]
      exact RowOp.resultRow_getD hj
    · intro elem e he
      have helem (v : State) (l : List Nat) : elem v l e = v.element l e :=
        (sum_bits_eq_element v l he 0).trans (by rw [pow_zero, Nat.one_mul])
      rw [helem, helem, helem]
      refine ⟨fun h4 => ?_, fun h5 => State.element_product hdone h5 he⟩
      obtain ⟨ha, hb, -⟩ := hsrc (by omega)
      exact State.element_sum hdone h4 (ha (by omega)) (hb (.inr h4)) he

end Sys2Proof.Machine
end
